-- ==== Sys2Proof/Word.lean ====
section
/-! DEFINITION. The byte and the byte string: the units of every structure the host, the fabric and the cards see (R4). -/

namespace Sys2Proof

/-- One byte of a structure, message, key or frame. -/
abbrev Byte := BitVec 8

/-- A byte string, byte 0 first. -/
abbrev Bytes := List Byte

end Sys2Proof
end

