-- ==== Sys2Proof/Syntax.lean ====
section
/-! DEFINITION. The commands of the block: one constructor of Instr per row of spec/opcode_table.json, in the table's order, with the
operands the outside world supplies (an address, a value, the data a read returned, the outcome of a measurement). -/

namespace Sys2Proof

/-- Privilege of a Serow access (RISC-V modes, R441). -/
inductive Priv where
  | user | supervisor | machine
deriving DecidableEq, Repr

/-- The two Serow worlds. -/
inductive World where
  | tw | ow
deriving DecidableEq, Repr

/-- The path a register write arrives by: a host BAR access, or a Serow core through the internal map (R593). -/
inductive Via where
  | bar0 | bar2 | bar4
  | serow (core : Nat) (priv : Priv)
deriving DecidableEq, Repr

/-- Who carries a command packet: a host mailbox by number (R352), a gate slot (R374), a custodian card port (R393). -/
inductive Caller where
  | mbx (n : Nat)
  | gate (g : Nat)
  | card (p : Nat)
deriving DecidableEq, Repr

/-- A block with Staged fields and a COMMIT bit of its own (the admission tables have their own row). -/
inductive StagedBlk where
  | dist
  | port (p : Nat)
deriving DecidableEq, Repr

/-- What took the host link down (R80, the error table of the host port). -/
inductive LinkLossKind where
  | lost | hotReset | secondaryBusReset | uncorrectableInternal
deriving DecidableEq, Repr

/-- Which of a descriptor's reads a completion answers; `dest` and `out2w` name its destination and OUT2 writes, of which only a
failed translation can arrive (R61, DETAIL 3 and 4). -/
inductive DmaPart where
  | source (seg : Nat)
  | aux
  | out2
  | dest
  | out2w
deriving DecidableEq, Repr

/-- The outcome of a DMA read (R61, R70): data, or the fault with its address. -/
inductive DmaResult where
  | ok (data : Bytes)
  | poisoned (addr : Nat)
  | unsupported (addr : Nat)
  | aborted (addr : Nat)
  | noTranslation (addr : Nat)
  | notAdmitted (addr : Nat)
deriving DecidableEq, Repr

/-- What arrives from host memory for the entry at SQ_HEAD: the entry, its extension entry, its scatter lists, the blob header,
and the faults of those reads (R135, R152, R336). -/
structure Arrival where
  entry : Bytes
  ext : Bytes
  srcList : Bytes
  dstList : Bytes
  hdr : Bytes
  entryFault : Option Nat
  listFault : Option Nat
  hdrFault : Option Nat
deriving DecidableEq, Repr

/-- What one window measured on one channel: the sum of compute times of its entries in picoseconds, that of paced operations apart
(R158, R263), and the speed its monitor measured (R258). -/
structure ChMeas where
  ch : Nat
  computePs : Nat
  monitor : Nat
deriving DecidableEq, Repr

/-- A die-to-die link that failed its check (R13). -/
inductive LaneFault where
  | laneGroup (ch : Nat)
  | dieA
  | dieB
deriving DecidableEq, Repr

/-- The fault behind CHANNEL_FENCE (R174). -/
inductive FenceCause where
  | laneGroup | dieBridge | integrity
deriving DecidableEq, Repr

/-- The unit an integrity code failed in (R467). -/
inductive FaultUnit where
  | channel (ch : Nat)
  | world (w : World)
  | vaultLink
  | hostPort (ctx : Nat) (part : DmaPart) (addr : Nat)
deriving DecidableEq, Repr

/-- Type of a Serow access (R441). -/
inductive AccessType where
  | read | write | execute
deriving DecidableEq, Repr

/-- The kinds of host flash transaction the gate tells apart (R407, R414). -/
inductive FlashOp where
  | read | program | erase | writeStatus
deriving DecidableEq, Repr

/-- The two MCTP bindings (R83) and the DOE path of SPDM (R422). -/
inductive Transport where
  | doe | mctpI3c | mctpVdm
deriving DecidableEq, Repr

/-- The MCTP message kinds the device serves (R83). -/
inductive MctpMsg where
  | control | pldmBase | pldmMonitor | pldmUpdate | other
deriving DecidableEq, Repr

/-- The SPDM requests of R422, and any other. -/
inductive SpdmReq where
  | getVersion | getCapabilities | negotiateAlgorithms
  | getDigests (slot : Nat)
  | getCertificate (slot : Nat)
  | challenge (slot : Nat)
  | getMeasurements (index : Nat) (signed : Bool)
  | keyExchange
  | finish | heartbeat | keyUpdate
  | endSession
  | chunkSend | chunkGet
  | unsupported
deriving DecidableEq, Repr

/-- What the boot ROM and Tahr find at main supplies good (R402, R405, R462, R573). -/
structure BootInfo where
  gateMode : Nat
  dir : Bytes
  copies : List Bytes
  rootDigestOk : Bool
  cellA : Bool
  cellB : Bool
  vaultLinkOk : Bool
deriving DecidableEq, Repr

/-- One flash region as a measurement found it: its contents, or none on a flash error (R411). -/
abbrev RegionRead := Option Bytes

/-- What a restart of a world reads (R437, R440, R442): the digest measured over its image, and the copies of the image in flash. -/
structure RestartRead where
  measured : Bytes
  copies : List Bytes
deriving DecidableEq, Repr

/-- A noise bank and the raw bits it gives in a phase of its start (R286, R290). -/
structure BankBits where
  bank : Nat
  raw : Bytes
deriving DecidableEq, Repr

/-- What a gate measurement read: the main regions and manifest, then the recovery regions and manifest (R411, R413). -/
structure GateRead where
  regions : List RegionRead
  manifest : Option Bytes
  recRegions : List RegionRead
  recManifest : Option Bytes
  measureMs : Nat
deriving DecidableEq, Repr

/-- A debug-port request after its framing (R454): the bits before CHECK and the CHECK received. -/
structure DbgReq where
  space : Nat
  size : Nat
  addr : Nat
  data : BitVec 64
  check : Byte
deriving DecidableEq, Repr

/-- The parameters a LINK_INIT frame carries, with the peer's role and domain as HELLO will announce them (R502, R507, R525). -/
structure PeerInit where
  kind : Nat
  dev : Nat
  width : Nat
  credits : List Nat
  sessionId : Nat
  retained : Bool
  keyPhase : Bool
  crcOk : Bool
  role : Nat
  domainId : Bytes
deriving DecidableEq, Repr

/-- The peer's AUTH frames (R510, R511): its certificate chain, the whole exchange both ends sign, its Alias signature, and the secrets the
exchange left: ECDH's, and ML-KEM's of the ciphertext this end made and of the one it received. -/
structure PeerAuth where
  crcOk : Bool
  chain : Bytes
  exchange : Bytes
  sig : Bytes
  ecdh : Bytes
  kemOwn : Bytes
  kemPeer : Bytes
deriving DecidableEq, Repr

/-- A transaction-unit header (R527). -/
structure UnitHdr where
  utype : Nat
  hops : Nat
  dst : Nat
  src : Nat
  bodyLen : Nat
  xid : Nat
  part : Nat
  partCount : Nat
  reserved : Bool
deriving DecidableEq, Repr

/-- A received frame: header fields (R516), whether its tag verified, and the unit headers of a DATA payload. -/
structure Frame where
  vc : Nat
  keyPhase : Bool
  nak : Bool
  len : Nat
  seq : Nat
  ack : Nat
  credits : List Nat
  txCtrLo : Nat
  reserved : Bool
  tagOk : Bool
  units : List UnitHdr
  pwr : Option Nat
deriving DecidableEq, Repr

/-- A domain change (R532). -/
inductive ChangeKind where
  | dkNew (dk domainId : Bytes)
  | dkStage (version : Nat) (dk : Bytes)
  | dkActivate (version : Nat)
  | dkeyPut (slot : Nat) (attrs material : Bytes)
  | dkeyDel (slot : Nat)
  | dkeyPolicy (slot : Nat) (usage modes : Nat)
  | param (level1 : List Nat) (remoteTimeoutMs : Nat)
deriving DecidableEq, Repr

/-- A change with its term and serial (R532). -/
structure Change where
  term : Nat
  serial : Nat
  kind : ChangeKind
  committed : Bool
deriving DecidableEq, Repr

/-- A domain slot in a snapshot: slot, last change serial, attributes, material (R538, R540). -/
structure SnapSlot where
  slot : Nat
  serial : Nat
  attrs : Bytes
  material : Bytes
deriving DecidableEq, Repr

/-- A domain key table entry in a snapshot: version, state, lifecycle code, DK (R319, R540). -/
structure SnapDk where
  version : Nat
  state : Nat
  lc : Nat
  dk : Bytes
deriving DecidableEq, Repr

/-- What a SYNC unit carries: changes, or a snapshot (R540). -/
inductive SyncBody where
  | changes (cs : List Change)
  | snapshot (term serial : Nat) (domainId : Bytes) (dks : List SnapDk) (slots : List SnapSlot) (level1 : List Nat) (remoteTimeoutMs : Nat)
deriving DecidableEq, Repr

/-- A spilled or remote descriptor as it travels: no host address, PASID or key material (R180, R542). -/
structure WorkReq where
  xid : Nat
  origin : Nat
  entry : Bytes
  source : Bytes
  aux : Bytes
  out2 : Bytes
  slot : Option Nat
  serial : Nat
deriving DecidableEq, Repr

/-- The result of spilled or remote work (R180, R542). -/
structure WorkResult where
  xid : Nat
  status : Nat
  detail : Nat
  bytes : Nat
  result : Nat
  paceGrew : Bool
  output : Bytes
  out2 : Bytes
deriving DecidableEq, Repr

/-- The wake sources of R567. -/
inductive WakeSource where
  | hostLink | fabric | wakePin | internal
deriving DecidableEq, Repr

/-- The commands of the block, in the order of spec/opcode_table.json, but that those without operands stand last: a compiled program numbers
no more than 245 constructors with operands. -/
inductive Instr where
  | registerWrite (via : Via) (off : Nat) (data : Bytes)
  | stagedCommitApply (blk : StagedBlk)
  | hostLinkTrained (speed width : Nat) (flit : Bool)
  | linkLoss (kind : LinkLossKind)
  | tlpAck (count : Nat)
  | atsInvalidate (tag : Nat) (pasid : Option Nat) (page pages : Nat)
  | atsInvalidateComplete (tag : Nat)
  | dmaReadCompletion (ctx : Nat) (part : DmaPart) (r : DmaResult)
  | dmaCompletionTimeout (ctx : Nat) (part : DmaPart) (addr : Nat)
  | barAccessRefused (bar off len : Nat) (write : Bool)
  | hpErrStatusClear (bits : BitVec 6)
  | mask (entry : Nat) (value : Bool)
  | mctpRequest (t : Transport) (m : MctpMsg) (body : Bytes)
  | pldmActivateFirmware (img : Bytes)
  | spdmRequest (t : Transport) (r : SpdmReq)
  | sqTail (slice rp value : Nat)
  | cqHead (slice rp value : Nat)
  | restart (slice rp : Nat)
  | descriptorArrival (slice rp : Nat) (a : Arrival)
  | descriptorAdmit (slice rp : Nat)
  | blobUnwrap (ctx : Nat) (blob : Option Bytes)
  | entryIssue (ctx : Nat) (tagOk : Bool)
  | nop (ctx : Nat)
  | encrypt (ctx : Nat)
  | decrypt (ctx : Nat)
  | wrap (ctx : Nat)
  | unwrap (ctx : Nat)
  | digest (ctx : Nat)
  | keyedDigest (ctx : Nat)
  | crc (ctx : Nat)
  | random (ctx : Nat)
  | rsaPublic (ctx : Nat)
  | rsaPrivate (ctx : Nat)
  | rsaSignPss (ctx : Nat)
  | rsaSignPkcs1 (ctx : Nat)
  | rsaVerifyPss (ctx : Nat)
  | rsaVerifyPkcs1 (ctx : Nat)
  | rsaDecryptOaep (ctx : Nat)
  | rsaEncryptOaep (ctx : Nat)
  | ecdsaSign (ctx : Nat)
  | ecdsaVerify (ctx : Nat)
  | ecdh (ctx : Nat)
  | eddsaSign (ctx : Nat)
  | eddsaVerify (ctx : Nat)
  | mlkemEncaps (ctx : Nat)
  | mlkemDecaps (ctx : Nat)
  | mldsaSign (ctx : Nat)
  | mldsaVerify (ctx : Nat)
  | modExp (ctx : Nat)
  | modMul (ctx : Nat)
  | modInv (ctx : Nat)
  | modReduce (ctx : Nat)
  | pkComputeEnd (ch elapsedNs : Nat)
  | pacerRelease (ch : Nat)
  | paceOverrun (ch : Nat)
  | pkWipeComplete (ch : Nat)
  | segmentComplete (ctx : Nat)
  | contextMove (ctx : Nat)
  | completionRecord (ctx : Nat) (cqFault : Option Nat)
  | chainAbandonTimeout (slice rp : Nat)
  | serviceWindowEnd (meas : List ChMeas)
  | opMinRaise (ch : Nat)
  | drainTimeout (ch : Nat)
  | drainComplete (ch : Nat)
  | laneGroupFail (f : LaneFault)
  | channelFence (ch : Nat) (cause : FenceCause)
  | scrubComplete (ch : Nat)
  | selftestComplete (ch : Nat) (katOk rateOk : Bool)
  | spillHoldExpire (slice rp port : Nat)
  | spillReq (port : Nat) (w : WorkReq)
  | spillResult (port : Nat) (w : WorkResult)
  | spillRefuse (port xid : Nat)
  | sessionOpen (ch s : Nat) (ctrl : BitVec 32)
  | sessionAbandon (ch s : Nat)
  | sessionSave (ch s : Nat)
  | sessionRestore (ch s : Nat)
  | sessionCompare (ch s : Nat)
  | feed (ch s : Nat) (data : Bytes)
  | lastCnt (ch s n : Nat)
  | crcValue (ch s : Nat) (value : BitVec 64)
  | sessionAbsorb (ch s : Nat)
  | mbxGo (m : Nat)
  | commandReply (c : Caller)
  | devInfo (c : Caller)
  | mgrChallenge (c : Caller)
  | mgrOpen (c : Caller)
  | mgrClose (c : Caller)
  | mgrCredSet (c : Caller)
  | devKeep (c : Caller)
  | devResume (c : Caller)
  | devResumeAlarm (c : Caller)
  | sliceCreate (c : Caller)
  | sliceModify (c : Caller)
  | sliceQuiesce (c : Caller)
  | sliceQuiesceDone (slice : Nat)
  | sliceResume (c : Caller)
  | sliceReset (c : Caller)
  | sliceRemove (c : Caller)
  | sliceFenceEnd (slice : Nat)
  | sliceQuery (c : Caller)
  | ringArm (c : Caller)
  | ringDisarm (c : Caller)
  | ringQuery (c : Caller)
  | chFence (c : Caller)
  | chReturn (c : Caller)
  | rngReseed (c : Caller)
  | rngPersonalise (c : Caller)
  | rngRecover (c : Caller)
  | rngSelftest (c : Caller)
  | rngRawCapture (c : Caller)
  | keyGenerate (c : Caller)
  | keyImportWrapped (c : Caller)
  | keyImportClear (c : Caller)
  | keyExportWrapped (c : Caller)
  | keyExportPublic (c : Caller)
  | keySaveBlob (c : Caller)
  | keyLoadBlob (c : Caller)
  | keyDerive (c : Caller)
  | keyDelete (c : Caller)
  | keySetPolicy (c : Caller)
  | keyQuery (c : Caller)
  | keysetGet (c : Caller)
  | keysetSet (c : Caller)
  | lcPersonalise (c : Caller)
  | lcTransition (c : Caller)
  | importAssemblyTimeout (m : Nat)
  | keySweep (bad : List (Nat × Nat × Nat))
  | quorumChallenge (c : Caller)
  | quorumApprove (c : Caller)
  | custodianEnrol (c : Caller)
  | custodianRemove (c : Caller)
  | quorumSet (c : Caller)
  | cellWindowOpen (c : Caller)
  | cellWindowClose (c : Caller)
  | zeroise (c : Caller)
  | cardInsert (p : Nat)
  | cardResponse (p sw : Nat) (data : Bytes)
  | cardTimeout (p : Nat)
  | cardRemove (p : Nat)
  | identityGet (c : Caller)
  | measurementsGet (c : Caller)
  | bootRecordGet (c : Caller)
  | imagePolicySet (c : Caller)
  | gateVerdict (g : GateRead)
  | hostFlashAccess (flash addr len : Nat) (op : FlashOp)
  | erRead (c : Caller)
  | erClear (c : Caller)
  | tamperStatus (c : Caller)
  | tamperConfig (c : Caller)
  | fabStatus (c : Caller)
  | fabRoleSet (c : Caller)
  | dkCreate (c : Caller)
  | dkRollover (c : Caller)
  | dkStatus (c : Caller)
  | pwrDomainSet (c : Caller)
  | pwrStatus (c : Caller)
  | fwUpdate (c : Caller)
  | mcUpdate (c : Caller)
  | owUpdate (c : Caller)
  | worldStatus (c : Caller)
  | extensionCommand (m : Nat)
  | extensionReply (m status detail : Nat) (body : Bytes)
  | extensionTimeout (m : Nat)
  | call (g : Nat)
  | mcChannelUpdateStep (ch : Nat) (image : Bytes) (katOk oldKatOk : Bool)
  | imageFlashWrite (kind : Nat) (readBackOk : Bool)
  | service (core : Nat)
  | fatal (core : Nat)
  | watchdogExpire (core : Nat)
  | serowMemoryError (w : World)
  | twRestartComplete (r : RestartRead)
  | owRestartComplete (r : RestartRead)
  | serowAccess (core : Nat) (priv : Priv) (t : AccessType) (addr : Nat) (data : Bytes)
  | admCommit (w : World)
  | admCommitApply (w : World)
  | dbgStatus (r : DbgReq)
  | dbgRead (r : DbgReq)
  | dbgWrite (r : DbgReq)
  | portReset (r : DbgReq)
  | tamperEvent (src scope : Nat) (persists : Bool)
  | sourceRearm (src : Nat)
  | throttleEnd (src : Nat)
  | fenceEnd (src : Nat)
  | loopReading (clean : BitVec 8)
  | cellArm (cell : Nat)
  | cellLow (cell : Nat)
  | integrityFail (u : FaultUnit)
  | fwNoteRequest (w : World) (body : Bytes)
  | erAck (value : Nat)
  | pwrFailAssert (droop : Bool)
  | mainSuppliesGood (b : BootInfo)
  | bankWarmupEnd (d : BankBits)
  | bankStartupTestPass (d : BankBits)
  | bankBlock (bank : Nat) (raw : Bytes)
  | healthTestFail (d : BankBits) (count : Nat)
  | drbgInstantiate (inst : Nat)
  | drbgReseed (inst : Nat)
  | drawRequest (w : World) (len : Nat) (pr : Bool)
  | go (w : World)
  | en (port : Nat) (value : Bool)
  | retrain (port : Nat)
  | fpSignalDetect (port : Nat)
  | fpTrainComplete (port : Nat) (lanes : BitVec 4)
  | linkInit (port : Nat) (i : PeerInit)
  | auth (port : Nat) (a : PeerAuth)
  | data (port : Nat) (f : Frame)
  | ctrl (port : Nat) (f : Frame)
  | keyUpdate (port : Nat) (f : Frame)
  | keyUpdateDue (port : Nat)
  | retryTimeout (port : Nat)
  | nakTimer (port : Nat)
  | ackTimer (port : Nat)
  | fabricWake (port : Nat)
  | hello (port role dev : Nat) (domainId identity : Bytes) (term applied level : Nat) (holder : Bool)
  | route (port : Nat) (added : List (Nat × Bool)) (withdrawn : List Nat)
  | beat (port term lead commitSerial : Nat)
  | beatAck (port dev term : Nat)
  | voteReq (port term applied : Nat)
  | vote (port dev term : Nat) (pending : Option Change)
  | change (port : Nat) (c : Change)
  | commit (port term serial : Nat)
  | changeAck (port serial : Nat) (devs : List Nat)
  | syncReq (port src serial : Nat)
  | sync (port : Nat) (b : SyncBody)
  | remoteReq (port : Nat) (w : WorkReq)
  | remoteResult (port : Nat) (w : WorkResult)
  | remoteRefuse (port xid : Nat)
  | remoteTimeout (xid : Nat)
  | record (port src : Nat) (recs : List Bytes)
  | recordAck (port seq : Nat)
  | sleepEntry (d : Nat)
  | deepEntry (d : Nat)
  | domainWake (d : Nat) (src : WakeSource)
  | domainExitDone (d : Nat)
  | wakePin (inWindow : Bool)
  | regulatorSettled (g mv : Nat)
  | regulatorFault (g mv : Nat)
  | regulatorPoll (g mv ma : Nat)
  | cellInRange (cell : Nat)
  | rocChange (junctionOk vhuOk railsOk : Bool)
  | hostLinkPmChange (pm : Nat)
  | msixTableWrite (vector addr data : Nat) (masked : Bool)
  | aggHead (value : Nat)
  | dbgBusAccessComplete (ok : Bool) (data : BitVec 64)
  | selftestSettleTimeout (ch : Nat)
  | spillPathLoss (port : Nat)
  | cardSupplyShort (p : Nat)
  | fpInitRetry (port : Nat)
  | authRetry (port : Nat)
  | laneMarginFail (port lane : Nat)
  | fecUncorrectableLimit (port : Nat)
  | regulatorRetry (g mv : Nat)
  | linkReturn
  | functionLevelReset
  | perstAssert
  | perstRelease
  | d3hotEntry
  | d0Return
  | keyEpochAdvance
  | challengeExpire
  | cellWindowExpire
  | bootRecordWrite
  | fwTrialEnd
  | bypass
  | idcode
  | samplePreload
  | extest
  | clamp
  | highz
  | vaultLinkFail
  | erFlushTimer
  | erFlushDone
  | erLostRecover
  | pwrFailRelease
  | sysPwrgdLow
  | ready
  | beatTimer
  | leaseExpire
  | voteTimeout
  | dkActivateIssue
  | partitionTimeout
  | offEntry
deriving DecidableEq, Repr

end Sys2Proof
end

