-- ==== Sys2Proof/Config.lean ====
section
/-! DEFINITION. The fixed sizes of stepping B0, and the values the spec leaves to other standards or leaves open. A standard's
primitive (AES, SHA-2, ECDSA ...) is named here and not computed: the spec references the algorithms by their standards and
does not teach them (00_scope.md). Each stands as an opaque function with no body, so a proof holds whatever it is. -/

namespace Sys2Proof

/-- The primitives the device takes from a referenced standard. The argument lists are given where each is used. -/
inductive Prim where
  | cipherState | cipherOut | cipherTag
  | xtsUnit
  | aesBlock
  | keyWrap | keyUnwrap
  | shaInit (func : Nat)
  | shaBlock (func : Nat)
  | shaFinal (func : Nat)
  | hashDf
  | drbgSeed
  | drbgOut
  | drbgNext
  | gcmSeal | gcmOpen
  | cmac
  | ecPublic (curve : Nat)
  | ecdsaSign (curve : Nat)
  | ecdh (curve : Nat)
  | eddsaPublic (curve : Nat)
  | eddsaSign (curve : Nat)
  | mlkemPublic (set : Nat)
  | mlkemCiphertext (set : Nat)
  | mlkemSecret (set : Nat)
  | mlkemDecaps (set : Nat)
  | mldsaPublic (set : Nat)
  | mldsaSign (set : Nat)
  | rsaKeygen
  | scalarKeygen (curve : Nat)
  | deviceId
  | aliasCert
deriving DecidableEq, Repr

/-- The yes-or-no checks the device takes from a referenced standard. -/
inductive Check where
  | gcmTag | wrapIntegrity
  | ecdsaVerify (curve : Nat)
  | eddsaVerify (curve : Nat)
  | mldsaVerify (set : Nat)
  | onCurve (curve : Nat)
  | eddsaKeyDecodes (curve : Nat)
  | eddsaSigDecodes (curve : Nat)
  | mlkemModulus (set : Nat)
  | mldsaKeyDecodes (set : Nat)
  | mldsaHints (set : Nat)
  | mldsaAccepts (set : Nat)
  | ecdhInfinity (curve : Nat)
  | returnAuth
  | certChain
deriving DecidableEq, Repr

/-- Byte i of a primitive's output on its arguments. FREE: the standards give it, the spec does not. -/
opaque Config.primByte : Prim → List Bytes → Nat → Byte

/-- The verdict of a standard's check on its arguments. FREE: the standards give it, the spec does not. -/
opaque Config.primCheck : Check → List Bytes → Bool

/-- The base pace B, in quanta, of an image version for an operation, its CURVE or parameter set, its class, an operating point and, for
MLDSA_SIGN, a part (0 the setup, 1 an attempt) (R252, R281, R623): not published, FREE. -/
opaque Config.basePace : (version op set cls point part : Nat) → Nat

/-- An image version lists an operation (R252, R253): FREE. -/
opaque Config.mcLists : (version op : Nat) → Bool

/-- The slowest engine speed the pace table of an image version assumes for an operating point, in the monitor's own unit (R258): FREE. -/
opaque Config.slowestSpeed : (version point : Nat) → Nat

/-- The nominal time in picoseconds of a measured or blinded public-key operation with a CURVE or parameter set and class for which the
rate table of R283 has no row (R158, R623): FREE. -/
opaque Config.nominalPk : (op set cls : Nat) → Nat

/-- The field prime and the group order of a CURVE (R271, R277): constants of the curve's standard. -/
opaque Config.curveP : Nat → Nat
/-- The group order of a CURVE. -/
opaque Config.curveN : Nat → Nat

/-- A fresh undefined byte: the value of an output byte the spec calls undefined (R139). -/
opaque Config.freeByte : (draw index : Nat) → Byte

/-- An identity of the die fixed at manufacture: the UDS (R399), FREE. -/
opaque Config.uds : Bytes

/-- The SHA-384 of the boot ROM (R399, SPDM index 1), FREE. -/
opaque Config.bootRomDigest : Bytes

/-- A certificate chain of Agorpen's hierarchy (R399, R422), of a slot, over the keys and measurements it certifies: FREE. -/
opaque Config.certChain : (slot : Nat) → List Bytes → Bytes

/-- The Alias public key and the lifecycle code of the DICE TCB Info that a certificate chain certifies (R399, R510): FREE. -/
opaque Config.certKey : (chain : Bytes) → Bytes
/-- As `certKey`, the lifecycle code. -/
opaque Config.certLc : (chain : Bytes) → Nat

/-- The Agorpen image keys the boot ROM knows by their digests (R580), by algorithm, FREE. -/
opaque Config.agorpenKey : (alg : Nat) → Bytes

/-- The extension table of an open-world body (R372): opcode, authority, limit in ms. Its layout is not given: FREE. -/
opaque Config.extensionTable : Bytes → List (Nat × Nat × Nat)

/-- The host address an access to the outbound window reaches, from its offset in the window: not given, FREE. -/
opaque Config.outboundAddr : Nat → Nat

/-- The offset in the host port's outbound window at which channel DMA toward a host address is checked (R26): not given, FREE. -/
opaque Config.windowOffset : Nat → Nat

/-- The row of the key SRAM that the device maps a place to (R322): kind 0 to 2 a slot of that scope, 3 a slice master key, 4 a staging row;
its slice; its slot, or blob address and position. The device's choice, FREE. -/
opaque Config.keyRow : (kind slice a b : Nat) → Nat

/-- The slot numbers that stand in the integrity tags of staging rows and of slice master keys, which no handle names (R322, R331): FREE. -/
opaque Config.stagingSlot : (slice addr pos : Nat) → Nat
/-- As `stagingSlot`, for a slice master key. -/
opaque Config.smkSlot : Nat → Nat
/-- The attributes in the row of a slice's master key (R325): not given, FREE. -/
opaque Config.smkAttrs : Nat → Bytes

/-- The resource that raises a platform interrupt source (R431): 0 to 3 the block of that core, 4 digest session 1, 5 a resource of the trusted
world, any other number one of the open world. The spec lists no sources: FREE. -/
opaque Config.irqResource : Nat → Nat
/-- A platform interrupt source is pending, at the k-th observation: FREE. -/
opaque Config.irqPending : (source k : Nat) → Bool
/-- A performance counter of a core when the assignment of a name froze it (R434), by CSR number: FREE. -/
opaque Config.counterAt : (core csr name : Nat) → BitVec 64
/-- Ticks of a core's machine timer up to an uptime (R434): its rate is not given, FREE. -/
opaque Config.timerTicks : (core uptimeMs : Nat) → Nat
/-- The boot ROM's bytes (R593): FREE. -/
opaque Config.bootRom : Nat → Byte

/-- Agorpen's PCI-SIG vendor ID (R56): not given, FREE. -/
opaque Config.vendorId : BitVec 16

/-- The endpoint's UUID (R83): not given, FREE. -/
opaque Config.mctpUuid : Bytes

/-- The MCTP version entries the endpoint reports (R83): not given, FREE. -/
opaque Config.mctpVersions : Bytes

/-- The PLDM answer to a request body over what the sensors and states read (R83): its standards give it, FREE. -/
opaque Config.pldmAnswer : (body sensors : Bytes) → Bytes

/-- n bytes of a primitive's output. -/
def Config.prim (p : Prim) (args : List Bytes) (n : Nat) : Bytes :=
  (List.range n).map (Config.primByte p args)

namespace Config

/-- Device ID (R56). -/ def deviceId : Nat := 0x1600
/-- Revision ID for stepping B0 (R56). -/ def revisionId : Nat := 0xB0
/-- Class code: encryption/decryption controller, other (R56). -/ def classCode : Nat := 0x108000
/-- Header type: type 0, single function (R56). -/ def headerType : Nat := 0
/-- Entries of the ATS translation cache (the capability table). -/ def atsEntries : Nat := 4096
/-- Channels (R12). -/ def channels : Nat := 36
/-- Slices (R88). -/ def slices : Nat := 4096
/-- Ring pairs of the pool (R91). -/ def poolRings : Nat := 32768
/-- Slice interrupt entries of the pool (R91). -/ def poolInts : Nat := 8192
/-- Key SRAM slots of the slice pool (R91). -/ def poolKeys : Nat := 253952
/-- Weight pool (R91). -/ def poolWeight : Nat := 65536
/-- DRBG share pool (R91). -/ def poolDrbg : Nat := 65536
/-- Exclusive channels of the pool (R91). -/ def poolExcl : Nat := 28
/-- Segment bytes (R162). -/ def segment : Nat := 65536
/-- Held-decryption limit (R199). -/ def heldMax : Nat := 524288
/-- Hold pool bytes (R198). -/ def holdPool : Nat := 786432
/-- Entropy buffer blocks (R288). -/ def entropyBlocks : Nat := 64
/-- Wait list of a generator instance (R305). -/ def waitList : Nat := 64
/-- Reseed counter limit (R295). -/ def maxCalls : Nat := 16777216
/-- Log records (R489). -/ def logRecords : Nat := 245760
/-- Event recorder buffer entries (R492). -/ def erBuffer : Nat := 8192
/-- Records that start a flush (R490). -/ def flushAt : Nat := 256
/-- Tahr record buffer entries (R479). -/ def tahrBuffer : Nat := 64
/-- Places for running commands, and of them for slice mailboxes (R356). -/ def places : Nat := 8
/-- Places slice mailboxes may take (R356). -/ def slicePlaces : Nat := 6
/-- Key-cache slots of a channel (16 commands of R348). -/ def cacheSlots : Nat := 2048
/-- Context-store entries of a channel (R164). -/ def ctxStore : Nat := 256
/-- Resident digest contexts (R219). -/ def digestCtxs : Nat := 16
/-- PK queue entries (R242). -/ def pkQueue : Nat := 4
/-- Staging rows (R322). -/ def stagingRows : Nat := 2048
/-- First number of manager mailboxes (R352). -/ def mgrMailbox : Nat := 4096
/-- Host mailboxes (R352). -/ def mailboxes : Nat := 4112

end Config

end Sys2Proof
end

