-- ==== Sys2Proof/Machine/Bits.lean ====
section
/-! DEFINITION. Byte strings: little- and big-endian integers (R4), zero-padded fields, natural alignment (R360), exclusive-or, and
the bit-serial CRC of the usual parameter model (R231). Lists kept to a
length, and in rising order of a key. -/

namespace Sys2Proof.Machine

/-- The n low bytes of v, least significant first. -/
def leBytes : Nat → Nat → Bytes
  | 0, _ => []
  | n + 1, v => BitVec.ofNat 8 v :: leBytes n (v / 256)

/-- The value of a little-endian byte string. -/
def ofLe : Bytes → Nat
  | [] => 0
  | b :: bs => b.toNat + 256 * ofLe bs

/-- The n low bytes of v, most significant first. -/
def beBytes (n v : Nat) : Bytes := (leBytes n v).reverse

/-- The value of a big-endian byte string. -/
def ofBe (b : Bytes) : Nat := ofLe b.reverse

/-- n zero bytes. -/
def zeros (n : Nat) : Bytes := List.replicate n 0

/-- The first n bytes, zeros standing for bytes past the end. -/
def padTo (n : Nat) (b : Bytes) : Bytes := b.take n ++ zeros (n - b.length)

/-- n bytes from offset off, zeros standing for bytes past the end. -/
def sub (b : Bytes) (off n : Nat) : Bytes := padTo n (b.drop off)

/-- The little-endian integer of n bytes at offset off. -/
def fieldLe (b : Bytes) (off n : Nat) : Nat := ofLe (sub b off n)

/-- b with the bytes of v written at offset off; b is first padded with zeros to reach off. -/
def putAt (b : Bytes) (off : Nat) (v : Bytes) : Bytes := padTo off b ++ v ++ b.drop (off + v.length)

/-- Bitwise exclusive-or of two byte strings, as long as the shorter. -/
def xorBytes (a b : Bytes) : Bytes := List.zipWith (· ^^^ ·) a b

/-- A byte is not zero. -/
def anySet (b : Bytes) : Bool := b.any (· != 0)

/-- Bits [hi:lo] of v. -/
def bits (v lo n : Nat) : Nat := v / 2 ^ lo % 2 ^ n

/-- Bit i of v. -/
def bit (v i : Nat) : Bool := v / 2 ^ i % 2 == 1

/-- 1 for true. -/
def b2n (b : Bool) : Nat := if b then 1 else 0

/-- The ASCII bytes of a string. -/
def ascii (t : String) : Bytes := t.toList.map fun c => BitVec.ofNat 8 c.toNat

/-- A value saturating below 2^w. -/
def sat (w v : Nat) : Nat := if v < 2 ^ w then v else 2 ^ w - 1

/-- off rounded up to a multiple of n. -/
def alignUp (off n : Nat) : Nat := if n = 0 then off else (off + n - 1) / n * n

/-! ### Fields laid out in order (R360) -/

/-- A parameter: an integer of 1, 2, 4 or 8 bytes, a byte string, an array of integers. -/
inductive Fld where
  | int (n : Nat)
  | str (n : Nat)
  | arr (elem count : Nat)
deriving DecidableEq, Repr

/-- Bytes of a parameter. -/
def Fld.size : Fld → Nat
  | .int n => n | .str n => n | .arr e c => e * c

/-- The alignment of a parameter (R360): an integer's and an array element's size; 8 for a byte string longer than 8 bytes. -/
def Fld.align : Fld → Nat
  | .int n => n | .str n => if 8 < n then 8 else 1 | .arr e _ => e

/-- The offset of each parameter, from an offset on. -/
def offsets : Nat → List Fld → List Nat
  | _, [] => []
  | o, f :: fs => alignUp o f.align :: offsets (alignUp o f.align + f.size) fs

/-- The end of the parameters. -/
def layoutEnd : Nat → List Fld → Nat
  | o, [] => o
  | o, f :: fs => layoutEnd (alignUp o f.align + f.size) fs

/-- The bytes from `o` on that no parameter covers, up to the end `e`, as (offset, length). -/
def layoutGaps : Nat → Nat → List Fld → List (Nat × Nat)
  | e, o, [] => [(o, e - o)]
  | e, o, f :: fs => (o, alignUp o f.align - o) :: layoutGaps e (alignUp o f.align + f.size) fs

/-- Values laid out (R360, R624): skipped bytes are zero. -/
def layBytes (l : List (Fld × Bytes)) : Bytes :=
  l.foldl (fun b (f, v) => padTo (alignUp b.length f.align) b ++ padTo f.size v) []

/-- Integers laid out, as (size, value). -/
def layInts (l : List (Nat × Nat)) : Bytes := layBytes (l.map fun p => (.int p.1, leBytes p.1 p.2))

/-- Packed little-endian fields (size, value), as event record bodies hold them (R487). -/
def pack (fs : List (Nat × Nat)) : Bytes := fs.flatMap fun (n, v) => leBytes n v

/-! ### CRC -/

/-- The parameters of a CRC (R229, R230). -/
structure CrcParams where
  width : Nat
  poly : Nat
  init : Nat
  refin : Bool
  refout : Bool
  finalInv : Bool
deriving DecidableEq, Repr

/-- One bit through the register of a width-w CRC. -/
def crcBit (w poly reg : Nat) (b : Bool) : Nat :=
  if bit reg (w - 1) != b then (reg * 2 % 2 ^ w) ^^^ poly else reg * 2 % 2 ^ w

/-- The bits of a byte in the order they enter: most significant first, or least significant first when reflected. -/
def byteBits (refl : Bool) (b : Byte) : List Bool :=
  let l := [7, 6, 5, 4, 3, 2, 1, 0].map fun i => bit b.toNat i
  if refl then l.reverse else l

/-- The running value after the bytes of b (R231: unreflected orientation). -/
def crcRun (p : CrcParams) (reg : Nat) (b : Bytes) : Nat :=
  b.foldl (fun r x => (byteBits p.refin x).foldl (crcBit p.width p.poly) r) reg

/-- The low w bits of v in reverse order. -/
def reflect : Nat → Nat → Nat
  | 0, _ => 0
  | w + 1, v => v % 2 * 2 ^ w + reflect w (v / 2)

/-- The final value of a running value (R231). -/
def crcFinal (p : CrcParams) (reg : Nat) : Nat :=
  let r := if p.refout then reflect p.width reg else reg
  if p.finalInv then 2 ^ p.width - 1 - r else r

/-- The presets 1 to 13 of R230; `none` for any other number. -/
def crcPreset : Nat → Option CrcParams
  | 1 => some ⟨32, 0x04C11DB7, 0xFFFFFFFF, true, true, true⟩
  | 2 => some ⟨32, 0x1EDC6F41, 0xFFFFFFFF, true, true, true⟩
  | 3 => some ⟨32, 0x04C11DB7, 0xFFFFFFFF, false, false, true⟩
  | 4 => some ⟨32, 0x04C11DB7, 0xFFFFFFFF, false, false, false⟩
  | 5 => some ⟨16, 0x1021, 0xFFFF, false, false, false⟩
  | 6 => some ⟨16, 0x1021, 0x0000, true, true, false⟩
  | 7 => some ⟨16, 0x8005, 0x0000, true, true, false⟩
  | 8 => some ⟨16, 0x8BB7, 0x0000, false, false, false⟩
  | 9 => some ⟨64, 0x42F0E1EBA9EA3693, 0xFFFFFFFFFFFFFFFF, true, true, true⟩
  | 10 => some ⟨64, 0x42F0E1EBA9EA3693, 0, false, false, false⟩
  | 11 => some ⟨8, 0x07, 0x00, false, false, false⟩
  | 12 => some ⟨24, 0x864CFB, 0xB704CE, false, false, false⟩
  | 13 => some ⟨5, 0x05, 0x1F, true, true, true⟩
  | _ => none

/-- CRC-32C of a byte string (PRESET 2). -/
def crc32c (b : Bytes) : Nat :=
  let p : CrcParams := ⟨32, 0x1EDC6F41, 0xFFFFFFFF, true, true, true⟩
  crcFinal p (crcRun p p.init b)

/-- The last n elements of a list. -/
def newest {α : Type} (n : Nat) : List α → List α
  | [] => []
  | x :: l => if l.length < n then x :: l else newest n l

/-! ### Keyed lists -/

/-- x put into a list kept in rising order of key, replacing an element of the same key. -/
def upsert {α : Type} (key : α → Nat) (x : α) : List α → List α
  | [] => [x]
  | y :: ys =>
    if key x < key y then x :: y :: ys
    else if key x = key y then x :: ys
    else y :: upsert key x ys

/-- The value an association list holds for a key, or the default. -/
def assocD {β : Type} (l : List (Nat × β)) (k : Nat) (d : β) : β :=
  match l.find? (fun p => p.1 == k) with
  | some p => p.2
  | none => d

/-- An association list with one value set. -/
def assocSet {β : Type} (l : List (Nat × β)) (k : Nat) (v : β) : List (Nat × β) :=
  upsert Prod.fst (k, v) l

end Sys2Proof.Machine
end

