-- ==== Sys2Proof/Machine/State.lean ====
section
/-! DEFINITION. The state of the block as plain data: every register, queue, buffer, counter, mode and pin the spec gives it, in
groups, and the queue of waiting commands. Each field's comment reads: what it is | width | file and rule | reset (a "DC" or
"PR" there names the assumption-log entry that chose the value). -/

namespace Sys2Proof.Machine

/-- Why a step stops. Both are raised by SEROW_ACCESS alone, on an admitted access to a block whose layout the spec leaves out (R593): the device goes on, the model stops, which is safe. -/
inductive Fault where
  /-- Raised by SEROW_ACCESS: the block at 0x0000_1700_0000 (mailbox engine, key-push control, custody relay, flash-side port), whose layouts
  "are not documented" (R593). Safe. -/
  | undocumentedTrustedBlock (addr : Nat)
  /-- Raised by SEROW_ACCESS: the MCTP and PLDM engines at 0x0000_1600_0000. Safe. -/
  | undocumentedManagementBlock (addr : Nat)
deriving DecidableEq, Repr

/-- Why a command has no meaning. -/
inductive Refusal where
  /-- Raised by an arm of exec whose command has no meaning yet; no arm raises it. Safe. -/
  | notModelled (mnemonic : String)
deriving DecidableEq, Repr

/-! ### Codes -/

/-- Status codes (R11). -/
inductive Status where
  | done | doneDeferredAuth | aborted | quiesced | lengthMismatch | descMalformed | dmaFault | inputRange | notOnCurve
  | authFail | verifyFail | keyAbsent | keySlotBad | keyPolicy | notReady | rngFailed | powerHeld | poweredDown | sliceBusy
  | quota | cfgHeld | quorumMissing | challengeStale | roleDenied | deviceKeep | internal
deriving DecidableEq, Repr

/-- Device modes (the mode table, R30). -/
inductive Mode where
  | full | reduced | keep | zeroised
deriving DecidableEq, Repr

/-- Lifecycle states (R310, R351). -/
inductive Lc where
  | blank | development | production | returned | retired
deriving DecidableEq, Repr

/-- Slice states (R88). -/
inductive SliceState where
  | free | active | quiescing | quiesced | fenced
deriving DecidableEq, Repr

/-- Channel states (the channel health table, R184). -/
inductive ChState where
  | service | slow | draining | scrub | selftest | failed
deriving DecidableEq, Repr

/-- Microcode states (R251, R253, R255). -/
inductive McState where
  | active | updating | loadFailed | empty
deriving DecidableEq, Repr

/-- Generator instance states (R309). -/
inductive GenState where
  | unseeded | seeded | stretched | stalled | failed
deriving DecidableEq, Repr

/-- Entropy source states (R309). -/
inductive SourceState where
  | off | startup | service | recovery | failed
deriving DecidableEq, Repr

/-- Noise bank states (R309). -/
inductive BankState where
  | off | warmup | test | service | setAside | retired | capture
deriving DecidableEq, Repr

/-- Boot gate states (R427). -/
inductive GateState where
  | measuring | opened | rejected | hostReset | locked
deriving DecidableEq, Repr

/-- Fabric port states (R523). -/
inductive PortState where
  | down | train | align | auth | up
deriving DecidableEq, Repr

/-- Power states (R571). -/
inductive PState where
  | run | idle | sleep | deep | off
deriving DecidableEq, Repr

/-- Mailbox and gate-slot states (R354, R376). -/
inductive MbxState where
  | idle | submitted | running | replied
deriving DecidableEq, Repr

/-! ### What the device sends -/

/-- A transmitted TLP: a data write, a completion record, a slice interrupt message, an MSI-X message, the completion of a host read
(its data, or none for a Completer Abort, R65). -/
inductive Out where
  | write (pasid : Option Nat) (addr : Nat) (data : Bytes)
  | record (ctx slice rp slot pasid addr : Nat) (data : Bytes)
  | sliceMsg (entry addr msg : Nat)
  | msix (vector addr msg : Nat)
  | completion (bar off : Nat) (data : Option Bytes)
deriving DecidableEq, Repr

/-- A unit handed to a fabric port for transmission (R528), with what it carries. -/
inductive UnitOut where
  | hello
  | route (added : List (Nat × Bool)) (withdrawn : List Nat)
  | beat (term lead serial : Nat)
  | beatAck (term : Nat)
  | voteReq (term applied : Nat)
  | vote (term : Nat) (pending : Option Change)
  | change (c : Change)
  | commit (term serial : Nat)
  | changeAck (serial : Nat) (devs : List Nat)
  | syncReq (dst serial : Nat)
  | sync (dst : Nat) (b : SyncBody)
  | spillReq (w : WorkReq)
  | spillResult (w : WorkResult)
  | spillRefuse (xid : Nat)
  | remoteReq (dst : Nat) (w : WorkReq)
  | remoteResult (dst : Nat) (w : WorkResult)
  | remoteRefuse (dst xid : Nat)
  | recordUp (dst : Nat) (recs : List Bytes)
  | recordAck (dst seq : Nat)
  | forwarded (h : UnitHdr)
deriving DecidableEq, Repr

/-! ### Keys -/

/-- Where a row of the key SRAM stands, as its integrity tag covers it (R331): a slot of a scope, a staging row of a slice's blob, a slice
master key. -/
inductive RowPlace where
  | slot (scope slice slot : Nat)
  | staging (slice addr pos : Nat)
  | smk (slice : Nat)
deriving DecidableEq, Repr

/-- A row's integrity tag as stored (R325, R331): the CMAC the tag engine made under a SIK over place, material and attributes, or the bytes a
core's write left. -/
inductive RowTag where
  | made (sik : Bytes) (place : RowPlace) (material attrs : Bytes)
  | raw (b : Bytes)
deriving DecidableEq, Repr

/-- A key: the run of rows that hold it (R324 to R327), with the tag of each row (R331) and the attributes of rows a core's write has made
other than the run's. -/
structure Key where
  scope : Nat
  slice : Nat
  slot : Nat
  rows : Nat
  cls : Nat
  param : Nat
  len : Nat
  material : Bytes
  origin : Nat
  anySlice : Bool
  usage : BitVec 32
  modes : BitVec 16
  dkVersion : Nat
  keyId : Nat
  created : Nat
  bad : Bool
  shadow : Bool
  serial : Nat
  tags : List RowTag := []
  oddAttrs : List (Nat × Bytes) := []
deriving DecidableEq, Repr

/-- A staged blob key (R336, R337). -/
structure Staged where
  slice : Nat
  inst : Nat
  blobAddr : Nat
  tag : Bytes
  epoch : Nat
  key : Key
deriving DecidableEq, Repr

/-- What a key-cache entry was filled from (R347). -/
inductive KeyRef where
  | slot (scope slice inst slot : Nat)
  | staged (slice inst blobAddr : Nat) (tag : Bytes)
deriving DecidableEq, Repr

/-- A key-cache entry (R347). -/
structure CacheEntry where
  ref : KeyRef
  epoch : Nat
  generation : Nat
  key : Key
  /-- invalidated (R345): only a descriptor context of a lower id, admitted before, may still use it -/
  stale : Option Nat
deriving DecidableEq, Repr

/-- A domain key table entry (R319); the DK stands in its place in the clear, the wrapping being the root store's. -/
structure DkEntry where
  version : Nat
  state : Nat
  lc : Nat
  domainId : Bytes
  createdSeq : Nat
  dk : Bytes
deriving DecidableEq, Repr

/-! ### Descriptors -/

/-- A scatter entry (R133). -/
structure Sg where
  addr : Nat
  len : Nat
deriving DecidableEq, Repr

/-- A work descriptor (R130) with its extension (R132). -/
structure Desc where
  opcode : Nat
  variant : Nat
  srcCount : Nat
  dstCount : Nat
  keyHandle : Nat
  srcAddr : Nat
  dstAddr : Nat
  length : Nat
  order : Bool
  chainNext : Bool
  ext : Bool
  auxLen : Nat
  auxAddr : Nat
  out2Addr : Nat
  inline : Bytes
  reservedSet : Bool
  blobAddr : Nat
  extReservedSet : Bool
deriving DecidableEq, Repr

/-- A descriptor that has arrived and stands at SQ_HEAD (R135): `addr` and `pasid` are those of the ring read that brought it (R121),
`listFault` the address at which a read of its lists faulted (R152). -/
structure Fetched where
  addr : Nat
  pasid : Nat
  desc : Desc
  src : List Sg
  dst : List Sg
  listBad : Bool
  listFault : Option Nat
  hdr : Bytes
  hdrFault : Option Nat
deriving DecidableEq, Repr

/-- A read left outstanding by a context that ended or runs again (R88, R115): its PASID and the address ranges it reads. -/
structure Orphan where
  ctx : Nat
  part : DmaPart
  slice : Nat
  pasid : Nat
  spans : List (Nat × Nat)
deriving DecidableEq, Repr

/-- An ATS invalidation not yet completed (R62): its range of pages, and the reads that used a translation in it. -/
structure AtsPend where
  tag : Nat
  pasid : Option Nat
  page : Nat
  pages : Nat
  waits : List (Nat × DmaPart)
deriving DecidableEq, Repr

/-- Where a descriptor context stands between admission and its record. -/
inductive Phase where
  /-- admitted; its next entry may be issued, or stands in its channel's fetch queue when it has a home and none has begun -/
  | ready
  /-- admitted and waiting for the trusted world to open its blob (R25) -/
  | waitBlob
  /-- its draw waits on a generator (R305) -/
  | waitDraw
  /-- entries issued to the home channel -/
  | issued
  /-- its PK_OP runs on the big-number engine -/
  | pkRunning
  /-- sent to a fabric neighbour (R180) -/
  | spilled (port xid : Nat)
  /-- sent to a domain-key holder (R542) -/
  | remote (holder tried : Nat)
  /-- its completion record may be written -/
  | finished
deriving DecidableEq, Repr

/-- Whose work a context is (R250). -/
inductive Owner where
  | slice
  | spilledIn (port xid origin : Nat)
  | remoteIn (port xid origin : Nat)
deriving DecidableEq, Repr

/-- An issued entry: segment number, its place in the order of issue (R166), its source once read, and whether the unit has run it. -/
structure Seg where
  k : Nat
  turn : Nat
  data : Option Bytes
  ran : Bool
deriving DecidableEq, Repr

/-- Chain state of a ring pair: the chain-context memory entry of R167 and the rules of R146 to R148. `openSince` is the uptime at
which the chain became open; while the slice is not ACTIVE it is the part of the 1 s already run (R148). -/
structure Chain where
  opcode : Nat
  variant : Nat
  keyHandle : Nat
  sum : Nat
  image : Bytes
  crcRun : BitVec 64
  iv : Bytes
  inline : Bytes
  auxLen : Nat
  expected : Bytes
  failed : Bool
  abandoned : Bool
  openSince : Option Nat
deriving DecidableEq, Repr

/-- A descriptor context (R135): the device's own copy of an admitted descriptor, and its progress. `outBuf` and
`out2Buf` hold the output of work done for another device (R180, R542); `key` is the copy its key check took from the channel's key cache; `chain0` the chain as it stood when the link was admitted, which it
imports and, run again, starts from (R167); `pkBlinded` its slice's PK_BLINDED at its admission (R90); `queued` the place in the order of issue of
its first entry, while that stands in its home channel's fetch queue and holds a credit (R31, R157). -/
structure Ctx where
  id : Nat
  owner : Owner
  slice : Nat
  inst : Nat
  rp : Nat
  sqIndex : Nat
  pasid : Nat
  desc : Desc
  src : List Sg
  dst : List Sg
  hdr : Bytes
  epoch : Nat
  phase : Phase
  home : Option Nat
  segs : List Seg
  nextSeg : Nat
  image : Bytes
  crcRun : BitVec 64
  aux : Option Bytes
  out2In : Option Bytes
  reads : List DmaPart
  iv : Bytes
  held : Bytes
  outBuf : Bytes
  out2Buf : Bytes
  key : Option Key
  inChain : Bool
  firstLink : Bool
  chain0 : Option Chain
  pkBlinded : Bool
  queued : Option Nat
  runs : Nat
  rerun : Bool
  priority : Bool
  spilledRec : Bool
  paceGrew : Bool
  executed : Bool
  status : Status
  detail : Nat
  bytes : Nat
  result : BitVec 64
deriving DecidableEq, Repr

/-- A ring pair (R120, R126). -/
structure RingPair where
  armed : Bool := false                 -- ARMED | 1 | 05 R126 | 0
  sqBase : Nat := 0                     -- submission ring base | 64 | 05 R121 | 0 (no address held while disarmed, R124)
  cqBase : Nat := 0                     -- completion ring base | 64 | 05 R121 | 0
  sqLog2 : Nat := 0                     -- SQ_LOG2 | 5 | 05 R126 | 0
  cqLog2 : Nat := 0                     -- CQ_LOG2 | 5 | 05 R126 | 0
  sqHead : Nat := 0                     -- SQ_HEAD | 16 | 05 R126 | 0
  sqTail : Nat := 0                     -- SQ_TAIL | 16 | 05 R126 | 0
  cqHead : Nat := 0                     -- CQ_HEAD | 16 | 05 R126 | 0
  cqTail : Nat := 0                     -- CQ_TAIL | 16 | 05 R126 | 0
  phase : Bool := true                  -- PHASE | 1 | 05 R126, R141 | 1
  irqEn : Bool := false                 -- IRQ_EN | 1 | 05 R126 | 0
  stopped : Bool := false               -- STOPPED | 1 | 05 R126, R152 | 0
  stopCause : Nat := 0                  -- STOP_CAUSE | 4 | 05 R126 | 0
  dbRange : Bool := false               -- DB_RANGE | 1 | 05 R126, R127 | 0
  faultAddr : Nat := 0                  -- FAULT_ADDR | 64 | 05 R126 | 0
  fetched : Option Fetched := none      -- the distributor's fetched entry | - | 05 R135 | none
  chain : Option Chain := none          -- chain-context memory entry: the chain the next descriptor is a link of | 512 bytes | 06 R167, 05 R146 | none
deriving DecidableEq, Repr

/-- A slice table entry (R88) with what hangs on the slice. -/
structure Slice where
  num : Nat := 0                        -- slice number | 12 | 04 R88 | index
  state : SliceState := .free           -- STATE | 3 | 04 R88 | 0
  partition : Bool := false             -- PARTITION | 1 | 04 R88 | 0
  pkBlinded : Bool := false             -- PK_BLINDED | 1 | 04 R88 | 0
  partDegraded : Bool := false          -- PART_DEGRADED | 1 | 04 R88, R98 | 0
  flush : Bool := false                 -- FLUSH in force on a quiesce (FLUSHING) | 1 | 04 R88, R105, R620 | 0
  inst : Nat := 0                       -- INSTANCE | 16 | 04 R88 | 0
  pasid : Nat := 0                      -- PASID | 20 | 04 R88 | 0
  rpCount : Nat := 0                    -- RP_COUNT | 7 | 04 R88 | 0
  keyQuota : Nat := 0                   -- KEY_QUOTA | 18 | 04 R88 | 0
  weight : Nat := 0                     -- WEIGHT | 13 | 04 R88 | 0
  spillOk : Bool := false               -- SPILL_OK | 1 | 04 R88 | 0
  drbgShare : Nat := 0                  -- DRBG_SHARE | 17 | 04 R88 | 0
  exclMask : BitVec 36 := 0             -- EXCL_MASK | 36 | 04 R88 | 0
  completed : Nat := 0                  -- COMPLETED | 64 | 04 R88 | 0
  ints : List Nat := []                 -- the slice's interrupt entries in slice-index order (INT_COUNT) | 13 each | 04 R88, R621 | empty
  assign : List (Option Nat) := []      -- assignment of R621, slice entry index per ring pair | 8 each | 04 R621 | empty
  keyset : Bytes := []                  -- keyset | 32 bytes | 12 R320 | none
  smk : Option Bytes := none            -- slice master key row | 32 bytes | 12 R320 | none
  smkBad : Bool := false                -- BAD mark of the slice master key row | 1 | 12 R333 | 0
  smkTag : RowTag := .raw []            -- integrity tag of the slice master key row | 16 bytes | 12 R325, R331 | none
  deficit : Nat := 0                    -- deficit-round-robin allowance | - | 06 R161 | 0
  lastRp : Nat := 0                     -- ring pair served last | 6 | 06 R161 | 0
  rings : List RingPair := []           -- ring pairs 0 to RP_COUNT - 1 | - | 05 R120 | empty
deriving DecidableEq, Repr

/-- A slice interrupt table entry (the entry layout of the host port, R67). -/
structure IntEntry where
  addr : Nat := 0                       -- MSG_ADDR | 62 | 03 R67 | 0
  msg : Nat := 0                        -- MSG_DATA | 32 | 03 R67 | 0
  mask : Bool := true                   -- MASK | 1 | 03 R68 | 1
  pending : Bool := false               -- PENDING | 1 | 03 R68 | 0
  owner : Nat := 0                      -- OWNER | 12 | 03 R67 | 0
  allocated : Bool := false             -- ALLOCATED | 1 | 03 R67 | 0
deriving DecidableEq, Repr

/-! ### Channels -/

/-- A resident digest context (R219): its owner, a descriptor context or a session. -/
inductive DigestOwner where
  | ctx (id : Nat)
  | session (s : Nat)
deriving DecidableEq, Repr

/-- A register-fed session (R236). -/
structure Session where
  isOpen : Bool := false                -- OPEN | 1 | 08 R236 | 0
  engineCrc : Bool := false             -- ENGINE | 1 | 08 R236 | 0
  func : Nat := 0                       -- FUNC | 4 | 08 R236 | 0
  outLen : Nat := 0                     -- OUT_LEN | 7 | 08 R236 | 0
  declLen : Nat := 0                    -- DECL_LEN | 64 | 08 R236 | 0
  fed : Nat := 0                        -- FED | 64 | 08 R236 | 0
  status : Status := .done              -- STATUS | 8 | 08 R236 | 0 (DONE)
  busy : Bool := false                  -- BUSY | 1 | 08 R236 | 0
  resultValid : Bool := false           -- RESULT_VALID | 1 | 08 R236 | 0
  isMatch : Bool := false               -- MATCH | 1 | 08 R236 | 0
  error : Bool := false                 -- ERROR | 1 | 08 R236 | 0
  lastData : BitVec 64 := 0             -- LAST_DATA | 64 | 08 R236 | 0
  crcWidth : Nat := 0                   -- CRC_WIDTH | 7 | 08 R236 | 0
  crcRefin : Bool := false              -- CRC_REFIN | 1 | 08 R236 | 0
  crcRefout : Bool := false             -- CRC_REFOUT | 1 | 08 R236 | 0
  crcFinalInv : Bool := false           -- CRC_FINAL_INV | 1 | 08 R236 | 0
  crcPoly : BitVec 64 := 0              -- CRC_POLY | 64 | 08 R236 | 0
  crcValue : BitVec 64 := 0             -- CRC_VALUE (running value) | 64 | 08 R236, R237 | 0
  cmpLen : Nat := 0                     -- CMP_LEN | 7 | 08 R236 | 0
  result : Bytes := []                  -- RESULT | 64 bytes | 08 R236 | 0
  cmp : Bytes := []                     -- CMP | 64 bytes | 08 R236 | 0
  image : Bytes := []                   -- IMAGE | 512 bytes | 08 R236 | 0
  context : Bytes := []                 -- its digest context, in the form of a save image | 392 bytes | 08 R219, R221 | empty
  waiting : Bytes := []                 -- input waiting in the bridge | - | 08 R235 | empty
deriving DecidableEq, Repr

/-- The running PK_OP between T0 and its wipe (R257 to R261, R281). -/
structure PkRun where
  ctx : Nat
  paced : Bool
  blinded : Bool
  b : Nat
  p : Nat
  part : Nat
  computed : Bool
  overrun : Bool
  realNs : Nat
  status : Status
  out : Bytes
  out2 : Bytes
  result : BitVec 64
  crtFault : Bool
  accepted : Bool
  wiping : Bool
deriving DecidableEq, Repr

/-- The owner of operand memory (R250). -/
inductive BnOwner where
  | slice (num inst : Nat)
  | tw
  | origin (dev : Nat)
deriving DecidableEq, Repr

/-- A channel's self-test (R175): not begun, waiting for OP_7 SETTLED, or running its tests. -/
inductive TestPhase where
  | none | settle | run
deriving DecidableEq, Repr

/-- A channel: distributor block, caches, digest contexts, sessions, big-number engine. -/
structure Channel where
  st : ChState := .selftest             -- STATE | 3 | 06 R184 block | 4
  heldSpare : Bool := false             -- HELD_SPARE | 1 | 06 R178 | 0
  spareWait : Bool := false             -- a released spare takes credit from the next window | 1 | 06 R178 | 0
  creditLimit : Nat := 0                -- CREDIT_LIMIT | 6 | 06 R159 | 0
  fences : List Nat := []               -- fences and drains with their uptime (FENCES_24H) | 2 shown | 06 R176 | empty
  svcRate : Nat := 0                    -- SVC_RATE | 11 | 06 R158 | 0
  generation : Nat := 0                 -- GENERATION | 32 | 06, 22 R577 | 0
  entriesDone : Nat := 0                -- ENTRIES_DONE | 64 | 06 | 0
  fenceCause : Nat := 0                 -- LAST_FENCE_CAUSE | 4 | 06 | 0
  slowMarks : Nat := 0                  -- SLOW_MARKS | 32 | 06 | 0
  lowWindows : Nat := 0                 -- consecutive windows below 60 % | - | 06 R169 | 0
  goodWindows : Nat := 0                -- consecutive windows at or above 60 % while SLOW | - | 06 R171 | 0
  slowSince : Nat := 0                  -- uptime of the SLOW mark | 64 | 06 R170, R172 | 0
  deferred : Bool := false              -- drain deferred under R173 | 1 | 06 R173 | 0
  cfHold : Bool := false                -- held by CH_FENCE until CH_RETURN | 1 | 06 R176, R184 | 0
  a2Hold : List Nat := []               -- A2 sources whose response fenced it | - | 17 R469 | empty
  winNominal : Nat := 0                 -- nominal time of entries finished in the window, ps | - | 06 R158 | 0
  winPaced : Nat := 0                   -- compute time of paced operations released in the window, ps | - | 09 R263 | 0
  winEntries : Nat := 0                 -- entries finished in the window | - | 06 R158 | 0
  highWindows : Nat := 0                -- windows with SVC_RATE at TARGET + 96 or above | - | 21 R562 | 0
  opMinAt : Nat := 0                    -- uptime OP_MIN was last raised | 64 | 06 R170 | 0
  entered : Bool := false               -- entered service within the running window | 1 | 06 R175 | 0
  targetChanged : Bool := false         -- TARGET changed since the last window | 1 | 21 R562 | 0
  test : TestPhase := .none             -- where the channel's self-test stands | - | 06 R175 | not begun
  powerUp : Bool := true                -- the self-test to come is that of the start-up | 1 | 22 step 8, R577 | 1
  testSince : Nat := 0                  -- uptime the self-test requested OP_7 | 64 | 06 R175 | 0
  cache : List CacheEntry := []         -- key cache, least recently used first | 2,048 slots | 12 R347, R348 | empty
  ctxStore : List Nat := []             -- context-store entries (descriptor context ids) | 256 | 06 R164 | empty
  digests : List DigestOwner := []      -- resident digest contexts, longest idle first | 16 | 08 R219, R220 | empty
  session0 : Session := {}              -- session 0 | - | 08 R234 | closed
  session1 : Session := {}              -- session 1 | - | 08 R234 | closed
  mcState : McState := .empty           -- MC_STATE | 2 | 09 | 3
  mcSvn : Nat := 0                      -- MC_SVN | 16 | 09 | 0
  mcTried : Bool := false               -- the load attempt of step 8 has been made | 1 | 22 step 8, R572 | 0
  mcVersion : Nat := 0                  -- MC_VERSION | 32 | 09 | 0
  mcDigest : Bytes := []                -- SHA-384 of the image in the store | 48 bytes | 09 R251 | empty
  mcImage : Bytes := []                 -- microcode store: the image | 32 KiB | 09 R251 | empty
  mcRecheck : Bool := false             -- its digest is checked again before the next operation (return from SLEEP or DEEP) | 1 | 09 R251 | 0
  speed : Nat := 0                      -- SPEED | 11 | 09 R258 | 0
  speedCap : Option Nat := none         -- SPEED limit after an overrun, until the window ends | - | 09 R261 | none
  lastExtra : Nat := 0                  -- LAST_EXTRA | 8 | 09 | 0
  lastGrew : Bool := false              -- the last paced operation's P exceeded B | 1 | 09 R262 | 0
  overruns : Nat := 0                   -- OVERRUNS | 16 | 09 R261 | 0
  pacedOps : Nat := 0                   -- PACED_OPS | 64 | 09 | 0
  blindedOps : Nat := 0                 -- BLINDED_OPS | 64 | 09 | 0
  measuredOps : Nat := 0                -- MEASURED_OPS | 64 | 09 | 0
  grewnOps : Nat := 0                   -- GREWN_OPS | 64 | 09 | 0
  pkRun : Option PkRun := none          -- running operation and pacer (RUNNING) | - | 09 R257 | none
  regKey : Bytes := []                  -- operand memory, KEY region (empty: zeros) | 16 KiB | 09 R245, R246 | zeros DC 6
  regIn : List (Nat × Bytes) := []      -- operand memory, INPUT_0 and INPUT_1 in use: descriptor context, its public inputs | 2 x 8 KiB | 09 R245, R247 | zeros DC 6
  regWork : Bytes := []                 -- operand memory, WORK region: the drawn values of the running operation | 24 KiB | 09 R245 | zeros DC 6
  regResult : Bytes := []               -- operand memory, RESULT region | 8 KiB | 09 R245 | zeros DC 6
  bnOwner : Option BnOwner := none      -- owner of operand memory | - | 09 R250 | none
deriving DecidableEq, Repr

/-! ### Random numbers -/

/-- A draw that waits on an instance (R305). -/
inductive Waiter where
  | ctx (id n : Nat)
  | port (w : World) (n : Nat) (pr : Bool)
  | cmd (c : Caller) (n : Nat) (pr : Bool)
  /-- the lifecycle root of a state's first start-up (R312) -/
  | root
deriving DecidableEq, Repr

/-- A CTR_DRBG instance (R295, R309). -/
structure Gen where
  st : GenState := .unseeded            -- STATE | 3 | 11 R309 | 0
  returned : Bool := false              -- its channel returned from SLEEP or DEEP: a reseed comes before its next call | 1 | 11 R297 | 0
  prPending : Bool := false             -- PR_PENDING | 1 | 11 R309 | 0
  waiting : List Waiter := []           -- wait list (WAITING) | 64 entries | 11 R305 | empty
  calls : Nat := 0                      -- CALLS | 25 | 11 R309 | 0
  reseeds : Nat := 0                    -- RESEEDS | 32 | 11 R309 | 0
  refused : Nat := 0                    -- REFUSED | 32 | 11 R309 | 0
  seed : Bytes := []                    -- internal state (key and V), updated by each generate call | 48 bytes | 11 R295 | empty
  interval : Nat := 16                  -- RESEED_LOG2 in force for the instance | 5 | 11 R309 | 16
  used : List (Nat × Nat) := []         -- bytes each slice drew from it in the window | - | 04 R95, 11 R301 | empty DC 91
deriving DecidableEq, Repr

/-- A noise bank (R309). -/
structure Bank where
  st : BankState := .off                -- STATE | 3 | 11 R309 | 0
  fails : List Nat := []                -- uptimes of counted failures (FAILS_1S) | 2 shown | 11 R292 | empty
  restarts : Nat := 0                   -- RESTARTS | 16 | 11 R309 | 0
  rctFails : Nat := 0                   -- RCT_FAILS | 32 | 11 R309 | 0
  aptFails : Nat := 0                   -- APT_FAILS | 32 | 11 R309 | 0
  blocks : Nat := 0                     -- BLOCKS | 32 | 11 R309 | 0
  retried : Bool := false               -- restarted once after being set aside | 1 | 11 R293 | 0
  lastBit : Bool := false               -- repetition count test: the last raw bit | 1 | 11 R289 | 0 DC 6
  run : Nat := 0                        -- repetition count test: identical bits so far | 6 | 11 R289 | 0 (no bit yet)
  captured : BankState := .off          -- the state a bank under raw capture had before it | 3 | 11 R293, R308 | 0
deriving DecidableEq, Repr

/-- The random number generation. -/
structure Rng where
  source : SourceState := .off          -- SOURCE | 3 | 11 R309 | 0
  banks : List Bank := List.replicate 4 {}  -- NB_0 to NB_3 | - | 11 R286 | OFF
  buffer : List Bytes := []             -- entropy buffer, oldest first (BUFFER) | 64 x 32 bytes | 11 R288 | empty
  fatalCount : Nat := 0                 -- FATAL_COUNT | 8 | 11 R309 | 0
  reseedLog2 : Nat := 16                -- RNG_CTRL.RESEED_LOG2 | 5 | 11 R309 | 16
  personal : Bytes := []                -- personalisation value | 32 bytes | 11 R296 | zero until first set
  cd0 : Gen := {}                       -- CD_0 | - | 11 R295 | UNSEEDED
  cd1 : Gen := {}                       -- CD_1 | - | 11 R295 | UNSEEDED
  gens : List Gen := List.replicate 36 {}   -- generators of CH_0 to CH_35 | - | 11 R295 | UNSEEDED
  due : List Nat := []                  -- instances whose reseed is due, oldest first | - | 11 R302 | empty
  prTurn : Nat := 37                    -- instance whose prediction-resistance reseed was served last | 6 | 11 R302 | 37 DC 9
  served : List (Caller × Bytes) := []  -- outputs delivered to waiting commands and not yet taken | - | 11 R299, R305 | empty
  prLast : Bool := false                -- the last alternating block went to a prediction-resistance reseed | 1 | 11 R302 | 0 DC 9
  selftest : List Nat := []             -- banks RNG_SELFTEST has still to restart | 4 | 11 R308 | empty
  captureLeft : Nat := 0                -- raw bits a capture still sends | 24 | 11 R308 | 0
  captureBank : Nat := 0                -- bank of the capture | 2 | 11 R308 | 0
  captureAddr : Nat := 0                -- next host address of the capture | 64 | 11 R308 | 0
deriving DecidableEq, Repr

/-! ### Commands -/

/-- What a command that takes time waits for. -/
inductive JobKind where
  | wait                                 -- for the moment a rule names; COMMAND_REPLY then finds the result in `reply`
  | draw                                 -- for its commit: it runs from its start at its reply (R102, R370), a waiting draw served (R305)
  -- for other slices' descriptors on the channels it claims (R97), and where the PASID changes for the fence and drain of the old one (R87)
  | channels (chs : BitVec 36) (slice : Nat) (ids : List Nat) (pasid : Bool)
  | dropCopies (scope slice slot : Nat) (delete : Bool)  -- for old key copies to be dropped (R345)
  | quiesce (slice : Nat)                -- SLICE_QUIESCE (R107)
  | fence (slice : Nat) (eraseKeys : Bool) -- the PASID fence (R115)
  | chFence (ch : Nat)                   -- CH_FENCE: drain or fence, then scrub
  | chReturn (ch : Nat)                  -- CH_RETURN: the self-test
  | reseed (mask : Nat)                  -- RNG_RESEED: instances still to reseed
  | recover                              -- RNG_RECOVER: CD_0 and CD_1
  | selftest                             -- RNG_SELFTEST: banks in turn
  | capture                              -- RNG_RAW_CAPTURE
  | change (serial : Nat)                -- a domain change until its commit (R533)
  | trial                                -- FW_UPDATE until the trial ends (R582)
  | owStart                              -- OW_UPDATE until the open world runs (R583)
  | settle (d : Nat)                     -- PWR_DOMAIN_SET until the regulator settles (R556)
  | extension                            -- an open-world extension (R372)
deriving DecidableEq, Repr

/-- A running command (R356): its caller, packet, the change it commits at its reply. -/
structure Job where
  caller : Caller
  opcode : Nat
  hdr : Bytes
  body : Bytes
  digest : Bytes
  kind : JobKind
  since : Nat
  challenge : Nat
  status : Status
  detail : Nat
  reply : Bytes
  obj : Nat
deriving DecidableEq, Repr

/-- A multi-part import or image under assembly in a mailbox (R344). -/
structure Assembly where
  opcode : Nat
  parts : List Bytes
  partCount : Nat
  challenge : Nat
  digest : Bytes
  at_ : Nat
deriving DecidableEq, Repr

/-- A host mailbox (R354). -/
structure Mailbox where
  num : Nat := 0                        -- mailbox number | 13 | 13 R352 | index
  hdr : Bytes := []                     -- command header area | 32 bytes | 13 R354 | 0 DC 6
  body : Bytes := []                    -- body area | 4 KiB | 13 R354 | 0 DC 6
  replyHdr : Bytes := []                -- reply header area | 32 bytes | 13 R354 | 0 DC 6
  intEn : Bool := false                 -- INT_EN | 1 | 13 R354 | 0
  intEntry : Nat := 0                   -- INT_ENTRY | 13 | 13 R354 | 0
  st : MbxState := .idle                -- STATE | 2 | 13 R354 | 0
  dropped : Bool := false               -- DROPPED | 1 | 13 R354 | 0
  session : Bool := false               -- SESSION | 1 | 13 R354 | 0
  accepted : Nat := 0                   -- ACCEPTED | 16 | 13 R354 | 0
  nonce : Option (Bytes × Nat) := none  -- manager challenge nonce and its uptime | 32 bytes | 13 R367 | none
  assembly : Option Assembly := none    -- import assembly (ASSEMBLING) | - | 12 R344 | none
  sealed : Option (Nat × Bytes) := none -- the blob a KEY_SAVE_BLOB of several parts sealed: its key, its bytes | - | 12 R344 | none
  discarded : Bool := false             -- an assembly was discarded and its next part replies ABORTED | 1 | 12 R344 | 0
deriving DecidableEq, Repr

/-- A gate slot (R376). -/
structure GateSlot where
  bufAddr : Nat := 0                    -- BUF_ADDR | 64 | 13 R376 | 0
  onBehalf : Nat := 0                   -- ON_BEHALF | 16 | 13 R376 | 0
  st : MbxState := .idle                -- STATE | 2 | 13 R376 | 0
  dropped : Bool := false               -- DROPPED | 1 | 13 R376 | 0
deriving DecidableEq, Repr

/-- An enrolled custodian (R377). -/
structure Custodian where
  alg : Nat := 0                        -- ALG | 8 | 14 R377 | 0
  key : Bytes := []                     -- PUBLIC_KEY | 96 or 1,952 bytes | 14 R377 | empty
  digest : Bytes := []                  -- KEY_DIGEST | 48 bytes | 14 R377 | empty
  label : Bytes := []                   -- LABEL | 16 bytes | 14 R377 | empty
  seq : Nat := 0                        -- ENROLLED_SEQ | 64 | 14 R377 | 0
deriving DecidableEq, Repr

/-- The live or last challenge (R382, R398). -/
structure Challenge where
  id : Nat := 0                         -- CHALLENGE_ID | 64 | 14 R398 | 0
  live : Bool := false                  -- LIVE | 1 | 14 R398 | 0
  mailbox : Nat := 0                    -- QUORUM_BIND.MAILBOX | 16 | 14 R398 | 0
  opcode : Nat := 0                     -- QUORUM_BIND.OPCODE | 16 | 14 R398 | 0
  digest : Bytes := []                  -- bound command digest | 48 bytes | 14 R384 | 0
  nonce : Bytes := []                   -- nonce | 32 bytes | 14 R382 | 0
  issued : Nat := 0                     -- uptime of issue (AGE_S) | 64 | 14 R383 | 0
  approved : BitVec 16 := 0             -- QUORUM_APPROVED.MASK (APPROVALS) | 16 | 14 R398 | 0
  m : Nat := 0                          -- M as it stood at issue | 5 | 14 R380 | 0
  enrolled : BitVec 16 := 0             -- indices enrolled at issue | 16 | 14 R380 | 0
  boundTo : Option Caller := none       -- command that consumed it, until its reply | - | 14 R388 | none
deriving DecidableEq, Repr

/-- The step a card port waits in (R391). -/
inductive CardStep where
  | none | select | identity | proposal | sign
deriving DecidableEq, Repr

/-- A custodian card port (R390, R398). -/
structure CardPort where
  present : Bool := false               -- PRESENT | 1 | 14 R398 | 0
  active : Bool := false                -- ACTIVE | 1 | 14 R398 | 0
  vcc : Bool := false                   -- CPn_VCC on | 1 | 24 R608 | 0
  lastIndex : Nat := 0                  -- LAST_INDEX | 4 | 14 R398 | 0
  lastStatus : Status := .done          -- LAST_STATUS | 8 | 14 R398 | 0
  step : CardStep := .none              -- APDU awaiting its answer | - | 14 R391 | none
  known : Bool := false                 -- the card has passed GET_IDENTITY | 1 | 14 R391 | 0
  askedId : Nat := 0                    -- challenge its approval was last asked for | 64 | 14 R392 | 0
  since : Nat := 0                      -- uptime the last APDU was sent | 64 | 14 R391 | 0
  apdu : Bytes := []                    -- data of the last APDU sent | - | 14 R391 | empty
  proposal : Option (Bytes × Bytes) := none -- the proposal's header and body while its challenge is live (PROPOSAL) | 4,128 bytes | 14 R393 | none
  asked : Option Bytes := none          -- the answer to GET_PROPOSAL whose challenge waits for its nonce | 4,128 bytes | 14 R393, 11 R305 | none
deriving DecidableEq, Repr

/-! ### Boot gate -/

/-- A region entry of the image policy (R408). -/
structure Region where
  flash : Nat
  offset : Nat
  length : Nat
deriving DecidableEq, Repr

/-- What an image says of itself (R579), its measurement, and whether it is signed as its kind asks (R580). -/
structure Image where
  kind : Nat
  version : Nat
  svn : Nat
  bodyLen : Nat
  bodyDigest : Bytes
  measurement : Bytes
  signerDigest : Bytes
  sigOk : Bool
  mcFloor : Nat
  worldCfg : Nat
  session1Ow : Bool
  tRegions : Nat
  extensions : List (Nat × Nat × Nat)
  nextSigner : Bytes
deriving DecidableEq, Repr

/-- An entry of the device partition's directory (R578). -/
structure DirEntry where
  kind : Nat
  copy : Nat
  state : Nat
  offset : Nat
  length : Nat
  version : Nat
  svn : Nat
deriving DecidableEq, Repr

/-- The directory of the device partition, as its governing slot holds it (R578). -/
structure Directory where
  slot : Nat
  seq : Nat
  partOffset : Nat
  entries : List DirEntry
deriving DecidableEq, Repr

/-- The image policy (R408). -/
structure Policy where
  mode : Nat
  failAction : Nat
  accept : Nat
  wp : Bool
  svnFloor : Nat
  regions : List Region
  signer : Bytes
  manifestFlash : Nat
  manifestOffset : Nat
  allow : List Bytes
  recRegions : List Region
  recAllow : List Bytes
  raw : Bytes
deriving DecidableEq, Repr

/-! ### Worlds -/

/-- An admission table entry (R441). -/
structure Region16 where
  sizeLog2 : Nat := 0                   -- SIZE_LOG2 | 6 | 16 R441 | 0
  valid : Bool := false                 -- VALID | 1 | 16 R441 | 0
  lock : Bool := false                  -- LOCK | 1 | 16 R441 | 0
  base : Nat := 0                       -- BASE, as a byte address | 36 | 16 R441 | 0
  perms : BitVec 24 := 0                -- TW_M .. DEBUG | 24 | 16 R441 | 0
deriving DecidableEq, Repr

/-- A logged Serow fault (ADM_FAULT). -/
structure AdmFault where
  addr : Nat := 0                       -- ADDR | 48 | 16 | 0
  priv : Priv := .user                  -- PRIV | 2 | 16 | 0
  typ : Nat := 0                        -- TYPE | 3 | 16 | 0
  valid : Bool := false                 -- VALID | 1 | 16 | 0
deriving DecidableEq, Repr

/-- What one world holds of its own: admission window registers, restart register, ports. -/
structure WorldSt where
  up : Bool := false                    -- the world is in service | 1 | 16 R437 | 0
  restarts : Nat := 0                   -- COUNT | 16 | 16 R456 | 0
  lastCause : Nat := 0                  -- LAST_CAUSE | 3 | 16 R456 | 0
  inProgress : Bool := false            -- IN_PROGRESS | 1 | 16 R456 | 0
  waitFlash : Bool := false             -- waits for flash after a failed comparison (R439) | 1 | 16 R439 | 0
  reread : Bool := false                -- the restart starts an image read again from flash (R439) | 1 | 16 R439 | 0
  admCommit : Bool := false             -- ADM_COMMIT | 1 | 16 R443 | 0
  admErrCause : Nat := 0                -- ADM_ERR.CAUSE | 3 | 16 R443 | 0
  admErrEntry : Nat := 0                -- ADM_ERR.ENTRY | 8 | 16 R443 | 0
  admErrValid : Bool := false           -- ADM_ERR.VALID | 1 | 16 R443 | 0
  admFault : AdmFault := {}             -- ADM_FAULT | 64 | 16 R447 | 0
  worldErr : Status := .done            -- WORLD_ERR.STATUS | 8 | 16 R432 | 0
  worldErrValid : Bool := false         -- WORLD_ERR.VALID | 1 | 16 R432 | 0
  shadows : List (Nat × Region16) := [] -- admission shadows written and not committed | - | 16 R443 | empty
  drawLen : Nat := 0                    -- LEN of the draw port's last request | 7 | 23 R595 | 0
  drawStatus : Status := .done          -- draw port STATUS | 8 | 23 R595 | 0
  drawBusy : Bool := false              -- draw port BUSY | 1 | 23 R595 | 0
  drawValid : Bool := false             -- draw port VALID | 1 | 23 R595 | 0
  drawData : Bytes := []                -- draw port DATA | 64 bytes | 23 R595 | 0
  powerReq : Bytes := []                -- power request port 0x00-0x1F | 32 bytes | 23 R596 | 0 DC 6
  powerStatus : Status := .done         -- power request port STATUS | 8 | 23 R596 | 0 DC 6
  powerDeferred : Bool := false         -- power request port DEFERRED | 1 | 23 R596 | 0 DC 6
  powerBusy : Bool := false             -- power request port BUSY | 1 | 23 R596 | 0 DC 6
  fwNotes : List Nat := []              -- uptimes of FW_NOTE requests of the last second | - | 18 R488 | empty
  noteStatus : Status := .done          -- what the last FW_NOTE request met | 8 | 18 R488 | 0
  image : Option Image := none          -- retained measured image (R403) | - | 15 R403, 16 R437 | none
  prevImage : Option Image := none      -- image kept for a revert (R582, R583) | - | 22 R582 | none
deriving DecidableEq, Repr

/-! ### Tamper -/

/-- A tamper source (R458, R484). -/
structure TSource where
  asserted : Bool := false              -- ASSERTED | 1 | 17 R484 | 0
  alarmed : Bool := false               -- ALARMED | 1 | 17 R484 | 0
  times : List Nat := []                -- times of the events in the current window (COUNT) | 8 shown | 17 R463 | empty
  armedOnce : Bool := false             -- an A0 record was written since it re-armed | 1 | 17 R463 | 0
  grade : Nat := 0                      -- GRADE | 3 | 17 R458 | per R458
  loopMode : Nat := 0                   -- LOOP_MODE | 2 | 17 R484 | 0
  n : Nat := 1                          -- N | 8 | 17 R458 | per R458
  windowMs : Nat := 1                   -- WINDOW_MS | 24 | 17 R458 | per R458, PR 10 where R458 gives no window
  nCell : Nat := 0                      -- N_CELL | 8 | 17 R458 | per R458
  windowCellMs : Nat := 0               -- WINDOW_CELL_MS | 24 | 17 R458 | per R458, PR 10
  events : Nat := 0                     -- EVENTS | 32 | 17 R484 | 0
  alarms : Nat := 0                     -- ALARMS | 32 | 17 R484 | 0
  lastSeq : Nat := 0                    -- LAST_SEQ | 64 | 17 R484 | 0
  rearmedAt : Nat := 0                  -- time of re-arming after an alarm | 64 | 17 R464, R468 | 0
  a3Raised : Bool := false              -- raised an A3 since the last resume | 1 | 17 R471 | 0
  throttle : Bool := false              -- its A1 response has not ended | 1 | 17 R468, R473 | 0
  fencing : Bool := false               -- its A2 response has not ended | 1 | 17 R469, R473 | 0
deriving DecidableEq, Repr

/-- A Tahr buffer entry (R479). -/
structure TahrEntry where
  source : Nat
  grade : Nat
  inForce : Nat
  count : Nat
  cell : Nat
  time : Nat
deriving DecidableEq, Repr

/-- An event record (R485). -/
structure Record where
  seq : Nat
  typ : Nat
  source : Nat
  grade : Nat
  inForce : Nat
  merged : Bool
  body : Bytes
deriving DecidableEq, Repr

/-! ### Fabric -/

/-- A DATA frame to send: its unit, part and parts (R527), virtual channel and LEN in 16-byte units (R516). -/
structure TxFrame where
  item : UnitOut
  part : Nat
  parts : Nat
  vc : Nat
  len : Nat
deriving DecidableEq, Repr

/-- A fabric port (R523) with its framing, retry and session state. -/
structure Port where
  en : Bool := false                    -- EN | 1 | 19 R523 | 0
  iface : Nat := 0                      -- IFACE | 2 | 19 R523 | 0
  maxWidth : Nat := 2                   -- MAX_WIDTH | 2 | 19 R523 | 2
  ifaceSh : Option Nat := none          -- IFACE shadow | 2 | 19 R523, 00 R9 | none
  maxWidthSh : Option Nat := none       -- MAX_WIDTH shadow | 2 | 19 R523, 00 R9 | none
  commitBit : Bool := false             -- COMMIT | 1 | 19 R523 | 0
  st : PortState := .down               -- STATE | 3 | 19 R523 | 0
  width : Nat := 0                      -- WIDTH | 2 | 19 R523 | 0
  lanes : BitVec 4 := 0                 -- LANES | 4 | 19 R523 | 0
  agreed : Option PState := none        -- power state both ends have agreed to enter | - | 19 R521 | none
  keyPhase : Bool := false              -- KEY_PHASE (transmit) | 1 | 19 R523 | 0
  cause : Nat := 0                      -- CAUSE | 4 | 19 R523 | 0
  peerDev : Nat := 0                    -- PEER_DEV | 14 | 19 R523 | 0
  margin : List Nat := [0, 0, 0, 0]     -- MARGIN of each lane | 8 each | 19 R523 | 0
  linkDowns : Nat := 0                  -- LINK_DOWNS | 16 | 19 R523 | 0
  retrains : Nat := 0                   -- RETRAINS | 16 | 19 R523 | 0
  fecCorrected : Nat := 0               -- FEC_CORRECTED | 64 | 19 R523 | 0
  fecUncorr : Nat := 0                  -- FEC_UNCORR | 32 | 19 R523 | 0
  retries : Nat := 0                    -- RETRIES | 32 | 19 R523 | 0
  tagFails : Nat := 0                   -- TAG_FAILS | 16 | 19 R523 | 0
  tagTimes : List Nat := []             -- uptimes of tag failures of the last second | - | 19 R514 | empty
  malformed : Nat := 0                  -- MALFORMED | 16 | 19 R523 | 0
  rekeys : Nat := 0                     -- REKEYS | 32 | 19 R523 | 0
  peer : Option PeerInit := none        -- peer parameters of step 4 | - | 19 R507 | none
  session : Bool := false               -- a session is held | 1 | 19 R508 | 0
  sessionId : Nat := 0                  -- which session (both ends name the same) | - | 19 R508 | 0
  txKey : Bytes := []                   -- transmit key | 32 bytes | 19 R511 | empty
  rxKey : Bytes := []                   -- peer's transmit key | 32 bytes | 19 R511 | empty
  rxOldKey : Bytes := []                -- peer's old key while frames under it are unacknowledged | 32 bytes | 19 R513 | empty
  rxPhase : Bool := false               -- peer's key phase | 1 | 19 R513 | 0
  txCtr : Nat := 0                      -- transmit counter (also frames under the key) | 64 | 19 R512 | 0
  rxCtr : Nat := 0                      -- last transmit counter accepted | 64 | 19 R512 | 0
  rxAny : Bool := false                 -- a frame was accepted under the key | 1 | 19 R512 | 0
  keySince : Nat := 0                   -- uptime of the transmit key | 64 | 19 R513 | 0
  txSeq : Nat := 0                      -- next DATA SEQ to send | 16 | 19 R516 | 0
  rxSeq : Nat := 0                      -- next DATA SEQ expected | 16 | 19 R516 | 0
  txq : List TxFrame := []              -- frames waiting for credit or for the replay buffer | - | 19 R518, R520 | empty
  replay : List (Nat × TxFrame) := []   -- replay buffer: frames sent and unacknowledged, by SEQ | 512 KiB | 19 R519 | empty
  resends : Nat := 0                    -- times the oldest frame was retransmitted | - | 19 R507 | 0
  txCredits : List Nat := [0, 0, 0, 0]  -- credits held per VC | - | 19 R518 | 0
  deficits : List Nat := [0, 0, 0, 0]   -- deficit of each VC's round robin, in credits | - | 19 R518 | 0
  rxCredits : List Nat := [512, 1024, 8192, 512] -- credits the peer holds per VC | - | 19 R518 | whole buffers
  gap : Bool := false                   -- a gap lasts; NAKs are due | 1 | 19 R519 | 0
  naks : Nat := 0                       -- NAKs sent | - | 19 R519 | 0
  acks : Nat := 0                       -- ACK frames sent | - | 19 R519 | 0
  rx : List UnitHdr := []               -- units accepted and not yet handled | - | 20 R527 | empty
  downSince : Nat := 0                  -- uptime the link left UP | 64 | 19 R508 | 0
  fullTrain : Bool := true              -- the training under way is a full one | 1 | 19 R507 | 1 DC 7
  excluded : BitVec 4 := 0              -- lanes excluded until the next full training | 4 | 19 R507 | 0
  authSince : Nat := 0                  -- uptime of the last failed AUTH or kind mismatch | 64 | 19 R502, R510 | 0
  reach : List (Nat × Bool) := []       -- device numbers reached through the port, with HOLDER | - | 20 R529 | empty
  peerRole : Nat := 0                   -- ROLE announced in HELLO | 2 | 20 R528 | 0
  peerLevel : Nat := 7                  -- level announced by a parent | 3 | 20 R525 | 7
deriving DecidableEq, Repr

/-- Remote operation in progress (R542). -/
structure Remote where
  xid : Nat
  ctx : Nat
  holder : Nat
  tried : List Nat
  since : Nat
deriving DecidableEq, Repr

/-! ### Power -/

/-- A power domain (R571). -/
structure Domain where
  pstate : PState := .run               -- PSTATE | 3 | 21 R571 | 0
  allowTw : PState := .sleep            -- ALLOW_TW | 3 | 21 R571 | per R553
  allowOw : PState := .sleep            -- ALLOW_OW | 3 | 21 R571 | per R553
  deferred : Bool := false              -- DEFERRED | 1 | 21 R571 | 0
  exits : Nat := 0                      -- EXITS | 16 | 21 R571 | 0
  op : Nat := 4                         -- OP (channels) or SF (cores, in [1:0]) | 3 | 21 R571 | 4 (CH_n's own table gives OP 0: DC 88)
  opLoop : Nat := 4                     -- OP_LOOP | 3 | 21 R571 | 4
  mgrOp : Option Nat := none            -- OP the manager last set, requested while LOOP_EN is 0 | 3 | 21 R562 | none set
  opMin : Nat := 0                      -- OP_MIN | 3 | 21 R571 | 0
  loopEn : Bool := true                 -- LOOP_EN | 1 | 21 R571 | 1
  pacedHold : Bool := false             -- PACED_HOLD | 1 | 21 R571 | 0
  resumed : Bool := false               -- RESUMED | 1 | 21 R571 | 0
  cap : Nat := 1024                     -- CAP | 11 | 21 R571 | 1,024
  target : Nat := 1024                  -- TARGET | 11 | 21 R571 | 1,024
  sleepAfter : Nat := 100               -- SLEEP_AFTER_US | 16 | 21 R571 | 100
  deepAfter : Nat := 1000               -- DEEP_AFTER_MS | 16 | 21 R571 | 1,000
  waking : Option WakeSource := none    -- an exit is under way | - | 21 R567 | none
  clamp : Bool := false                 -- A1 clamp of TARGET to 737 | 1 | 21 R563 | 0
  idleSince : Nat := 0                  -- uptime the domain became idle | 64 | 21 R551 | 0
deriving DecidableEq, Repr

/-- A channel-group regulator (R571). -/
structure Group where
  setMv : Nat := 800                    -- SET_MV | 12 | 21 R571 | 800
  readMv : Nat := 0                     -- READ_MV | 12 | 21 R571 | 0
  settled : Bool := false               -- SETTLED | 1 | 21 R571 | 0
  fault : Bool := false                 -- FAULT | 1 | 21 R571 | 0
  readMa : Nat := 0                     -- READ_MA | 20 | 21 R571 | 0
  writes : Nat := 0                     -- WRITES | 16 | 21 R571 | 0
  faults : Nat := 0                     -- FAULTS | 16 | 21 R571 | 0
  lastSettled : Nat := 800              -- last set point that settled | 12 | 21 R566 | 800 (boot voltage)
deriving DecidableEq, Repr

/-! ### The groups of State -/

/-- Global registers (R591). -/
structure Glob where
  uptimeMs : Nat := 0                   -- DEV_UPTIME.UPTIME_MS | 64 | 23 R591 | 0
  scratch : BitVec 32 := 0              -- DEV_SCRATCH | 32 | 23 R591 | 0
  irqCause : BitVec 4 := 0              -- DEV_IRQ_CAUSE | 4 | 23 R591 | 0
  freeCtr : Nat := 0                    -- MODEL'S OWN: draws of undefined bytes so far (Config.freeByte) | - | model | 0 DC 4
deriving DecidableEq, Repr

/-- Mode and promise (R38, R54). -/
structure ModeSt where
  mode : Mode := .keep                  -- DEV_MODE.MODE | 2 | 01 R38 | 2
  startup : Bool := true                -- KEEP_STARTUP | 1 | 01 R38 | 1
  manager : Bool := false               -- KEEP_MANAGER | 1 | 01 R38 | 0
  noChannel : Bool := false             -- KEEP_NO_CHANNEL | 1 | 01 R38 | 0
  alarm : Bool := false                 -- KEEP_ALARM | 1 | 01 R38 | 0
  zeroised : Bool := false              -- ZEROISED entered | 1 | 01 R34 | 0
  changes : Nat := 0                    -- MODE_CHANGES | 8 | 01 R38 | 0
  promise : BitVec 18 := 0              -- PROMISE_STATUS as last evaluated | 18 | 02 R54 | 0
  promiseOn : Bool := false             -- evaluated from READY on | 1 | 02 R54 | 0
  junctionOk : Bool := false            -- every junction at or below 105 C | 1 | 24 R602 | 0 DC 6
  vhuOk : Bool := false                 -- VHU in band | 1 | 24 R602 | 0 DC 6
  railsOk : Bool := false               -- main rails in band | 1 | 24 R602 | 0 DC 6
deriving DecidableEq, Repr

/-- The host port. -/
structure HostPort where
  speed : Nat := 0                      -- HP_LINK_STATUS.SPEED | 4 | 03 | 0
  width : Nat := 0                      -- WIDTH | 5 | 03 | 0
  flit : Bool := false                  -- FLIT | 1 | 03 | 0
  dlUp : Bool := false                  -- DL_UP | 1 | 03 | 0
  linkPm : Nat := 0                     -- LINK_PM | 3 | 03 | 0
  d3hot : Bool := false                 -- D_STATE is D3hot | 2 | 03 | 0 (D0)
  downCount : Nat := 0                  -- LINK_DOWN_COUNT | 8 | 03 | 0
  errStatus : BitVec 6 := 0             -- HP_ERR_STATUS | 6 | 03 R71 | 0
  errAddr : Nat := 0                    -- HP_ERR_LOG_ADDR | 64 | 03 R71 | 0
  errCause : Nat := 0                   -- HP_ERR_LOG_INFO.CAUSE | 4 | 03 R71 | 0
  errCode : Nat := 0                    -- HP_ERR_LOG_INFO.STATUS | 8 | 03 R71 | 0
  errWrite : Bool := false              -- HP_ERR_LOG_INFO.WRITE | 1 | 03 R71 | 0
  errBar : Nat := 0                     -- HP_ERR_LOG_INFO.BAR | 3 | 03 R71 | 0
  errSlice : Nat := 0                   -- HP_ERR_LOG_INFO.SLICE | 12 | 03 R71 | 0
  aer : Nat := 0                        -- AER reports: bit 0 poisoned, bit 1 completion timeout, bit 2 internal | 3 | 03 R70 | 0
  ready : Bool := false                 -- link returned: DL_Active and Bus Master Enable (R79) | 1 | 03 R79 | 0
  perst : Bool := true                  -- PERST# asserted | pin | 03 R82, 15 R417 | 1 DC 6
  tx : List Out := []                   -- replay buffer: TLPs transmitted and not covered by an Ack, oldest first | - | 03 R80 | empty
  unacked : List Ctx := []              -- descriptors whose record is transmitted and not covered by an Ack | - | 03 R80 | empty
  ats : List (Nat × Nat) := []          -- ATS translation cache: PASID and 4 KiB page, oldest first | 4,096 entries | 03 capabilities | empty
  atsPend : List AtsPend := []          -- invalidations not yet completed | 32 | 03 R62 | empty
  lostMsgs : List Nat := []             -- slice interrupt entries whose message was pending when the link was lost | 8,192 | 03 R81 | empty
  msix : List (Nat × Nat × Nat × Bool) := [] -- MSI-X table: vector, address, data, masked (unlisted: zero, masked) | 2,048 x 16 bytes | 03, 23 R588 | every vector masked
  pba : List Nat := []                  -- MSI-X PBA: vectors pending | 2,048 | 23 R588 | empty
  spdmSessions : List Transport := []   -- open SPDM secured sessions | 4 per transport | 15 R422 | empty
  spdmData : Bytes := []                -- what the last SPDM answer says of this device | - | 15 R422 to R425 | empty
  spdmReply : Nat := 0                  -- last SPDM answer: 0 none, 1 answered, 2 ERROR UnsupportedRequest, 3 ERROR Busy, 4 another ERROR | 3 | 15 R423, R424 | 0
  mctpReply : Option Status := none     -- last management answer (none yet, DONE served, NOT_READY agent absent) | 8 | 01 R29, 03 R83 | none
  mctpBody : Bytes := []                -- content of the last management answer | 512 bytes | 03 R83 | empty
  eidI3c : Nat := 0                     -- endpoint ID on the I3C binding | 8 | 03 R83 | 0 PRESUMED 95 (DSP0236: none assigned)
  eidVdm : Nat := 0                     -- endpoint ID on the PCIe VDM binding | 8 | 03 R83 | 0 PRESUMED 95
deriving DecidableEq, Repr

/-- The distributor (R159, R178, R179). -/
structure Dist where
  spareHold : Bool := false             -- DIST_CTRL.SPARE_HOLD | 1 | 06 | 0
  spillEn : Bool := false               -- SPILL_EN | 1 | 06 | 0
  spillAccept : Bool := false           -- SPILL_ACCEPT | 1 | 06 | 0
  spareHoldSh : Option Bool := none     -- SPARE_HOLD shadow | 1 | 06, 00 R9 | none
  spillEnSh : Option Bool := none       -- SPILL_EN shadow | 1 | 06, 00 R9 | none
  spillAcceptSh : Option Bool := none   -- SPILL_ACCEPT shadow | 1 | 06, 00 R9 | none
  spillHoldUs : Nat := 50               -- SPILL_HOLD_US | 8 | 06 | 50
  ports : BitVec 20 := 0                -- SPILL_PORT_MASK.PORTS | 20 | 06 | 0
  portsSh : Option (BitVec 20) := none  -- PORTS shadow | 20 | 06, 00 R9 | none
  commitBit : Bool := false             -- DIST_CTRL.COMMIT | 1 | 06 R183 | 0
  medianRate : Nat := 0                 -- MEDIAN_RATE | 11 | 06 R159 | 0
  nextCtx : Nat := 0                    -- MODEL'S OWN: name of the next descriptor context | - | model | 0 DC 5
  nextTurn : Nat := 0                   -- MODEL'S OWN: place of the next entry in the order of issue | - | model | 0 DC 5
  nextXid : Nat := 0                    -- XID the device chooses next | 32 | 20 R527 | 0 DC 5
  ctxs : List Ctx := []                 -- descriptor contexts | - | 05 R135 | empty
  orphans : List Orphan := []           -- reads outstanding of ended or re-run contexts (DMA_OUTSTANDING) | - | 04 R88, R115 | empty
  remotes : List Remote := []           -- remote operations awaiting results | - | 20 R542 | empty
deriving DecidableEq, Repr

/-- Key custody (R351). -/
structure Custody where
  lc : Lc := .blank                     -- KEY_LC.LC | 3 | 12 R351 | fuses: BLANK as shipped (R618)
  reRoots : Nat := 0                    -- RE_ROOTS | 4 | 12 R351 | fuses: 0
  root : Option Bytes := none           -- lifecycle root (ROOT_PRESENT) | 64 bytes | 12 R318 | absent in BLANK
  sik : Option Bytes := none            -- slot integrity key in the tag engine | 32 bytes | 12 R316 | none
  dks : List DkEntry := []              -- domain key table (empty entries not listed) | 4 x 128 bytes | 12 R318, R319 | empty
  staged : Option (Nat × Bytes) := none -- staged DK version | 32 bytes | 20 R535 | none
  epoch : Nat := 0                      -- KEY_EPOCH | 16 | 12 R351 | 0
  epochDue : Nat := 0                   -- advances of KEY_EPOCH that are due | - | 12 R349 | 0
  old : List (KeyRef × Nat × Key) := [] -- keys as they stood before a change, for descriptors admitted before it (by context name) | - | 12 R345 | empty
  keys : List Key := []                 -- key SRAM: keys in their runs of rows | 262,144 rows | 12 R322 | empty
  badStage : List (Nat × Nat × Bytes) := [] -- blobs whose staging rows are BAD: slice, BLOB_ADDR, TAG | - | 12 R333 | none
  spareRows : List Host.Cell := []      -- key SRAM: cells that are not zero in rows that hold no key | 262,144 rows x 128 bytes | 12 R322, R325 | zero DC 6
  stage : List Staged := []             -- staging rows, least recently used first (STAGED) | 2,048 | 12 R337 | empty
  sweepS : Nat := 60                    -- SWEEP_S | 8 | 12 R351 | 60
  sweeps : Nat := 0                     -- SWEEPS | 64 | 12 R351 | 0
  lastSweep : Nat := 0                  -- uptime of the last sweep | 64 | 12 R332 | 0
  subsysVendor : Nat := 0               -- subsystem vendor ID | 16 | 12 R315 | 0 in BLANK (R401)
  subsysId : Nat := 0                   -- subsystem ID | 16 | 12 R315 | 0 in BLANK
  boardLabel : Bytes := []              -- board label | 64 bytes | 12 R315 | zero in BLANK
  lcTarget : Option Lc := none          -- transition accepted and not yet reset into | 3 | 12 R312 | none
  lcPending : Option Lc := none         -- state entered whose root is still to be drawn | 3 | 12 R312 | none
deriving DecidableEq, Repr

/-- The mailbox engine (R356). -/
structure Mail where
  boxes : List Mailbox := []            -- host mailboxes in use (unlisted: idle and zero) | 4,112 | 13 R352 | idle
  goOrder : List Nat := []              -- manager mailboxes submitted, in the order of their GO | 16 | 13 R356 | empty
  lastSlice : Nat := 4095               -- slice mailbox accepted last | 12 | 13 R356 | 4,095 DC 8
  running : List Job := []              -- running commands | 8 places, and gate calls | 13 R356 | empty
  cred : Option (Nat × Bytes) := none   -- manager credential | 96 or 1,952 bytes | 13 R366 | none (as manufactured)
  slots : List GateSlot := List.replicate 8 {}  -- gate slots | 8 | 13 R376 | IDLE
  ext : List (Nat × Nat × Nat) := []    -- extensions the open-world manifest declares: opcode, authority 0 A 1 S 2 M, limit ms | - | 13 R372 | empty
deriving DecidableEq, Repr

/-- Dual control (R398). -/
structure Dual where
  m : Nat := 0                          -- quorum M | 5 | 14 R378 | 0
  custodians : List Custodian := List.replicate 16 {} -- enrolment table | 16 | 14 R377 | empty
  chal : Challenge := {}                -- live or last challenge | - | 14 R382 | none
  winOpen : Bool := false               -- CELL_WINDOW.OPEN | 1 | 14 R398 | 0
  winCell : Nat := 0                    -- CELL_WINDOW.CELL | 1 | 14 R398 | 0
  winLeftS : Nat := 0                   -- REMAINING_S | 12 | 14 R398 | 0
  winMs : Nat := 0                      -- Tahr's count within the second | - | 14 R394 | 0
  zeroiseDue : Bool := false            -- a ZEROISE has been accepted and its response follows | 1 | 14 R397 | 0
  cards : List CardPort := List.replicate 2 {} -- CP_0, CP_1 | 2 | 14 R398 | empty
deriving DecidableEq, Repr

/-- What a host flash access meets (R406, R407, R414): no chip select, the flash itself, 0xFF in its last bytes for those of the device
partition, or a drop: a chip select held inactive in SPI mode, an unsuccessful completion in eSPI mode. -/
inductive FlashAnswer where
  | none | passed | blank (count : Nat) | deselected | unsuccessful
deriving DecidableEq, Repr

/-- The boot gate (R427). -/
structure Gate where
  st : GateState := .measuring          -- GATE_STATUS.STATE | 3 | 15 R427 | 1
  espi : Bool := false                  -- ESPI | 1 | 15 R427 | 0 (strap)
  twoFlash : Bool := false              -- TWO_FLASH | 1 | 15 R427 | 0 (strap)
  recovery : Bool := false              -- RECOVERY_ACTIVE | 1 | 15 R427 | 0
  wpActive : Bool := false              -- WP_ACTIVE | 1 | 15 R427 | 0
  policy : Option Policy := none        -- installed policy, in MRAM | 1,312 bytes | 15 R408 | none
  removed : List Region := []           -- regions of a removed policy (NO_POLICY measures them) | - | 15 R411 | empty
  inForce : Option Policy := none       -- policy the running measurement uses | - | 15 R412 | none
  measuring : Bool := true              -- a measurement is due or running | 1 | 15 R411 | 1
  fromPerst : Bool := false             -- the measurement followed PERST# | 1 | 15 R419 | 0
  verdictIn : Option Nat := none        -- verdict reached while PERST# is asserted | 8 | 15 R417 | none
  lastVerdict : Nat := 0                -- LAST_VERDICT | 8 | 15 R427 | 0
  bootCount : Nat := 0                  -- BOOT_COUNT | 32 | 15 R415 | 0 as manufactured
  blocked : Nat := 0                    -- WRITES_BLOCKED | 32 | 15 R427 | 0
  closedAt : Nat := 0                   -- uptime of the last closing | 64 | 15 R427 | 0
  openMs : Nat := 0                     -- OPEN_MS | 16 | 15 R427 | 0
  measureMs : Nat := 0                  -- MEASURE_MS | 16 | 15 R427 | 0
  unsigned : List Bytes := []           -- boot record fields awaiting signature, oldest first | 160 bytes each | 15 R420 | empty
  latest : Bytes := []                  -- latest boot record, in MRAM | 256 bytes | 15 R420 | empty
  partOffset : Nat := 0                 -- start of the device partition of flash 0 | 32 | 22 R578 | 0 DC 6
  wrote : List Nat := []                -- kinds whose flash write was tried since the gate closed | 3 | 22 R585 | empty
  answer : FlashAnswer := .none         -- what the last host flash access met | - | 15 R406, R407, R414 | none
deriving DecidableEq, Repr

/-- Serow worlds, the admission table, the debug port. -/
structure Worlds where
  coreOw : BitVec 4 := 0xC              -- CORE_OW | 4 | 16 R456 | 0xC
  session1Ow : Bool := false            -- SESSION1_OW | 1 | 16 R456 | 0
  lock : Bool := false                  -- WORLD_LOCK | 1 | 16 R456 | 0
  twRegions : Nat := 64                 -- TW_REGIONS | 8 | 16 R456 | 64
  tw : WorldSt := {}                    -- the trusted world | - | 16 | not in service
  ow : WorldSt := {}                    -- the open world | - | 16 | not in service
  regions : List (Nat × Region16) := [] -- admission table entries in use (unlisted: zero) | 256 x 16 bytes | 16 R441 | zero
  admEpoch : Nat := 0                   -- ADM_EPOCH | 16 | 16 R456 | 0
  oldReads : List (Nat × DmaPart) := [] -- channel reads admitted under an older epoch and outstanding (EPOCH_DRAINED) | - | 16 R449 | empty
  oldTx : Nat := 0                      -- TLPs issued under an older epoch and not covered by an Ack, the first of tx | - | 16 R449 | 0
  oldDbg : Bool := false                -- the debug port's outstanding access was admitted under an older epoch | 1 | 16 R449 | 0
  serowFaults : Nat := 0                -- SEROW_FAULTS | 16 | 16 R456 | 0
  debugAttempts : Nat := 0              -- DEBUG_ATTEMPTS | 16 | 16 R456 | 0
  dbgOwEn : Bool := false               -- DBG_CTRL.OW_EN | 1 | 16 | 0
  periods : List Nat := [10, 10, 10, 10] -- PERIOD_MS per core | 10 | 16 | 10
  serviced : List Nat := [0, 0, 0, 0]   -- uptime of the last SERVICE per core | 64 | 16 R436 | 0
  sram : List Host.Cell := []           -- Serow SRAM, cells that are not zero | 64 MiB | 16, 22 step 4 | zero
  coreRegs : List (Nat × Byte) := []    -- interrupt-controller and machine-timer registers written, by interconnect address | - | 23 R593 | zero DC 6
  timerSet : List (Nat × Nat) := [(0, 0), (0, 0), (0, 0), (0, 0)] -- mtime of each core as last written, and the uptime of that write | 64 each | 16 R434, 23 R593 | 0 DC 6
  ctrHeld : List Nat := [0, 0, 0, 0]    -- performance counters of each core: 0 zero from reset, else MODEL'S OWN name of the assignment that froze them (Config.counterAt) | - | 16 R434 | 0
  serowData : Bytes := []               -- MODEL'S OWN: data the last admitted Serow load or fetch returned | 8 bytes | 23 R589 | empty DC 4
  dbgBus : Option (Nat × Nat) := none   -- OP and ADDR of the debug port's outstanding system-bus access | - | 16 R455 | none
  dbgHeld : Option (Nat × Nat × Bool × BitVec 64) := none -- the completed access its repeated request takes | - | 16 R455 | none
  halted : BitVec 4 := 0                -- cores halted by the Debug Module | 4 | 16 R451, R455 | 0 DC 6
  dbgAck : Nat := 0                     -- ACK of the last response | 3 | 16 R454 | 0
  dbgCause : Nat := 0                   -- CAUSE of the last response | 4 | 16 R454 | 0
  dbgData : Option (BitVec 64) := none  -- DATA of the last response | 64 | 16 R454 | none
  dmRegs : List (Nat × BitVec 32) := [] -- Debug Module registers written | 32 each | 16 R455 | zero
  jtag : Nat := 0                       -- JTAG instruction in force: 0 BYPASS 1 IDCODE 2 SAMPLE/PRELOAD 3 EXTEST 4 CLAMP 5 HIGHZ | 3 | 16 R453 | 0 PR 11
deriving DecidableEq, Repr

/-- Tamper sensing (R484). -/
structure Tamper where
  latch : Nat := 0                      -- ALARM_LATCH: 0 none, 3 A3, 4 A4 | 2 | 17 R474 | 0
  loopPeriod : Nat := 3                 -- LOOP_PERIOD code | 3 | 17 R484 | 3
  merged : Nat := 0                     -- TAHR_MERGED | 7 | 17 R484 | 0
  overflow : Bool := false              -- TAHR_OVERFLOW | 1 | 17 R484 | 0
  sources : List TSource := []          -- sources 0 to 31 | 32 | 17 R458 | per R458
  buf : List TahrEntry := []            -- Tahr record buffer, oldest first | 64 | 17 R479 | empty
  tahrMs : Nat := 0                     -- Tahr's millisecond counter | 32 | 17 R479 | 0 DC 6
  vaultDown : Bool := false             -- the vault link is down | 1 | 17 R479 | 0
  mainPower : Bool := true              -- main supplies present | pin | 17 R459 | 1 DC 6
  cellPresent : BitVec 2 := 0           -- cell present (bit 0 CELL_A) | 2 | 17 R461, R462 | 0 (R618: no cell fitted)
  cellRange : BitVec 2 := 0             -- cell at or above 2.5 V and in range | 2 | 02 R54 | 0
  cellArmed : BitVec 2 := 0             -- cell source armed | 2 | 17 R462 | 0
  cellSince : List Nat := [0, 0]        -- uptime since which the cell has read in range | 64 | 17 R462 | 0
  supplyCell : Nat := 0                 -- cell supplying Tahr on cell power | 1 | 17 R479, 24 R603 | 0 DC 6
deriving DecidableEq, Repr

/-- The event recorder (R500). -/
structure Recorder where
  nextSeq : Nat := 1                    -- NEXT_SEQ | 64 | 18 R489 | 1 (first start-up)
  flushedSeq : Nat := 0                 -- FLUSHED_SEQ | 64 | 18 R500 | 0 DC 6
  ackSeq : Nat := 0                     -- ACK_SEQ | 64 | 18 R500 | 0
  buffer : List Record := []            -- SRAM buffer: unflushed records, oldest first (BUFFERED) | 8,192 | 18 R492 | empty
  log : List Record := []               -- MRAM log, oldest first (HELD) | 245,760 | 18 R491 | empty
  flushing : Bool := false              -- FLUSHING | 1 | 18 R490 | 0
  powerFlush : Bool := false            -- the running flush is the power-fail flush | 1 | 18 R493 | 0
  lastFlush : Nat := 0                  -- uptime of the last flush | 64 | 18 R490 | 0
  lost : Nat := 0                       -- LOST | 32 | 18 R492 | 0
  lostRange : Option (Nat × Nat) := none -- numbers dropped and not yet reported | 64 each | 18 R492 | none
  overwritten : Nat := 0                -- OVERWRITTEN_UNACKED | 32 | 18 R491 | 0
  notifyGrade : Nat := 1                -- NOTIFY_GRADE | 3 | 18 R500 | 1
  notifyAll : Bool := false             -- NOTIFY_ALL | 1 | 18 R500 | 0
  ackWarn : Nat := 2                    -- ACK_WARN | 2 | 18 R500 | 2
  warned : Bool := false                -- the ACK_WARN condition has been raised | 1 | 18 R499 | 0
  reservedEnd : Nat := 0                -- RESERVED_END in MRAM | 64 | 18 R489 | 0 at manufacture
  clean : Bool := false                 -- CLEAN in the MRAM header | 1 | 18 R493 | 0 DC 6
deriving DecidableEq, Repr

/-- The Etesian hierarchy (R548). -/
structure Hier where
  role : Nat := 0                       -- ROLE | 2 | 20 R548 | 0
  holder : Bool := false                -- HOLDER | 1 | 20 R548 | 0
  fwdGrade : Nat := 0                   -- FWD_GRADE | 3 | 20 R548 | 0
  device : Nat := 0                     -- DEVICE | 14 | 20 R548 | 0
  state : Nat := 0                      -- FAB_STATE.STATE | 3 | 20 R548 | 0
  activeLead : Bool := false            -- ACTIVE_LEAD | 1 | 20 R548 | 0
  level : Nat := 7                      -- LEVEL | 3 | 20 R548 | 7
  cause : Nat := 0                      -- FAB_STATE.CAUSE | 4 | 20 R548 | 0
  leadDev : Nat := 0                    -- LEAD_DEV | 14 | 20 R548 | 0
  term : Nat := 0                       -- LEAD_TERM | 32 | 20 R548 | 0
  applied : Nat := 0                    -- APPLIED_SERIAL | 64 | 20 R548 | 0
  commitSerial : Nat := 0               -- COMMIT_SERIAL | 64 | 20 R548 | 0
  domainId : Bytes := List.replicate 16 0 -- DOMAIN_ID | 128 | 20 R548 | 0
  fwdSeq : Nat := 0                     -- FWD_SEQ | 64 | 20 R548 | 0
  fwdSent : Nat := 0                    -- highest own record sent upward | 64 | 20 R544 | 0
  aggHead : Nat := 0                    -- AGG_HEAD | 20 | 20 R548 | 0
  aggTail : Nat := 0                    -- AGG_TAIL | 20 | 20 R548 | 0
  aggBase : Nat := 0                    -- AGG_BASE | 64 | 20 R547 | 0 DC 6
  aggLog2 : Nat := 10                   -- AGG_LOG2 | 5 | 20 R547 | 10 DC 6
  syncs : Nat := 0                      -- SYNCS | 16 | 20 R548 | 0
  remoteFails : Nat := 0                -- REMOTE_FAILS | 16 | 20 R548 | 0
  level1 : List Nat := []               -- level-1 list | 16 x 14 | 20 R547 | empty
  remoteTimeoutMs : Nat := 50           -- REMOTE_TIMEOUT_MS | 10 | 20 R543 | 50
  lastBeat : Nat := 0                   -- uptime of the last BEAT of the current term | 64 | 20 R531, R539 | 0
  lastAnyBeat : Nat := 0                -- uptime of the last BEAT of any term | 64 | 20 R539 | 0
  beatSent : Nat := 0                   -- uptime of the last BEAT sent | 64 | 20 R530 | 0
  beatAcks : List (Nat × Nat) := []     -- BEAT_ACKs: device, uptime | - | 20 R530 | empty
  votedTerms : List Nat := []           -- terms voted in | 32 each | 20 R531 | empty
  candidate : Option Nat := none        -- term this Lead asks votes for | 32 | 20 R531 | none
  votes : List Nat := []                -- devices that voted for it | - | 20 R531 | empty
  votePending : Option Change := none   -- highest pending change reported in the votes | - | 20 R531 | none
  pendings : List Change := []          -- changes held as pending, by serial | - | 20 R532 | empty
  nextSerial : Nat := 1                 -- next serial of the active Lead | 64 | 20 R532 | 1 DC 6
  acks : List (Nat × List Nat) := []    -- CHANGE_ACKs per serial | - | 20 R532, R535 | empty
  log : List Change := []               -- committed changes | 65,536 | 20 R540 | empty
  stageSerial : Option Nat := none      -- serial of the stage commit of a rollover in progress | 64 | 20 R535 | none
  stageAt : Option Nat := none          -- uptime of that commit | 64 | 20 R535 | none
  activateAfterS : Nat := 0             -- ACTIVATE_AFTER_S | 17 | 20 R547 | 0
  stageWaitS : Nat := 600               -- STAGE_WAIT_S | 17 | 20 R547 | 600
  identities : List (Nat × Bytes) := [] -- device numbers reached with their identity digests | - | 20 R526 | empty
  aggHeldAcks : List (Nat × Nat) := []  -- RECORD_ACKs withheld: origin, SEQ | - | 20 R545 | empty
  snapshotDue : Bool := false           -- a snapshot of the domain slots is awaited | 1 | 20 R541 | 0
deriving DecidableEq, Repr

/-- The power controller (R571). -/
structure Power where
  wakeLevel : Bool := true              -- WAKE_LEVEL | 1 | 21 R571 | 1
  wakeSource : Nat := 0                 -- LAST_WAKE SOURCE | 3 | 21 R571 | 0
  wakeDomain : Nat := 0                 -- LAST_WAKE DOMAIN | 6 | 21 R571 | 0
  wakes : Nat := 0                      -- WAKES | 10 | 21 R571 | 0
  errStatus : Status := .done           -- PWR_ERR.STATUS | 8 | 21 R571 | 0
  errValid : Bool := false              -- PWR_ERR.VALID | 1 | 21 R571 | 0
  domains : List Domain := []           -- domains 0 to 61 | 62 | 21 R549 | per R553, R571
  groups : List Group := List.replicate 4 {} -- group regulators | 4 | 21 R571 | 800 mV
  offRequest : Bool := false            -- a deferred OFF request stands | 1 | 21 R555 | 0
  failPin : Bool := false               -- PWR_FAIL asserted | pin | 18 R493 | 0 DC 6
deriving DecidableEq, Repr

/-- Renewal and start-up (R587). -/
structure Renewal where
  twFloor : Nat := 0                    -- TW_FLOOR | 6 | 22 R587 | fuses: 0 DC 6
  mcFuse : Nat := 0                     -- fused microcode floor | 6 | 22 R580 | fuses: 0 DC 6
  owFloor : Nat := 0                    -- OW_FLOOR | 32 | 22 R587 | MRAM: 0 DC 6
  owSigner : Bytes := []                -- recorded open-world signer digest | 48 bytes | 22 R580 | none
  mcImage : Option Image := none        -- microcode image the trusted world holds | - | 22 R584 | none
  twTrial : Bool := false               -- TW_TRIAL | 1 | 22 R587 | 0
  trialSince : Nat := 0                 -- uptime the trial's service began | 64 | 22 R582 | 0
  twPending : Bool := false             -- TW_PENDING | 1 | 22 R587 | 0
  owPending : Bool := false             -- OW_PENDING | 1 | 22 R587 | 0
  mcPending : Bool := false             -- MC_PENDING | 1 | 22 R587 | 0
  twSetFloor : Bool := false            -- SET_FLOOR of the trusted-world image awaited in flash | 1 | 22 R585 | 0
  owSetFloor : Bool := false            -- SET_FLOOR of the open-world image awaited in flash | 1 | 22 R585 | 0
  reverted : Bool := false              -- REVERTED | 1 | 22 R587 | 0
  twCopy : Nat := 0                     -- TW_COPY | 1 | 22 R587 | 0
  owCopy : Nat := 0                     -- OW_COPY | 1 | 22 R587 | 0
  mcCopy : Nat := 0                     -- MC_COPY | 1 | 22 R587 | 0
  readyMs : Nat := 0                    -- READY_MS | 16 | 22 R587 | 0
  kind : Nat := 0                       -- START_INFO.KIND | 3 | 22 R587 | 0
  nextKind : Nat := 1                   -- reset kind of the start-up to come | 3 | 22 R576 | 1 (POWER_ON)
  ready : Bool := false                 -- START_INFO.READY | 1 | 22 R587 | 0
  initDone : Bool := false              -- memory initialisation and START complete | 1 | 22 R572 | 0
  owAbsent : Bool := false              -- open-world image absent or not qualifying | 1 | 22 R572 | 0
  recordDone : Bool := false            -- boot record of step 11 written | 1 | 22 R572 | 0
  bnCh : Nat := 0                       -- BN_UPDATE_STATUS.CH | 6 | 09 | 0
  bnActive : Bool := false              -- BN_UPDATE_STATUS.ACTIVE | 1 | 09 | 0
  bnStopped : Bool := false             -- BN_UPDATE_STATUS.STOPPED | 1 | 09 R255 | 0
  bnImage : Option Image := none        -- image of the update in progress | - | 09 R254 | none
  bnDone : Nat := 0                     -- BN_UPDATE_STATUS.CH_DONE | 6 | 09 | 0
  bnLeft : List Nat := []               -- channels the update has still to load, in order | 36 | 09 R254 | empty
  bothWorlds : Bool := false            -- a BOTH_WORLDS restart is in progress | 1 | 22 R583 | 0
  dir : Option Directory := none        -- directory of the device partition, in flash | 2 KiB slots | 22 R578 | none DC 6
  newAssign : Option (Nat × Bool × Nat) := none -- assignment the restart will write: WORLD_CFG, SESSION1, T | - | 22 R583 | none
deriving DecidableEq, Repr

/-- The defaults of R458 as name-free rows: grade, N, W in ms, cell N, cell W in ms, for sources 0 to 31. Where R458 gives no
window (a count of 1) the window stands at 1 ms: PRESUMED, log entry 10. -/
def tamperDefaults : List (Nat × Nat × Nat × Nat × Nat) :=
  [(4, 1, 1, 1, 1), (4, 1, 1, 1, 1), (4, 2, 10, 2, 10), (4, 1, 1, 1, 1), (4, 3, 1, 3, 1),
   (3, 1, 1, 1, 1), (3, 1, 1, 1, 1), (3, 3, 1, 0, 0)] ++
  List.replicate 8 (3, 3, 10, 2, 1024) ++
  [(2, 4, 1, 0, 0), (1, 1, 1, 0, 0), (3, 3, 1, 0, 0), (4, 1, 1, 0, 0),
   (2, 4, 1, 0, 0), (1, 1, 1, 0, 0), (4, 1, 1, 0, 0),
   (2, 4, 1, 0, 0), (1, 1, 1, 0, 0), (4, 1, 1, 0, 0),
   (3, 8, 1000, 0, 0), (3, 1, 1, 0, 0), (3, 3, 60000, 0, 0), (3, 1, 1, 0, 0), (0, 1, 1, 0, 0), (4, 1, 1, 0, 0)]

/-- The sources as manufactured (R458). -/
def resetSources : List TSource :=
  tamperDefaults.map fun (g, n, w, nc, wc) =>
    { grade := g, n := n, windowMs := w, nCell := nc, windowCellMs := wc }

/-- The domains at reset: allowances of R553, everything else as the Reset column of R571 gives it for every domain. The host port follows its
link and takes no allowance; it stands at DEEP in both (log entry 79). -/
def resetDomains : List Domain :=
  List.replicate 36 ({} : Domain) ++ List.replicate 4 ({ allowTw := .idle, allowOw := .sleep } : Domain) ++
  List.replicate 20 ({} : Domain) ++ [({ allowTw := .deep, allowOw := .deep } : Domain), ({ allowTw := .run, allowOw := .run } : Domain)]

/-- The state of the block: the groups, and the queue of waiting commands, first in, first out. -/
structure State where
  pending : List Instr := []
  glob : Glob := {}
  md : ModeSt := {}
  hp : HostPort := {}
  slices : List Slice := []
  ints : List (Nat × IntEntry) := []
  chs : List Channel := List.replicate 36 {}
  dist : Dist := {}
  rng : Rng := {}
  keys : Custody := {}
  mail : Mail := {}
  dual : Dual := {}
  gate : Gate := {}
  worlds : Worlds := {}
  tamper : Tamper := { sources := resetSources }
  er : Recorder := {}
  ports : List Port := List.replicate 20 {}
  hier : Hier := {}
  power : Power := { domains := resetDomains }
  renewal : Renewal := {}
deriving DecidableEq, Repr

/-- The device right after reset, before main supplies good: a part as shipped, lifecycle BLANK, no cell, no root (R618), in KEEP
with the start-up cause set (R36), every register at its Reset value (R619). -/
def State.reset : State := {}

end Sys2Proof.Machine
end

