-- ==== Sys2Proof/Machine/Flags.lean ====
section
/-! DEFINITION. What the registers report of the state: the code of each named value, the sets and counts the rules speak of, and the
status words the host, the replies and the records see. Nothing here changes the state. -/

namespace Sys2Proof.Machine

/-! ### Codes -/

/-- The byte of a status (R11). -/
def Status.code : Status → Nat
  | .done => 0x00 | .doneDeferredAuth => 0x01
  | .aborted => 0x10 | .quiesced => 0x11
  | .lengthMismatch => 0x20 | .descMalformed => 0x21 | .dmaFault => 0x22
  | .inputRange => 0x30 | .notOnCurve => 0x31 | .authFail => 0x32 | .verifyFail => 0x33
  | .keyAbsent => 0x40 | .keySlotBad => 0x41 | .keyPolicy => 0x42
  | .notReady => 0x50 | .rngFailed => 0x51 | .powerHeld => 0x52 | .poweredDown => 0x53
  | .sliceBusy => 0x60 | .quota => 0x61 | .cfgHeld => 0x62
  | .quorumMissing => 0x70 | .challengeStale => 0x71 | .roleDenied => 0x72
  | .deviceKeep => 0x7E | .internal => 0xFF

/-- Every status code (R11). -/
def Status.all : List Status :=
  [.done, .doneDeferredAuth, .aborted, .quiesced, .lengthMismatch, .descMalformed, .dmaFault, .inputRange, .notOnCurve,
   .authFail, .verifyFail, .keyAbsent, .keySlotBad, .keyPolicy, .notReady, .rngFailed, .powerHeld, .poweredDown, .sliceBusy,
   .quota, .cfgHeld, .quorumMissing, .challengeStale, .roleDenied, .deviceKeep, .internal]

/-- The status of a code, where the code is listed. -/
def Status.ofCode (c : Nat) : Option Status := Status.all.find? (fun s => s.code == c)

/-- MODE (R38). -/
def Mode.code : Mode → Nat
  | .full => 0 | .reduced => 1 | .keep => 2 | .zeroised => 3

/-- LC (R351). -/
def Lc.code : Lc → Nat
  | .blank => 0 | .development => 1 | .production => 2 | .returned => 3 | .retired => 4

/-- The lifecycle state of a code. -/
def Lc.ofCode : Nat → Option Lc
  | 0 => some .blank | 1 => some .development | 2 => some .production | 3 => some .returned | 4 => some .retired
  | _ => none

/-- STATE of a slice (R88). -/
def SliceState.code : SliceState → Nat
  | .free => 0 | .active => 1 | .quiescing => 2 | .quiesced => 3 | .fenced => 4

/-- STATE of a channel (R184). -/
def ChState.code : ChState → Nat
  | .service => 0 | .slow => 1 | .draining => 2 | .scrub => 3 | .selftest => 4 | .failed => 5

/-- MC_STATE. -/
def McState.code : McState → Nat
  | .active => 0 | .updating => 1 | .loadFailed => 2 | .empty => 3

/-- STATE of an instance (R309). -/
def GenState.code : GenState → Nat
  | .unseeded => 0 | .seeded => 1 | .stretched => 2 | .stalled => 3 | .failed => 4

/-- SOURCE (R309). -/
def SourceState.code : SourceState → Nat
  | .off => 0 | .startup => 1 | .service => 2 | .recovery => 3 | .failed => 4

/-- STATE of a bank (R309). -/
def BankState.code : BankState → Nat
  | .off => 0 | .warmup => 1 | .test => 2 | .service => 3 | .setAside => 4 | .retired => 5 | .capture => 6

/-- STATE of the boot gate (R427). -/
def GateState.code : GateState → Nat
  | .measuring => 1 | .opened => 2 | .rejected => 3 | .hostReset => 4 | .locked => 5

/-- STATE of a fabric port (R523). -/
def PortState.code : PortState → Nat
  | .down => 0 | .train => 1 | .align => 2 | .auth => 3 | .up => 4

/-- PSTATE (R571). -/
def PState.code : PState → Nat
  | .run => 0 | .idle => 1 | .sleep => 2 | .deep => 3 | .off => 4

/-- The power state of a code. -/
def PState.ofCode : Nat → Option PState
  | 0 => some .run | 1 => some .idle | 2 => some .sleep | 3 => some .deep | 4 => some .off | _ => none

/-- The deeper of two power states. -/
def PState.max (a b : PState) : PState := if a.code < b.code then b else a

/-! ### Channels and slices -/

/-- The channel of a number; a channel out of service beyond the last. -/
def State.ch (s : State) (n : Nat) : Channel := s.chs.getD n {}

/-- In service (R18, and the channel health table). -/
def Channel.inService (c : Channel) : Bool := c.st == .service || c.st == .slow

/-- The numbers of the channels in service. -/
def State.serviceList (s : State) : List Nat := (List.range 36).filter fun n => (s.ch n).inService

/-- CH_IN_SERVICE. -/
def State.inServiceCount (s : State) : Nat := s.serviceList.length

/-- CH_SERVICE_HI and CH_SERVICE_LO as one mask. -/
def State.serviceMask (s : State) : Nat := (s.serviceList.map (2 ^ ·)).sum

/-- The slice of a number: a FREE entry where none is held. -/
def State.slice (s : State) (n : Nat) : Slice := (s.slices.find? (fun x => x.num == n)).getD { num := n }

/-- A slice exists unless it is FREE. -/
def Slice.exists_ (x : Slice) : Bool := x.state != .free

/-- The slice whose running command claims channel n (R97). -/
def Job.claims (n : Nat) (j : Job) : Option Nat :=
  match j.kind with
  | .channels m x _ _ => if m.getLsbD n then some x else none
  | _ => none

/-- The slice exclusive channel n belongs to (R96), or the one a running command claims it for (R97). -/
def State.exclOwner (s : State) (n : Nat) : Option Nat :=
  match s.slices.find? fun x => x.exists_ && x.partition && x.exclMask.getLsbD n with
  | some x => some x.num
  | none => s.mail.running.findSome? (Job.claims n)

/-- A shared channel: in service and exclusive to no slice (R100). -/
def State.isShared (s : State) (n : Nat) : Bool := (s.ch n).inService && (s.exclOwner n).isNone

/-- The shared channels. -/
def State.sharedList (s : State) : List Nat := (List.range 36).filter s.isShared

/-- The exclusive channels of a slice that are in service. -/
def State.exclList (s : State) (x : Slice) : List Nat :=
  (List.range 36).filter fun n => x.exclMask.getLsbD n && (s.ch n).inService

/-- The ring pair p of a slice, where it has one. -/
def State.ring? (s : State) (n p : Nat) : Option RingPair :=
  let x := s.slice n
  if x.exists_ && p < x.rpCount then x.rings[p]? else none

/-- Entries of the submission ring. -/
def RingPair.sqSize (r : RingPair) : Nat := 2 ^ r.sqLog2
/-- Slots of the completion ring. -/
def RingPair.cqSize (r : RingPair) : Nat := 2 ^ r.cqLog2
/-- Entries submitted and not yet passed by SQ_HEAD (R129). -/
def RingPair.submitted (r : RingPair) : Nat := (r.sqTail + r.sqSize - r.sqHead) % r.sqSize
/-- Slots written and not yet consumed. -/
def RingPair.unconsumed (r : RingPair) : Nat := (r.cqTail + r.cqSize - r.cqHead) % r.cqSize

/-! ### Descriptor contexts -/

/-- The context of an id. -/
def State.ctx? (s : State) (id : Nat) : Option Ctx := s.dist.ctxs.find? (fun c => c.id == id)

/-- A context of a local slice's ring pair. -/
def Ctx.ofRing (c : Ctx) (n p : Nat) : Bool := c.owner == .slice && c.slice == n && c.rp == p

/-- The next link of a context's chain, where it has been decided already (R80, R167): the oldest later link of its ring pair. -/
def State.nextLink (s : State) (c : Ctx) : Option Ctx :=
  (s.dist.ctxs.filter fun y => y.ofRing c.slice c.rp && y.inChain && !y.firstLink && c.id < y.id).foldl (fun b y =>
    match b with
    | none => some y
    | some z => if y.id < z.id then some y else some z) none

/-- A context of a local slice. -/
def Ctx.ofSlice (c : Ctx) (n : Nat) : Bool := c.owner == .slice && c.slice == n

/-- The contexts of a ring pair: each holds a reserved completion slot (R143). -/
def State.ringCtxs (s : State) (n p : Nat) : List Ctx := s.dist.ctxs.filter (·.ofRing n p)

/-- Completion slots neither unconsumed nor reserved (R143); one slot of the ring is never in use (R120). -/
def State.cqFree (s : State) (n p : Nat) (r : RingPair) : Nat :=
  r.cqSize - 1 - r.unconsumed - (s.ringCtxs n p).length

/-- RP_ADMITTED. -/
def State.rpAdmitted (s : State) (n p : Nat) : Nat := ((s.ringCtxs n p).filter (·.executed)).length

/-- A descriptor sent to a neighbour that has not taken it yet, so far not admitted (R180). -/
def Ctx.offered (c : Ctx) : Bool :=
  !c.executed && match c.phase with | .spilled _ _ => true | _ => false

/-- ADMITTED (R88). -/
def State.admitted (s : State) (n : Nat) : Nat :=
  (s.dist.ctxs.filter fun c => c.ofSlice n && c.executed).length

/-- DMA_OUTSTANDING (R88). -/
def State.dmaOutstanding (s : State) (n : Nat) : Nat :=
  ((s.dist.ctxs.filter (·.ofSlice n)).map (·.reads.length)).sum + (s.dist.orphans.filter (fun o => o.slice == n)).length

/-- CMD_RUNNING (R88). -/
def State.cmdRunning (s : State) (n : Nat) : Nat :=
  (s.mail.running.filter fun j => j.caller == .mbx n).length

/-- Work in flight (R101); a descriptor offered to a neighbour, which may have taken it, counts. -/
def State.inFlight (s : State) (n : Nat) : Bool :=
  s.admitted n != 0 || s.cmdRunning n != 0 || s.dist.ctxs.any fun c => c.ofSlice n && c.offered

/-- A SLICE_MODIFY that changes the slice's PASID runs: the device issues no DMA under the old one (R87, R115). -/
def State.pasidFenced (s : State) (n : Nat) : Bool :=
  s.mail.running.any fun j => match j.kind with | .channels _ x _ p => p && x == n | _ => false

/-- CHAIN_OPEN (R148): the last completed link has CHAIN_NEXT and the next is not submitted. -/
def RingPair.chainOpen (r : RingPair) : Bool :=
  match r.chain with
  | some c => !c.failed && !c.abandoned && c.openSince.isSome && r.sqHead == r.sqTail
  | none => false

/-- Credits a context's entries hold (R157): the first entry while it stands in the fetch queue, be it waiting for its blob (R25), and
entries issued and not finished. -/
def Ctx.credits (c : Ctx) : Nat :=
  match c.phase with
  | .ready | .waitBlob => b2n c.queued.isSome
  | .issued | .pkRunning => c.segs.length
  | _ => 0

/-- The contexts homed on a channel. -/
def State.chCtxs (s : State) (n : Nat) : List Ctx := s.dist.ctxs.filter (fun c => c.home == some n)

/-- Credit held on a channel. -/
def State.held (s : State) (n : Nat) : Nat := ((s.chCtxs n).map (·.credits)).sum

/-- CREDIT_FREE: 0 out of service and on a held spare (R178). DESIGN CHOICE (log entry 88): a cut descriptor begun on a channel that is
then held as a spare is given no further credit there while it is held, and does not move. -/
def State.creditFree (s : State) (n : Nat) : Nat :=
  let c := s.ch n
  if c.inService && !c.heldSpare && !c.spareWait then c.creditLimit - s.held n else 0

/-- SATURATED: no shared channel has free credit; 0 with no shared channel in service, as its reset value is (R183's table). -/
def State.saturated (s : State) : Bool := !s.sharedList.isEmpty && s.sharedList.all fun n => s.creditFree n == 0

/-- QUEUED: PK_OP entries of a channel (R242). -/
def State.pkQueued (s : State) (n : Nat) : Nat :=
  ((s.chCtxs n).filter fun c => c.desc.opcode == 0x10 && (c.queued.isSome || c.phase == .issued || c.phase == .pkRunning)).length

/-- Hold-pool bytes a descriptor reserves: its plaintext held until the tag check, or a wrap (R198, R199, R201, R210). -/
def Desc.holdBytes (d : Desc) : Nat :=
  let aead := d.variant % 32 == 8 || d.variant % 32 == 9 || d.variant % 32 == 10
  if (d.opcode == 2 && aead && !d.chainNext && d.length ≤ Config.heldMax) || d.opcode == 3 || d.opcode == 4 then
    alignUp d.length 4096
  else 0

/-- Hold-pool bytes in use on a channel (R198). -/
def State.holdUsed (s : State) (n : Nat) : Nat :=
  ((s.chCtxs n).map fun c => if c.nextSeg == 0 && c.queued.isNone then 0 else c.desc.holdBytes).sum

/-- Uptime of one day in milliseconds (R176). -/
def dayMs : Nat := 86400000

/-- Fences and drains within the last 24 hours of uptime. -/
def State.fences24 (s : State) (n : Nat) : Nat := ((s.ch n).fences.filter (fun t => s.glob.uptimeMs < t + dayMs)).length

/-! ### Keys -/

/-- KEY_USED of a slice: rows of its slots (R88, R223). -/
def State.keyUsed (s : State) (n : Nat) : Nat :=
  ((s.keys.keys.filter fun k => k.scope == 1 && k.slice == n).map (·.rows)).sum

/-- SLICE_FREE: free rows of the slice pool (R351). -/
def State.sliceRowsFree (s : State) : Nat :=
  Config.poolKeys - ((s.keys.keys.filter (·.scope == 1)).map (·.rows)).sum

/-- The CURRENT domain key entry (R319). -/
def State.curDk? (s : State) : Option DkEntry := s.keys.dks.find? (·.state == 1)

/-- KEY_DRAINED (R349): no channel holds an entry of an older epoch. An older entry no held descriptor references is dropped. -/
def State.keyDrained (s : State) : Bool :=
  (List.range 36).all fun n => (s.ch n).cache.all fun e =>
    e.epoch == s.keys.epoch || (s.chCtxs n).all fun c => c.epoch != e.epoch || c.phase == .finished || c.key.isNone

/-! ### Tamper -/

/-- The class of a tamper source (R458): 0 V, 1 E, 2 S, 3 L, 4 R, 5 C. -/
def sourceClass (i : Nat) : Nat :=
  if i ≤ 6 then 0 else if i = 7 then 2 else if i ≤ 15 then 1 else if i ≤ 25 then 2
  else if i ≤ 29 then 3 else if i = 30 then 4 else 5

/-- GRADE_IN_FORCE: the highest grade whose response has not ended (R473). The latch stands for an A3 or A4 response in force (R474). -/
def State.gradeInForce (s : State) : Nat :=
  (s.tamper.sources.map fun t => if t.fencing then 2 else if t.throttle then 1 else 0).foldl Nat.max s.tamper.latch

/-- The source of an index. -/
def State.src (s : State) (i : Nat) : TSource := s.tamper.sources.getD i {}

/-- COUNT of a source, as its register shows it. -/
def TSource.count (t : TSource) : Nat := sat 8 t.times.length

/-! ### Status words -/

/-- DEV_MODE (R38). -/
def State.modeWord (s : State) : Nat :=
  s.md.mode.code + s.inServiceCount * 2 ^ 8 + b2n s.md.startup * 2 ^ 16 + b2n s.md.manager * 2 ^ 17 +
  b2n s.md.noChannel * 2 ^ 18 + b2n s.md.alarm * 2 ^ 19 + s.md.changes * 2 ^ 24

/-- TAMPER_STATE (R484). -/
def State.tamperWord (s : State) : Nat :=
  s.gradeInForce + b2n (s.tamper.sources.any (·.throttle)) * 8 + b2n (s.tamper.sources.any (·.fencing)) * 16 +
  (s.tamper.latch - 2) * 32 + s.tamper.loopPeriod * 256 + s.tamper.merged * 2 ^ 16 + b2n s.tamper.overflow * 2 ^ 23

/-- HP_LINK_STATUS. -/
def State.linkWord (s : State) : Nat :=
  s.hp.speed + s.hp.width * 16 + b2n s.hp.flit * 2 ^ 9 + b2n s.hp.dlUp * 2 ^ 10 + s.hp.linkPm * 2 ^ 11 +
  (if s.hp.d3hot then 3 else 0) * 2 ^ 14 + s.hp.downCount * 2 ^ 24

/-- The effective microcode floor: the higher of the fused floor and the running trusted-world image's (R580). -/
def State.mcFloor (s : State) : Nat :=
  Nat.max s.renewal.mcFuse ((s.worlds.tw.image.map (·.mcFloor)).getD 0)

/-- A channel whose store holds an image the floor rule looks at (R253). -/
def Channel.mcCounts (c : Channel) : Bool := c.inService && (c.mcState == .active || c.mcState == .updating)

/-- A port's link is up with a working peer (R54): a retrain that may still retain its session does not end that (R508, and the worked retrain
of the links' chapter). -/
def State.portWorks (s : State) (p : Nat) : Bool :=
  let x := s.ports.getD p {}
  x.st == .up || (x.session && x.en && (x.st == .train || x.st == .align) && s.glob.uptimeMs < x.downSince + 100)

/-- UP_PORTS: of FP_16 and FP_17, those with the link up and a working peer (R54). -/
def State.upPorts (s : State) : Nat := ([16, 17].filter s.portWorks).length

/-- PROMISE_STATUS as the conditions stand now (R54). -/
def State.promiseNow (s : State) : BitVec 18 :=
  let lc := s.keys.lc == .production
  let fw := match s.worlds.tw.image with
    | some i => i.sigOk && s.renewal.twFloor ≤ i.svn
    | none => false
  let mc := s.chs.all fun c => !c.mcCounts || s.mcFloor ≤ c.mcSvn
  let a := s.tamper.cellPresent.getLsbD 0 && s.tamper.cellRange.getLsbD 0
  let b := s.tamper.cellPresent.getLsbD 1 && s.tamper.cellRange.getLsbD 1
  let roc := s.md.junctionOk && s.md.vhuOk && s.md.railsOk
  let mem := s.hier.role != 0
  let avail := roc && (a || b) && (!mem || s.upPorts == 2)
  BitVec.ofNat 18 (b2n lc + b2n fw * 2 + b2n mc * 4 + b2n a * 8 + b2n b * 16 + s.upPorts * 32 + b2n roc * 128 +
    b2n mem * 256 + b2n (lc && fw && mc) * 2 ^ 16 + b2n avail * 2 ^ 17)

/-- DK_VALID and DK_VERSION with the lifecycle: KEY_LC (R351). -/
def State.keyLcWord (s : State) : Nat :=
  s.keys.lc.code + s.keys.reRoots * 16 + b2n s.keys.root.isSome * 2 ^ 8 + b2n s.curDk?.isSome * 2 ^ 9 +
  ((s.curDk?.map (·.version)).getD 0) * 2 ^ 16

end Sys2Proof.Machine
end

