-- ==== Sys2Proof/Machine/Admission.lean ====
section
/-! DEFINITION. The admission of an access (R26): masters and blocks of the interconnect map (R593), the check of R445 and R446, the
channels' DMA in the outbound window, and the refusal of a host access (R63, R65, R594). Nothing here changes the state. -/

namespace Sys2Proof.Machine

/-! ### Masters and blocks -/

/-- The world of a core (R428, R429). -/
def State.coreWorld (s : State) (c : Nat) : World := if s.worlds.coreOw.getLsbD c then .ow else .tw

/-- The world that owns an admission entry (R429). -/
def State.regionWorld (s : State) (i : Nat) : World := if i < s.worlds.twRegions then .tw else .ow

/-- The master class of an access (R441). -/
inductive Master where
  | core (w : World) (p : Priv)
  | host
  | channel
  | debug
deriving DecidableEq, Repr

/-- The blocks of the interconnect map (R593). -/
inductive Blk where
  | bootRom
  | interrupts (core : Nat)
  | timer (core : Nat)
  | watchdog (core : Nat)
  | admission (w : World)
  | sessions (ch s : Nat)
  | gate
  | powerPort (w : World)
  | drawPort (w : World)
  | management
  | trusted
  | keySram
  | bar0
  | bar4
  | bar2
  | sram (w : World)
  | outbound
deriving DecidableEq, Repr

/-- The block that covers an address, if one does. -/
def blockAt (a : Nat) : Option Blk :=
  if a < 0x10000 then some .bootRom
  else if a < 0x10000000 then none
  else if a < 0x10400000 then
    let c := a / 0x100000 % 16
    let o := a % 0x100000
    some (if o < 0x80000 then .interrupts c else if o < 0xF0000 then .timer c else .watchdog c)
  else if 0x11000000 ≤ a && a < 0x11002000 then some (.admission .tw)
  else if 0x11010000 ≤ a && a < 0x11012000 then some (.admission .ow)
  else if 0x12000000 ≤ a && a < 0x12024000 then
    let o := a % 0x1000
    if o < 0x800 then some (.sessions ((a - 0x12000000) / 0x1000) (o / 0x400)) else none
  else if 0x13000000 ≤ a && a < 0x13000100 then some .gate
  else if 0x14000000 ≤ a && a < 0x14001000 then some (.powerPort .tw)
  else if 0x14001000 ≤ a && a < 0x14002000 then some (.powerPort .ow)
  else if 0x15000000 ≤ a && a < 0x15001000 then some (.drawPort .tw)
  else if 0x15001000 ≤ a && a < 0x15002000 then some (.drawPort .ow)
  else if 0x16000000 ≤ a && a < 0x16010000 then some .management
  else if 0x17000000 ≤ a && a < 0x18000000 then some .trusted
  else if 0x20000000 ≤ a && a < 0x22000000 then some .keySram
  else if 0x40000000 ≤ a && a < 0x41000000 then some .bar0
  else if 0x44000000 ≤ a && a < 0x48000000 then some .bar4
  else if 0x48000000 ≤ a && a < 0x4A000000 then some .bar2
  else if 0x80000000 ≤ a && a < 0x82000000 then some (.sram .tw)
  else if 0x82000000 ≤ a && a < 0x84000000 then some (.sram .ow)
  else if 0x4000000000 ≤ a && a < 0x5000000000 then some .outbound
  else none

/-- The world a Serow peripheral is assigned to (R429); none for a block that is no peripheral. -/
def State.periphWorld (s : State) : Blk → Option World
  | .interrupts c | .timer c | .watchdog c => some (s.coreWorld c)
  | .admission w | .powerPort w | .drawPort w => some w
  | .sessions _ n => some (if n = 1 ∧ s.worlds.session1Ow then .ow else .tw)
  | .gate | .management => some .ow
  | .trusted => some .tw
  | _ => none

/-! ### The check -/

/-- The place of the read permission of a master in an entry's permissions. -/
def Master.base : Master → Nat
  | .core w p =>
    (match w with | .tw => 0 | .ow => 9) + (match p with | .machine => 0 | .supervisor => 3 | .user => 6)
  | .host => 18
  | .channel => 20
  | .debug => 22

/-- The number of an access type: 0 read, 1 write, 2 execute. -/
def AccessType.num : AccessType → Nat
  | .read => 0 | .write => 1 | .execute => 2

/-- An entry grants an access (R441): only a Serow core has an execute permission. -/
def Region16.grants (e : Region16) (m : Master) (t : AccessType) : Bool :=
  match m with
  | .core _ _ => e.perms.getLsbD (m.base + AccessType.num t)
  | _ => t != .execute && e.perms.getLsbD (m.base + AccessType.num t)

/-- The range of a VALID entry holds an address. -/
def Region16.holds (e : Region16) (a : Nat) : Bool := e.valid && e.base ≤ a && a < e.base + 2 ^ e.sizeLog2

/-- The VALID entry that matches an address, with its number (R445). -/
def State.regionAt (s : State) (a : Nat) : Option (Nat × Region16) := s.worlds.regions.find? fun p => p.2.holds a

/-- The default map (R446). -/
def State.defaultMap (s : State) (w : World) (t : AccessType) (b : Blk) : Bool :=
  match b with
  | .sram h => h == w
  | b => t != .execute && s.periphWorld b == some w

/-- An access is admitted (R445, R593). -/
def State.admits (s : State) (m : Master) (t : AccessType) (a : Nat) : Bool :=
  match blockAt a, s.regionAt a with
  | none, _ => false
  | some _, some (_, e) => e.grants m t
  | some b, none =>
    match m with
    | .core w p => p != .user && s.defaultMap w t b
    | _ => false

/-- A power domain. -/
def State.dom (s : State) (d : Nat) : Domain := s.power.domains.getD d {}

/-- A block whose clock or power is off (R570): a channel's sessions and a core's own block in SLEEP or below, the host port's in DEEP. -/
def State.blockOff (s : State) : Blk → Bool
  | .sessions n _ => 2 ≤ (s.dom n).pstate.code
  | .interrupts c | .timer c => 2 ≤ (s.dom (36 + c)).pstate.code
  | .outbound => 3 ≤ (s.dom 60).pstate.code
  | _ => false

/-! ### Channel DMA (R26, R447) -/

/-- First address of the host port's outbound window, and of its end. -/
def windowBase : Nat := 0x4000000000
/-- The end of the outbound window. -/
def windowEnd : Nat := 0x5000000000

/-- A VALID entry that covers the whole outbound window: no other entry can match an address there. -/
def Region16.coversWindow (e : Region16) : Bool := e.valid && e.base ≤ windowBase && windowEnd ≤ e.base + 2 ^ e.sizeLog2

/-- Channel DMA toward a host address is admitted (R26, R445): the check is made on the outbound window, at an offset the spec leaves open
(FREE, log entry 96). -/
def State.dmaAdmits (s : State) (t : AccessType) (addr : Nat) : Bool :=
  match s.worlds.regions.find? fun p => p.2.coversWindow with
  | some p => p.2.grants .channel t
  | none => s.admits .channel t (windowBase + Config.windowOffset addr % 2 ^ 36)

/-- The addresses at which a range enters each 4 KiB page it touches. -/
def pageStarts (addr len : Nat) : List Nat :=
  if len = 0 then []
  else (List.range ((addr + len - 1) / 4096 - addr / 4096 + 1)).map fun i => if i = 0 then addr else (addr / 4096 + i) * 4096

/-- The first address of a range at which channel DMA fails its admission. -/
def State.dmaRefused (s : State) (t : AccessType) (addr len : Nat) : Option Nat :=
  (pageStarts addr len).find? fun a => !s.dmaAdmits t a

/-! ### Host accesses (R63, R65, R66, R594) -/

/-- The interconnect address a host access reaches; none where the host port itself answers it. -/
def hostAddr (bar off : Nat) : Option Nat :=
  if bar = 0 then (if off < 0xF00000 then some (0x40000000 + off) else none)
  else if bar = 2 then
    let n := off / 0x10000
    let r := off % 0x10000
    if r < 0x8000 && r % 0x200 < 0x40 then some (0x48000000 + n * 0x2000 + r / 0x200 * 0x40 + r % 0x200)
    else if 0x8000 ≤ r && r < 0x8008 then some (0x48000000 + n * 0x2000 + 0x1000 + (r - 0x8000))
    else none
  else some (0x44000000 + off)

/-- An access breaks R63. -/
def sizeBroken (bar off len : Nat) : Bool :=
  if bar = 4 && off < 0x2100000 then off % 4 != 0 || len % 4 != 0 || len = 0 || 4096 < off % 4096 + len
  else if bar = 4 && !(0x3000000 ≤ off && off < 0x3020400) then false
  else !((len == 4 || len == 8) && off % len == 0)

/-- The slice whose doorbell page or mailbox an access names. -/
def accessSlice (bar off : Nat) : Option Nat :=
  if bar = 2 then some (off / 0x10000) else if bar = 4 && off < 0x2000000 then some (off / 0x2000) else none

/-- A block the host reaches is powered down (R570): with the host port in DEEP nothing but a read of an always-on shadow, which every
block of BAR0 is (R39, R54, R588). -/
def State.hostOff (s : State) (b : Blk) (write : Bool) : Bool :=
  match b with
  | .bar0 => write && 3 ≤ (s.dom 60).pstate.code
  | .bar2 | .bar4 => 3 ≤ (s.dom 60).pstate.code
  | b => s.blockOff b

/-- Why a host access is refused (R65), in the order of the rule: 1 admission, 2 powered down, 3 size, 4 absent slice. -/
def State.refusal (s : State) (bar off len : Nat) (write : Bool) : Option Nat :=
  let off4 := match hostAddr bar off with
    | some a =>
      if !s.admits .host (if write then .write else .read) a then some 1
      else if (blockAt a).any fun b => s.hostOff b write then some 2
      else none
    | none => none
  match off4 with
  | some c => some c
  | none =>
    if sizeBroken bar off len then some 3
    else match accessSlice bar off with
      | some n => if (s.slice n).exists_ then none else some 4
      | none => none

/-- The bytes of each BAR. -/
def barSize (bar : Nat) : Nat := if bar = 0 then 0x1000000 else if bar = 2 then 0x10000000 else if bar = 4 then 0x4000000 else 0

/-- The host can reach the BARs. -/
def State.barsUp (s : State) : Bool := s.hp.dlUp && !s.hp.d3hot

end Sys2Proof.Machine
end

