-- ==== Sys2Proof/Machine/Operands.lean ====
section
/-! DEFINITION. The operand forms: the work descriptor and its lists (R130 to R139), what each opcode and VARIANT admits (R145, R186 to
R193, R209, R215, R216, R229, R271 to R275, R300), the key handle (R323), and the addresses a descriptor's buffers cover. -/

namespace Sys2Proof.Machine

/-! ### Layouts -/

/-- The work descriptor of a 64-byte entry and its extension entry (R130, R132). -/
def parseDesc (e x : Bytes) : Desc :=
  let w := fieldLe e 0x18 8
  { opcode := fieldLe e 0 1, variant := fieldLe e 1 1, srcCount := fieldLe e 2 1, dstCount := fieldLe e 3 1,
    keyHandle := fieldLe e 4 4, srcAddr := fieldLe e 8 8, dstAddr := fieldLe e 0x10 8, length := bits w 0 37,
    order := bit w 40, chainNext := bit w 41, ext := bit w 42, auxLen := bits w 48 16, auxAddr := fieldLe e 0x20 8,
    out2Addr := fieldLe e 0x28 8, inline := sub e 0x30 16,
    reservedSet := bits w 37 3 != 0 || bits w 43 5 != 0,
    blobAddr := if bit w 42 then fieldLe x 0 8 else 0,
    extReservedSet := bit w 42 && anySet (sub x 8 56) }

/-- A scatter list of n entries (R133), and whether an entry is malformed (R134). -/
def parseList (n : Nat) (b : Bytes) : List Sg × Bool :=
  ((List.range n).map fun i => (⟨fieldLe b (16 * i) 8, fieldLe b (16 * i + 8) 4⟩ : Sg),
   (List.range n).any fun i => fieldLe b (16 * i + 8) 4 == 0 || fieldLe b (16 * i + 12) 4 != 0)

/-- A list breaks R134: its address is not 16-byte aligned, or an entry is malformed. -/
def listBad (count addr : Nat) (bad : Bool) : Bool := count != 0 && (addr % 16 != 0 || bad)

/-- SCOPE of a key handle (R323). -/
def hScope (h : Nat) : Nat := bits h 30 2
/-- SLICE of a key handle. -/
def hSlice (h : Nat) : Nat := bits h 18 12
/-- SLOT of a key handle. -/
def hSlot (h : Nat) : Nat := bits h 0 18
/-- The handle names a host-memory key blob (R132). -/
def hBlob (h : Nat) : Bool := hSlot h == 0x3FFFF

/-- MODE of a cipher descriptor (R186). -/
def Desc.mode (d : Desc) : Nat := d.variant % 32
/-- IV_GEN (R186). -/
def Desc.ivGen (d : Desc) : Bool := bit d.variant 7
/-- An authenticated mode: GCM, CCM, ChaCha20-Poly1305. -/
def Desc.aead (d : Desc) : Bool := d.mode == 8 || d.mode == 9 || d.mode == 10
/-- FUNC of a digest descriptor (R215). -/
def Desc.func (d : Desc) : Nat := d.variant % 16
/-- VERIFY of KEYED_DIGEST (R215). -/
def Desc.verify (d : Desc) : Bool := bit d.variant 4
/-- The operation of a PK_OP (R256). -/
def Desc.pkOp (d : Desc) : Nat := d.variant % 128
/-- FIXED of a PK_OP (R256). -/
def Desc.fixed (d : Desc) : Bool := bit d.variant 7
/-- Byte i of INLINE. -/
def Desc.inl (d : Desc) (i : Nat) : Nat := fieldLe d.inline i 1
/-- FLAGS bit i of a PK_OP (R271). -/
def Desc.flag (d : Desc) (i : Nat) : Bool := bit (d.inl 6) i
/-- MOD_WORDS of a PK_OP. -/
def Desc.modWords (d : Desc) : Nat := fieldLe d.inline 2 2
/-- PARAM_LEN of a PK_OP. -/
def Desc.paramLen (d : Desc) : Nat := fieldLe d.inline 4 2
/-- CTX_LEN of a PK_OP. -/
def Desc.ctxLen (d : Desc) : Nat := d.inl 7

/-- Output length of a digest function (R215); 0 where it is chosen or undefined. -/
def funcLen : Nat → Nat
  | 1 => 28 | 2 => 32 | 3 => 48 | 4 => 64 | 5 => 28 | 6 => 32 | 8 => 28 | 9 => 32 | 10 => 48 | 11 => 64 | _ => 0

/-- Block length of a SHA-2 function (R223, R225). -/
def funcBlock (f : Nat) : Nat := if f ≤ 2 then 64 else 128

/-- Chaining value length of a SHA-2 function (R223). -/
def funcState (f : Nat) : Nat := if f ≤ 2 then 32 else 64

/-- A function FUNC names (R215). -/
def funcDefined (f : Nat) : Bool := (1 ≤ f && f ≤ 6) || (8 ≤ f && f ≤ 13)

/-- The descriptor is cut into segments (R162). -/
def Desc.cut (d : Desc) : Bool :=
  d.length > Config.segment &&
    (d.opcode == 1 || d.opcode == 2 || d.opcode == 8 || d.opcode == 9 || d.opcode == 10 || d.opcode == 0x18)

/-- How many entries the descriptor is handed over in (R156, R162). -/
def Desc.segCount (d : Desc) : Nat := if d.cut then (d.length + Config.segment - 1) / Config.segment else 1

/-- Source or destination bytes of segment k (R162). -/
def Desc.segLen (d : Desc) (k : Nat) : Nat :=
  if d.cut then Nat.min Config.segment (d.length - Config.segment * k) else d.length

/-- The descriptor reads an auxiliary input at AUX_ADDR, of AUX_LEN bytes when that is not 0: AAD (R187), an expected value (R216), a
public key, label or context (R272). An AUX_ADDR of 0 is an address like any other. -/
def Desc.readsAux (d : Desc) : Bool :=
  d.auxLen != 0 && (((d.opcode == 1 || d.opcode == 2) && d.aead) || (d.opcode == 9 && d.verify) || d.opcode == 0x10)

/-- Opcodes that may chain (R146). -/
def Desc.chainOp (d : Desc) : Bool := d.opcode == 1 || d.opcode == 2 || d.opcode == 8 || d.opcode == 9 || d.opcode == 10

/-- The mode or opcode chains: not XTS, CCM or a wrap (R187). -/
def Desc.chainable (d : Desc) : Bool :=
  d.chainOp && !((d.opcode == 1 || d.opcode == 2) && (d.mode == 7 || d.mode == 9))

/-! ### Public-key operation shapes (R271 to R275) -/

/-- Field bytes f of a CURVE. -/
def curveField : Nat → Nat
  | 1 => 32 | 2 => 48 | 3 => 66 | 4 => 32 | 5 => 56 | 6 => 32 | 7 => 57 | _ => 0
/-- Signature bytes of a CURVE. -/
def curveSig : Nat → Nat
  | 1 => 64 | 2 => 96 | 3 => 132 | 6 => 64 | 7 => 114 | _ => 0
/-- Public key bytes of a CURVE. -/
def curvePub : Nat → Nat
  | 1 => 64 | 2 => 96 | 3 => 132 | 4 => 32 | 5 => 56 | 6 => 32 | 7 => 57 | _ => 0
/-- Encapsulation key bytes of an ML-KEM SET. -/
def kemPub : Nat → Nat
  | 1 => 800 | 2 => 1184 | 3 => 1568 | _ => 0
/-- Ciphertext bytes of an ML-KEM SET. -/
def kemCt : Nat → Nat
  | 1 => 768 | 2 => 1088 | 3 => 1568 | _ => 0
/-- Public key bytes of an ML-DSA SET. -/
def dsaPub : Nat → Nat
  | 1 => 1312 | 2 => 1952 | 3 => 2592 | _ => 0
/-- Signature bytes of an ML-DSA SET. -/
def dsaSig : Nat → Nat
  | 1 => 2420 | 2 => 3309 | 3 => 4627 | _ => 0

/-- How a PK_OP takes its key (R272). -/
inductive PkKey where
  | none | slot | slotOrAux
deriving DecidableEq, Repr

/-- What a PK_OP reads and writes, in bytes (R275). -/
structure PkShape where
  key : PkKey
  /-- least and greatest LENGTH -/
  srcLo : Nat
  srcHi : Nat
  /-- public key bytes the auxiliary input begins with -/
  auxKey : Nat
  /-- the rest of the auxiliary input: label or context -/
  auxRest : Nat
  dst : Nat
  /-- bytes read from OUT2 -/
  out2In : Nat
  /-- bytes written to OUT2 -/
  out2Out : Nat
deriving DecidableEq, Repr

/-- An RSA operation (R275). -/
def rsaOp (op : Nat) : Bool := 1 ≤ op && op ≤ 8
/-- A raw modular operation (R275). -/
def rawOp (op : Nat) : Bool := 0x30 ≤ op && op ≤ 0x33
/-- An operation the catalogue lists (R253, R275). -/
def pkDefined (op : Nat) : Bool :=
  rsaOp op || op == 0x10 || op == 0x11 || op == 0x12 || op == 0x14 || op == 0x15 || (0x20 ≤ op && op ≤ 0x23) || rawOp op
/-- The hash of the operation is HASH of INLINE (R271). -/
def Desc.hashLen (d : Desc) : Nat := funcLen (d.inl 1)

/-- The shape of a PK_OP whose RSA modulus has k bytes (R275); raw operands have 8 × MOD_WORDS bytes. -/
def Desc.shape (d : Desc) (k : Nat) : PkShape :=
  let c := d.inl 0
  let h := d.hashLen
  let w := 8 * d.modWords
  let m := if d.flag 1 || d.flag 2 then 64 else 0
  let mHi := if d.flag 1 || d.flag 2 then 64 else 8192
  match d.pkOp with
  | 0x01 => ⟨.slotOrAux, k, k, k + 4, 0, k, 0, 0⟩
  | 0x02 => ⟨.slot, k, k, 0, 0, k, 0, 0⟩
  | 0x03 => ⟨.slot, h, h, 0, 0, k, 0, 0⟩
  | 0x04 => ⟨.slot, h, h, 0, 0, k, 0, 0⟩
  | 0x05 => ⟨.slotOrAux, h, h, k + 4, 0, 0, k, 0⟩
  | 0x06 => ⟨.slotOrAux, h, h, k + 4, 0, 0, k, 0⟩
  | 0x07 => ⟨.slot, k, k, 0, d.paramLen, k, 0, 0⟩
  | 0x08 => ⟨.slotOrAux, 0, 8192, k + 4, d.paramLen, k, 0, 0⟩
  | 0x10 => ⟨.slot, 1, 64, 0, 0, curveSig c, 0, 0⟩
  | 0x11 => ⟨.slotOrAux, 1, 64, curvePub c, 0, 0, curveSig c, 0⟩
  | 0x12 => ⟨.slot, curvePub c, curvePub c, 0, 0, curveField c, 0, 0⟩
  | 0x14 => ⟨.slot, m, mHi, 0, d.ctxLen, curveSig c, 0, 0⟩
  | 0x15 => ⟨.slotOrAux, m, mHi, curvePub c, d.ctxLen, 0, curveSig c, 0⟩
  | 0x20 => ⟨.none, kemPub c, kemPub c, 0, 0, kemCt c, 0, 32⟩
  | 0x21 => ⟨.slot, kemCt c, kemCt c, 0, 0, 32, 0, 0⟩
  | 0x22 => ⟨.slot, m, mHi, 0, d.ctxLen, dsaSig c, 0, 0⟩
  | 0x23 => ⟨.slotOrAux, m, mHi, dsaPub c, d.ctxLen, 0, dsaSig c, 0⟩
  | 0x30 => ⟨.none, 3 * w, 3 * w, 0, 0, w, 0, 0⟩
  | 0x31 => ⟨.none, 3 * w, 3 * w, 0, 0, w, 0, 0⟩
  | 0x32 => ⟨.none, 2 * w, 2 * w, 0, 0, w, 0, 0⟩
  | 0x33 => ⟨.none, 3 * w, 3 * w, 0, 0, w, 0, 0⟩
  | _ => ⟨.none, 0, 0, 0, 0, 0, 0, 0⟩

/-- The auxiliary input a shape requires of a descriptor: a public key only when no handle names one (R272). -/
def PkShape.auxLen (p : PkShape) (d : Desc) : Nat :=
  (if p.key = .slotOrAux ∧ d.keyHandle = 0 then p.auxKey else 0) + p.auxRest

/-- The modulus bytes of an RSA key of a class and length (R326). -/
def rsaBytes (cls len : Nat) : Nat := if cls = 5 then (len - 4) * 2 / 7 else len - 4

/-- k of a PK_OP where it is known before the channel: from MOD_WORDS, or from the slot's attributes (R274). -/
def State.pkBytes? (s : State) (d : Desc) : Option Nat :=
  if d.keyHandle = 0 || !rsaOp d.pkOp then some (8 * d.modWords)
  else if hBlob d.keyHandle then none
  else
    (s.keys.keys.find? fun k => k.scope == hScope d.keyHandle && (k.scope != 1 || k.slice == hSlice d.keyHandle) &&
        k.slot == hSlot d.keyHandle && (k.cls == 5 || k.cls == 6)).map fun k => rsaBytes k.cls k.len

/-- The destination bytes R137 checks for (R145, R209, R275). A destination list of a PK_OP that sums to another length is R137's
LENGTH_MISMATCH; R273 can be read to make it DESC_MALFORMED, DETAIL 4 (DESIGN CHOICE, log entry 90). -/
def Desc.dstLen (d : Desc) (k : Nat) : Nat :=
  match d.opcode with
  | 1 => d.length
  | 2 => d.length
  | 3 => d.length + 8
  | 4 => d.length - 8
  | 0x10 => (d.shape k).dst
  | 0x18 => d.length
  | _ => 0

/-! ### Malformed descriptors (R131): the lowest DETAIL among the breaches -/

/-- The lowest code of the breaches that hold. -/
def lowest (l : List (Nat × Bool)) : Option Nat :=
  (l.filter (·.2)).foldl (fun m p => match m with | none => some p.1 | some x => some (Nat.min x p.1)) none

/-- A known descriptor opcode (R145). -/
def opDefined (o : Nat) : Bool := (o ≤ 4) || (8 ≤ o && o ≤ 10) || o == 0x10 || o == 0x18

/-- A VARIANT its opcode defines (R186, R215, R229, R253, R275, R300). -/
def Desc.variantOk (d : Desc) : Bool :=
  let m := d.mode
  match d.opcode with
  | 0 => d.variant == 0
  | 1 => bits d.variant 5 2 == 0 && 1 ≤ m && m ≤ 10 && (!d.ivGen || (m != 1 && m != 7))
  | 2 => bits d.variant 5 3 == 0 && 1 ≤ m && m ≤ 10
  | 3 => bits d.variant 5 3 == 0 && (m == 16 || m == 17)
  | 4 => bits d.variant 5 3 == 0 && (m == 16 || m == 17)
  | 8 => bits d.variant 4 4 == 0 && funcDefined d.func
  | 9 => bits d.variant 5 3 == 0 && 1 ≤ d.func && d.func ≤ 6
  | 10 => bits d.variant 6 2 == 0 && d.func ≤ 13 && !(d.func == 0 && bit d.variant 4)
  | 0x10 =>
    let op := d.pkOp
    let c := d.inl 0
    let h := d.inl 1
    pkDefined op &&
    (!(3 ≤ op && op ≤ 8) || ((1 ≤ h && h ≤ 6) || (8 ≤ h && h ≤ 11))) &&
    (!(op == 0x10 || op == 0x11) || (1 ≤ c && c ≤ 3)) && (op != 0x12 || (1 ≤ c && c ≤ 5)) &&
    (!(op == 0x14 || op == 0x15) || (c == 6 || c == 7)) && (!(0x20 ≤ op && op ≤ 0x23) || (1 ≤ c && c ≤ 3)) &&
    (!(op == 0x10 && d.flag 0) || (1 ≤ h && h ≤ 6))
  | 0x18 => d.variant < 2
  | _ => true

/-- INLINE bytes a cipher mode defines as zero (R193) are not. -/
def Desc.inlineBad (d : Desc) : Bool :=
  let z (off n : Nat) := anySet (sub d.inline off n)
  let m := d.mode
  if d.opcode == 3 && m == 17 then z 4 12
  else if d.opcode == 3 || d.opcode == 4 || m == 1 then z 0 16
  else if m == 7 then false
  else if m == 8 then (d.ivGen && z 0 12) || z 13 3
  else if m == 9 then (if d.ivGen then z 0 13 else z (d.inl 13) (13 - d.inl 13)) || z 15 1
  else if m == 10 then (d.ivGen && z 0 12) || z 12 4
  else d.ivGen && z 0 16

/-- The mode gives a descriptor an OUT2 buffer, on its last link when it is chained (R187). -/
def Desc.usesOut2 (d : Desc) : Bool := (d.opcode == 1 && (d.ivGen || d.aead)) || (d.opcode == 2 && d.aead)

/-- Some field of a cipher descriptor breaks R188, and its last-link rules when last. A field the mode never uses breaks R188 on every
link of a chain; a field the mode uses on another link breaks R146 alone (DESIGN CHOICE, log entry 90). -/
def Desc.cipherBreaches (d : Desc) (later : Bool) : List (Nat × Bool) :=
  let dl := d.dstLen 0
  [(4, !d.aead && d.mode != 7 && (d.auxLen != 0 || d.auxAddr != 0)),
   (4, d.mode == 7 && d.auxAddr != 0),
   (3, d.usesOut2 && !d.chainNext && d.out2Addr == 0),
   (3, !d.usesOut2 && d.out2Addr != 0),
   (3, d.inlineBad),
   (3, dl == 0 && !(d.opcode == 4 && d.length < 8) && (d.dstAddr != 0 || d.dstCount != 0)),
   (6, later && !d.chainNext && d.mode == 3 && d.length < 17),
   (6, later && !d.chainNext && (d.mode == 1 || d.mode == 2) && d.length % 16 != 0)]

/-- Breaches of the digest table (R216). -/
def Desc.digestBreaches (d : Desc) (later : Bool) : List (Nat × Bool) :=
  let shake := d.func == 12 || d.func == 13
  let ver := d.opcode == 9 && d.verify
  [(4, d.auxAddr != 0 && !ver),
   (4, !ver && (if shake then !later && d.auxLen == 0 else d.auxLen != 0)),
   (4, !later && ver && (d.auxLen < 10 || funcLen d.func < d.auxLen)),
   (3, d.dstAddr != 0 || d.dstCount != 0),
   (3, anySet d.inline),
   (3, ver && d.out2Addr != 0),
   (3, !ver && !d.chainNext && d.out2Addr == 0)]

/-- WIDTH of a CRC descriptor's parameters (R229). -/
def Desc.crcWidth (d : Desc) : Nat :=
  match crcPreset d.func with
  | some p => p.width
  | none => bits d.auxLen 0 7

/-- Breaches of the CRC rules (R229). A later link carries no parameters (R146): with PRESET 0 those it carries all the same are judged
by these rules when its AUX_LEN is not 0. -/
def Desc.crcBreaches (d : Desc) (later : Bool) : List (Nat × Bool) :=
  let lo := fieldLe d.inline 0 8
  let hi := fieldLe d.inline 8 8
  let seed := bit d.variant 4
  let w := d.crcWidth
  let own := !later || d.auxLen != 0
  [(3, d.auxAddr != 0 || d.dstAddr != 0 || d.dstCount != 0 || d.out2Addr != 0),
   (3, own && d.func == 0 && (2 ^ w ≤ lo || 2 ^ w ≤ hi)),
   (3, d.func != 0 && (hi != 0 || (!seed && lo != 0) || (seed && 2 ^ w ≤ lo))),
   (4, own && d.func == 0 && (w < 3 || 64 < w || bits d.auxLen 10 6 != 0)),
   (4, d.func != 0 && d.auxLen != 0)]

/-- Breaches of the PK_OP rules (R271 to R273), for a modulus of k bytes where it is known. -/
def Desc.pkBreaches (d : Desc) (k : Option Nat) : List (Nat × Bool) :=
  let op := d.pkOp
  let p := d.shape (k.getD 0)
  let fromAux := p.key = .slotOrAux && d.keyHandle == 0
  let lat := op == 0x22 || op == 0x23
  let ed := op == 0x14 || op == 0x15
  let usesHash := (3 ≤ op && op ≤ 8) || (op == 0x10 && d.flag 0)
  let usesMod := (rsaOp op && fromAux) || rawOp op
  let usesParam := op == 3 || op == 5 || op == 7 || op == 8
  let usesCtx := (ed && (d.inl 0 == 7 || d.flag 1)) || (lat && !d.flag 2)
  [(3, (rsaOp op || rawOp op) && d.inl 0 != 0),
   (3, !usesHash && d.inl 1 != 0),
   (3, if usesMod then d.modWords < (if rawOp op then 1 else 16) || 256 < d.modWords else d.modWords != 0),
   (3, !usesParam && d.paramLen != 0),
   (3, (d.flag 0 && op != 0x10) || (d.flag 1 && !ed) || (d.flag 2 && !lat) || (d.flag 3 && !rawOp op) ||
       (d.flag 4 && !(op == 0x30 || op == 0x31)) || bits (d.inl 6) 5 3 != 0),
   (3, !usesCtx && d.ctxLen != 0),
   (3, anySet (sub d.inline 8 8)),
   (3, p.key = .slot && d.keyHandle == 0),
   (3, p.out2In == 0 && p.out2Out == 0 && d.out2Addr != 0 && !(op == 5 || op == 6)),
   (3, (p.out2In != 0 || p.out2Out != 0 || op == 5 || op == 6) && d.out2Addr == 0),
   (3, if p.dst == 0 && !(k.isNone && rsaOp op) || op == 5 || op == 6 then d.dstAddr != 0 || d.dstCount != 0 else d.dstAddr == 0),
   (4, 8192 < d.length + d.auxLen + p.out2In),
   (4, k.isSome && (d.length < p.srcLo || p.srcHi < d.length)),
   (4, k.isSome && d.auxLen != p.auxLen d)]

/-- Breaches of the RANDOM rules (R300). -/
def Desc.randomBreaches (d : Desc) : List (Nat × Bool) :=
  [(4, d.length == 0),
   (3, d.srcAddr != 0 || d.srcCount != 0 || d.out2Addr != 0 || anySet d.inline),
   (4, d.auxLen != 0 || d.auxAddr != 0)]

/-- Breaches of NOP: counts, LENGTH, addresses and handle are 0 (R145). R145 does not name INLINE: here an INLINE that is not 0 is
malformed too (DESIGN CHOICE, log entry 90). -/
def Desc.nopBreaches (d : Desc) : List (Nat × Bool) :=
  [(3, d.srcCount != 0 || d.dstCount != 0 || d.srcAddr != 0 || d.dstAddr != 0 || d.out2Addr != 0 || anySet d.inline),
   (4, d.length != 0 || d.auxLen != 0 || d.auxAddr != 0)]

/-- A keyless opcode or operation (R131, R272). -/
def Desc.keyless (d : Desc) : Bool :=
  d.opcode == 0 || d.opcode == 8 || d.opcode == 10 || d.opcode == 0x18 || (d.opcode == 0x10 && (d.shape 0).key = .none)

/-- Breaches of the chain rules (R146, R188): `c` is the chain the descriptor is a later link of. -/
def Desc.chainBreaches (d : Desc) (c : Option Chain) : List (Nat × Bool) :=
  [(6, d.chainNext && !d.chainable),
   (6, d.chainNext && (d.opcode == 1 || d.opcode == 2) && d.length % 16 != 0),
   (6, d.chainNext && d.out2Addr != 0),
   (6, match c with
       | some x => d.opcode != x.opcode || d.variant != x.variant || d.keyHandle != x.keyHandle || d.auxLen != 0 || anySet d.inline ||
                   2 ^ 48 < x.sum + d.length
       | none => false)]

/-- A PK_OP's operation is listed by the image of every channel whose microcode is ACTIVE (R252, R253). -/
def State.mcDefined (s : State) (d : Desc) : Bool :=
  s.chs.all fun c => c.mcState != .active || Config.mcLists c.mcVersion d.pkOp

/-- The DETAIL of a malformed descriptor but for its lists (R131), as a later link of `c` or not; none when it is well formed. -/
def State.malformed (s : State) (d : Desc) (c : Option Chain) : Option Nat :=
  let later := c.isSome
  lowest ([(1, !opDefined d.opcode), (2, opDefined d.opcode && !d.variantOk), (2, d.opcode == 0x10 && !s.mcDefined d), (3, d.reservedSet || d.extReservedSet),
           (4, 2 ^ 36 < d.length), (4, d.auxAddr != 0 && d.auxLen == 0),
           (7, hScope d.keyHandle == 3), (7, hBlob d.keyHandle && !d.ext), (7, !hBlob d.keyHandle && d.blobAddr != 0),
           (8, d.keyless && d.keyHandle != 0)] ++
    (if opDefined d.opcode then d.chainBreaches c else []) ++
    (match d.opcode with
     | 0 => d.nopBreaches
     | 1 => d.cipherBreaches later
     | 2 => d.cipherBreaches later
     | 3 => d.cipherBreaches later
     | 4 => d.cipherBreaches later
     | 8 => d.digestBreaches later
     | 9 => d.digestBreaches later
     | 10 => d.crcBreaches later
     | 0x10 => d.pkBreaches (s.pkBytes? d)
     | 0x18 => d.randomBreaches
     | _ => []))

/-- The handle breaks R138 or R323 for a descriptor of slice n; a handle of 0 is of scope 0, and stands only where no key is used. -/
def Desc.handleBad (d : Desc) (n : Nat) : Bool :=
  if d.keyHandle == 0 then (1 ≤ d.opcode && d.opcode ≤ 4) || d.opcode == 9
  else
    let h := d.keyHandle
    hScope h == 0 || (hScope h == 1 && hSlice h != n) || (hScope h == 2 && (hSlice h != 0 || hBlob h))

/-! ### The mode's limits, checked by the channel after the key checks (R187 to R193, R209): INPUT_RANGE when one fails -/

/-- The limits of a cipher or wrap descriptor; `sum` is the bytes of earlier links of its chain. -/
def Desc.rangeOk (d : Desc) (inl : Bytes) (sum : Nat) : Bool :=
  let l := d.length
  let b (i : Nat) := fieldLe inl i 1
  match d.opcode with
  | 3 =>
    if d.mode == 16 then l % 8 == 0 && 16 ≤ l && l ≤ 262136
    else let mli := fieldLe inl 0 4
         1 ≤ mli && mli ≤ 262136 && l == (mli + 7) / 8 * 8
  | 4 => l % 8 == 0 && (if d.mode == 16 then 24 else 16) ≤ l && l ≤ 262144
  | _ =>
    match d.mode with
    | 1 => 16 ≤ l && l % 16 == 0
    | 2 => 16 ≤ l && l % 16 == 0
    | 3 => 16 ≤ l
    | 4 => 1 ≤ l
    | 5 => 1 ≤ l
    | 6 => 1 ≤ l
    | 7 =>
      let u := d.auxLen
      16 ≤ l && (if u == 0 then l ≤ 2 ^ 24 else u % 16 == 0 && u ≤ 65520 && l % u == 0)
    | 8 => sum + l ≤ 2 ^ 36 - 32 && 12 ≤ b 12 && b 12 ≤ 16
    | 9 => 7 ≤ b 13 && b 13 ≤ 13 && l ≤ 2 ^ (8 * (15 - b 13)) - 1 && l ≤ 2 ^ 36 &&
           4 ≤ b 14 && b 14 ≤ 16 && b 14 % 2 == 0
    | 10 => sum + l ≤ 2 ^ 38 - 64
    | _ => true

/-- TAG_LEN in bytes of an authenticated mode (R193). -/
def tagLen (mode : Nat) (inl : Bytes) : Nat :=
  if mode = 8 then fieldLe inl 12 1 else if mode = 9 then fieldLe inl 14 1 else 16

/-- Bytes of IV or nonce a mode draws under IV_GEN (R194). -/
def ivDraw (mode : Nat) (inl : Bytes) : Nat :=
  if mode = 6 ∨ mode = 8 ∨ mode = 10 then 12 else if mode = 9 then fieldLe inl 13 1 else 16

/-! ### Buffers -/

/-- The pieces of data written at an offset of a buffer: one contiguous buffer when the count is 0, else the list in order (R130, R134). -/
def pieces (count addr : Nat) (l : List Sg) (off : Nat) (data : Bytes) : List (Nat × Bytes) :=
  if data.isEmpty then []
  else if count = 0 then [(addr + off, data)]
  else
    let rec go : List Sg → Nat → Bytes → List (Nat × Bytes)
      | [], _, _ => []
      | g :: gs, skip, b =>
        if g.len ≤ skip then go gs (skip - g.len) b
        else
          let n := g.len - skip
          if b.isEmpty then [] else (g.addr + skip, b.take n) :: go gs 0 (b.drop n)
    go l off data

/-- The address ranges n bytes at an offset of a buffer cover, as `pieces` cuts them. -/
def ranges (count addr : Nat) (l : List Sg) (off n : Nat) : List (Nat × Nat) :=
  if n = 0 then []
  else if count = 0 then [(addr + off, n)]
  else
    let rec go : List Sg → Nat → Nat → List (Nat × Nat)
      | [], _, _ => []
      | g :: gs, skip, m =>
        if g.len ≤ skip then go gs (skip - g.len) m
        else if m = 0 then [] else (g.addr + skip, Nat.min m (g.len - skip)) :: go gs 0 (m - (g.len - skip))
    go l off n

/-! ### The message a context belongs to (R146, R167) -/

/-- The chain state a later link imports (R167); none for a first link and for a descriptor of its own. -/
def Ctx.imported (c : Ctx) : Option Chain := if c.inChain && !c.firstLink then c.chain0 else none

/-- INLINE of a message: that of the first link (R146). -/
def Ctx.msgInline (c : Ctx) : Bytes := (c.imported.map (·.inline)).getD c.desc.inline

/-- AUX_LEN of a message: that of the first link. -/
def Ctx.msgAuxLen (c : Ctx) : Nat := (c.imported.map (·.auxLen)).getD c.desc.auxLen

/-- Bytes of a message's earlier links. -/
def Ctx.sumBefore (c : Ctx) : Nat := (c.imported.map (·.sum)).getD 0

/-- The last link of a message, or a descriptor of its own: its last segment ends the message. -/
def Ctx.endsAt (c : Ctx) (k : Nat) : Bool := !c.desc.chainNext && k + 1 == c.desc.segCount

/-- The modulus bytes of a context's PK_OP: its key's, or those MOD_WORDS gives (R274). -/
def Ctx.pkBytes (c : Ctx) : Nat :=
  match c.key with
  | some k => if k.cls == 5 || k.cls == 6 then rsaBytes k.cls k.len else 8 * c.desc.modWords
  | none => 8 * c.desc.modWords

end Sys2Proof.Machine
end

