-- ==== Sys2Proof/Machine/Ops.lean ====
section
/-! DEFINITION. The named operations every meaning is written over: one element of a table changed, a message sent, an event recorded,
an error logged, and what follows of itself whenever channels, causes or conditions change (mode, promise, partitions, voltages). -/

namespace Sys2Proof.Machine

/-! ### One element of a table changed -/

/-- f applied to channel n. -/
def State.modCh (n : Nat) (f : Channel → Channel) (s : State) : State := { s with chs := s.chs.modify n f }

/-- A slice table entry written. -/
def State.setSlice (x : Slice) (s : State) : State := { s with slices := upsert (·.num) x s.slices }

/-- f applied to slice n. -/
def State.modSlice (n : Nat) (f : Slice → Slice) (s : State) : State := s.setSlice (f (s.slice n))

/-- f applied to ring pair p of slice n. -/
def State.modRing (n p : Nat) (f : RingPair → RingPair) (s : State) : State :=
  s.modSlice n fun x => { x with rings := x.rings.modify p f }

/-- A slice interrupt entry (R67). -/
def State.intE (s : State) (i : Nat) : IntEntry := assocD s.ints i {}

/-- f applied to slice interrupt entry i. -/
def State.modInt (i : Nat) (f : IntEntry → IntEntry) (s : State) : State :=
  { s with ints := assocSet s.ints i (f (s.intE i)) }

/-- f applied to the distributor. -/
def State.modDist (f : Dist → Dist) (s : State) : State := { s with dist := f s.dist }

/-- f applied to the context of an id. -/
def State.modCtx (id : Nat) (f : Ctx → Ctx) (s : State) : State :=
  s.modDist fun d => { d with ctxs := d.ctxs.map fun c => if c.id == id then f c else c }

/-- The context of an id taken out. -/
def State.dropCtx (id : Nat) (s : State) : State :=
  s.modDist fun d => { d with ctxs := d.ctxs.filter fun c => c.id != id }

/-- f applied to the random number generation. -/
def State.modRng (f : Rng → Rng) (s : State) : State := { s with rng := f s.rng }

/-- f applied to noise bank b. -/
def State.modBank (b : Nat) (f : Bank → Bank) (s : State) : State :=
  s.modRng fun r => { r with banks := r.banks.modify b f }

/-- The instance of a number: 0 CD_0, 1 CD_1, 2 + n the generator of CH_n (R296). -/
def State.gen (s : State) (i : Nat) : Gen :=
  if i = 0 then s.rng.cd0 else if i = 1 then s.rng.cd1 else s.rng.gens.getD (i - 2) {}

/-- f applied to instance i. -/
def State.modGen (i : Nat) (f : Gen → Gen) (s : State) : State :=
  s.modRng fun r =>
    if i = 0 then { r with cd0 := f r.cd0 }
    else if i = 1 then { r with cd1 := f r.cd1 }
    else { r with gens := r.gens.modify (i - 2) f }

/-- f applied to key custody. -/
def State.modKeys (f : Custody → Custody) (s : State) : State := { s with keys := f s.keys }

/-- f applied to the mailbox engine. -/
def State.modMail (f : Mail → Mail) (s : State) : State := { s with mail := f s.mail }

/-- The mailbox of a number. -/
def State.box (s : State) (m : Nat) : Mailbox := (s.mail.boxes.find? (fun b => b.num == m)).getD { num := m }

/-- f applied to mailbox m. -/
def State.modBox (m : Nat) (f : Mailbox → Mailbox) (s : State) : State :=
  s.modMail fun x => { x with boxes := upsert (·.num) (f (s.box m)) x.boxes }

/-- f applied to tamper source i. -/
def State.modSrc (i : Nat) (f : TSource → TSource) (s : State) : State :=
  { s with tamper := { s.tamper with sources := s.tamper.sources.modify i f } }

/-- A fabric port. -/
def State.port (s : State) (p : Nat) : Port := s.ports.getD p {}

/-- f applied to fabric port p. -/
def State.modPort (p : Nat) (f : Port → Port) (s : State) : State := { s with ports := s.ports.modify p f }

/-- f applied to the hierarchy. -/
def State.modHier (f : Hier → Hier) (s : State) : State := { s with hier := f s.hier }

/-- f applied to the power controller. -/
def State.modPower (f : Power → Power) (s : State) : State := { s with power := f s.power }

/-- f applied to power domain d. -/
def State.modDom (d : Nat) (f : Domain → Domain) (s : State) : State :=
  s.modPower fun p => { p with domains := p.domains.modify d f }

/-- A group regulator. -/
def State.grp (s : State) (g : Nat) : Group := s.power.groups.getD g {}

/-- f applied to group regulator g. -/
def State.modGrp (g : Nat) (f : Group → Group) (s : State) : State :=
  s.modPower fun p => { p with groups := p.groups.modify g f }

/-- f applied to what a world holds. -/
def State.modWorld (w : World) (f : WorldSt → WorldSt) (s : State) : State :=
  match w with
  | .tw => { s with worlds := { s.worlds with tw := f s.worlds.tw } }
  | .ow => { s with worlds := { s.worlds with ow := f s.worlds.ow } }

/-- What a world holds. -/
def State.world (s : State) : World → WorldSt
  | .tw => s.worlds.tw
  | .ow => s.worlds.ow

/-- Commands of a list of numbers done in order. -/
def State.each (l : List Nat) (f : Nat → State → State) (s : State) : State := l.foldl (fun t n => f n t) s

/-- Undefined bytes: n free bytes, and the count of draws moved on. -/
def State.freeBytes (n : Nat) (s : State) : Bytes × State :=
  ((List.range n).map (Config.freeByte s.glob.freeCtr), { s with glob := { s.glob with freeCtr := s.glob.freeCtr + 1 } })

/-! ### Messages -/

/-- An exit of a domain (R569): LAST_WAKE, WAKES and EXITS. -/
def State.wakeNote (d source : Nat) (s : State) : State :=
  (s.modDom d fun x => { x with exits := sat 16 (x.exits + 1), pstate := .run, waking := none }).modPower fun p =>
    { p with wakeSource := source, wakeDomain := d, wakes := (p.wakes + 1) % 1024 }

/-- A domain has work (R551): a channel entries held, an operation, a scrub or a self-test; a fabric port frames that wait or stand
unacknowledged, or a link that is not up. -/
def State.working (s : State) (d : Nat) : Bool :=
  if d < 36 then
    let c := s.ch d
    c.st == .scrub || c.st == .selftest || s.held d != 0 || c.pkRun.isSome
  else
    let x := s.port (d - 40)
    x.st != .up || !x.txq.isEmpty || !x.replay.isEmpty || !x.rx.isEmpty

/-- PSTATE of a domain: a channel or a fabric port is in IDLE exactly while it has no work (R551). -/
def State.pstateNow (s : State) (d : Nat) : PState :=
  let p := (s.dom d).pstate
  if (d < 36 || (40 ≤ d && d < 60)) && (p == .run || p == .idle) then (if s.working d then .run else .idle) else p

/-- A domain stands in SLEEP or DEEP. -/
def State.asleep (s : State) (d : Nat) : Bool := (s.dom d).pstate = .sleep || (s.dom d).pstate = .deep

/-- A wake source begins the exit of a domain in SLEEP or DEEP, where none is under way (R567). -/
def State.startWake (d : Nat) (w : WakeSource) (s : State) : State :=
  if s.asleep d && (s.dom d).waking.isNone then s.modDom d fun x => { x with waking := some w } else s

/-- A TLP put behind those that wait for transmission or for an Ack. -/
def State.push (o : Out) (s : State) : State := { s with hp := { s.hp with tx := s.hp.tx ++ [o] } }

/-- A vector of the management function sent, or held in the PBA while it is masked. -/
def State.postVec (v : Nat) (s : State) : State :=
  match s.hp.msix.find? (fun e => e.1 == v) with
  | some (_, addr, data, false) => s.push (.msix v addr data)
  | _ => { s with hp := { s.hp with pba := if s.hp.pba.contains v then s.hp.pba else s.hp.pba ++ [v] } }

/-- A condition of vector 0, 2 or 3 sets its DEV_IRQ_CAUSE bit (R592): 0 MODE, 1 PROMISE, 2 RECORDER, 3 LINK. -/
def State.noteCause (b : Nat) (s : State) : State :=
  { s with glob := { s.glob with irqCause := s.glob.irqCause ||| BitVec.ofNat 4 (2 ^ b) } }

/-- The link's power state changed: LINK_PM, and vector 3 (the vector table). -/
def State.setLinkPm (pm : Nat) (s : State) : State :=
  if s.hp.linkPm = pm then s else State.postVec 3 (State.noteCause 3 { s with hp := { s.hp with linkPm := pm } })

/-- A TLP to send while the link is in L1 or a substate starts the L1 exit (R77): the link returns to L0 and the host port domain to RUN. -/
def State.linkExit (s : State) : State :=
  if s.hp.dlUp && !s.hp.d3hot && 2 ≤ s.hp.linkPm && s.hp.linkPm ≤ 4 then
    let s1 := s.setLinkPm 0
    if (s.dom 60).pstate = .idle then s1.modDom 60 fun d => { d with pstate := .run }
    else if (s.dom 60).pstate = .run then s1 else s1.wakeNote 60 4
  else s

/-- The pages of an address range, numbered from 0. -/
def pagesOf (addr len : Nat) : List Nat := (pageStarts addr len).map (· / 4096)

/-- The translations of an address range under a PASID held in the translation cache, the oldest replaced (log entry 97). -/
def State.translate (pasid addr len : Nat) (s : State) : State :=
  let new := ((pagesOf addr len).map fun p => (pasid, p)).filter fun e => !s.hp.ats.contains e
  { s with hp := { s.hp with ats := newest Config.atsEntries (s.hp.ats ++ new) } }

/-- A TLP handed to the host port for transmission: it wakes the link (R77), and one under a PASID uses a translation (R60, R62). -/
def State.emit (o : Out) (s : State) : State :=
  let s1 := s.linkExit.push o
  match o with
  | .write (some p) addr data => s1.translate p addr data.length
  | .record _ _ _ _ p addr data => s1.translate p addr data.length
  | _ => s1

/-- A vector of the management function raised: sent, which wakes the link (R77), or held in the PBA while it is masked. -/
def State.raiseVec (v : Nat) (s : State) : State :=
  (if s.hp.msix.any (fun e => e.1 == v && !e.2.2.2) then s.linkExit else s).postVec v

/-- A raise of vector 0, 2 or 3 for its condition (R592). -/
def State.raiseCause (b : Nat) (s : State) : State :=
  (s.noteCause b).raiseVec (if b = 2 then 2 else if b = 3 then 3 else 0)

/-- A slice interrupt through an entry of a slice (R67, R68): sent, or held pending while the entry is masked. -/
def State.sliceInt (entry n : Nat) (s : State) : State :=
  let e := s.intE entry
  if e.allocated && e.owner == n then
    if e.mask then s.modInt entry fun x => { x with pending := true }
    else s.emit (.sliceMsg entry e.addr e.msg)
  else s

/-! ### The event recorder's write path -/

/-- A flush begins, unless one runs (R490). -/
def State.flushStart (s : State) : State := { s with er := { s.er with flushing := true } }

/-- A record whose arrival starts a flush (R490). -/
def urgentRecord (typ grade : Nat) (body : Bytes) : Bool :=
  1 ≤ grade || typ == 0x70 || typ == 0x71 || typ == 0x02 ||
  (typ == 0x30 && fieldLe body 1 1 == 6) || (typ == 0x20 && fieldLe body 1 1 == 5)

/-- The number taken: NEXT_SEQ moves on, and at the middle of its block the following block is reserved (R489). -/
def Recorder.takeSeq (r : Recorder) : Recorder :=
  let n := r.nextSeq + 1
  { r with nextSeq := n, reservedEnd := if n % 65536 = 32768 then (n / 65536 + 2) * 65536 else r.reservedEnd }

/-- A record placed in the buffer, or dropped and counted when all 8,192 entries hold unflushed records (R492). -/
def Recorder.put (r : Recorder) (x : Record) : Recorder :=
  if r.buffer.length < Config.erBuffer then { r with buffer := r.buffer ++ [x] }
  else { r with lost := sat 32 (r.lost + 1),
                lostRange := some ((r.lostRange.map Prod.fst).getD x.seq, x.seq) }

/-- One record written (R485, R486): numbered, buffered, and vector 2 raised where R499 says. -/
def State.writeRec (typ src grade : Nat) (merged : Bool) (body : Bytes) (s : State) : State :=
  let x : Record := ⟨s.er.nextSeq, typ, src, grade, s.gradeInForce, merged, body⟩
  let r := s.er.takeSeq.put x
  let s1 := { s with er := r }
  let s2 := if urgentRecord typ grade body || Config.flushAt ≤ r.buffer.length then s1.flushStart else s1
  if s.er.notifyAll || s.er.notifyGrade ≤ grade || s.er.lost != r.lost then s2.raiseCause 2 else s2

/-- The LOST record (R492): once a buffer entry is free it is written before any other, and covers the dropped numbers. -/
def State.writeLost (s : State) : State :=
  match s.er.lostRange with
  | some (a, b) =>
    if s.er.buffer.length < Config.erBuffer then
      State.writeRec 3 1 0 false (pack [(8, a), (8, b)]) { s with er := { s.er with lostRange := none } }
    else s
  | none => s

/-- The number the next event record takes: that after a LOST record that is due (R492). -/
def State.recordSeq (s : State) : Nat := s.writeLost.er.nextSeq

/-- An event recorded, behind a LOST record that is due. -/
def State.recordM (typ src grade : Nat) (merged : Bool) (body : Bytes) (s : State) : State := s.writeLost.writeRec typ src grade merged body

/-- An event recorded that no Tahr entry made. -/
def State.record (typ src grade : Nat) (body : Bytes) (s : State) : State := s.recordM typ src grade false body

/-- The CHANNEL record (R487). -/
def State.recordChannel (n : Nat) (old new : ChState) (s : State) : State :=
  s.record 0x20 (0x100 + n) 0 (pack [(1, old.code), (1, new.code), (1, (s.ch n).fenceCause), (4, (s.ch n).generation)])

/-- The RNG record (R487): bank or instance, event. -/
def State.recordRng (who event : Nat) (s : State) : State := s.record 0x30 7 0 (pack [(1, who), (1, event)])

/-! ### The host port's error log -/

/-- An error arrives (R71): its bit is set; the log takes it when the status was all zero, and overflows otherwise; vector 1 is raised. -/
def State.hpError (b cause code : Nat) (write : Bool) (bar sl addr : Nat) (s : State) : State :=
  let hp :=
    if s.hp.errStatus = 0 then
      { s.hp with errStatus := BitVec.ofNat 6 (2 ^ b), errAddr := addr, errCause := cause, errCode := code, errWrite := write,
                  errBar := bar, errSlice := sl }
    else { s.hp with errStatus := s.hp.errStatus ||| BitVec.ofNat 6 (2 ^ b) ||| 0x20#6 }
  State.raiseVec 1 { s with hp := hp }

/-! ### Mode, promise, partitions -/

/-- The mode the causes call for: the most restrictive of them (R30, R36). -/
def State.modeFor (s : State) : Mode :=
  if s.md.zeroised then .zeroised
  else if s.md.startup || s.md.manager || s.md.noChannel || s.md.alarm then .keep
  else if 32 ≤ s.inServiceCount then .full else .reduced

/-- DEV_MODE brought up to date against the word it read before (R38): a change of mode counts, raises vector 0 and is recorded. -/
def State.refreshMode (oldWord : Nat) (s : State) : State :=
  let s1 := { s with md := { s.md with noChannel := if s.md.startup then s.md.noChannel else s.inServiceCount == 0 } }
  let m := s1.modeFor
  if m = s.md.mode then s1
  else
    let s2 := { s1 with md := { s1.md with mode := m, changes := (s1.md.changes + 1) % 256 } }
    (s2.record 0x10 0 0 (pack [(4, oldWord), (4, s2.modeWord)])).raiseCause 0

/-- PROMISE_STATUS kept current from READY on (R54): a change of ISO_DEVICE or AVAIL is recorded and raises vector 0. -/
def State.refreshPromise (s : State) : State :=
  if s.md.promiseOn then
    let p := s.promiseNow
    let s1 := { s with md := { s.md with promise := p } }
    if p >>> 16 = s.md.promise >>> 16 then s1
    else (s1.record 0x11 0 0 (pack [(4, s.md.promise.toNat), (4, p.toNat)])).raiseCause 1
  else s

/-- PART_DEGRADED of one slice brought up to date (R98), each change recorded: 1 set, 2 clear. -/
def State.refreshPartition (n : Nat) (s : State) : State :=
  let x := s.slice n
  let deg := x.exists_ && x.partition && (s.exclList x).isEmpty
  if deg = x.partDegraded then s
  else (s.modSlice n fun y => { y with partDegraded := deg }).record 0x21 0 0 (pack [(2, n), (1, if deg then 1 else 2)])

/-- PART_DEGRADED of every slice brought up to date. -/
def State.refreshPartitions (s : State) : State := s.each (s.slices.map (·.num)) State.refreshPartition

/-! ### Voltages -/

/-- The set point of an operating point in mV (R557). -/
def setPoint (op : Nat) : Nat := 720 + 20 * op

/-- CAP_MAX of an operating point (R557). -/
def capMax (op : Nat) : Nat := [737, 809, 881, 952].getD op 1024

/-- BASE: the lowest point whose CAP_MAX is at least TARGET (R562). -/
def basePoint (target : Nat) : Nat :=
  if target ≤ 737 then 0 else if target ≤ 809 then 1 else if target ≤ 881 then 2 else if target ≤ 952 then 3 else 4

/-- The channel group of a channel (R15). -/
def groupOf (n : Nat) : Nat := n / 9

/-- The point a channel requests (R15, R562): nothing when it is fenced, under scrub or FAILED. -/
def State.requested (s : State) (n : Nat) : Option Nat :=
  let c := s.ch n
  let d := s.dom n
  match c.st with
  | .service | .slow | .draining => some (Nat.max d.opLoop d.opMin)
  | .selftest => if c.test = .none then none else some 7
  | .scrub | .failed => none

/-- The TARGET in force: clamped to 737 under A1 (R563). -/
def Domain.targetNow (d : Domain) : Nat := if d.clamp then Nat.min 737 d.target else d.target

/-- The highest cap a group's regulator allows: CAP_MAX of the last set point that settled, while it is in fault (R566). -/
def Group.capLimit (g : Group) : Nat := if g.fault then capMax ((g.lastSettled - 720) / 20) else 1024

/-- A channel runs a paced operation that has not been released. -/
def Channel.pacedRunning (c : Channel) : Bool :=
  match c.pkRun with
  | some r => r.paced && !r.wiping
  | none => false

/-- One channel's point lowered where its request is lower (R563): the cap first, or PACED_HOLD while a paced operation runs. -/
def State.lowerPoint (n : Nat) (s : State) : State :=
  match s.requested n with
  | some p =>
    let d := s.dom n
    if p < d.op then
      if (s.ch n).pacedRunning then s.modDom n fun d => { d with pacedHold := true }
      else s.modDom n fun d => { d with op := p, cap := Nat.min (Nat.min d.targetNow (capMax p)) (s.grp (groupOf n)).capLimit, pacedHold := false }
    else if (s.ch n).pacedRunning && Nat.min d.targetNow (capMax d.op) < d.cap then s
    else s.modDom n fun d => { d with cap := Nat.min (Nat.min d.targetNow (capMax d.op)) (s.grp (groupOf n)).capLimit, pacedHold := false }
  | none => s.modDom n fun d => { d with pacedHold := false }

/-- The set point a channel needs: that of its request, or of the point in force while a lowering waits. -/
def State.needMv (s : State) (n : Nat) : Option Nat :=
  (s.requested n).map fun p => setPoint (if (s.dom n).pacedHold then Nat.max p (s.dom n).op else p)

/-- The set point of a group: the highest its channels need, OP_0's when none requests anything (R15, R564). -/
def State.groupMv (s : State) (g : Nat) : Nat :=
  ((List.range 9).filterMap fun i => s.needMv (9 * g + i)).foldl Nat.max 720

/-- The regulator of a group written where its set point changes (R564); never lower during a fault (R566). -/
def State.writeGroup (g : Nat) (s : State) : State :=
  let mv := s.groupMv g
  let r := s.grp g
  if mv = r.setMv ∨ (r.fault ∧ mv < r.setMv) then s
  else s.modGrp g fun r => { r with setMv := mv, settled := false, writes := (r.writes + 1) % 65536 }

/-- One channel's point raised where the group already stands settled at or above it (R563). -/
def State.raisePoint (n : Nat) (s : State) : State :=
  match s.requested n with
  | some p =>
    let g := s.grp (groupOf n)
    if (s.dom n).op < p && setPoint p ≤ g.setMv && (g.settled || setPoint p ≤ g.lastSettled) then
      s.modDom n fun d => { d with op := p, cap := Nat.min (Nat.min d.targetNow (capMax p)) g.capLimit }
    else s
  | none => s

/-- A self-test's tests begin once its group reports OP_7 settled (R175, R562). -/
def State.startTest (n : Nat) (s : State) : State :=
  let g := s.grp (groupOf n)
  if (s.ch n).test = .settle ∧ g.settled ∧ g.setMv = setPoint 7 then s.modCh n fun c => { c with test := .run } else s

/-- Caps and voltages brought in line, each lowering before the lower voltage and each raise after the higher (R560). -/
def State.refreshPower (s : State) : State :=
  let all := List.range 36
  (((s.each all State.lowerPoint).each [0, 1, 2, 3] State.writeGroup).each all State.raisePoint).each all State.startTest

/-- What follows of itself after a change: partitions, mode, promise and voltages, against the mode word read before. -/
def State.settle (s before : State) : State :=
  ((s.refreshPartitions.refreshMode before.modeWord).refreshPromise).refreshPower

/-! ### Descriptor contexts -/

/-- A context ends: its record may be written. Reads still outstanding stay counted until they complete. -/
def Ctx.ended (c : Ctx) (st : Status) (detail : Nat) (result : BitVec 64) : Ctx :=
  { c with phase := .finished, queued := none, status := st, detail := detail, result := result, reads := [], segs := [], held := [] }

/-- Bytes read from OUT2: the expected tag of an authenticated decryption's last link (R187), or a signature (R275). -/
def Ctx.out2Len (c : Ctx) : Nat :=
  let d := c.desc
  if d.opcode == 2 && d.aead && !d.chainNext then tagLen d.mode c.msgInline
  else if d.opcode == 0x10 then (d.shape c.pkBytes).out2In else 0

/-- The address ranges a read of a context covers (R60, R130): a segment of the source, the auxiliary input, OUT2. -/
def Ctx.span (c : Ctx) : DmaPart → List (Nat × Nat)
  | .source k => ranges c.desc.srcCount c.desc.srcAddr c.src (Config.segment * k) (c.desc.segLen k)
  | .aux => [(c.desc.auxAddr, c.desc.auxLen)]
  | .out2 => [(c.desc.out2Addr, c.out2Len)]
  | _ => []

/-- The reads of a context left outstanding. -/
def Ctx.orphanReads (c : Ctx) : List Orphan :=
  if c.owner == .slice then
    c.reads.map fun p => { ctx := c.id, part := p, slice := c.slice, pasid := c.pasid, spans := c.span p }
  else []

/-- A descriptor offered to a neighbour admitted (R180): its entry is passed at the ring. -/
def State.admitOffered (c : Ctx) (s : State) : State :=
  if c.offered then
    (s.modRing c.slice c.rp fun r =>
      { r with sqHead := (r.sqHead + (if c.desc.ext then 2 else 1)) % r.sqSize, fetched := none, chain := none }).modCtx c.id fun x =>
      { x with executed := true }
  else s

/-- Descriptors offered to a neighbour withdrawn from it: they stand at their rings' heads as before (R180, R181). -/
def State.dropOffered (which : Ctx → Bool) (s : State) : State :=
  s.modDist fun d =>
    { d with ctxs := d.ctxs.filter fun c => !(c.offered && which c),
             orphans := d.orphans ++ (d.ctxs.filter fun c => c.offered && which c).flatMap Ctx.orphanReads }

/-- The context has ended with a DMA fault: nothing that follows of its own work changes that (R70). -/
def Ctx.faulted (c : Ctx) : Bool := c.phase == .finished && c.status == .dmaFault

/-- The descriptor of a context ends with a status (R140). -/
def State.finish (id : Nat) (st : Status) (detail : Nat) (result : BitVec 64) (s : State) : State :=
  match s.ctx? id with
  | some c =>
    if c.faulted then s else
    let s1 := (s.admitOffered c).modCtx id fun c => c.ended st detail result
    let s2 := s1.modDist fun d => { d with orphans := d.orphans ++ c.orphanReads }
    if st = .dmaFault then s2.hpError 3 5 0x22 (detail == 3 || detail == 4) 7 c.slice result.toNat else s2
  | none => s

/-- DETAIL of a DMA_FAULT by the access that failed (the detail table; the expected tag and a signature count as auxiliary, R204). -/
def dmaDetail : DmaPart → Nat
  | .source _ => 1 | .aux => 2 | .out2 => 2 | .dest => 3 | .out2w => 4

/-- The first of a context's reads that fails its admission, with its address (R26, R447). -/
def State.readRefused (s : State) (c : Ctx) (parts : List DmaPart) : Option (DmaPart × Nat) :=
  (parts.flatMap fun p => (c.span p).filterMap fun r => (s.dmaRefused .read r.1 r.2).map fun a => (p, a)).head?

/-- Reads of a local context issued under its slice's PASID (R60, R77), or the descriptor ended with DMA_FAULT where one fails its
admission (R26, R447). -/
def State.issueReads (id : Nat) (parts : List DmaPart) (s : State) : State :=
  match s.ctx? id with
  | some c =>
    if parts.isEmpty then s
    else
      match s.readRefused c parts with
      | some (p, a) => s.finish id .dmaFault (dmaDetail p) (BitVec.ofNat 64 a)
      | none =>
        ((parts.flatMap c.span).foldl (fun t r => t.translate c.pasid r.1 r.2) s.linkExit).modCtx id fun x => { x with reads := x.reads ++ parts }
  | none => s

/-- Pieces of output written under a context's PASID, up to the first that fails its admission: that one ends the descriptor with
DMA_FAULT (R26, R60, R447). -/
def State.emitPieces (c : Ctx) (detail : Nat) : List (Nat × Bytes) → State → State
  | [], s => s
  | p :: ps, s =>
    match s.dmaRefused .write p.1 p.2.length with
    | some a => s.finish c.id .dmaFault detail (BitVec.ofNat 64 a)
    | none => State.emitPieces c detail ps (s.emit (.write (some c.pasid) p.1 p.2))

/-- Data written to a context's destination at an offset, under its PASID (R27, R60); for another device's work it is kept for the
result (R180, R542). -/
def State.writeDst (c : Ctx) (off : Nat) (data : Bytes) (s : State) : State :=
  if c.owner != .slice then s.modCtx c.id fun x => { x with outBuf := putAt x.outBuf off data }
  else s.emitPieces c 3 (pieces c.desc.dstCount c.desc.dstAddr c.dst off data)

/-- Data written to a context's OUT2 buffer. -/
def State.writeOut2 (c : Ctx) (data : Bytes) (s : State) : State :=
  if data.isEmpty then s
  else if c.owner != .slice then s.modCtx c.id fun x => { x with out2Buf := data }
  else if (s.ctx? c.id).any Ctx.faulted then s
  else s.emitPieces c 4 [(c.desc.out2Addr, data)]

/-- A context made ready to run from its start (R52, R80, R155): its own copy of the descriptor, nothing of the earlier run. A later
link takes the chain state again when it is issued (R167). -/
def Ctx.again (c : Ctx) : Ctx :=
  { c with phase := .ready, home := none, queued := none, segs := [], nextSeg := 0, image := [], crcRun := 0,
           aux := if c.owner == .slice then none else c.aux, out2In := if c.owner == .slice then none else c.out2In,
           reads := [], iv := [], held := [], outBuf := [], out2Buf := [], key := none, rerun := true, priority := true, spilledRec := false,
           paceGrew := false, status := .done,
           detail := 0, bytes := 0, result := 0 }

/-- A context run again from its start on another channel (R52); one that waits for its blob goes on waiting (R25). -/
def State.rerunCtx (id : Nat) (s : State) : State :=
  match s.ctx? id with
  | some c =>
    (s.modCtx id fun x => if c.phase == .waitBlob then { x with home := none, queued := none } else x.again).modDist fun d =>
      { d with orphans := d.orphans ++ c.orphanReads }
  | none => s

/-- Some channel in service could be eligible for a descriptor: any, or for a PK_OP one whose microcode is ACTIVE (R52). -/
def State.anyEligible (s : State) (d : Desc) : Bool :=
  s.chs.any fun c => c.inService && (d.opcode != 0x10 || c.mcState == .active)

/-- The fate of a descriptor whose channel is fenced (R52): run again, or INTERNAL when nothing could take it or its third run failed. -/
def State.rerunOrFail (id : Nat) (s : State) : State :=
  match s.ctx? id with
  | some c =>
    if c.phase == .finished then s
    else if !s.anyEligible c.desc || 3 ≤ c.runs + 1 then s.finish id .internal 0 0
    else (s.rerunCtx id).modCtx id fun c => { c with runs := c.runs + 1 }
  | none => s

/-! ### Channels -/

/-- A session abandoned (R236, R240): closed, its context and result cleared. -/
def Session.abandoned (x : Session) (st : Status) : Session :=
  { x with isOpen := false, status := st, error := st != .done, busy := false, resultValid := false, isMatch := false, result := [],
           image := [], context := [], waiting := [], fed := 0, crcValue := 0 }

/-- A session abandoned with its channel: its STATUS reads ABORTED (R240). -/
def Session.lost (x : Session) : Session := x.abandoned .aborted

/-- The sessions of a channel abandoned. -/
def Channel.loseSessions (c : Channel) : Channel :=
  { c with session0 := c.session0.lost, session1 := c.session1.lost,
           digests := c.digests.filter fun o => match o with | .session _ => false | .ctx _ => true }

/-- Everything a scrub clears of a channel (R175). -/
def Channel.scrubbed (c : Channel) : Channel :=
  { c with cache := [], ctxStore := [], digests := [], pkRun := none, bnOwner := none, regKey := [], regIn := [], regWork := [],
           regResult := [], session0 := c.session0.lost, session1 := c.session1.lost }

/-- A generator uninstantiated, its state erased (R298). -/
def Gen.erased (g : Gen) : Gen := { refused := g.refused, interval := g.interval }

/-- Instance i uninstantiated; no reseed of it is due any more. -/
def State.eraseGen (i : Nat) (s : State) : State :=
  (s.modGen i Gen.erased).modRng fun r => { r with due := r.due.filter (· != i) }

/-- The lowest held spare released: its mark clears at once, and it takes credit from the next window (R178). -/
def State.releaseSpare (s : State) : State :=
  match (List.range 36).find? (fun n => (s.ch n).heldSpare) with
  | some n => s.modCh n fun c => { c with heldSpare := false, spareWait := true }
  | none => s

/-- A channel out of service takes no entries (DIST block: CREDIT_LIMIT 0). -/
def Channel.outOfService (c : Channel) (st : ChState) : Channel :=
  { c with st := st, creditLimit := 0, heldSpare := false, spareWait := false, deferred := false, lowWindows := 0, goodWindows := 0,
           test := .none, powerUp := false }

/-- A channel taken out by a fence on a fault (R174): out of service at once, its sessions lost, then SCRUB. A drain turned into a fence
is one fence (R174, R184); the third within 24 hours is marked (R176). A channel under self-test goes back to SCRUB, and one under scrub
goes on with it: the fence is noted and, as R184 has it for CH_FENCE, counts nothing. A channel that sleeps wakes for its scrub (R567). -/
def State.fenceOut (cause n : Nat) (s : State) : State :=
  let old := (s.ch n).st
  if old = .failed then s
  else if old = .scrub then s.modCh n fun c => { c with fenceCause := cause }
  else
    let counted := old = .service || old = .slow
    let s1 := s.modCh n fun c =>
      { (c.outOfService .scrub) with fences := if counted then s.glob.uptimeMs :: c.fences else c.fences, fenceCause := cause }
    let s2 := if 3 ≤ s1.fences24 n then s1.modCh n fun c => { c with fenceCause := 8 } else s1
    let s3 := (((s2.modCh n fun c => { c.loseSessions with pkRun := none }).modGen (n + 2) fun g => { g with waiting := [] }).modDom n
      fun d => { d with opMin := 0 }).startWake n .internal
    (if counted then s3.releaseSpare else s3).recordChannel n old .scrub

/-- A descriptor admitted, with no channel and waiting for one, that no channel in service could ever take (R52). -/
def State.stranded (s : State) (c : Ctx) : Bool :=
  c.executed && c.phase == .ready && c.home.isNone && c.desc.opcode != 0 && !s.anyEligible c.desc

/-- Descriptors that wait for a channel and find none left end INTERNAL (R52). -/
def State.failStranded (s : State) : State :=
  s.each ((s.dist.ctxs.filter s.stranded).map (·.id)) fun id t => t.finish id .internal 0 0

/-- Channels fenced together (R13, R174): all leave service first, then their descriptors run again on what is left, or end INTERNAL. -/
def State.fenceAll (l : List Nat) (cause : Nat) (s : State) : State :=
  let ids := (s.dist.ctxs.filter fun c => match c.home with | some n => l.contains n && (s.ch n).st != .failed | none => false).map (·.id)
  ((s.each l (State.fenceOut cause)).each ids State.rerunOrFail).failStranded

/-- A channel fenced on a fault. -/
def State.fence (n cause : Nat) (s : State) : State := s.fenceAll [n] cause

/-- What a descriptor holds on its home channel given back: its context-store entry and digest context (R164, R219), its input region (R249). -/
def State.releaseHome (c : Ctx) (s : State) : State :=
  match c.home with
  | some n => s.modCh n fun ch =>
      { ch with ctxStore := ch.ctxStore.filter (· != c.id), digests := ch.digests.filter (· != .ctx c.id),
                regIn := ch.regIn.filter (·.1 != c.id) }
  | none => s

/-- An entry that has not begun: nothing of the descriptor has run, and no PK_OP has passed its T0 (R172). -/
def Ctx.notBegun (c : Ctx) : Bool :=
  match c.phase with
  | .issued => c.segs.all (fun g => !g.ran) && c.nextSeg ≤ c.segs.length
  | .ready | .waitDraw => c.nextSeg == 0
  | .waitBlob => true
  | _ => false

/-- A context's entries withdrawn, to be issued again ahead of others (R52, R172): its input is read again. One that waits for its
blob goes on waiting. -/
def State.withdraw (id : Nat) (s : State) : State :=
  match s.ctx? id with
  | some c =>
    ((s.releaseHome c).modCtx id fun c =>
      { c with phase := if c.phase == .waitBlob then .waitBlob else .ready, home := none, queued := none, segs := [], nextSeg := 0, reads := [],
               aux := if c.owner == .slice then none else c.aux, out2In := if c.owner == .slice then none else c.out2In,
               image := [], iv := [], key := none, priority := true }).modDist fun d =>
      { d with orphans := d.orphans ++ c.orphanReads }
  | none => s

/-- The segments of a begun descriptor that have not run withdrawn from its draining home, to be issued again ahead of others (R52,
R168, R172). -/
def State.withdrawSegs (id : Nat) (s : State) : State :=
  match s.ctx? id with
  | some c =>
    let n := (c.segs.filter (!·.ran)).length
    (s.modCtx id fun c => { c with segs := c.segs.filter (·.ran), nextSeg := c.nextSeg - n, reads := [], priority := true }).modDist fun d =>
      { d with orphans := d.orphans ++ c.orphanReads }
  | none => s

/-- A channel drained (R172): entries it has not begun are withdrawn and issued again first; begun entries and begun held decryptions
(R206) finish there; its sessions are lost (R240). -/
def State.drain (n cause : Nat) (s : State) : State :=
  let old := (s.ch n).st
  if old = .service ∨ old = .slow then
    let s1 := s.modCh n fun c =>
      { (c.outOfService .draining) with fences := s.glob.uptimeMs :: c.fences, fenceCause := cause }
    let s2 := if 3 ≤ s1.fences24 n then s1.modCh n fun c => { c with fenceCause := 8 } else s1
    let s3 := (s2.modCh n Channel.loseSessions).releaseSpare
    let gone := ((s3.chCtxs n).filter Ctx.notBegun).map (·.id)
    let cut := ((s3.chCtxs n).filter fun c => !c.notBegun && c.phase == .issued && c.desc.holdBytes == 0 && 1 < c.nextSeg).map (·.id)
    ((s3.each gone State.withdraw).each cut State.withdrawSegs).recordChannel n old .draining
  else s

/-- Every admitted descriptor aborted, one offered to a neighbour withdrawn (R33, R34): it ends ABORTED, DETAIL 1, and a running PK_OP is wiped (R248, R249). -/
def State.abortAdmitted (s : State) : State :=
  let ids := (s.dist.ctxs.filter fun c => c.executed && c.phase != .finished).map (·.id)
  let s1 := (s.dropOffered fun _ => true).each ids fun id t => t.finish id .aborted 1 0
  { s1 with chs := s1.chs.map fun c => { c with pkRun := c.pkRun.map fun r => { r with wiping := true } } }

end Sys2Proof.Machine
end

