-- ==== Sys2Proof/Machine/KeyPush.lean ====
section
/-! DEFINITION. Key lookup and policy (R323 to R329, R189, R226, R272), the key cache of a channel and its fills (R345 to R349), and
the marking of a bad row (R333). -/

namespace Sys2Proof.Machine

/-! ### Naming a key -/

/-- What a descriptor's handle names, as a cache tag (R347); none for a handle of 0. -/
def Desc.keyRef (d : Desc) (slice inst : Nat) (hdr : Bytes) : Option KeyRef :=
  if d.keyHandle = 0 then none
  else if hBlob d.keyHandle then some (.staged slice inst d.blobAddr (sub hdr 0x20 16))
  else if hScope d.keyHandle = 1 then some (.slot 1 slice inst (hSlot d.keyHandle))
  else some (.slot (hScope d.keyHandle) 0 0 (hSlot d.keyHandle))

/-- The tag of a context's key. -/
def Ctx.keyRef (c : Ctx) : Option KeyRef := c.desc.keyRef c.slice c.inst c.hdr

/-- What a slot of the key SRAM holds for a handle (R323, R324). -/
inductive SlotLook where
  | empty
  /-- a slot of a run other than its first -/
  | inside
  | key (k : Key)
deriving DecidableEq, Repr

/-- A key's slots cover a slot number of a namespace: scope 1 has one namespace per slice. -/
def Key.covers (k : Key) (scope slice slot : Nat) : Bool :=
  k.scope == scope && (scope != 1 || k.slice == slice) && k.slot ≤ slot && slot < k.slot + k.rows

/-- A slot looked up; the rows of a deleted key are empty, and count until they are freed (R327, R345). -/
def State.lookSlot (s : State) (scope slice slot : Nat) : SlotLook :=
  match s.keys.keys.find? (fun k => k.covers scope slice slot) with
  | some k => if k.cls = 0 then .empty else if k.slot = slot then .key k else .inside
  | none => .empty

/-- f applied to the key of a first slot. -/
def State.modKey (scope slice slot : Nat) (f : Key → Key) (s : State) : State :=
  s.modKeys fun x => { x with keys := x.keys.map fun k => if k.covers scope slice slot && k.slot == slot then f k else k }

/-- A staged entry matches a header (R336). -/
def State.stagedFor (s : State) (slice inst blobAddr : Nat) (tag : Bytes) : Option Staged :=
  s.keys.stage.find? fun e =>
    e.slice == slice && e.inst == inst && e.blobAddr == blobAddr && e.tag == tag && e.epoch == s.keys.epoch

/-! ### Policy (R329) -/

/-- CLASS of the key a cipher mode takes (R189). -/
def modeClass (mode : Nat) : Nat := if mode = 7 then 2 else if mode = 10 then 3 else 1

/-- The bit of MODES a mode needs (R327). -/
def modeBit (mode : Nat) : Nat := if mode = 16 then 11 else if mode = 17 then 12 else mode

/-- CLASS and PARAM fit a public-key operation (R272, R326). -/
def pkClassFits (d : Desc) (k : Key) : Bool :=
  let c := d.inl 0
  match d.pkOp with
  | 0x01 => k.cls == 6 || k.cls == 5
  | 0x02 => k.cls == 5
  | 0x03 => k.cls == 5
  | 0x04 => k.cls == 5
  | 0x05 => k.cls == 6 || k.cls == 5
  | 0x06 => k.cls == 6 || k.cls == 5
  | 0x07 => k.cls == 5
  | 0x08 => k.cls == 6 || k.cls == 5
  | 0x10 => k.cls == 7 && k.param == c
  | 0x11 => k.cls == 8 && k.param == c
  | 0x12 => k.cls == 7 && k.param == c
  | 0x14 => k.cls == 9 && k.param == c
  | 0x15 => k.cls == 10 && k.param == c
  | 0x21 => k.cls == 11 && k.param == c
  | 0x22 => k.cls == 13 && k.param == c
  | 0x23 => k.cls == 14 && k.param == c
  | _ => false

/-- The USAGE bits a public-key operation needs (R328). -/
def pkUsage (op : Nat) : List Nat :=
  match op with
  | 0x01 => [7]
  | 0x02 => [10, 11]
  | 0x03 => [6]
  | 0x04 => [6]
  | 0x05 => [7]
  | 0x06 => [7]
  | 0x07 => [10, 11]
  | 0x08 => [7]
  | 0x10 => [6]
  | 0x11 => [7]
  | 0x12 => [8, 11]
  | 0x14 => [6]
  | 0x15 => [7]
  | 0x21 => [9, 11]
  | 0x22 => [6]
  | 0x23 => [7]
  | _ => []

/-- CLASS and PARAM fit the descriptor's operation. -/
def Desc.classFits (d : Desc) (k : Key) : Bool :=
  match d.opcode with
  | 9 => k.cls == 4 && k.param == d.func
  | 0x10 => pkClassFits d k
  | _ => k.cls == modeClass d.mode

/-- The USAGE bits the descriptor's operation needs. -/
def Desc.usageBits (d : Desc) : List Nat :=
  match d.opcode with
  | 1 => [0]
  | 2 => [1]
  | 3 => [2]
  | 4 => [3]
  | 9 => [if d.verify then 5 else 4]
  | 0x10 => pkUsage d.pkOp
  | _ => []

/-- A cipher or key-wrap descriptor. -/
def Desc.isCipher (d : Desc) : Bool := 1 ≤ d.opcode && d.opcode ≤ 4

/-- The policy check of R329, with the equal halves of R189: the handle names a first slot whose key fits and permits the use. A shadow
holds no material here: the holder of its key compares the halves (R542). -/
def Desc.keyFits (d : Desc) (slice : Nat) (k : Key) : Bool :=
  d.classFits k && d.usageBits.all (fun b => k.usage.getLsbD b) &&
  (!d.isCipher || k.modes.getLsbD (modeBit d.mode)) &&
  (k.scope != 2 || k.anySlice || k.slice == slice) &&
  !(d.isCipher && d.mode == 7 && !k.shadow && k.material.take (k.len / 2) == k.material.drop (k.len / 2))

/-! ### The key cache -/

/-- A cache entry a context may use: every tag its own (R347), and not invalidated before its admission (R345). -/
def CacheEntry.serves (e : CacheEntry) (c : Ctx) (generation : Nat) : Bool :=
  some e.ref == c.keyRef && e.epoch == c.epoch && e.generation == generation &&
  match e.stale with
  | some n => c.id < n
  | none => true

/-- A context of a channel references an entry (R348): it holds a copy and has not finished. -/
def State.referenced (s : State) (n : Nat) (e : CacheEntry) : Bool :=
  (s.chCtxs n).any fun c => c.key.isSome && c.phase != .finished && some e.ref == c.keyRef && e.epoch == c.epoch

/-- The least recently used entries no held entry references, dropped until the rows fit (R348). -/
def evict (refd : CacheEntry → Bool) (rows : Nat) : List CacheEntry → List CacheEntry
  | [] => []
  | e :: es =>
    if Config.cacheSlots < rows + ((e :: es).map (·.key.rows)).sum then
      if refd e then e :: evict refd (rows + e.key.rows) es else evict refd rows es
    else e :: es

/-- The key a context admitted before a change of it still uses, with the change's bound (R345). -/
def State.oldKey (s : State) (c : Ctx) : Option (Nat × Key) :=
  (s.keys.old.find? fun e => some e.1 == c.keyRef && c.id < e.2.1).map (·.2)

/-- A key filled into the cache of a channel for a context, most recent last. -/
def State.fill (n : Nat) (c : Ctx) (k : Key) (s : State) : State :=
  match c.keyRef with
  | some r =>
    s.modCh n fun ch =>
      { ch with cache := evict (s.referenced n) k.rows (ch.cache.filter fun e => !e.serves c ch.generation) ++
                           [⟨r, c.epoch, ch.generation, k, (s.oldKey c).map (·.1)⟩] }
  | none => s

/-- Cached copies of a reference dropped at once, and kept only as the copies running descriptors already hold. -/
def State.dropCopies (r : KeyRef) (s : State) : State :=
  { s with chs := s.chs.map fun c => { c with cache := c.cache.filter fun e => e.ref != r } }

/-- Cached copies of a reference invalidated (R345): contexts admitted so far may still use them. -/
def State.invalidateCopies (r : KeyRef) (s : State) : State :=
  { s with chs := s.chs.map fun c =>
      { c with cache := c.cache.map fun e => if e.ref == r && e.stale.isNone then { e with stale := some s.dist.nextCtx } else e } }

/-- The reference of a key's slot under its slice's present INSTANCE. -/
def State.refOf (s : State) (k : Key) : KeyRef :=
  if k.scope = 1 then .slot 1 k.slice (s.slice k.slice).inst k.slot else .slot k.scope 0 0 k.slot

/-- A context still uses a key as it stood before a change. -/
def State.usesOld (s : State) (e : KeyRef × Nat × Key) : Bool :=
  s.dist.ctxs.any fun c => c.keyRef == some e.1 && c.id < e.2.1 && c.phase != .finished

/-- A key is about to change (R345): its cached copies are invalidated, and descriptors admitted so far keep it as it stands. -/
def State.supersede (k : Key) (s : State) : State :=
  (s.invalidateCopies (s.refOf k)).modKeys fun x =>
    { x with old := x.old.filter s.usesOld ++ [(s.refOf k, s.dist.nextCtx, k)] }

/-- Every descriptor admitted before a change of this key has finished (R345). -/
def State.oldDropped (s : State) (r : KeyRef) : Bool := s.keys.old.all fun e => e.1 != r || !s.usesOld e

/-- Old copies of a key's slot are dropped (R345). A domain slot of 0x200 stands for every domain slot from there on. -/
def State.copiesGone (s : State) (scope slice slot : Nat) : Bool :=
  if scope = 2 && slot = 0x200 then
    s.keys.old.all fun e => match e.1 with | .slot 2 _ _ n => n < 0x200 || !s.usesOld e | _ => true
  else s.oldDropped (.slot scope (if scope = 1 then slice else 0) (if scope = 1 then (s.slice slice).inst else 0) slot)

/-- A command whose change is committed once its old copies are gone (R345): a deleted key's rows are freed. -/
def State.freeRows (scope slice slot : Nat) (delete : Bool) (s : State) : State :=
  let gone (x : Key) : Bool := x.scope == scope && x.slice == slice && x.slot == slot && x.cls == 0
  s.modKeys fun k => { k with keys := if delete then k.keys.filter fun x => !gone x else k.keys, old := k.old.filter s.usesOld }

/-- The handle of a key (R323). -/
def Key.handle (k : Key) : Nat := k.scope * 2 ^ 30 + (if k.scope = 1 then k.slice else 0) * 2 ^ 18 + k.slot

/-- The KEY_BAD record (R487): handle and rows. -/
def State.recordKeyBad (k : Key) (s : State) : State := s.record 0x40 1 0 (pack [(4, k.handle), (1, k.rows)])

/-- A row whose tag check failed (R333): its run is marked BAD, the event recorded, cached copies invalidated. -/
def State.markBad (k : Key) (s : State) : State :=
  if k.bad then s
  else ((s.modKey k.scope k.slice k.slot fun x => { x with bad := true }).dropCopies (s.refOf k)).recordKeyBad k

/-! ### The key check of R136 at the channel -/

/-- What the key check finds. -/
inductive KeyCheck where
  /-- no key is named -/
  | noKey
  /-- a cached copy serves -/
  | cached (k : Key)
  /-- the key is filled from its rows -/
  | filled (k : Key)
  /-- a shadow: its material lies with a holder (R538, R542) -/
  | shadow (k : Key)
  /-- the staged entry is gone: the blob is opened again (R25) -/
  | again
  | fail (st : Status)
deriving DecidableEq, Repr

/-- The key of a context at channel n. -/
def State.keyCheck (s : State) (n : Nat) (c : Ctx) : KeyCheck :=
  let judge (k : Key) (ok : Key → KeyCheck) : KeyCheck := if c.desc.keyFits c.slice k then ok k else .fail .keyPolicy
  match c.keyRef with
  | none => .noKey
  | some (.staged sl inst addr tag) =>
    match (s.ch n).cache.find? (fun e => e.serves c (s.ch n).generation) with
    | some e => judge e.key .cached
    | none =>
      match s.stagedFor sl inst addr tag with
      | some e => judge e.key .filled
      | none => .again
  | some (.slot scope sl _ slot) =>
    let stored (k : Key) : KeyCheck := if k.bad then .fail .keySlotBad else judge k (if k.shadow then .shadow else .filled)
    match s.oldKey c with
    | some (b, k) =>
      if (s.ch n).cache.any fun e => e.serves c (s.ch n).generation && e.stale == some b then judge k .cached else stored k
    | none =>
      match (s.ch n).cache.find? (fun e => e.serves c (s.ch n).generation) with
      | some e => judge e.key .cached
      | none =>
        match s.lookSlot scope sl slot with
        | .empty => .fail .keyAbsent
        | .inside => .fail .keyPolicy
        | .key k => stored k

end Sys2Proof.Machine
end

