-- ==== Sys2Proof/Machine/Draws.lean ====
section
/-! DEFINITION. Draws (R295 to R307): one generate call of an instance, its wait list, its due reseeds, and what its waiting draws meet
when the instance is seeded or when the source has failed. -/

namespace Sys2Proof.Machine

/-- What a draw meets. -/
inductive Drawn where
  | bytes (b : Bytes)
  /-- it stands in the wait list (R305), or waits for a reseed -/
  | waits
  | refused (st : Status)
  /-- the wait list of a stalled instance is full: the draw is held back (R305) -/
  | held
deriving DecidableEq, Repr

/-- A reseed of the instance is due (R297). -/
def State.isDue (s : State) (i : Nat) : Bool := s.rng.due.contains i

/-- An instance whose reseed is due while the buffer holds no block for it is STRETCHED, with its record (R303). -/
def State.stretch (i : Nat) (s : State) : State :=
  if (s.gen i).st == .seeded && s.isDue i && s.rng.buffer.isEmpty then
    (s.modGen i fun g => { g with st := .stretched }).recordRng (4 + i) 4
  else s

/-- A reseed made due, behind those already due (R302, R303). -/
def State.makeDue (i : Nat) (s : State) : State :=
  (if s.isDue i then s else s.modRng fun r => { r with due := r.due ++ [i] }).stretch i

/-- A draw refused: counted in REFUSED. -/
def State.refuse (i : Nat) (st : Status) (s : State) : Drawn × State :=
  (.refused st, s.modGen i fun g => { g with refused := sat 32 (g.refused + 1) })

/-- A draw put at the end of the wait list; one that finds the list of an instantiated instance full is held back, and asks again (R305 says
so of a STALLED instance; of the others DESIGN CHOICE, log entry 91). -/
def State.wait (i : Nat) (w : Waiter) (s : State) : Drawn × State :=
  if (s.gen i).waiting.length < Config.waitList then (.waits, s.modGen i fun g => { g with waiting := g.waiting ++ [w] })
  else (.held, s)

/-- Whose DRBG use a descriptor's draw is (R95): its slice's, and beyond the slice numbers the device's it works for (R250, R542). -/
def Ctx.drawer (c : Ctx) : Nat :=
  match c.owner with
  | .slice => c.slice
  | .spilledIn _ _ o => Config.slices + o
  | .remoteIn _ _ o => Config.slices + o

/-- Whose DRBG use a waiting draw is; none for firmware's and commands' draws. -/
def State.drawer? (s : State) : Waiter → Option Nat
  | .ctx id _ => (s.ctx? id).map Ctx.drawer
  | _ => none

/-- A draw port's output delivered (R595). -/
def State.portDone (w : World) (n : Nat) (st : Status) (b : Bytes) (s : State) : State :=
  s.modWorld w fun x => { x with drawBusy := false, drawStatus := st, drawValid := st == .done,
                                 drawData := if st == .done then padTo 64 (b.take n) else zeros 64 }

/-- A waiting draw ended with RNG_FAILED (R307). -/
def State.failDraw (w : Waiter) (s : State) : State :=
  match w with
  | .ctx id _ => s.finish id .rngFailed 0 0
  | .port wd n _ => s.portDone wd n .rngFailed []
  | .cmd c _ _ => s.modMail fun m =>
      { m with running := m.running.map fun j => if j.caller == c && j.kind == .draw then { j with kind := .wait, status := .rngFailed } else j }
  | .root => s

/-- Every waiting draw of an instance ended with RNG_FAILED (R307). -/
def State.failWaiting (i : Nat) (s : State) : State :=
  let l := (s.gen i).waiting
  l.foldl (fun t w => t.failDraw w)
    (s.modGen i fun g => { g with waiting := [], prPending := false, refused := sat 32 (g.refused + l.length) })

/-- The counter of an instance stands at 2^24: it is STALLED, with its record; while the source is FAILED its draws end (R303, R307). -/
def State.stall (i : Nat) (s : State) : State :=
  let s1 := (s.modGen i fun g => { g with st := .stalled }).recordRng (4 + i) 5
  if s.rng.source = .failed then s1.failWaiting i else s1

/-- One generate call of a seeded instance: n bytes for the draw w, the instance's state updated, the draw counted as its slice's use, and
the reseed due at 2^interval calls; at 2^24 calls the instance is STALLED (R295, R297, R299, R303, R95). -/
def State.call (i n : Nat) (w : Waiter) (s : State) : Bytes × State :=
  let g := s.gen i
  let out := Config.prim .drbgOut [g.seed, leBytes 4 n] n
  let s1 := s.modGen i fun g =>
    { g with calls := g.calls + 1, seed := Config.prim .drbgNext [g.seed, leBytes 4 n] 48,
             used := match s.drawer? w with
                     | some x => assocSet g.used x (assocD g.used x 0 + n)
                     | none => g.used }
  let s2 := if 2 ^ g.interval ≤ g.calls + 1 then s1.makeDue i else s1
  (out, if Config.maxCalls ≤ g.calls + 1 then s2.stall i else s2)

/-- The instance may not call: its counter stands at 2^24 (R303). -/
def Gen.spent (g : Gen) : Bool := Config.maxCalls ≤ g.calls

/-- A draw of n bytes from an instance (R303 to R307). -/
def State.draw (i n : Nat) (pr : Bool) (w : Waiter) (s : State) : Drawn × State :=
  let g := s.gen i
  match g.st with
  | .failed => s.refuse i .rngFailed
  | .unseeded =>
    if s.rng.source = .failed then s.refuse i .rngFailed
    else if g.waiting.length < Config.waitList then s.wait i w
    else s.refuse i .notReady
  | .stalled => if s.rng.source = .failed then s.refuse i .rngFailed else s.wait i w
  | _ =>
    if pr || g.returned then (s.modGen i fun g => { g with prPending := true }).wait i w
    else if !g.waiting.isEmpty then s.wait i w
    else if s.isDue i then
      if s.rng.buffer.isEmpty then
        let (b, s2) := (s.stretch i).call i n w
        (.bytes b, s2)
      else s.wait i w
    else
      let (b, s1) := s.call i n w
      (.bytes b, s1)

/-! ### Serving the wait list -/

/-- A waiting draw asks for prediction resistance. -/
def State.wantsPr (s : State) : Waiter → Bool
  | .ctx id _ => match s.ctx? id with
    | some c => c.desc.opcode == 0x18 && bit c.desc.variant 0
    | none => false
  | .port _ _ pr => pr
  | .cmd _ _ pr => pr
  | .root => true

/-- One waiting draw served: a descriptor's goes into its context, a port's to its registers, a command's is kept for its reply. -/
def State.deliver (i : Nat) (w : Waiter) (s : State) : State :=
  match w with
  | .ctx id n =>
    if (s.ctx? id).any (fun c => c.phase == .waitDraw) then
      let (b, s1) := s.call i n w
      s1.modCtx id fun c => { c with phase := .ready, iv := c.iv ++ b }
    else s
  | .port wd n _ =>
    let (b, s1) := s.call i n w
    s1.portDone wd n .done b
  | .cmd c n _ =>
    let (b, s1) := s.call i n w
    s1.modRng fun r => { r with served := r.served ++ [(c, b)] }
  | .root =>
    let (b, s1) := s.call i 64 w
    s1.modKeys fun k => { k with root := some b, lcPending := none }

/-- DRBG_SHARE and WEIGHT of a drawer (R95): a slice's own; 0 and the weight 256 of R542 for another device's work. -/
def State.drawTerms (s : State) (x : Nat) : Nat × Nat :=
  if x < Config.slices then ((s.slice x).drbgShare, (s.slice x).weight) else (0, 256)

/-- A drawer has drawn no more of an instance's output in the window than its share of it (R95, R301). DESIGN CHOICE (log entry 91): the
output is what the instance has delivered to slices since the window began. -/
def State.withinShare (s : State) (g : Gen) (x : Nat) : Bool :=
  let share := (s.drawTerms x).1
  share != 0 && assocD g.used x 0 * Config.poolDrbg ≤ share * (g.used.map (·.2)).sum

/-- Draw a is served before draw b when demand exceeds supply (R95, R301): one within its share first, then the one whose slice has drawn
less for its WEIGHT; in arrival order otherwise. -/
def State.drawsFirst (s : State) (i : Nat) (a b : Waiter) : Bool :=
  match s.drawer? a, s.drawer? b with
  | some x, some y =>
    let g := s.gen i
    if s.withinShare g x != s.withinShare g y then s.withinShare g x
    else !s.withinShare g x && assocD g.used x 0 * (s.drawTerms y).2 < assocD g.used y 0 * (s.drawTerms x).2
  | _, _ => false

/-- The draw served next of a wait list: the oldest after an instantiation (R305), otherwise the one R95 puts first. -/
def State.nextDraw (s : State) (i : Nat) (arrival : Bool) : Option Waiter :=
  match (s.gen i).waiting with
  | [] => none
  | w :: ws => some (if arrival then w else ws.foldl (fun b x => if s.drawsFirst i x b then x else b) w)

/-- At most n waiting draws of a seeded instance served, as far as they may go: one that asks for prediction resistance takes the reseed
just made, or waits for its own (R297). -/
def State.serveList (i : Nat) (arrival : Bool) : Nat → Bool → State → State
  | 0, _, s => s
  | n + 1, fresh, s =>
    match s.nextDraw i arrival with
    | none => s
    | some w =>
      let pr := s.wantsPr w
      if pr && !fresh then s.modGen i fun g => { g with prPending := true }
      else if (s.gen i).st == .stalled then s
      else State.serveList i arrival n (fresh && !pr) ((s.modGen i fun g => { g with waiting := g.waiting.erase w }).deliver i w)

/-- The wait list of an instance served after its instantiation (in arrival order, R305) or its reseed (R95). -/
def State.serve (i : Nat) (arrival : Bool) (s : State) : State := State.serveList i arrival (s.gen i).waiting.length true s

/-- The buffer has run dry (R303): an instance whose reseed is due is STRETCHED and goes on with the draws that waited for it, unless one asks
for prediction resistance or its channel has just returned. -/
def State.ranDry (s : State) : State :=
  if !s.rng.buffer.isEmpty then s
  else
    s.each (s.rng.due.filter fun i => (s.gen i).st == .seeded && !(s.gen i).returned && !(s.gen i).prPending) fun i t =>
      let u := t.stretch i
      State.serveList i false (u.gen i).waiting.length false u

/-- A descriptor's wait for a draw withdrawn from every list (R306). -/
def State.dropWaiter (id : Nat) (s : State) : State :=
  let f (g : Gen) : Gen := { g with waiting := g.waiting.filter fun w => match w with | .ctx j _ => j != id | _ => true }
  s.modRng fun r => { r with cd0 := f r.cd0, cd1 := f r.cd1, gens := r.gens.map f }

/-! ### Descriptors that draw (R304) -/

/-- The operation has a blinded form: RSA private operations, ECDSA and EdDSA signing, ECDH (the disciplines, R264). -/
def blindable (op : Nat) : Bool := op == 2 || op == 3 || op == 4 || op == 7 || op == 0x10 || op == 0x12 || op == 0x14

/-- The operation takes a random value of its own (R276), in bytes. -/
def Desc.pkDraw (d : Desc) : Nat :=
  match d.pkOp with
  | 0x03 => d.paramLen
  | 0x08 => d.hashLen
  | 0x10 => if d.flag 0 then 0 else curveField (d.inl 0) + 8
  | 0x20 => 32
  | 0x22 => 32
  | _ => 0

/-- The descriptor calls for a draw (R304). -/
def Desc.draws (d : Desc) (pkBlinded : Bool) : Bool :=
  (d.opcode == 1 && d.ivGen) || d.opcode == 0x18 ||
  (d.opcode == 0x10 && (d.pkDraw != 0 || (pkBlinded && !d.fixed && blindable d.pkOp)))

/-- The generator of a channel is neither stalled nor uninstantiated (R304). -/
def State.genReady (s : State) (n : Nat) : Bool :=
  let g := s.gen (n + 2)
  g.st == .seeded || g.st == .stretched

/-- The channels of a list a descriptor that draws may go to (R304, R305): those whose generator serves, where there are any; then those
whose wait list has room. -/
def State.drawFilter (s : State) (d : Desc) (pkBlinded : Bool) (l : List Nat) : List Nat :=
  if !d.draws pkBlinded then l
  else
    let ready := l.filter s.genReady
    if ready.isEmpty then l.filter fun n => (s.gen (n + 2)).st != .stalled || (s.gen (n + 2)).waiting.length < Config.waitList
    else ready

end Sys2Proof.Machine
end

