-- ==== Sys2Proof/Machine/Rates.lean ====
section
/-! DEFINITION. Nominal times of R158: the time of an entry's work at the per-channel rate of its operation at the nominal operating
point (R212, R211, R217, R218, R301, R263), in picoseconds. -/

namespace Sys2Proof.Machine

/-- The time of n bytes at a rate in Gb/s, in picoseconds. -/
def psAt (gbps n : Nat) : Nat := if gbps = 0 then 0 else n * 8000 / gbps

/-- One of three rates by AES key length. -/
def byKey (len a b c : Nat) : Nat := if len = 16 then a else if len = 24 then b else c

/-- The nominal rate of a cipher mode (R212). -/
def cipherRate (mode keyLen : Nat) (enc : Bool) : Nat :=
  match mode with
  | 1 => byKey keyLen 78 65 56
  | 6 => byKey keyLen 78 65 56
  | 8 => byKey keyLen 64 56 50
  | 7 => if keyLen = 32 then 64 else 50
  | 10 => 40
  | 2 => if enc then byKey keyLen 22 18 16 else byKey keyLen 78 65 56
  | 3 => if enc then byKey keyLen 22 18 16 else byKey keyLen 78 65 56
  | 4 => if enc then byKey keyLen 22 18 16 else byKey keyLen 78 65 56
  | _ => byKey keyLen 22 18 16

/-- The nominal rate of a digest function (R218). -/
def digestRate (f : Nat) : Nat :=
  if f ≤ 2 then 25 else if f ≤ 6 then 38
  else match f with
    | 8 => 42 | 9 => 40 | 10 => 30 | 11 => 21 | 12 => 49 | _ => 40

/-- The block operations of a wrap of n semiblocks of plaintext (R211). -/
def wrapOps (kwp : Bool) (n : Nat) : Nat := if kwp && n ≤ 1 then 1 else 6 * n

/-- The CRC stage takes its fast path (R233), for a descriptor with the parameters of its message. -/
def Desc.crcFast (d : Desc) : Bool :=
  let p := crcPreset d.func
  let w := d.crcWidth
  let rin := (p.map (·.refin)).getD (bit d.auxLen 7)
  let rout := (p.map (·.refout)).getD (bit d.auxLen 8)
  w % 8 == 0 && rin == rout

/-- The operand-length class of a number of words (R243); 9 stands for class L. -/
def wordClass (w : Nat) : Nat :=
  if w ≤ 4 then 0 else if w ≤ 6 then 1 else if w ≤ 9 then 2 else if w ≤ 16 then 3 else if w ≤ 32 then 4
  else if w ≤ 48 then 5 else if w ≤ 64 then 6 else if w ≤ 128 then 7 else 8

/-- The class of a CURVE (R271). -/
def curveClass : Nat → Nat
  | 1 => 0 | 2 => 1 | 3 => 2 | 4 => 0 | 5 => 2 | 6 => 0 | _ => 2

/-- The quantum of a class, in picoseconds (R243). -/
def quantumPs (cls : Nat) : Nat :=
  if cls = 7 ∨ cls = 8 then 16000000 else if 3 ≤ cls ∧ cls ≤ 6 then 1000000 else 250000

/-- The class of a PK_OP whose RSA modulus has k bytes (R243). -/
def Desc.pkClass (d : Desc) (k : Nat) : Nat :=
  let op := d.pkOp
  if op == 0x20 || op == 0x21 || op == 0x22 || op == 0x23 then 9
  else if rsaOp op then wordClass (k / 8)
  else if rawOp op then wordClass d.modWords
  else curveClass (d.inl 0)

/-- Operations per second of the rate table's row for an operation (R283), a modulus of k bytes and public exponent e; none where the
table has no row. -/
def Desc.pkRate (d : Desc) (k e : Nat) : Option Nat :=
  match d.pkOp, d.inl 0 with
  | 0x10, 1 => some 48000 | 0x10, 2 => some 16000 | 0x10, 3 => some 6000
  | 0x11, 1 => some 20000
  | 0x12, 1 => some 45000 | 0x12, 4 => some 60000
  | 0x14, 6 => some 70000 | 0x14, 7 => some 22000
  | 0x15, 6 => some 28000
  | 0x20, 1 => some 90000 | 0x20, 2 => some 60000 | 0x20, 3 => some 42000
  | 0x21, 2 => some 50000
  | 0x22, 1 => some 32000 | 0x22, 2 => some 20000 | 0x22, 3 => some 15000
  | 0x23, 2 => some 55000
  | 0x30, _ => if d.modWords = 32 && (d.flag 3 || d.flag 4) then some 2400 else none
  | 0x31, _ => if d.modWords = 32 && !d.flag 3 && !d.flag 4 then some 900000 else none
  | op, _ =>
    if e != 65537 then none
    else if op == 1 || op == 5 || op == 6 then (if k = 256 then some 180000 else none)
    else if op == 2 || op == 3 || op == 4 then
      (if k = 256 then some 9000 else if k = 384 then some 2700 else if k = 512 then some 1100 else none)
    else none

/-- The public exponent of a context's RSA operation: behind the modulus, in its key or in the auxiliary input (R274, R326). -/
def Ctx.rsaE (c : Ctx) : Nat :=
  ofBe (sub (if c.desc.keyHandle = 0 then c.aux.getD [] else (c.key.map (·.material)).getD []) c.pkBytes 4)

/-- The nominal time of a PK_OP on channel n (R158, R263): a paced one's is its base paces at OP_4, MLDSA_SIGN's setup and attempts together;
a measured or blinded one's is at the rate of R283. -/
def State.pkNominalPs (s : State) (n : Nat) (c : Ctx) : Nat :=
  let d := c.desc
  let cls := d.pkClass c.pkBytes
  let free := match d.pkRate c.pkBytes c.rsaE with
    | some r => 1000000000000 / r
    | none => Config.nominalPk d.pkOp (d.inl 0) cls
  match (s.ch n).pkRun with
  | some r =>
    if r.paced then
      let b (part : Nat) := Config.basePace (s.ch n).mcVersion d.pkOp (d.inl 0) cls 4 part
      (b 0 + r.part * b 1) * quantumPs cls
    else free
  | none => free

/-- The nominal time of segment k of a context (R158): AAD counts with the message's first segment (R213), SHAKE output and the
composition of a keyed digest once, with its last (R217). -/
def State.nominalPs (s : State) (n : Nat) (c : Ctx) (k : Nat) : Nat :=
  let d := c.desc
  let aad := if d.aead && k = 0 && c.imported.isNone then d.auxLen else 0
  let len := d.segLen k
  let keyLen := (c.key.map (·.len)).getD 0
  match d.opcode with
  | 1 => psAt (cipherRate d.mode keyLen true) (aad + len)
  | 2 => psAt (cipherRate d.mode keyLen false) (aad + len)
  | 3 => wrapOps (d.mode == 17) (len / 8) * byKey keyLen 5800 7100 8000
  | 4 => wrapOps (d.mode == 17) (len / 8 - 1) * byKey keyLen 5800 7100 8000
  | 8 => psAt (digestRate d.func) (len + if c.endsAt k && 12 ≤ d.func then c.msgAuxLen else 0)
  | 9 => psAt (digestRate d.func) len + (if c.endsAt k then (if d.func ≤ 2 then 120000 else 160000) else 0)
  | 10 => psAt (if ({ d with auxLen := c.msgAuxLen } : Desc).crcFast then 64 else 6) len
  | 0x10 => s.pkNominalPs n c
  | 0x18 => psAt 32 len
  | _ => 0

/-- A channel finished segment k of a context (R157, R158): the entry counts in ENTRIES_DONE and in the window. -/
def State.entryDone (c : Ctx) (k : Nat) (s : State) : State :=
  match c.home with
  | some n =>
    s.modCh n fun ch => { ch with entriesDone := (ch.entriesDone + 1) % 2 ^ 64, winEntries := ch.winEntries + 1,
                                  winNominal := ch.winNominal + s.nominalPs n c k }
  | none => s

/-- Every entry a context still holds finished. -/
def State.entriesDone (c : Ctx) (s : State) : State := (c.segs.map (·.k)).foldl (fun t k => t.entryDone c k) s

/-- A descriptor ended by its unit (R140): its entries finish, and its record may be written. -/
def State.endOp (c : Ctx) (st : Status) (detail bytes : Nat) (result : BitVec 64) (s : State) : State :=
  ((s.entriesDone c).finish c.id st detail result).modCtx c.id fun x => { x with bytes := if x.faulted then x.bytes else bytes }

end Sys2Proof.Machine
end

