-- ==== Sys2Proof/Machine/Links.lean ====
section
/-! DEFINITION. What the fabric ports carry: frames, credits and the replay buffer (R516 to R520), routes (R529), the loss of a link
and what hangs on it (R182, R508, R514, R515, R543), and work sent to another device (R180, R542). -/

namespace Sys2Proof.Machine

/-! ### Units and frames -/

/-- The virtual channel of a unit (R528). -/
def UnitOut.vc : UnitOut → Nat
  | .hello => 0 | .route _ _ => 0 | .beat _ _ _ => 0 | .beatAck _ => 0 | .voteReq _ _ => 0 | .vote _ _ => 0
  | .change _ => 1 | .commit _ _ => 1 | .changeAck _ _ => 1 | .syncReq _ _ => 1 | .sync _ _ => 1
  | .spillReq _ => 2 | .spillResult _ => 2 | .spillRefuse _ => 2
  | .remoteReq _ _ => 2 | .remoteResult _ _ => 2 | .remoteRefuse _ _ => 2
  | .recordUp _ _ => 3 | .recordAck _ _ => 3
  | .forwarded h => if h.utype < 0x10 then 0 else if h.utype < 0x20 then 1 else if h.utype < 0x30 then 2 else 3

/-- Bytes of a change's body. -/
def changeLen : ChangeKind → Nat
  | .dkNew dk d => dk.length + d.length
  | .dkStage _ dk => 1 + dk.length
  | .dkActivate _ => 1
  | .dkeyPut _ a m => 4 + a.length + m.length
  | .dkeyDel _ => 4
  | .dkeyPolicy _ _ _ => 12
  | .param l _ => 4 + 2 * l.length

/-- Bytes of a snapshot or of a list of changes. -/
def syncLen : SyncBody → Nat
  | .changes cs => (cs.map fun c => 16 + changeLen c.kind).sum
  | .snapshot _ _ d dks slots l _ =>
    14 + 2 * l.length + d.length + (dks.map fun k => 3 + k.dk.length).sum + (slots.map fun x => 12 + x.attrs.length + x.material.length).sum

/-- BODY_LEN of a unit: the sizes of what R528 says it carries (log entry 20). -/
def UnitOut.bodyLen : UnitOut → Nat
  | .hello => 64
  | .route a w => 3 * (a.length + w.length)
  | .beat _ _ _ => 14
  | .beatAck _ => 4
  | .voteReq _ _ => 12
  | .vote _ c => 4 + (match c with | some x => 12 + changeLen x.kind | none => 0)
  | .change c => 13 + changeLen c.kind
  | .commit _ _ => 12
  | .changeAck _ l => 8 + 2 * l.length
  | .syncReq _ _ => 8
  | .sync _ b => syncLen b
  | .spillReq w => w.entry.length + 16 + w.source.length + w.aux.length + w.out2.length
  | .spillResult w => 16 + w.output.length + w.out2.length
  | .spillRefuse _ => 0
  | .remoteReq _ w => w.entry.length + 16 + w.source.length + w.aux.length + w.out2.length
  | .remoteResult _ w => 16 + w.output.length + w.out2.length
  | .remoteRefuse _ _ => 0
  | .recordUp _ l => 64 * l.length
  | .recordAck _ _ => 8
  | .forwarded h => h.bodyLen

/-- The frames of a unit, one for each part of 2,032 bytes (R527). -/
def UnitOut.frames (u : UnitOut) : List TxFrame :=
  let n := u.bodyLen
  let k := Nat.max 1 ((n + 2031) / 2032)
  (List.range k).map fun i => { item := u, part := i, parts := if k = 1 then 0 else k, vc := u.vc, len := 1 + (Nat.min 2032 (n - 2032 * i) + 15) / 16 }

/-- Credits a DATA frame takes (R518). -/
def frameCredits (len : Nat) : Nat := (len * 16 + 32 + 63) / 64

/-- Bytes of the replay buffer in use (R519). -/
def Port.replayBytes (p : Port) : Nat := (p.replay.map fun f => 32 + 16 * f.2.len).sum

/-- A frame handed to the transmitter: its counter, its SEQ, its credits, its copy in the replay buffer. -/
def Port.transmit (f : TxFrame) (p : Port) : Port :=
  { p with txCtr := p.txCtr + 1, txSeq := (p.txSeq + 1) % 65536, replay := p.replay ++ [(p.txSeq, f)],
           txCredits := p.txCredits.modify f.vc fun c => c - frameCredits f.len }

/-- The transmitter may send a frame now (R518, R520). -/
def Port.maySend (f : TxFrame) (p : Port) : Bool :=
  p.st == .up && p.replayBytes + 32 + 16 * f.len ≤ 524288 && frameCredits f.len ≤ p.txCredits.getD f.vc 0

/-- The waiting frames of a virtual channel, oldest first. -/
def Port.waiting (p : Port) (vc : Nat) : List TxFrame := p.txq.filter (·.vc == vc)

/-- A waiting frame sent. -/
def Port.sendWaiting (f : TxFrame) (p : Port) : Port := { p with txq := p.txq.erase f }.transmit f

/-- The frames of virtual channel 0, sent in their order until one may not go (strict priority, R518). -/
def Port.strict : List TxFrame → Port → Port
  | [], p => p
  | f :: l, p => if p.maySend f then Port.strict l (p.sendWaiting f) else p

/-- Frames of a virtual channel sent while its deficit lasts; an empty queue gives its deficit up (R518). -/
def Port.burst (vc : Nat) : List TxFrame → Port → Port
  | [], p => { p with deficits := p.deficits.set vc 0 }
  | f :: l, p =>
    if p.maySend f && frameCredits f.len ≤ p.deficits.getD vc 0 then
      Port.burst vc l { p.sendWaiting f with deficits := p.deficits.modify vc fun d => d - frameCredits f.len }
    else p

/-- The weight of virtual channels 1 to 3 (R518). -/
def vcWeight (vc : Nat) : Nat := [0, 2, 12, 2].getD vc 0

/-- The turn of a virtual channel: its quantum of one longest frame for each unit of its weight, and what that lets it send. A channel whose
first frame may not go holds back no other and gains nothing (R518). -/
def Port.turn (vc : Nat) (p : Port) : Port :=
  match p.waiting vc with
  | [] => { p with deficits := p.deficits.set vc 0 }
  | f :: l => if p.maySend f then Port.burst vc (f :: l) { p with deficits := p.deficits.modify vc (· + 33 * vcWeight vc) } else p

/-- Every waiting frame that may go is sent: virtual channel 0 first, then 1 to 3 by deficit round robin (R518). -/
def Port.pump (p : Port) : Port :=
  let p0 := Port.strict (p.waiting 0) p
  (List.range p0.txq.length).foldl (fun q _ => [1, 2, 3].foldl (fun q vc => q.turn vc) q) p0

/-- The port's domain is in SLEEP or DEEP (R521, R549). -/
def State.portAsleep (s : State) (p : Nat) : Bool := s.asleep (40 + p)

/-- A port with work leaves IDLE at once (R551). -/
def State.portWork (p : Nat) (s : State) : State := s.modDom (40 + p) fun d => { d with pstate := if d.pstate = .idle then .run else d.pstate }

/-- A unit handed to port p for transmission, which a sleeping port wakes for (R567); an ISOLATED device sends on virtual channel 0 alone (R525, R526). -/
def State.sendUnit (p : Nat) (u : UnitOut) (s : State) : State :=
  if (s.hier.state = 1 && u.vc != 0) || (s.port p).st != .up then s
  else
    let s1 := s.modPort p fun x => { x with txq := x.txq ++ u.frames }
    if s.portAsleep p then s1.startWake (40 + p) .internal else (s1.portWork p).modPort p Port.pump

/-- A unit handed to each of several ports. -/
def State.sendAll (ps : List Nat) (u : UnitOut) (s : State) : State := s.each ps fun p t => t.sendUnit p u

/-! ### Routes -/

/-- Port kinds (R501). -/
def downPorts : List Nat := List.range 16
/-- The up ports. -/
def upPortList : List Nat := [16, 17]
/-- The peer ports. -/
def peerPorts : List Nat := [18, 19]

/-- Ports of a list whose link is up. -/
def State.upOf (s : State) (l : List Nat) : List Nat := l.filter fun p => (s.port p).st == .up

/-- Port p reaches a device. -/
def State.reaches (s : State) (p dst : Nat) : Bool :=
  (s.port p).st == .up && (s.port p).reach.any fun e => e.1 == dst

/-- The port a routed unit leaves by (R529): the lowest down port that reaches its destination, or upward through FP_16 before FP_17; at
a Lead, across the peer link to the other Lead. -/
def State.routeTo (s : State) (dst : Nat) : Option Nat :=
  match downPorts.find? fun p => s.reaches p dst with
  | some p => some p
  | none => if s.hier.role = 3 then (s.upOf peerPorts).find? (fun p => (s.port p).peerRole == 3) else if s.hier.role = 0 then none else (s.upOf upPortList).head?

/-- A routed unit sent toward its destination, and dropped where no route stands: it is sent again end to end (R529). -/
def State.sendTo (dst : Nat) (u : UnitOut) (s : State) : State :=
  match s.routeTo dst with
  | some p => s.sendUnit p u
  | none => s

/-- The device's LEVEL (R525): 0 at a Lead, one more than the lower of its parents', 7 unknown. -/
def State.levelNow (s : State) : Nat :=
  if s.hier.role = 3 then 0
  else if s.hier.role = 0 then 7
  else ((s.upOf upPortList).map fun p => (s.port p).peerLevel + 1).foldl Nat.min 8

/-- FAB_STATE changed, with its record (R546). A device that is a MEMBER again sends its unacknowledged records again (R544). -/
def State.setFab (st cause : Nat) (s : State) : State :=
  if st = s.hier.state ∧ cause = s.hier.cause then s
  else
    (s.modHier fun h => { h with state := st, cause := cause, fwdSent := if st = 3 then h.fwdSeq else h.fwdSent }).record 0xA0 0 0
      (pack [(1, s.hier.state), (1, st), (1, cause), (2, s.hier.leadDev), (4, s.hier.term)])

/-- LEVEL brought up to date; a level above 6 isolates the device (R525), and a level within it lifts that. -/
def State.refreshLevel (s : State) : State :=
  let l := s.levelNow
  let s1 := s.modHier fun h => { h with level := Nat.min 7 l }
  if s.hier.role = 0 then s1
  else if l = 7 then s1.setFab 1 1
  else if s.hier.state = 1 ∧ s.hier.cause = 1 ∧ l ≤ 6 then s1.setFab 2 0
  else s1

/-- Routes through a port withdrawn: the numbers no other down port reaches are withdrawn from both parents (R529). -/
def State.withdrawRoutes (p : Nat) (s : State) : State :=
  let gone := (s.port p).reach.map Prod.fst
  let s1 := s.modPort p fun x => { x with reach := [], peerRole := 0, peerLevel := 7 }
  let lost := gone.filter fun d => downPorts.all fun q => !s1.reaches q d
  let s2 := if p < 16 ∧ !lost.isEmpty then s1.sendAll upPortList (.route [] lost) else s1
  s2.refreshLevel

/-! ### Units received -/

/-- The virtual channel a unit type belongs to (R528). -/
def utypeVc (u : Nat) : Nat := if u < 0x10 then 0 else if u < 0x20 then 1 else if u < 0x30 then 2 else 3

/-- The receive buffer of each virtual channel in credits (R518). -/
def vcBuffer (vc : Nat) : Nat := [512, 1024, 8192, 512].getD vc 0

/-- A unit of a type taken from those port p has accepted; the credits of its virtual channel go back once its buffer is empty. -/
def State.takeUnit (s : State) (p utype : Nat) : Option State :=
  match (s.port p).rx.find? fun h => h.utype == utype with
  | some h =>
    let rest := (s.port p).rx.erase h
    let vc := utypeVc utype
    some (s.modPort p fun x => { x with rx := rest, rxCredits := if rest.any (fun y => utypeVc y.utype == vc) then x.rxCredits
                                                               else x.rxCredits.set vc (vcBuffer vc) })
  | none => none

/-! ### Work sent to another device -/

/-- The 64-byte entry that travels with work: no host address, no list, no chain (R180, R542). -/
def Desc.workEntry (d : Desc) : Bytes :=
  leBytes 1 d.opcode ++ leBytes 1 d.variant ++ leBytes 1 0 ++ leBytes 1 0 ++ leBytes 4 d.keyHandle ++ zeros 16 ++
  leBytes 8 (d.length + d.auxLen * 2 ^ 48) ++ zeros 16 ++ d.inline

/-- The source of a context, once read. -/
def Ctx.sourceData (c : Ctx) : Bytes := c.segs.flatMap fun g => g.data.getD []

/-- The change serial of the domain slot a descriptor names (R180, R538). -/
def State.slotSerial (s : State) (d : Desc) : Nat :=
  ((s.keys.keys.find? fun k => k.scope == 2 && k.slot == hSlot d.keyHandle).map (·.serial)).getD 0

/-- The request that carries a context's work. -/
def State.workReq (s : State) (c : Ctx) (xid : Nat) : WorkReq :=
  { xid := xid, origin := s.hier.device, entry := c.desc.workEntry, source := c.sourceData, aux := c.aux.getD [],
    out2 := c.out2In.getD [], slot := if c.desc.keyHandle = 0 then none else some (hSlot c.desc.keyHandle),
    serial := if c.desc.keyHandle = 0 then 0 else s.slotSerial c.desc }

/-- The request of a context sent once all its inputs have been read. -/
def State.sendWork (id : Nat) (s : State) : State :=
  match s.ctx? id with
  | some c =>
    if !c.reads.isEmpty then s
    else
      match c.phase with
      | .spilled p xid => s.sendUnit p (.spillReq (s.workReq c xid))
      | .remote h _ =>
        match s.dist.remotes.find? fun r => r.ctx == id with
        | some r => s.sendTo h (.remoteReq h (s.workReq c r.xid))
        | none => s
      | _ => s
  | none => s

/-- Holders of the domain material a device can name, with their hops (R542): parents, devices below, and the active Lead. Peer ports carry
none of it but between the two Leads. -/
def State.holders (s : State) : List (Nat × Nat) :=
  let near := (List.range 20).flatMap fun p =>
    if (s.port p).st == .up && (p < 18 || (s.hier.role == 3 && (s.port p).peerRole == 3)) then
      ((s.port p).reach.filter (·.2)).map fun e => (if e.1 = (s.port p).peerDev then 1 else 2, e.1)
    else []
  near ++ (if s.hier.role != 0 && s.hier.role != 3 && 1 ≤ s.hier.level && s.hier.level ≤ 6 then [(s.hier.level, s.hier.leadDev)] else [])

/-- The holder a remote operation goes to next: the fewest hops, then the lowest number (R542). -/
def State.nextHolder (s : State) (tried : List Nat) : Option Nat :=
  (((s.holders.filter fun e => e.2 != s.hier.device && !tried.contains e.2 && (s.routeTo e.2).isSome).foldl (fun best e =>
    match best with
    | none => some e
    | some b => if e.1 < b.1 ∨ (e.1 = b.1 ∧ e.2 < b.2) then some e else some b) (none : Option (Nat × Nat))).map (·.2))

/-- A remote operation ended with INTERNAL and its REMOTE_FAIL record (R543, R546). -/
def State.remoteFailed (c : Ctx) (tried : List Nat) (s : State) : State :=
  let s1 := { s with dist := { s.dist with remotes := s.dist.remotes.filter (·.ctx != c.id) }, hier := { s.hier with remoteFails := sat 16 (s.hier.remoteFails + 1) } }
  (s1.record 0xA5 0 0 (pack [(4, hSlot c.desc.keyHandle), (1, tried.length), (2, (tried.getLast?).getD 0)])).finish c.id .internal 0 0

/-- A remote operation sent to its next holder, or ended after three (R543). -/
def State.remoteNext (id : Nat) (s : State) : State :=
  match (s.ctx? id).filter (fun c => c.phase != .finished) with
  | some c =>
    let tried := ((s.dist.remotes.find? fun r => r.ctx == id).map fun r => r.tried ++ [r.holder]).getD []
    match (if 3 ≤ tried.length then none else s.nextHolder tried) with
    | some h =>
      let r : Remote := { xid := s.dist.nextXid, ctx := id, holder := h, tried := tried, since := s.glob.uptimeMs }
      let s1 := s.modDist fun d => { d with remotes := d.remotes.filter (·.ctx != id) ++ [r], nextXid := (d.nextXid + 1) % 2 ^ 32 }
      (s1.modCtx id fun x => { x with phase := .remote h tried.length, rerun := x.rerun || !tried.isEmpty }).sendWork id
    | none => s.remoteFailed c tried
  | none => s.modDist fun d => { d with remotes := d.remotes.filter (·.ctx != id) }

/-! ### Links lost -/

/-- Work spilled over a port whose link or neighbour has failed runs again on a local channel (R182); what had not been sent yet stays at
its ring's head. -/
def State.spillLost (p : Nat) (s : State) : State :=
  let gone (c : Ctx) : Bool := match c.phase with | .spilled q _ => q == p | _ => false
  let s1 := s.dropOffered fun c => gone c && !c.reads.isEmpty
  (s1.dist.ctxs.filter gone).foldl (fun t c => (t.admitOffered c).rerunCtx c.id) s1

/-- Remote operations whose holder no route reaches any more go to their next holder (R543). -/
def State.pathsLost (s : State) : State :=
  let ids := (s.dist.remotes.filter fun r => (s.routeTo r.holder).isNone).map (·.ctx)
  s.each ids State.remoteNext

/-- The session of a port gone, with its keys and the frames held for retry (R508). -/
def Port.noSession (p : Port) : Port :=
  { p with session := false, txKey := [], rxKey := [], rxOldKey := [], rxPhase := false, keyPhase := false, txCtr := 0, rxCtr := 0,
           rxAny := false, txSeq := 0, rxSeq := 0, replay := [], txq := [], resends := 0, txCredits := [0, 0, 0, 0], deficits := [0, 0, 0, 0],
           rxCredits := [512, 1024, 8192, 512], gap := false, agreed := none }

/-- A port leaves UP for another state (R523, R529). -/
def State.leaveUp (p : Nat) (st : PortState) (s : State) : State :=
  if (s.port p).st = .up then
    ((s.modPort p fun x => { x with st := st, linkDowns := sat 16 (x.linkDowns + 1), downSince := s.glob.uptimeMs, agreed := none }).withdrawRoutes p)
  else s.modPort p fun x => { x with st := st }

/-- The session of a port dropped: its link has failed, and what hung on it follows (R182, R508, R543). Records sent through it and
unacknowledged are sent again (R529). -/
def State.dropSession (p : Nat) (s : State) : State :=
  (((s.modPort p Port.noSession).modHier fun h => { h with fwdSent := if upPortList.contains p then h.fwdSeq else h.fwdSent }).spillLost p).pathsLost

/-- A port taken DOWN, its session gone. -/
def State.portDown (p cause : Nat) (s : State) : State :=
  ((s.leaveUp p .down).modPort p fun x =>
    { x with width := 0, lanes := 0, cause := cause, peer := none, fullTrain := true, excluded := 0 }).dropSession p

/-- A retrain (R507): back to TRAIN with the session held, excluded lanes staying out. -/
def State.retrain (p : Nat) (s : State) : State :=
  (s.leaveUp p .train).modPort p fun x =>
    { x with retrains := sat 16 (x.retrains + 1), fullTrain := false, width := 0, lanes := 0, resends := 0 }

/-- A port's session dropped and its bring-up begun again from step 1 with a new AUTH (R514, R513). -/
def State.restartPort (p : Nat) (s : State) : State :=
  ((s.leaveUp p .train).modPort p fun x => { x with fullTrain := true, excluded := 0, width := 0, lanes := 0, peer := none }).dropSession p

end Sys2Proof.Machine
end

