-- ==== Sys2Proof/Machine/HostPort.lean ====
section
/-! DEFINITION. The host port: link training, loss and return, Function Level Reset, D-states, Acks, ATS invalidation, DMA read
completions, the error log, slice interrupt masks and management messages (R56 to R83). -/

namespace Sys2Proof.Machine

/-- The device may issue DMA: the link has returned (R79) and the function is in D0 (R78). -/
def State.dmaOk (s : State) : Bool := s.hp.dlUp && s.hp.ready && !s.hp.d3hot

/-! ### The configuration header and host accesses -/

/-- The DWORDs of the configuration header the spec gives (R56): identity, class, header type, and the subsystem of the personalisation
data (R315). -/
def State.configHeader (s : State) : List (Nat × Nat) :=
  [(0x00, Config.vendorId.toNat + Config.deviceId * 2 ^ 16), (0x08, Config.revisionId + Config.classCode * 2 ^ 8),
   (0x0C, Config.headerType * 2 ^ 16), (0x2C, s.keys.subsysVendor + s.keys.subsysId * 2 ^ 16)]

/-- A refused access (R65, R71, R570): logged, a read completed with Completer Abort, and no other effect. -/
def State.refuseAccess (bar off cause : Nat) (write : Bool) (s : State) : State :=
  let s1 := if cause = 2 && !s.power.errValid then { s with power := { s.power with errStatus := .poweredDown, errValid := true } } else s
  let s2 := s1.hpError (if cause = 2 then 1 else if cause = 3 then 2 else 0) cause (if cause = 2 then 0x53 else 0) write bar
    (if cause = 4 then (accessSlice bar off).getD 0 else 0) off
  if write then s2 else s2.emit (.completion bar off none)

/-- A host write of some bytes of a BAR: refused and logged, or f. -/
def State.hostAccess (bar off len : Nat) (f : State → State) (s : State) : State :=
  if !s.barsUp || barSize bar < off + len then s
  else
    match s.refusal bar off len true with
    | some c => s.refuseAccess bar off c true
    | none => f s

/-- A host write of one 4-byte register (R26, R65). -/
def State.hostReg (bar off : Nat) (f : State → State) (s : State) : State := s.hostAccess bar off 4 f

/-! ### Link -/

/-- Configuration space and MSI-X reset: every vector masked, D0, Bus Master Enable clear, translations gone. -/
def HostPort.cfgReset (h : HostPort) : HostPort :=
  { h with msix := [], pba := [], d3hot := false, ready := false, ats := [], atsPend := [] }

/-- The link down: an exit from DL_Active counts (HP_LINK_STATUS). -/
def HostPort.linkDown (h : HostPort) : HostPort :=
  { h with speed := 0, width := 0, flit := false, linkPm := 0,
           downCount := if h.dlUp then (h.downCount + 1) % 256 else h.downCount, dlUp := false }

/-- Vector 3 raised where the link's rate, width or power state has changed (the vector table). -/
def State.noteLink (s before : State) : State :=
  if s.hp.speed = before.hp.speed ∧ s.hp.width = before.hp.width ∧ s.hp.linkPm = before.hp.linkPm then s else s.raiseCause 3

/-- One slot of a completion ring taken back: the device will write it again (R80). -/
def RingPair.rollBack (r : RingPair) : RingPair :=
  if r.cqTail = 0 then { r with cqTail := r.cqSize - 1, phase := !r.phase } else { r with cqTail := r.cqTail - 1 }

/-- A descriptor abandoned by a link loss (R80): executed work runs again from its start; a completion without execution is
written again. -/
def Ctx.abandon (c : Ctx) : Ctx :=
  if c.executed then
    if c.phase == .waitBlob then { c with home := none, queued := none } else { c.again with priority := false }
  else c

/-- A descriptor whose record no Ack has covered is taken back into its ring's contexts (R80). Its chain is no longer open: its next link
waits for this one's record again (R167). -/
def State.takeBack (c : Ctx) (s : State) : State :=
  ((s.modRing c.slice c.rp RingPair.rollBack).modRing c.slice c.rp fun r =>
    if c.desc.chainNext && (s.nextLink c).isNone then { r with chain := r.chain.map fun h => { h with openSince := none } } else r).modDist
    fun d => { d with ctxs := d.ctxs ++ [c.abandon] }

/-- Every admitted descriptor of the host's slices abandoned, its engine work wiped. -/
def State.abandonAll (s : State) : State :=
  let run := s.dist.ctxs.filter fun c => c.owner == .slice && c.executed
  let ids := run.map (·.id)
  let s1 := (s.dropOffered fun _ => true).modDist fun d =>
    { d with ctxs := d.ctxs.map fun c => if c.owner == .slice then c.abandon else c, remotes := [],
             orphans := d.orphans ++ run.flatMap Ctx.orphanReads }
  { s1 with chs := s1.chs.map fun c =>
      { c with pkRun := c.pkRun.map fun r => if ids.contains r.ctx then { r with wiping := true } else r,
               ctxStore := c.ctxStore.filter fun i => !ids.contains i, regIn := c.regIn.filter fun e => !ids.contains e.1,
               digests := c.digests.filter fun o => match o with | .ctx i => !ids.contains i | .session _ => true } }

/-- The slice interrupt entries whose message stands transmitted and not covered by an Ack: pending at a loss of the link (R81). -/
def State.pendingMsgs (s : State) : List Nat :=
  (s.hp.tx.filterMap fun o => match o with | .sliceMsg e _ _ => some e | _ => none).eraseDups

/-- What a fetch had read of every ring is forgotten: it is read again. -/
def State.dropFetched (s : State) : State :=
  { s with slices := s.slices.map fun x => { x with rings := x.rings.map fun r => { r with fetched := none } } }

/-- LINK_LOSS (R79, R80): the replay buffer is dropped, admitted descriptors are abandoned, and each completion ring goes back to the
slot after the last record an Ack covered. -/
def execLinkLoss (kind : LinkLossKind) (s : State) : Host.Outcome State Fault Refusal :=
  if !s.hp.dlUp then .next s
  else
    let s1 := s.dropFetched.abandonAll
    let s2 := s.hp.unacked.reverse.foldl (fun t c => t.takeBack c) s1
    let aer := if kind = .uncorrectableInternal then s2.hp.aer ||| 4 else s2.hp.aer
    let s3 : State := { s2 with hp := { s2.hp.linkDown.cfgReset with tx := [], unacked := [], aer := aer,
                                                                     lostMsgs := (s2.hp.lostMsgs ++ s.pendingMsgs).eraseDups },
                                worlds := { s2.worlds with oldTx := 0 } }
    .next (s3.noteLink s)

/-- LINK_RETURN (R79, R81): service resumes, and one message goes through every unmasked entry that had one pending at the loss, and has
none waiting already. No completion ring advances while the link is down. -/
def execLinkReturn (s : State) : Host.Outcome State Fault Refusal :=
  if !s.hp.dlUp || s.hp.ready || s.hp.perst then .next s
  else
    let es := s.hp.lostMsgs.filter fun e => !(s.intE e).mask && !s.pendingMsgs.contains e
    let s1 := { s with hp := { s.hp with ready := true, lostMsgs := [] } }
    .next (s1.each es fun e t => t.sliceInt e (t.intE e).owner)

/-! ### Resets of the function -/

/-- A ring pair disarmed and emptied (R111, R122, R124): its addresses and indices are gone. Its other fields go back to their reset
values too, which the spec does not say of RING_DISARM (DESIGN CHOICE, log entry 88). -/
def RingPair.disarmed (_ : RingPair) : RingPair := {}

/-- Every ring pair disarmed, every entry masked, local descriptors gone without a record (R82). -/
def State.functionReset (s : State) : State :=
  let gone := s.dist.ctxs.filter fun c => c.owner == .slice
  let ids := gone.map (·.id)
  let s1 := s.modDist fun d =>
    { d with ctxs := d.ctxs.filter (fun c => c.owner != .slice), remotes := [], orphans := d.orphans ++ gone.flatMap Ctx.orphanReads }
  { s1 with
    slices := s1.slices.map fun x => { x with rings := x.rings.map RingPair.disarmed }
    ints := s1.ints.map fun (i, e) => (i, { e with mask := true, pending := false })
    hp := { s1.hp.cfgReset with unacked := [], lostMsgs := [] }
    mail := { s1.mail with boxes := s1.mail.boxes.map fun b => { b with session := false, nonce := none } }
    chs := s1.chs.map fun c =>
      { c with pkRun := c.pkRun.map fun r => if ids.contains r.ctx then { r with wiping := true } else r,
               ctxStore := c.ctxStore.filter fun i => !ids.contains i, regIn := c.regIn.filter fun e => !ids.contains e.1,
               digests := c.digests.filter fun o => match o with | .ctx i => !ids.contains i | .session _ => true } }

/-! ### D-states -/

/-- The host port domain awake again, by host-link activity (R75, R76, R569). -/
def State.wakeHost (s : State) : State := if (s.dom 60).pstate = .run then s else s.wakeNote 60 1

/-- HOST_LINK_TRAINED (R57, R59, R75, R574): the rate and width are reported and raise vector 3 where they change; below 128 GT/s or x16 they
are recorded and raise it. -/
def execHostLinkTrained (speed width : Nat) (flit : Bool) (s : State) : Host.Outcome State Fault Refusal :=
  if !s.renewal.initDone || s.hp.perst || speed == 0 || 7 < speed || !([1, 2, 4, 8, 16].contains width) then .next s
  else
    let s0 := { s with hp := { s.hp with speed := speed, width := width, flit := flit || 6 ≤ speed, dlUp := true, linkPm := 0 } }
    let s1 := s0.wakeHost
    .next (if speed < 7 ∨ width < 16 then (s1.record 0x12 5 0 (pack [(4, s1.linkWord)])).raiseCause 3 else s1.noteLink s)

/-- FUNCTION_LEVEL_RESET (R82, R367); a function in D3hot comes back in D0. -/
def execFunctionLevelReset (s : State) : Host.Outcome State Fault Refusal :=
  .next (if s.hp.d3hot then s.functionReset.wakeHost else s.functionReset)

/-- D3HOT_ENTRY (R78): DMA of admitted descriptors is withheld; the host port domain falls to SLEEP. -/
def execD3hotEntry (s : State) : Host.Outcome State Fault Refusal :=
  if !s.hp.dlUp || s.hp.d3hot then .next s
  else .next (State.modDom 60 (fun x => { x with pstate := .sleep }) { s with hp := { s.hp with d3hot := true } })

/-- D0_RETURN (R78): the withheld descriptors resume with their state intact. -/
def execD0Return (s : State) : Host.Outcome State Fault Refusal :=
  if !s.hp.d3hot then .next s else .next (State.wakeNote 60 1 { s with hp := { s.hp with d3hot := false } })

/-! ### Acks -/

/-- The contexts whose record stands in a list of TLPs. -/
def ackedCtxs (l : List Out) : List Nat := l.filterMap fun o => match o with | .record c _ _ _ _ _ _ => some c | _ => none

/-- TLP_ACK (R80): the oldest TLPs are covered; a descriptor whose record is covered is complete. -/
def execTlpAck (count : Nat) (s : State) : Host.Outcome State Fault Refusal :=
  let done := ackedCtxs (s.hp.tx.take count)
  .next { s with hp := { s.hp with tx := s.hp.tx.drop count, unacked := s.hp.unacked.filter fun c => !done.contains c.id },
                 worlds := { s.worlds with oldTx := s.worlds.oldTx - count } }

/-! ### ATS -/

/-- A page of an address range stands in a range of pages. -/
def spanHits (page pages : Nat) (r : Nat × Nat) : Bool := (pagesOf r.1 r.2).any fun p => page ≤ p && p < page + pages

/-- An invalidation covers an access under a PASID to some address ranges (R62): of one PASID, or global. -/
def atsCovers (under : Option Nat) (page pages pasid : Nat) (spans : List (Nat × Nat)) : Bool :=
  (under.isNone || under == some pasid) && spans.any (spanHits page pages)

/-- The outstanding reads that used a translation in a range (R62). -/
def State.readsUnder (s : State) (under : Option Nat) (page pages : Nat) : List (Nat × DmaPart) :=
  (s.dist.ctxs.flatMap fun c =>
    if c.owner == .slice then (c.reads.filter fun p => atsCovers under page pages c.pasid (c.span p)).map fun p => (c.id, p) else []) ++
  (s.dist.orphans.filter fun o => atsCovers under page pages o.pasid o.spans).map fun o => (o.ctx, o.part)

/-- ATS_INVALIDATE (R62): the cached translations go; the invalidation waits for the reads that used them. -/
def execAtsInvalidate (tag : Nat) (pasid : Option Nat) (page pages : Nat) (s : State) : Host.Outcome State Fault Refusal :=
  if !s.hp.dlUp || 32 ≤ s.hp.atsPend.length || s.hp.atsPend.any (·.tag == tag) then .next s
  else
    let hit (e : Nat × Nat) := (pasid.isNone || pasid == some e.1) && page ≤ e.2 && e.2 < page + pages
    .next { s with hp := { s.hp with ats := s.hp.ats.filter fun e => !hit e,
                                     atsPend := s.hp.atsPend ++ [⟨tag, pasid, page, pages, s.readsUnder pasid page pages⟩] } }

/-- A read is no longer outstanding. -/
def State.readGone (s : State) (r : Nat × DmaPart) : Bool :=
  (s.dist.ctxs.all fun c => c.id != r.1 || !c.reads.contains r.2) && s.dist.orphans.all fun o => o.ctx != r.1 || o.part != r.2

/-- ATS_INVALIDATE_COMPLETE (R62): once every such read has been answered, the invalidation completes. -/
def execAtsInvalidateComplete (tag : Nat) (s : State) : Host.Outcome State Fault Refusal :=
  match s.hp.atsPend.find? (·.tag == tag) with
  | some e =>
    if e.waits.all s.readGone then .next { s with hp := { s.hp with atsPend := s.hp.atsPend.filter (·.tag != tag) } } else .next s
  | none => .next s

/-- An access of a context needs a translation that is under invalidation (R62): it was made after the invalidation arrived. -/
def State.retranslates (s : State) (id : Nat) (part : DmaPart) (addr : Nat) : Bool :=
  match s.ctx? id with
  | some c => s.hp.atsPend.any fun e => atsCovers e.pasid e.page e.pages c.pasid [(addr, 1)] && !e.waits.contains (id, part)
  | none => false

/-! ### DMA reads -/

/-- Data of a read deposited in its context. -/
def Ctx.deposit (c : Ctx) (part : DmaPart) (data : Bytes) : Ctx :=
  let c1 := { c with reads := c.reads.erase part }
  match part with
  | .source k => { c1 with segs := c1.segs.map fun g => if g.k == k then { g with data := some (padTo (c.desc.segLen k) data) } else g }
  | .aux => { c1 with aux := some (padTo c.desc.auxLen data) }
  | .out2 => { c1 with out2In := some data }
  | .dest => c1
  | .out2w => c1

/-- A read admitted under an older admission epoch is complete (R449). -/
def State.readDone (id : Nat) (part : DmaPart) (s : State) : State :=
  { s with worlds := { s.worlds with oldReads := s.worlds.oldReads.erase (id, part) } }

/-- A read no context waits for any more is answered. -/
def State.orphanDone (id : Nat) (part : DmaPart) (s : State) : State :=
  match s.dist.orphans.find? fun o => o.ctx == id && o.part == part with
  | some o => s.modDist fun d => { d with orphans := d.orphans.erase o }
  | none => s

/-- A write of a context whose translation may fail: it has begun and its record is not issued. -/
def Ctx.writing (c : Ctx) (part : DmaPart) : Bool :=
  c.owner == .slice && c.executed && (part == .dest || part == .out2w) &&
    (c.phase == .issued || c.phase == .finished || c.phase == .pkRunning || (c.phase == .ready && c.nextSeg != 0))

/-- A zeroing write failed at an address (R204): zeroing stops there, and its later writes are not made. -/
def State.stopZeros (c : Ctx) (addr : Nat) (s : State) : State :=
  let all := pieces c.desc.dstCount c.desc.dstAddr c.dst 0 (zeros (c.desc.dstLen 0))
  match all.dropWhile fun p => !(p.1 ≤ addr && addr < p.1 + p.2.length) with
  | p :: later =>
    let cut (o : Out) : Option Out :=
      if o = .write (some c.pasid) p.1 p.2 then
        if addr = p.1 then none else some (.write (some c.pasid) p.1 (p.2.take (addr - p.1)))
      else if (later.any fun q => o == .write (some c.pasid) q.1 q.2) then none
      else some o
    { s with hp := { s.hp with tx := s.hp.tx.filterMap cut },
             worlds := { s.worlds with oldTx := ((s.hp.tx.take s.worlds.oldTx).filterMap cut).length } }
  | [] => s

/-- A failed access ends the descriptor with DMA_FAULT and the address in RESULT (R61, R70, R140); the pool of a fault is logged. -/
def State.dmaFail (id : Nat) (part : DmaPart) (addr aerBit : Nat) (s : State) : State :=
  match s.ctx? id with
  | some c =>
    if c.reads.contains part then
      State.finish id .dmaFault (dmaDetail part) (BitVec.ofNat 64 addr)
        { (s.modCtx id fun c => { c with reads := c.reads.erase part }) with hp := { s.hp with aer := s.hp.aer ||| aerBit } }
    else if c.writing part then
      (if c.status == .authFail && part == .dest then s.stopZeros c addr else s).finish id .dmaFault (dmaDetail part) (BitVec.ofNat 64 addr)
    else State.orphanDone id part { s with hp := { s.hp with aer := s.hp.aer ||| aerBit } }
  | none => State.orphanDone id part { s with hp := { s.hp with aer := s.hp.aer ||| aerBit } }

/-- DMA_READ_COMPLETION (R61, R62): the data is deposited, and work for another device is sent once its inputs are complete (R180, R542); or the
descriptor ends with DMA_FAULT; a poisoned completion is reported by AER. An access whose translation is under invalidation waits for a new
translation and does not fail. -/
def execDmaReadCompletion (ctx : Nat) (part : DmaPart) (r : DmaResult) (s : State) : Host.Outcome State Fault Refusal :=
  if (match r with | .noTranslation addr => s.retranslates ctx part addr | _ => false) then .next s else
  let s := s.readDone ctx part
  match r with
  | .ok data =>
    match s.ctx? ctx with
    | some c => if c.reads.contains part then .next ((s.modCtx ctx fun c => c.deposit part data).sendWork ctx) else .next (s.orphanDone ctx part)
    | none => .next (s.orphanDone ctx part)
  | .poisoned addr => .next (s.dmaFail ctx part addr 1)
  | .unsupported addr => .next (s.dmaFail ctx part addr 0)
  | .aborted addr => .next (s.dmaFail ctx part addr 0)
  | .noTranslation addr => .next (s.dmaFail ctx part addr 0)
  | .notAdmitted addr => .next (s.dmaFail ctx part addr 0)

/-- DMA_COMPLETION_TIMEOUT (R70): the descriptor ends with DMA_FAULT, and AER reports the timeout. -/
def execDmaCompletionTimeout (ctx : Nat) (part : DmaPart) (addr : Nat) (s : State) : Host.Outcome State Fault Refusal :=
  .next ((s.readDone ctx part).dmaFail ctx part addr 2)

/-! ### Error status, masks, management -/

/-- A write of 1s to HP_ERR_STATUS (R71). -/
def State.clearErr (bits : BitVec 6) (s : State) : State := { s with hp := { s.hp with errStatus := s.hp.errStatus &&& ~~~bits } }

/-- HP_ERR_STATUS_CLEAR (R71): the host's write; written 1s clear, and a status all zero re-arms the log. -/
def execHpErrStatusClear (bits : BitVec 6) (s : State) : Host.Outcome State Fault Refusal :=
  .next (s.hostReg 0 0x10008 (State.clearErr bits))

/-- A write of MASK (R68): clearing it while PENDING is 1 sends one message and clears PENDING. -/
def State.maskWrite (entry : Nat) (value : Bool) (s : State) : State :=
  if Config.poolInts ≤ entry then s
  else
    let e := s.intE entry
    let s1 := s.modInt entry fun x => { x with mask := value, pending := x.pending && value }
    if !value && e.pending then s1.emit (.sliceMsg entry e.addr e.msg) else s1

/-- MASK: the host's write, admitted or refused (R65). -/
def execMask (entry : Nat) (value : Bool) (s : State) : Host.Outcome State Fault Refusal :=
  .next (s.hostReg 4 (0x3000000 + 16 * entry + 0xC) (State.maskWrite entry value))

/-! ### Management messages (R83) -/

/-- The endpoint ID of a binding. -/
def HostPort.eid (h : HostPort) : Transport → Nat
  | .mctpVdm => h.eidVdm
  | _ => h.eidI3c

/-- The endpoint ID of a binding, as its bus owner assigns it. -/
def HostPort.setEid (h : HostPort) (t : Transport) (v : Nat) : HostPort :=
  match t with
  | .mctpVdm => { h with eidVdm := v }
  | _ => { h with eidI3c := v }

/-- The answer to an MCTP control message: its command and a completion code, then the command's data (DSP0236; PRESUMED, log entry 95). -/
def controlAnswer (cmd code : Nat) (data : Bytes) : Bytes := leBytes 1 cmd ++ leBytes 1 code ++ data

/-- A control message served (R83): assignment of the endpoint ID by the binding's bus owner, and the endpoint ID, UUID, version and message
types; any other command is not supported. The codes and layouts are those of DSP0236 (PRESUMED, log entry 95). -/
def State.mctpControl (t : Transport) (body : Bytes) (s : State) : State :=
  let cmd := fieldLe body 1 1
  let data := body.drop 2
  let eid := fieldLe data 1 1
  let answer (b : Bytes) (h : HostPort) : State := { s with hp := { h with mctpBody := b } }
  match cmd with
  | 1 =>
    if eid = 0 ∨ eid = 0xFF then answer (controlAnswer 1 2 []) s.hp
    else answer (controlAnswer 1 0 (leBytes 1 0 ++ leBytes 1 eid ++ leBytes 1 0)) (s.hp.setEid t eid)
  | 2 => answer (controlAnswer 2 0 (leBytes 1 (s.hp.eid t) ++ zeros 2)) s.hp
  | 3 => answer (controlAnswer 3 0 (padTo 16 Config.mctpUuid)) s.hp
  | 4 => answer (controlAnswer 4 0 Config.mctpVersions) s.hp
  | 5 => answer (controlAnswer 5 0 (pack [(1, 3), (1, 1), (1, 5), (1, 6)])) s.hp
  | n => answer (controlAnswer n 5 []) s.hp

/-- What the sensors of R83 read: the device mode, each cell, the set point, reading and current of each channel group. Temperatures and the
device's power are measured outside the state. -/
def State.sensorBytes (s : State) : Bytes :=
  leBytes 1 s.md.mode.code ++ leBytes 1 s.tamper.cellPresent.toNat ++ leBytes 1 s.tamper.cellRange.toNat ++ leBytes 1 s.tamper.cellArmed.toNat ++
  s.power.groups.flatMap fun g => pack [(2, g.setMv), (2, g.readMv), (4, g.readMa)]

/-- MCTP_REQUEST (R29, R83): the open-world agent serves it, or it is answered NOT_READY while the agent is absent. -/
def execMctpRequest (t : Transport) (m : MctpMsg) (body : Bytes) (s : State) : Host.Outcome State Fault Refusal :=
  if t = .doe ∨ (t = .mctpVdm ∧ !s.hp.dlUp) then .next s
  else if !s.worlds.ow.up then .next { s with hp := { s.hp with mctpReply := some .notReady, mctpBody := [] } }
  else
    let s1 : State := { s with hp := { s.hp with mctpReply := some .done, mctpBody := [] } }
    match m with
    | .control => .next (s1.mctpControl t body)
    | .pldmBase | .pldmMonitor => .next { s1 with hp := { s1.hp with mctpBody := Config.pldmAnswer body s.sensorBytes } }
    | .pldmUpdate => .next s1
    | .other => .next s

end Sys2Proof.Machine
end

