-- ==== Sys2Proof/Machine/KeyRows.lean ====
section
/-! DEFINITION. The rows of the key SRAM (R322, R325, R327): what each holds, its integrity tag (R331) and the check of it (R332, R333), and a
core's access to them. -/

namespace Sys2Proof.Machine

/-! ### Material and attributes -/

/-- The 40 bytes of attributes in row p of a key's run (R325, R327). -/
def Key.attrsAt (k : Key) (p : Nat) : Bytes :=
  leBytes 1 k.cls ++ leBytes 1 k.param ++ leBytes 2 (k.len + k.scope * 2 ^ 14) ++
  leBytes 4 (k.slice + k.rows * 2 ^ 12 + p * 2 ^ 20 + k.origin * 2 ^ 27 + b2n k.anySlice * 2 ^ 30) ++
  leBytes 4 k.usage.toNat ++ leBytes 4 (k.modes.toNat + k.dkVersion * 2 ^ 16) ++
  leBytes 8 k.keyId ++ leBytes 8 k.created ++ zeros 8

/-- The attributes of a key, as a run's first row holds them. -/
def Key.attrs (k : Key) : Bytes := k.attrsAt 0

/-- Rows of a key (R326): its material in rows of 64 bytes. -/
def rowsFor (len : Nat) : Nat := Nat.max 1 ((len + 63) / 64)

/-- A key read back from material and attributes (R325, R327). -/
def keyOf (material attrs : Bytes) : Key :=
  let a := fieldLe attrs 0 4
  let b := fieldLe attrs 4 4
  let len := bits a 16 14
  { scope := bits a 30 2, slice := bits b 0 12, slot := 0, rows := rowsFor len, cls := bits a 0 8, param := bits a 8 8, len := len,
    material := material, origin := bits b 27 3, anySlice := bit b 30, usage := BitVec.ofNat 32 (fieldLe attrs 8 4),
    modes := BitVec.ofNat 16 (fieldLe attrs 0xC 2), dkVersion := fieldLe attrs 0xE 1, keyId := fieldLe attrs 0x10 8,
    created := fieldLe attrs 0x18 8, bad := false, shadow := false, serial := 0 }

/-! ### Integrity tags (R331) -/

/-- Place, slice and slot as a tag covers them: SCOPE (1), slice (2), slot (4). -/
def RowPlace.bytes : RowPlace → Bytes
  | .slot c n i => leBytes 1 c ++ leBytes 2 n ++ leBytes 4 i
  | .staging n a p => leBytes 1 1 ++ leBytes 2 n ++ leBytes 4 (Config.stagingSlot n a p)
  | .smk n => leBytes 1 1 ++ leBytes 2 n ++ leBytes 4 (Config.smkSlot n)

/-- The 16 bytes of a tag: AES-256-CMAC under the SIK. -/
def RowTag.bytes : RowTag → Bytes
  | .made sik place material attrs => Config.prim .cmac [sik, place.bytes ++ padTo 64 material ++ padTo 40 attrs] 16
  | .raw b => padTo 16 b

/-- A row passes its check: its tag is that of what it holds. -/
def RowTag.passes (t want : RowTag) : Bool := t == want || t.bytes == want.bytes

/-- The SIK in the tag engine (R316). -/
def State.sik (s : State) : Bytes := s.keys.sik.getD []

/-- The place of row p of a key in its own slots. -/
def Key.place (k : Key) (p : Nat) : RowPlace := .slot k.scope (if k.scope = 1 then k.slice else 0) (k.slot + p)

/-- The place of row p of a staged key. -/
def Staged.place (e : Staged) (p : Nat) : RowPlace := .staging e.slice e.blobAddr p

/-- The material in row p. -/
def Key.rowMaterial (k : Key) (p : Nat) : Bytes := sub k.material (64 * p) 64

/-- The attributes that stand in row p. -/
def Key.rowAttrs (k : Key) (p : Nat) : Bytes := assocD k.oddAttrs p (k.attrsAt p)

/-- The tag row p should carry. -/
def Key.tagFor (k : Key) (sik : Bytes) (place : Nat → RowPlace) (p : Nat) : RowTag :=
  .made sik (place p) (k.rowMaterial p) (k.rowAttrs p)

/-- A key with its rows tagged. -/
def Key.tagged (k : Key) (sik : Bytes) (place : Key → Nat → RowPlace) : Key :=
  let x : Key := { k with oddAttrs := [] }
  { x with tags := (List.range x.rows).map (x.tagFor sik (place x)) }

/-- Every row of a key passes its check. -/
def Key.rowsPass (k : Key) (sik : Bytes) (place : Nat → RowPlace) : Bool :=
  (List.range k.rows).all fun p => (k.tags.getD p (.raw [])).passes (k.tagFor sik place p)

/-- A key as the device writes it into its slots. -/
def State.seal (s : State) (k : Key) : Key := k.tagged s.sik Key.place

/-- A staged key as the device writes it into staging rows. -/
def State.sealStaged (s : State) (e : Staged) : Staged := { e with key := e.key.tagged s.sik fun _ => e.place }

/-- The rows of a key in its slots pass. -/
def State.keyPasses (s : State) (k : Key) : Bool := k.rowsPass s.sik k.place

/-- The rows of a staged key pass. -/
def State.stagedPasses (s : State) (e : Staged) : Bool := e.key.rowsPass s.sik e.place

/-- The tag of the row that holds a slice's master key. -/
def State.smkTagOf (s : State) (n : Nat) (smk : Bytes) : RowTag := .made s.sik (.smk n) (padTo 64 smk) (Config.smkAttrs n)

/-- A slice with a master key written into its row. -/
def State.withSmk (s : State) (x : Slice) (smk : Option Bytes) : Slice :=
  { x with smk := smk, smkBad := false, smkTag := (smk.map (s.smkTagOf x.num)).getD (.raw []) }

/-- The row of a slice's master key passes. -/
def State.smkPasses (s : State) (x : Slice) : Bool :=
  match x.smk with
  | some k => x.smkTag.passes (s.smkTagOf x.num k)
  | none => true

/-- A slice's master key where its row stands and passes its check. -/
def State.smkOk (s : State) (x : Slice) : Option Bytes := if x.smkBad || !s.smkPasses x then none else x.smk

/-- A key changed by the device: its rows written again with their tags. -/
def State.rewriteKey (scope slice slot : Nat) (f : Key → Key) (s : State) : State := s.modKey scope slice slot fun k => s.seal (f k)

/-- A staged key that failed its check (R333): it is recorded, and its rows wait for a fresh unwrap. -/
def State.stagedFailed (e : Staged) (s : State) : State :=
  (s.modKeys fun k => { k with stage := k.stage.filter (· != e), badStage := k.badStage ++ [(e.slice, e.blobAddr, e.tag)] }).recordKeyBad e.key

/-- A staged key used: it is the last to be replaced (R337). -/
def State.usedStaged (e : Staged) (s : State) : State := s.modKeys fun k => { k with stage := k.stage.filter (· != e) ++ [e] }

/-- The check a custody command makes of the key it names (R332, R333). -/
def State.checkRows (h : Nat) (s : State) : State :=
  match s.lookSlot (hScope h) (hSlice h) (hSlot h) with
  | .key k => if k.bad || s.keyPasses k then s else s.markBad k
  | _ => s

/-! ### A core's access to the rows (R325, R593) -/

/-- First address of the key SRAM. -/
def keySramBase : Nat := 0x20000000

/-- The row of the key SRAM that holds a place. -/
def RowPlace.row : RowPlace → Nat
  | .slot c n i => Config.keyRow c n i 0 % 262144
  | .staging n a p => Config.keyRow 4 n a p % 262144
  | .smk n => Config.keyRow 3 n 0 0 % 262144

/-- A row rewritten by the trusted world (R333), recorded with its kind and its number. -/
def State.rewritten (kind : Nat) (p : RowPlace) (s : State) : State := s.record 0x41 1 0 (pack [(1, kind), (4, p.row)])

/-- Places written by the device: what a core had left in their rows is gone. -/
def State.overwrite (l : List RowPlace) (s : State) : State :=
  s.modKeys fun k => { k with spareRows := k.spareRows.filter fun c => !(l.map RowPlace.row).contains ((c.1 - keySramBase) / 128) }

/-- The places of a key's rows. -/
def Key.places (k : Key) : List RowPlace := (List.range k.rows).map k.place

/-- The places of a staged key's rows. -/
def Staged.places (e : Staged) : List RowPlace := (List.range e.key.rows).map e.place

/-- What a row holds. -/
inductive RowUse where
  | key (k : Key) (p : Nat)
  | staged (e : Staged) (p : Nat)
  | smk (x : Slice)
  | spare
deriving DecidableEq, Repr

/-- What row r holds. -/
def State.rowUse (s : State) (r : Nat) : RowUse :=
  let inKeys := s.keys.keys.flatMap fun k => (List.range k.rows).map fun p => ((k.place p).row, RowUse.key k p)
  let inStage := s.keys.stage.flatMap fun e => (List.range e.key.rows).map fun p => ((e.place p).row, RowUse.staged e p)
  let smks := (s.slices.filter fun x => x.smk.isSome).map fun x => ((RowPlace.smk x.num).row, RowUse.smk x)
  assocD (inKeys ++ inStage ++ smks) r .spare

/-- The 128 bytes of a row: material, attributes, tag, padding. -/
def Key.rowBytes (k : Key) (p : Nat) : Bytes :=
  k.rowMaterial p ++ padTo 40 (k.rowAttrs p) ++ (k.tags.getD p (.raw [])).bytes ++ zeros 8

/-- Row r as a core reads it. -/
def State.rowBytes (s : State) (r : Nat) : Bytes :=
  match s.rowUse r with
  | .key k p => k.rowBytes p
  | .staged e p => e.key.rowBytes p
  | .smk x => padTo 64 (x.smk.getD []) ++ padTo 40 (Config.smkAttrs x.num) ++ x.smkTag.bytes ++ zeros 8
  | .spare => (List.range 128).map fun i => assocD s.keys.spareRows (keySramBase + 128 * r + i) 0

/-- The tags of every row of a key. -/
def Key.tagList (k : Key) : List RowTag := (List.range k.rows).map fun p => k.tags.getD p (.raw [])

/-- A key with the bytes of row p written by a core: the material, the row's attributes (those of the first row are the key's) and its tag.
The padding keeps its zeros. -/
def Key.withRow (k : Key) (p : Nat) (b : Bytes) : Key :=
  let m := putAt (padTo (64 * k.rows) k.material) (64 * p) (b.take 64)
  let m1 := if anySet (m.drop k.material.length) then m else m.take k.material.length
  let a := sub b 64 40
  let t := sub b 104 16
  let old := k.tags.getD p (.raw [])
  let tags := k.tagList.set p (if t = old.bytes then old else .raw t)
  if a = padTo 40 (k.rowAttrs p) then { k with material := m1, tags := tags }
  else if p = 0 then
    let n := keyOf m1 a
    { n with slot := k.slot, rows := k.rows, bad := k.bad, shadow := k.shadow, serial := k.serial, tags := tags, oddAttrs := k.oddAttrs }
  else { k with material := m1, tags := tags, oddAttrs := assocSet k.oddAttrs p a }

/-- The value of a slice's master key row after a core's write. -/
def Slice.withSmkRow (x : Slice) (b : Bytes) : Slice :=
  let t := sub b 104 16
  { x with smk := some (b.take 32), smkTag := if t = x.smkTag.bytes then x.smkTag else .raw t }

end Sys2Proof.Machine
end

