-- ==== Sys2Proof/Machine/Rings.lean ====
section
/-! DEFINITION. Rings, descriptors and completions (R120 to R155): the doorbells, the arrival and the admission of descriptors, the completion record, and the chains of a ring pair. -/

namespace Sys2Proof.Machine

/-- A doorbell of this ring pair is recorded (R122, R115): the pair is armed and its slice is not FENCED. -/
def State.doorbellOk (s : State) (n p : Nat) : Bool :=
  (s.slice n).state != .fenced && (match s.ring? n p with | some r => r.armed | none => false)

/-- A write of SQ_TAIL (R127): accepted up to the entry before SQ_HEAD; otherwise dropped with DB_RANGE. -/
def State.sqTailWrite (n p value : Nat) (s : State) : State :=
  if !s.doorbellOk n p then s
  else
    s.modRing n p fun r =>
      let z := r.sqSize
      if value < z ∧ (value + z - r.sqTail) % z ≤ (r.sqHead + z - 1 - r.sqTail + z) % z then { r with sqTail := value }
      else { r with dbRange := true }

/-- A write of CQ_HEAD (R128): accepted up to CQ_TAIL; otherwise dropped with DB_RANGE. -/
def State.cqHeadWrite (n p value : Nat) (s : State) : State :=
  if !s.doorbellOk n p then s
  else
    s.modRing n p fun r =>
      let z := r.cqSize
      if value < z ∧ (value + z - r.cqHead) % z ≤ (r.cqTail + z - r.cqHead) % z then { r with cqHead := value }
      else { r with dbRange := true }

/-- A write of RESTART (R153): a stopped pair resumes; the entry at SQ_HEAD and its lists are read again. -/
def State.restartWrite (n p : Nat) (s : State) : State :=
  if !s.doorbellOk n p then s
  else s.modRing n p fun r => if r.stopped then { r with stopped := false, stopCause := 0, fetched := none } else r

/-- BAR2 offset of a register of a ring pair. -/
def ringOff (n p r : Nat) : Nat := n * 0x10000 + p * 0x200 + r

/-- SQ_TAIL: the host's write, admitted or refused (R65). -/
def execSqTail (slice rp value : Nat) (s : State) : Host.Outcome State Fault Refusal :=
  .next (s.hostReg 2 (ringOff slice rp 0x00) (State.sqTailWrite slice rp value))

/-- CQ_HEAD: the host's write, admitted or refused (R65). -/
def execCqHead (slice rp value : Nat) (s : State) : Host.Outcome State Fault Refusal :=
  .next (s.hostReg 2 (ringOff slice rp 0x10) (State.cqHeadWrite slice rp value))

/-- RESTART: the host's write, admitted or refused (R65). -/
def execRestart (slice rp : Nat) (s : State) : Host.Outcome State Fault Refusal :=
  .next (s.hostReg 2 (ringOff slice rp 0x28) (State.restartWrite slice rp))

/-- A ring pair stopped by a fault (R152): STOPPED, STOP_CAUSE, FAULT_ADDR, and RING_STOPPED with its log (R71). -/
def State.stopRing (n p cause addr : Nat) (s : State) : State :=
  (s.modRing n p fun r => { r with stopped := true, stopCause := cause, faultAddr := addr, fetched := none }).hpError 4 6 0x22
    (cause == 3) 7 n addr

/-! ### Arrival -/

/-- The mode forbids new work (R32, R34). -/
def State.keepMode (s : State) : Bool := s.md.mode == .keep || s.md.mode == .zeroised

/-- The slice flushes its unadmitted descriptors (R105). -/
def Slice.flushing (x : Slice) : Bool := x.flush && (x.state == .quiescing || x.state == .quiesced)

/-- The checks that come before the scatter lists are read: status, DETAIL; none when all pass (R136). -/
def State.earlyChecks (s : State) (x : Slice) (r : RingPair) (d : Desc) : Option (Status × Nat) :=
  if s.keepMode then some (.deviceKeep, 0)
  else if x.flushing then some (.quiesced, 0)
  else if (r.chain.map (·.failed)).getD false then some (.aborted, 2)
  else if (r.chain.map (·.abandoned)).getD false then some (.aborted, 3)
  else (s.malformed d r.chain).map fun k => (.descMalformed, k)

/-- The distributor may read a ring pair's next entry: submitted, with its extension once EXT is known. -/
def RingPair.canFetch (r : RingPair) (ext : Bool) : Bool :=
  r.armed && !r.stopped && r.fetched.isNone && (if ext then 2 else 1) ≤ r.submitted

/-- The fetched entry of what arrived. -/
def Arrival.fetched (a : Arrival) : Fetched :=
  let d := parseDesc a.entry a.ext
  let src := parseList d.srcCount a.srcList
  let dst := parseList d.dstCount a.dstList
  { desc := d, src := src.1, dst := dst.1, hdr := a.hdr, hdrFault := a.hdrFault,
    addr := 0, pasid := 0, listFault := a.listFault,
    listBad := listBad d.srcCount d.srcAddr src.2 || listBad d.dstCount d.dstAddr dst.2 }

/-- The address of the submission ring entry at SQ_HEAD (R121), which the device reads under its slice's PASID (R60). -/
def RingPair.headAddr (r : RingPair) : Nat := r.sqBase + 64 * r.sqHead

/-- The reads of an entry, its extension and its scatter lists: address and bytes (R60, R121, R132, R134). -/
def RingPair.entrySpans (r : RingPair) (d : Desc) : List (Nat × Nat) :=
  (r.headAddr, 64) :: (if d.ext then [(r.sqBase + 64 * ((r.sqHead + 1) % r.sqSize), 64)] else [])

/-- The scatter-list reads of a descriptor. -/
def Desc.listSpans (d : Desc) : List (Nat × Nat) :=
  [(d.srcAddr, 16 * d.srcCount), (d.dstAddr, 16 * d.dstCount)].filter fun p => p.2 != 0

/-- The first address of some reads that fails its admission (R26). -/
def State.spansRefused (s : State) (l : List (Nat × Nat)) : Option Nat := (l.filterMap fun p => s.dmaRefused .read p.1 p.2).head?

/-- DESCRIPTOR_ARRIVAL (R121, R135, R152): the entry read at SQ_HEAD stands ready for its checks, or a fault on it or on its lists stops
the pair; a read that fails its admission is such a fault (R26). Where a check that comes before the lists fails, a fault on them is kept
for the moment it passes. -/
def execDescriptorArrival (slice rp : Nat) (a : Arrival) (s : State) : Host.Outcome State Fault Refusal :=
  let x := s.slice slice
  match s.ring? slice rp with
  | some r =>
    let f := Arrival.fetched a
    if !s.dmaOk || x.state == .fenced || s.pasidFenced slice || !r.canFetch (a.entryFault.isNone && f.desc.ext) then .next s
    else
      let read := r.entrySpans f.desc ++ f.desc.listSpans
      let s1 := read.foldl (fun t p => t.translate x.pasid p.1 p.2) s.linkExit
      match a.entryFault <|> s.spansRefused (r.entrySpans f.desc) with
      | some addr => .next (s1.stopRing slice rp 1 addr)
      | none =>
        let bad := a.listFault <|> s.spansRefused f.desc.listSpans
        let hdr := a.hdrFault <|> (if hBlob f.desc.keyHandle then s.dmaRefused .read f.desc.blobAddr 64 else none)
        match (s.earlyChecks x r f.desc), bad with
        | none, some addr => .next (s1.stopRing slice rp 2 addr)
        | _, _ => .next (s1.modRing slice rp fun y => { y with fetched := some { f with addr := r.headAddr, pasid := x.pasid, listFault := bad, hdrFault := hdr } })
  | none => .next s

/-! ### Admission -/

/-- Sum of the lengths of a list. -/
def sgSum (l : List Sg) : Nat := (l.map (·.len)).sum

/-- LENGTH_MISMATCH of a descriptor's lists (R137): DETAIL and the sum that disagreed; the destination of a PK_OP whose modulus length
is not known yet is left to the channel. -/
def State.sumCheck (s : State) (f : Fetched) : Option (Nat × Nat) :=
  let d := f.desc
  if d.srcCount != 0 && sgSum f.src != d.length then some (1, sgSum f.src)
  else
    let k := if d.opcode == 0x10 then s.pkBytes? d else some 0
    match k with
    | some k => if d.dstCount != 0 && sgSum f.dst != d.dstLen k then some (2, sgSum f.dst) else none
    | none => none

/-- The checks of R136 up to admission: status, DETAIL, BYTES, RESULT of the first that fails. A fault on the lists, found after the first
five, stops the pair instead. -/
def State.admitChecks (s : State) (x : Slice) (r : RingPair) (f : Fetched) : Option (Status × Nat × Nat × Nat) :=
  match s.earlyChecks x r f.desc with
  | some (st, k) => some (st, k, 0, 0)
  | none =>
    if f.listBad then some (.descMalformed, 5, 0, 0)
    else
      match s.sumCheck f with
      | some (k, n) => some (.lengthMismatch, k, n, 0)
      | none =>
        if f.desc.handleBad x.num then some (.keyPolicy, 0, 0, 0)
        else
          match (if hBlob f.desc.keyHandle && f.desc.keyHandle != 0 then f.hdrFault else none) with
          | some addr => some (.dmaFault, 5, 0, addr)
          | none => none

/-- The channels R98 and R100 give a slice: its exclusive channels in service in partition mode, and otherwise the shared channels. -/
def State.baseChannels (s : State) (x : Slice) : List Nat :=
  let ex := if x.partition then s.exclList x else []
  if ex.isEmpty then s.sharedList else ex

/-- Channel n is eligible for a descriptor (R160, R198, R242), its free credit aside. -/
def State.eligibleOn (s : State) (d : Desc) (n : Nat) : Bool :=
  let c := s.ch n
  c.inService && !c.heldSpare && !c.spareWait &&
  (!d.cut || (c.st != .slow && c.ctxStore.length < Config.ctxStore)) &&
  (d.opcode != 0x10 || (c.mcState == .active && s.pkQueued n < Config.pkQueue)) &&
  s.holdUsed n + d.holdBytes ≤ Config.holdPool

/-- The eligible channels of a descriptor of a slice (R160, R304), with the PK_BLINDED that applies to it (R90). -/
def State.eligibleFor (s : State) (x : Slice) (d : Desc) (pkBlinded : Bool) : List Nat :=
  s.drawFilter d pkBlinded ((s.baseChannels x).filter (s.eligibleOn d))

/-- The eligible channels of a descriptor of a slice that have free credit. -/
def State.openFor (s : State) (x : Slice) (d : Desc) : List Nat := (s.eligibleFor x d x.pkBlinded).filter fun n => 1 ≤ s.creditFree n

/-- Channel n is eligible for a context with no home (R98 to R100, R160, R181), its free credit aside. -/
def State.openTo (s : State) (n : Nat) (c : Ctx) : Bool :=
  match c.owner with
  | .slice => (s.eligibleFor (s.slice c.slice) c.desc c.pkBlinded).contains n
  | .spilledIn _ _ _ => s.isShared n && s.eligibleOn c.desc n
  | .remoteIn _ _ _ => s.isShared n && s.eligibleOn c.desc n

/-- A descriptor that runs again or was withdrawn waits for a credit of channel n (R52): it goes ahead of entries not yet issued. -/
def State.priorityWaits (s : State) (n : Nat) : Bool :=
  s.dist.ctxs.any fun c => c.priority && c.phase == .ready && c.home.isNone && c.desc.opcode != 0 && s.openTo n c

/-- The channel with the most free credit; a tie goes to a channel whose cache holds the key under the current key epoch, then to the
lowest number (R160). -/
def State.pickHome (s : State) (c : Ctx) (l : List Nat) : Option Nat :=
  l.foldl (fun best n =>
    match best with
    | none => some n
    | some b =>
      let has (m : Nat) := (s.ch m).cache.any fun e => e.serves { c with epoch := s.keys.epoch } (s.ch m).generation
      if s.creditFree b < s.creditFree n || (s.creditFree b == s.creditFree n && has n && !has b) then some n else some b) none

/-- The context of a fetched entry, before its outcome is known. -/
def State.newCtx (s : State) (x : Slice) (p : Nat) (r : RingPair) (f : Fetched) : Ctx :=
  { id := s.dist.nextCtx, owner := .slice, slice := x.num, inst := x.inst, rp := p, sqIndex := r.sqHead, pasid := x.pasid,
    desc := f.desc, src := f.src, dst := f.dst, hdr := f.hdr, epoch := s.keys.epoch, phase := .ready, home := none, segs := [],
    nextSeg := 0, image := [], crcRun := 0, aux := none, out2In := none, reads := [], iv := [], held := [], outBuf := [], out2Buf := [], key := none,
    inChain := r.chain.isSome || f.desc.chainNext, firstLink := r.chain.isNone, chain0 := r.chain, pkBlinded := x.pkBlinded, queued := none, runs := 0, rerun := false,
    priority := false, spilledRec := false, paceGrew := false, executed := true, status := .done, detail := 0, bytes := 0,
    result := 0 }

/-- SQ_HEAD passes the entry, and its extension with it (R129, R132). -/
def RingPair.passHead (r : RingPair) (f : Fetched) : RingPair :=
  { r with sqHead := (r.sqHead + (if f.desc.ext then 2 else 1)) % r.sqSize, fetched := none }

/-- A chain before any of its links has completed. -/
def Desc.freshChain (d : Desc) : Chain :=
  { opcode := d.opcode, variant := d.variant, keyHandle := d.keyHandle, sum := 0, image := [], crcRun := 0, iv := [],
    inline := d.inline, auxLen := d.auxLen, expected := [], failed := false, abandoned := false, openSince := none }

/-- The chain the entry after a decided one is a link of (R146, R167): none after a last link or a descriptor of its own. -/
def Ctx.chainOn (c : Ctx) : Option Chain :=
  if c.desc.chainNext then some { (c.chain0.getD c.desc.freshChain) with openSince := none } else none

/-- A context entered into the distributor, the entry passed: what comes after it is known as its chain's next link or not. -/
def State.enter (c : Ctx) (f : Fetched) (s : State) : State :=
  (s.modRing c.slice c.rp fun r => { r.passHead f with chain := c.chainOn }).modDist fun d =>
    { d with ctxs := d.ctxs ++ [c], nextCtx := d.nextCtx + 1 }

/-- The distributor may decide on the entry of a ring pair: a completion slot is free (R143), ORDER (R151) and chain order (R167: a link
waits for the record of the link before it) are met, no descriptor of the pair is on its way to a neighbour that has not taken it (R149,
R180), and the slice takes descriptors (R104) or completes them (R105). -/
def State.mayDecide (s : State) (x : Slice) (p : Nat) (r : RingPair) (f : Fetched) : Bool :=
  !r.stopped && 1 ≤ s.cqFree x.num p r && (x.state == .active || x.flushing) &&
  (!f.desc.order || (s.ringCtxs x.num p).isEmpty) &&
  (r.chain.isNone || (s.ringCtxs x.num p).all fun c => !c.desc.chainNext) &&
  (s.ringCtxs x.num p).all fun c => !c.offered

/-- NOP (R145): completed DONE by the distributor without a channel. -/
def execNop (ctx : Nat) (s : State) : Host.Outcome State Fault Refusal :=
  match s.ctx? ctx with
  | some c => if c.desc.opcode == 0 && c.phase == .ready then .next (s.finish ctx .done 0 0) else .next s
  | none => .next s

/-! ### The completion record -/

/-- The 32 bytes of a record (R140). -/
def Ctx.recordBytes (c : Ctx) (phase : Bool) : Bytes :=
  leBytes 1 c.status.code ++ leBytes 1 (b2n phase) ++ leBytes 2 c.sqIndex ++
  leBytes 4 (c.detail + b2n c.rerun * 2 ^ 16 + b2n c.spilledRec * 2 ^ 17 + b2n c.paceGrew * 2 ^ 18) ++
  leBytes 8 c.bytes ++ leBytes 8 c.result.toNat ++ leBytes 8 (c.inst % 2 ^ 16)

/-- A status under which a chain goes on (R147, R201). -/
def Status.linkOk (st : Status) : Bool := st == .done || st == .doneDeferredAuth

/-- The state of a chain discarded. -/
def Chain.cleared (h : Chain) : Chain := { h with image := [], crcRun := 0, iv := [], expected := [] }

/-- A chain abandoned (R148): its state is discarded and its remaining links complete ABORTED, DETAIL 3. -/
def Chain.abandon (h : Chain) : Chain := { h.cleared with abandoned := true, openSince := none }

/-- The chain after the record of a link that is not its last (R146 to R148, R167): open for the next link, or failed. A chain with a
link completed QUIESCED is abandoned (R148; DEDUCED, log entry 88). -/
def Chain.after (h : Chain) (c : Ctx) (now : Nat) (flushing : Bool) : Chain :=
  if h.abandoned || h.failed then h
  else if c.status == .quiesced then h.abandon
  else if !c.status.linkOk then { h.cleared with failed := true, openSince := none }
  else
    let open_ := { h with sum := h.sum + c.desc.length, image := c.image, crcRun := c.crcRun, iv := c.iv,
                          expected := if h.expected.isEmpty then c.aux.getD [] else h.expected, openSince := some now }
    if flushing then open_.abandon else open_

/-- The chain of a ring pair brought past a link's record: exported for the next link, which stands in the ring or, after a link loss, has
been decided already. The 1 s runs only while the slice is ACTIVE (R148). -/
def State.chainStep (c : Ctx) (s : State) : State :=
  if !c.desc.chainNext then s
  else
    let x := s.slice c.slice
    let now := if x.state = .active then s.glob.uptimeMs else 0
    let after (flush : Bool) := (c.chain0.getD c.desc.freshChain).after c now flush
    match s.nextLink c with
    | some y => s.modCtx y.id fun y => { y with chain0 := some (after false) }
    | none => s.modRing c.slice c.rp fun r =>
        { r with chain := r.chain.map fun h => if h.abandoned then h else after (x.flushing && r.sqHead == r.sqTail) }

/-- The record written: the slot, the ring's advance, COMPLETED, then any slice interrupt (R72, R73, R141). -/
def State.writeRecord (c : Ctx) (r : RingPair) (s : State) : State :=
  let s1 := s.emit (.record c.id c.slice c.rp r.cqTail c.pasid (r.cqBase + 32 * r.cqTail) (c.recordBytes r.phase))
  let s2 := s1.modRing c.slice c.rp fun r =>
    { r with cqTail := (r.cqTail + 1) % r.cqSize, phase := if r.cqTail + 1 = r.cqSize then !r.phase else r.phase }
  let s3 := (s2.modSlice c.slice fun x => { x with completed := x.completed + 1 }).dropCtx c.id
  let s4 := { s3 with hp := { s3.hp with unacked := s3.hp.unacked ++ [c] } }
  let s5 := (s4.releaseHome c).chainStep c
  let x := s.slice c.slice
  if r.irqEn then
    match (x.assign.getD c.rp none).bind fun i => x.ints[i]? with
    | some e => s5.sliceInt e c.slice
    | none => s5
  else s5

/-- A link waits for the links before it (R150, R167): it is decided after their records, and only a link loss brings them back. -/
def State.linkFirst (s : State) (c : Ctx) : Bool :=
  !c.inChain || c.firstLink || (s.ringCtxs c.slice c.rp).all fun y => !y.desc.chainNext || c.id ≤ y.id

/-- The result of work done for another device goes back, and the work's context leaves its channel (R180, R181, R542). -/
def State.sendResult (c : Ctx) (s : State) : State :=
  let w (xid : Nat) : WorkResult :=
    { xid := xid, status := c.status.code, detail := c.detail, bytes := c.bytes, result := c.result.toNat,
      paceGrew := c.paceGrew, output := c.outBuf, out2 := c.out2Buf }
  let s1 := (s.releaseHome c).dropCtx c.id
  match c.owner with
  | .slice => s
  | .spilledIn port xid _ => s1.sendUnit port (.spillResult (w xid))
  | .remoteIn _ xid origin => s1.sendTo origin (.remoteResult origin (w xid))

/-- COMPLETION_RECORD (R141, R152): the record of a finished descriptor is written behind its destination writes; when the ring's
translation fails, the pair stops and the record is kept. Work of another device ends with its result sent (R180, R542). -/
def execCompletionRecord (ctx : Nat) (cqFault : Option Nat) (s : State) : Host.Outcome State Fault Refusal :=
  match s.ctx? ctx with
  | some c =>
    if c.owner != .slice then .next (if c.phase == .finished then s.sendResult c else s) else
    match s.ring? c.slice c.rp with
    | some r =>
      if c.phase != .finished || !s.dmaOk || s.pasidFenced c.slice || (r.stopped && r.stopCause == 3) || !s.linkFirst c then .next s
      else
        match cqFault <|> s.dmaRefused .write (r.cqBase + 32 * r.cqTail) 32 with
        | some addr => .next (s.stopRing c.slice c.rp 3 addr)
        | none => .next (s.writeRecord c r)
    | none => .next s
  | none => .next s

/-- CHAIN_ABANDON_TIMEOUT (R148): 1 s of an ACTIVE slice with the chain open and no next link. -/
def execChainAbandonTimeout (slice rp : Nat) (s : State) : Host.Outcome State Fault Refusal :=
  match s.ring? slice rp with
  | some r =>
    match r.chain.bind (·.openSince) with
    | some t =>
      if r.chainOpen && (s.slice slice).state == .active && t + 1000 ≤ s.glob.uptimeMs then
        .next (s.modRing slice rp fun r => { r with chain := r.chain.map Chain.abandon })
      else .next s
    | none => .next s
  | none => .next s

end Sys2Proof.Machine
end

