-- ==== Sys2Proof/Machine/Distribution.lean ====
section
/-! DEFINITION. Work distribution (R156 to R178): the issue of entries with credit, deficit round robin and the key check at the
channel, segments and moves, the end of a service window, and the health of a channel from its SLOW mark to its return. -/

namespace Sys2Proof.Machine

/-! ### Which entry goes next -/

/-- A context has an entry to be issued: its first, or a further segment while fewer than two are unfinished (R163). One that stands in a
fetch queue has been issued. -/
def Ctx.hasEntry (c : Ctx) : Bool :=
  c.desc.opcode != 0 && c.queued.isNone && c.nextSeg < c.desc.segCount && c.segs.length < 2 &&
  (c.phase == .ready || (c.phase == .issued && c.desc.cut && !(c.desc.opcode == 1 && c.desc.ivGen && c.iv.isEmpty)))

/-- A context of a local slice. -/
def Ctx.isLocal (c : Ctx) : Bool := c.owner == .slice

/-- Channel n gives this context up (R97, R172): it drains, or is exclusive to another slice. -/
def State.barred (s : State) (n : Nat) (c : Ctx) : Bool :=
  (s.ch n).st == .draining || match s.exclOwner n with | some o => !(c.isLocal && o == c.slice) | none => false

/-- Channel n may take a context's next entry (R97 to R100, R160, R172, R206): a further segment goes to the home channel, and from one
that gives the context up only to a held descriptor. After a draw the first entry goes back to the channel that drew, while it is eligible. -/
def State.takes (s : State) (n : Nat) (c : Ctx) : Bool :=
  c.hasEntry && s.linkFirst c &&
  match c.home with
  | some h =>
    if c.nextSeg = 0 then s.openTo n c && (h == n || !s.openTo h c)
    else h == n && if s.barred n c then c.desc.holdBytes != 0 else (s.ch n).inService
  | none => s.openTo n c

/-- The cost of entry k of a descriptor in deficit round robin (R161). -/
def Desc.entryCost (d : Desc) (k : Nat) : Nat := Nat.max 4096 (d.segLen k)

/-- Work a slice has ready for a channel (R161): the next entry of an admitted descriptor, or the descriptor at SQ_HEAD of a ring pair. -/
structure Work where
  rp : Nat
  cost : Nat
  ctx : Option Nat
deriving DecidableEq, Repr

/-- The work of a context's next entry. -/
def Ctx.work (c : Ctx) : Work := ⟨c.rp, c.desc.entryCost c.nextSeg, some c.id⟩

/-- The work of a descriptor at SQ_HEAD. -/
def Fetched.work (f : Fetched) (p : Nat) : Work := ⟨p, f.desc.entryCost 0, none⟩

/-- How far ring pair p stands behind the one served last (R161). -/
def ringTurn (last p : Nat) : Nat := (p + 64 - (last + 1) % 64) % 64

/-- The descriptor at SQ_HEAD of ring pair p may be admitted to channel n now. -/
def State.headReady (s : State) (n : Nat) (x : Slice) (p : Nat) : Option Work :=
  match s.ring? x.num p with
  | some r =>
    match r.fetched with
    | some f =>
      if s.mayDecide x p r f && f.desc.opcode != 0 && (s.admitChecks x r f).isNone && f.listFault.isNone &&
          (s.openFor x f.desc).contains n then some (f.work p)
      else none
    | none => none
  | none => none

/-- The work a slice would next give channel n: its ring pairs are served in turn, and within one the oldest (R161). -/
def State.nextOf (s : State) (n : Nat) (x : Slice) : Option Work :=
  (((s.dist.ctxs.filter fun c => c.ofSlice x.num && !c.priority && s.takes n c).map Ctx.work) ++
   (List.range x.rings.length).filterMap (s.headReady n x)).foldl (fun b c =>
    match b with
    | none => some c
    | some y => if ringTurn x.lastRp c.rp < ringTurn x.lastRp y.rp then some c else some y) none

/-- Rounds a slice needs before it can pay. -/
def roundsFor (x : Slice) (w : Work) : Nat :=
  let g := Nat.max 1 x.weight * 4096
  if w.cost ≤ x.deficit then 0 else (w.cost - x.deficit + g - 1) / g

/-- Deficit round robin (R161): the state with the work's cost taken from its slice, when it is that slice's turn on channel n. DESIGN
CHOICE (log entry 88): a slice with no more work ready keeps what is left of its allowance. -/
def State.drr (n sl : Nat) (w : Work) (s : State) : Option State :=
  let ready := s.slices.filterMap fun x => (s.nextOf n x).map fun y => (x, y)
  match ready.find? (fun p => p.1.num == sl) with
  | some (x, y) =>
    let r := ready.foldl (fun m p => Nat.min m (roundsFor p.1 p.2)) (roundsFor x y)
    if y != w || r < roundsFor x y then none
    else
      let s1 := ready.foldl (fun t p => t.modSlice p.1.num fun z => { z with deficit := z.deficit + r * (Nat.max 1 z.weight * 4096) }) s
      some (s1.modSlice sl fun z => { z with deficit := z.deficit - w.cost, lastRp := w.rp })
  | none => none

/-! ### Admission -/

/-- A credit wakes a channel that sleeps (R18, R567). -/
def State.creditWake (n : Nat) (s : State) : State := s.startWake n .internal

/-- A cut descriptor's context-store entry on channel n (R164). -/
def State.storeEntry (n : Nat) (c : Ctx) (s : State) : State :=
  s.modCh n fun ch => { ch with ctxStore := if c.desc.cut && !ch.ctxStore.contains c.id then ch.ctxStore ++ [c.id] else ch.ctxStore }

/-- The next place in the order of issue. -/
def State.bumpTurn (s : State) : State := s.modDist fun d => { d with nextTurn := d.nextTurn + 1 }

/-- A descriptor admitted, that is handed to channel n (R31): its first entry takes a credit and stands in the fetch queue, where it
waits for its blob when that is not staged (R25). -/
def State.handOver (n : Nat) (c : Ctx) (f : Fetched) (s : State) : State :=
  let waits := match c.keyRef with
    | some (.staged sl inst addr tag) => (s.stagedFor sl inst addr tag).isNone
    | _ => false
  let c1 := { c with phase := if waits then .waitBlob else .ready, home := some n, queued := some s.dist.nextTurn }
  (((s.enter c1 f).bumpTurn).storeEntry n c1).creditWake n

/-- DESCRIPTOR_ADMIT (R31, R136, R142, R143, R161): the first check that fails completes the descriptor without execution, and a fault on
its lists stops the pair (R152); when none fails it is handed to its home channel, once an eligible one has free credit and the turn is its
slice's. A NOP needs no channel (R145). -/
def execDescriptorAdmit (slice rp : Nat) (s : State) : Host.Outcome State Fault Refusal :=
  let x := s.slice slice
  match s.ring? slice rp with
  | some r =>
    match r.fetched with
    | some f =>
      if !s.dmaOk || !s.mayDecide x rp r f then .next s
      else
        let c := s.newCtx x rp r f
        match s.earlyChecks x r f.desc, f.listFault with
        | none, some addr => .next (s.stopRing slice rp 2 addr)
        | _, _ =>
          match s.admitChecks x r f with
          | some (st, detail, bytes, result) =>
            let c1 := { c with phase := .finished, executed := false, status := st, detail := detail, bytes := bytes,
                               result := BitVec.ofNat 64 result }
            let s1 := s.enter c1 f
            .next (if st = .dmaFault then s1.hpError 3 5 0x22 false 7 slice result else s1)
          | none =>
            if f.desc.opcode = 0 then .next (s.enter c f)
            else
              match s.pickHome c ((s.openFor x f.desc).filter fun n => !s.priorityWaits n) with
              | none => .next s
              | some n =>
                match s.drr n slice (f.work rp) with
                | some s1 => .next (s1.handOver n c f)
                | none => .next s
    | none => .next s
  | none => .next s

/-! ### Reads -/

/-- The IV of the context is still to be drawn (R194). -/
def Ctx.needsIv (c : Ctx) : Bool := c.desc.opcode == 1 && c.desc.ivGen && c.iv.isEmpty

/-- The reads issued with segment k: the source, and with the first the auxiliary input and OUT2 (R60, R162). -/
def Ctx.readsFor (c : Ctx) (k : Nat) : List DmaPart :=
  (if c.desc.opcode != 0x18 && c.desc.segLen k != 0 then [.source k] else []) ++
  (if k = 0 && c.desc.readsAux then [.aux] else []) ++
  (if k = 0 && c.out2Len != 0 then [.out2] else [])

/-- A segment as issued at a place in the order of issue: its data is at hand where nothing is read. -/
def Ctx.newSeg (c : Ctx) (turn k : Nat) : Seg :=
  { k := k, turn := turn, ran := false,
    data := if !c.isLocal then some (sub c.hdr (Config.segment * k) (c.desc.segLen k))
            else if c.desc.opcode == 0x18 || c.desc.segLen k == 0 then some [] else none }

/-- The reads of a segment issued. -/
def State.startReads (id k : Nat) (s : State) : State :=
  match s.ctx? id with
  | some c => if c.isLocal then s.issueReads id (c.readsFor k) else s
  | none => s

/-! ### Issue -/

/-- The checks the channel makes once it knows the key, before it reads any data: a PK_OP's lengths (R247, R273), then the mode's
limits (R188, R209). -/
def Ctx.keyedChecks (c : Ctx) : Option (Status × Nat × Nat) :=
  let d := c.desc
  if d.opcode == 0x10 then
    match lowest (d.pkBreaches (some c.pkBytes)) with
    | some k => some (.descMalformed, k, 0)
    | none => if d.dstCount != 0 && sgSum c.dst != d.dstLen c.pkBytes then some (.lengthMismatch, 2, sgSum c.dst) else none
  else if d.isCipher && !d.rangeOk c.msgInline c.sumBefore then some (.inputRange, 0, 0)
  else none

/-- The place in the order of issue of the entry a context begins next (R166). -/
def Ctx.turnNow (c : Ctx) : Option Nat :=
  match c.phase with
  | .issued => (c.segs.find? (fun g => !g.ran)).map (·.turn)
  | .ready => c.queued
  | _ => none

/-- The PK_OP of channel n's queue that is next in issue order, of those that have not begun to run (R241). -/
def State.pkHead (s : State) (n : Nat) : Option Ctx :=
  ((s.chCtxs n).filter fun c => c.desc.opcode == 0x10 && c.turnNow.isSome).foldl (fun b c =>
    match b with
    | none => some c
    | some y => if c.turnNow.getD 0 < y.turnNow.getD 0 then some c else some y) none

/-- The inputs of the next PK_OP fetched into the input region the running one does not use (R245, R247). -/
def State.pkFetch (n : Nat) (s : State) : State :=
  match s.pkHead n with
  | some c =>
    let used := (s.ch n).regIn.filter fun e => e.1 == c.id || (s.ch n).pkRun.any fun r => r.ctx == e.1
    if c.phase != .issued || used.any fun e => e.1 == c.id then s
    else (s.modCh n fun ch => { ch with regIn := used ++ [(c.id, [])] }).startReads c.id 0
  | none => s

/-- An entry taken by channel n: its credit, its context-store entry, its place in the order of issue, and its reads (those of a PK_OP once an
input region is free, R247). A later link imports the chain state with its first entry (R167). -/
def State.take (n : Nat) (c : Ctx) (s : State) : State :=
  let k := c.nextSeg
  let turn := c.queued.getD s.dist.nextTurn
  let h := if k = 0 then c.imported else none
  let c1 := { c with
    home := some n, phase := .issued, queued := none, segs := c.segs ++ [c.newSeg turn k], nextSeg := k + 1, priority := false,
    image := (h.map (·.image)).getD c.image, crcRun := (h.map (·.crcRun)).getD c.crcRun, iv := (h.map (·.iv)).getD c.iv }
  let s1 := s.modDist fun d => { d with ctxs := d.ctxs.filter (fun y => y.id != c.id) ++ [c1] }
  let s2 := (if c.queued.isNone then s1.bumpTurn else s1).storeEntry n c
  let s3 := s2.modDom n fun d => { d with pstate := .run }
  if c1.needsIv then s3 else if c.desc.opcode = 0x10 then s3.pkFetch n else s3.startReads c.id k

/-- A descriptor whose handle names a shadow may run at a holder (R542). -/
def Ctx.mayGoRemote (c : Ctx) (k : Key) : Bool :=
  k.usage.getLsbD 17 && (c.desc.isCipher || c.desc.opcode == 9 || c.desc.opcode == 0x10) && !c.inChain && !c.desc.chainNext &&
  c.desc.length ≤ 1048576

/-- Work for another device, in its segments (R180, R542). -/
def Ctx.outward (c : Ctx) (ph : Phase) : Ctx :=
  let ks := List.range c.desc.segCount
  { c with phase := ph, home := none, queued := none, segs := ks.map (c.newSeg 0), nextSeg := ks.length, spilledRec := true }

/-- Every input of work for another device. -/
def Ctx.allReads (c : Ctx) : List DmaPart := (List.range c.desc.segCount).flatMap c.readsFor

/-- A remote operation (R542): the shadow's key stands for the checks; the request goes out once the inputs are read. -/
def State.goRemote (c : Ctx) (k : Key) (s : State) : State :=
  if !c.mayGoRemote k then s.finish c.id .keyAbsent 0 0
  else
    match Ctx.keyedChecks { c with key := some k } with
    | some (st, detail, bytes) => (s.finish c.id st detail 0).modCtx c.id fun x => { x with bytes := bytes }
    | none =>
      let c1 : Ctx := { c with key := some k }
      (((((s.releaseHome c).modCtx c.id fun _ => c1.outward .ready).issueReads c.id c1.allReads).modCtx c.id fun x => { x with key := none })).remoteNext c.id

/-- The staged key a context's blob handle finds. -/
def State.stagedOf (s : State) (c : Ctx) : Option Staged :=
  match c.keyRef with
  | some (.staged sl inst addr tag) => s.stagedFor sl inst addr tag
  | _ => none

/-- The rows a context's key is filled from pass their check (R331, R332). -/
def State.fillPasses (s : State) (c : Ctx) (k : Key) : Bool :=
  match s.stagedOf c with
  | some e => s.stagedPasses e
  | none => s.keyPasses k

/-- The first entry of a descriptor at channel n: the key check of R136 with its fill (R25, R333, R347), then the checks that follow. -/
def State.firstEntry (n : Nat) (c : Ctx) (tagOk : Bool) (s : State) : State :=
  let go (k : Option Key) (s : State) : State :=
    let c1 := { c with key := k, home := some n }
    match c1.keyedChecks with
    | some (st, detail, bytes) => (s.finish c.id st detail 0).modCtx c.id fun x => { x with bytes := bytes }
    | none => s.take n c1
  if (c.imported.map (·.failed)).getD false then s.finish c.id .aborted 2 0
  else
    match s.keyCheck n c with
    | .noKey => go none s
    | .cached k =>
      go (some k) (s.modCh n fun ch =>
        { ch with cache := ch.cache.filter (fun e => !e.serves c ch.generation) ++ ch.cache.filter (fun e => e.serves c ch.generation) })
    | .filled k =>
      if tagOk && s.fillPasses c k then
        go (some k) (match s.stagedOf c with
          | some e => (s.fill n c k).usedStaged e
          | none => s.fill n c k)
      else
        let s1 := match s.stagedOf c with
          | some e => s.stagedFailed e
          | none => s.markBad k
        s1.finish c.id .keySlotBad 0 0
    | .shadow k => s.goRemote c k
    | .again =>
      ((s.modCtx c.id fun x => { x with phase := .waitBlob, home := some n, queued := some (c.queued.getD s.dist.nextTurn) }).bumpTurn).storeEntry n c
    | .fail st => s.finish c.id st 0 0

/-- An entry issued to channel n, which is awake. A moved descriptor brings the key copy it holds (R168); what another channel's generator
drew for it is dropped. -/
def State.issue (n : Nat) (c : Ctx) (tagOk : Bool) (s : State) : State :=
  let c1 := if c.nextSeg = 0 && c.home != some n then { c with iv := [] } else c
  if c.nextSeg = 0 && c.key.isNone then s.firstEntry n c1 tagOk
  else if c.home = some n then s.take n c1
  else
    match c.key with
    | some k => (s.fill n { c1 with home := some n } k).take n c1
    | none => s.take n c1

/-- The channel an entry goes to: the one in whose fetch queue it stands, its home, or the choice of R160 among those with free credit.
Entries that run again or were withdrawn go first (R52); a held descriptor's segments go on at a channel that gives up all else (R206). -/
def State.target (s : State) (c : Ctx) : Option Nat :=
  if c.queued.isSome then (if c.phase == .ready && s.linkFirst c then c.home.filter fun n => (s.ch n).inService else none)
  else
    let free (n : Nat) : Bool := 1 ≤ s.creditFree n && s.takes n c && (c.priority || !s.priorityWaits n)
    match c.home with
    | some h => if c.nextSeg = 0 then s.pickHome c ((List.range 36).filter free)
                else if s.takes h c && (s.barred h c || free h) then some h else none
    | none => s.pickHome c ((List.range 36).filter free)

/-- ENTRY_ISSUE (R157, R160, R161): an entry takes a credit of its channel when it is its turn, or begins where it stands in the fetch queue;
a channel that sleeps is woken by the credit first (R18, R567). -/
def execEntryIssue (ctx : Nat) (tagOk : Bool) (s : State) : Host.Outcome State Fault Refusal :=
  match s.ctx? ctx with
  | some c =>
    if !s.dmaOk && c.isLocal then .next s
    else
      match s.target c with
      | some n =>
        if s.asleep n then .next (s.creditWake n)
        else if c.priority || c.queued.isSome || !c.isLocal then .next (s.issue n c tagOk)
        else
          match s.drr n c.slice c.work with
          | some s1 => .next (s1.issue n c tagOk)
          | none => .next s
      | none => .next s
  | none => .next s

/-- The destination overwritten with zeros (R199, R200); that of another device's work is zeroed by that device (R207). -/
def State.zeroDst (c : Ctx) (n : Nat) (s : State) : State := if c.isLocal then s.writeDst c 0 (zeros n) else s

/-! ### Segments and moves -/

/-- SEGMENT_COMPLETE (R163, R164): the oldest run segment of a cut descriptor gives its credit back; its running state stays in the
context store. -/
def execSegmentComplete (ctx : Nat) (s : State) : Host.Outcome State Fault Refusal :=
  match s.ctx? ctx with
  | some c =>
    match c.segs with
    | g :: gs => if g.ran && c.phase == .issued then .next ((s.entryDone c g.k).modCtx ctx fun x => { x with segs := gs }) else .next s
    | [] => .next s
  | none => .next s

/-- CONTEXT_MOVE (R97, R168, R206): at a segment boundary a cut descriptor leaves a home that drains or is exclusive to another slice. -/
def execContextMove (ctx : Nat) (s : State) : Host.Outcome State Fault Refusal :=
  match s.ctx? ctx with
  | some c =>
    match c.home with
    | some n =>
      if s.barred n c && c.desc.cut && c.segs.isEmpty && 1 ≤ c.nextSeg && (c.phase == .issued || c.phase == .ready) && c.desc.holdBytes == 0 then
        .next ((s.releaseHome c).modCtx ctx fun x => { x with home := none, phase := .ready })
      else .next s
    | none => .next s
  | none => .next s

/-! ### The end of a window -/

/-- SVC_RATE after a window (R158): kept when no entry finished. Paced operations count from T0 to their release (R263). -/
def Channel.rateAfter (c : Channel) (computePs : Nat) : Nat :=
  let t := c.winPaced + computePs
  if c.winEntries = 0 ∨ t = 0 then c.svcRate else sat 11 (1024 * c.winNominal / t)

/-- SPEED of a window (R258): 1,024 times the speed measured, over the slowest the image's pace table assumes for the point in force. -/
def Channel.speedOf (c : Channel) (point monitor : Nat) : Nat := sat 11 (1024 * monitor / Config.slowestSpeed c.mcVersion point)

/-- A list of numbers in rising order. -/
def sortNat (l : List Nat) : List Nat :=
  let rec ins (x : Nat) : List Nat → List Nat
    | [] => [x]
    | y :: ys => if x ≤ y then x :: y :: ys else y :: ins x ys
  l.foldl (fun a x => ins x a) []

/-- The median, the mean of the two middle values rounded down when their number is even (R159). -/
def median (l : List Nat) : Nat :=
  let a := sortNat l
  let n := a.length
  if n % 2 = 1 then a.getD (n / 2) 0 else (a.getD (n / 2 - 1) 0 + a.getD (n / 2) 0) / 2

/-- CREDIT_LIMIT of a rate against the median, rounded to the nearest and clamped (R159). -/
def creditFor (rate med : Nat) : Nat := if med = 0 then 32 else Nat.max 1 (Nat.min 32 ((64 * rate + med) / (2 * med)))

/-- OP_MIN set on channel n's domain (R170). -/
def State.setOpMin (n p : Nat) (s : State) : State := s.modDom n fun d => { d with opMin := p }

/-- The SLOW mark and its cure (R169 to R171), from the channel's rate against the median. -/
def State.judge (n med : Nat) (s : State) : State :=
  let c := s.ch n
  let low := c.svcRate * 100 < 60 * med
  match c.st with
  | .service =>
    let k := if low then c.lowWindows + 1 else 0
    if k < 10 then s.modCh n fun c => { c with lowWindows := k }
    else
      ((s.modCh n fun c => { c with st := .slow, slowMarks := (c.slowMarks + 1) % 2 ^ 32, slowSince := s.glob.uptimeMs,
                                    opMinAt := s.glob.uptimeMs, lowWindows := 0, goodWindows := 0, deferred := false }).setOpMin n
        (Nat.min 7 ((s.dom n).op + 1))).recordChannel n .service .slow
  | .slow =>
    let k := if low then 0 else c.goodWindows + 1
    if k < 10 then s.modCh n fun c => { c with goodWindows := k }
    else ((s.modCh n fun c => { c with st := .service, goodWindows := 0, lowWindows := 0, deferred := false }).setOpMin n 0).recordChannel n .slow .service
  | _ => s

/-- BASE of a channel's domain (R562). -/
def Domain.base (d : Domain) : Nat := basePoint d.targetNow

/-- OP_LOOP follows a changed TARGET at the moment CAP does (R562). -/
def State.followTarget (n : Nat) (s : State) : State :=
  if (s.dom n).loopEn then s.modDom n fun d => { d with opLoop := d.base } else s

/-- One step of a channel's voltage loop at the end of a window (R562). -/
def State.voltageLoop (n entries : Nat) (s : State) : State :=
  let c := s.ch n
  let d := s.dom n
  let t := d.targetNow
  let high := if t + 96 ≤ c.svcRate then c.highWindows + 1 else 0
  let s1 := s.modCh n fun c => { c with highWindows := high, targetChanged := false }
  if !d.loopEn || !c.inService then s1
  else if c.targetChanged then s1.modDom n fun d => { d with opLoop := d.base }
  else if entries = 0 then s1
  else if c.svcRate < t && d.opLoop < 7 then s1.modDom n fun d => { d with opLoop := d.opLoop + 1 }
  else if d.base < d.opLoop && 16 ≤ high then s1.modDom n fun d => { d with opLoop := d.opLoop - 1 }
  else s1

/-- The spares held from this window on (R178): the shared channels in service with the highest numbers. -/
def State.spares (s : State) : List Nat :=
  if s.dist.spareHold then s.sharedList.reverse.take (s.inServiceCount - 32) else []

/-- Draining would lower FULL to REDUCED or leave a partition-mode slice with no exclusive channel (R173). -/
def State.drainForbidden (s : State) (n : Nat) : Bool :=
  (s.md.mode == .full && s.inServiceCount ≤ 32) ||
  s.slices.any fun x => x.exists_ && x.partition && s.exclList x == [n]

/-- A deferred drain made at the end of a window in which neither condition of R173 holds. -/
def State.deferredDrain (n : Nat) (s : State) : State :=
  if (s.ch n).st = .slow ∧ (s.ch n).deferred ∧ !s.drainForbidden n then s.drain n 1 else s

/-- Tahr's count of a cell service window's last seconds (R394). -/
def Dual.tick (d : Dual) (ms : Nat) : Dual :=
  if !d.winOpen then d
  else { d with winMs := (d.winMs + ms) % 1000, winLeftS := d.winLeftS - (d.winMs + ms) / 1000 }

/-- The idle time of a channel or a fabric port counted in windows (R551): it begins at the end of the first window without work. `busy`: it
finished an entry in the window. -/
def State.refreshIdle (n : Nat) (busy : Bool) (s : State) : State :=
  let d := s.dom n
  if d.pstate = .run ∧ !busy ∧ !s.working n then s.modDom n fun d => { d with pstate := .idle, idleSince := s.glob.uptimeMs }
  else if d.pstate = .idle ∧ (busy ∨ s.working n) then s.modDom n fun d => { d with pstate := .run }
  else s

/-- SERVICE_WINDOW_END (R158, R159, R162, R169, R171, R173, R178, R562): the rates, the median and the credit limits, the marks and cures,
the deferred drains, the loops and the spares; the uptime moves on by 1 ms (DESIGN CHOICE, log entry 3). -/
def execServiceWindowEnd (meas : List ChMeas) (s : State) : Host.Outcome State Fault Refusal :=
  if !s.tamper.mainPower then .next s else
  let m (n : Nat) := meas.find? (fun x => x.ch == n)
  let all := List.range 36
  let s1 := { s with glob := { s.glob with uptimeMs := s.glob.uptimeMs + 1 }, dual := s.dual.tick 1,
                     tamper := { s.tamper with tahrMs := (s.tamper.tahrMs + 1) % 2 ^ 32 } }
  let s2 := s1.each all fun n t => t.modCh n fun c =>
    { c with svcRate := c.rateAfter (((m n).map (·.computePs)).getD 0), speed := ((m n).map fun x => c.speedOf (s.dom n).op x.monitor).getD c.speed, speedCap := none,
             spareWait := false, winPaced := 0 }
  let done := s1.serviceList.filter fun n => (s1.ch n).winEntries != 0
  let med := if done.isEmpty then s2.dist.medianRate else median (done.map fun n => (s2.ch n).svcRate)
  let s3 := (s2.modDist fun d => { d with medianRate := med }).each all fun n t => t.modCh n fun c =>
    { c with creditLimit := if !c.inService then 0 else if c.entered then c.creditLimit
                            else if done.length < 4 then 32 else creditFor c.svcRate med,
             entered := false, winNominal := 0, winEntries := 0 }
  let s4 := s3.each all fun n t => t.judge n med
  let s5 := s4.each all State.deferredDrain
  let s6 := s5.each all fun n t => t.voltageLoop n (s1.ch n).winEntries
  let sp := s6.spares
  let s7 := s6.each all fun n t => t.modCh n fun c => { c with heldSpare := sp.contains n }
  let s8 := (s7.each all fun n t => t.refreshIdle n ((s1.ch n).winEntries != 0)).each (List.range 20) fun p t => t.refreshIdle (40 + p) false
  .next ((s8.modRng fun r => { r with gens := r.gens.map fun g => { g with used := [] } }).settle s)

/-- OP_MIN_RAISE (R170): every 20 ms of SLOW, one point, up to OP_7. -/
def execOpMinRaise (ch : Nat) (s : State) : Host.Outcome State Fault Refusal :=
  let c := s.ch ch
  if 36 ≤ ch || c.st != .slow || s.glob.uptimeMs < c.opMinAt + 20 then .next s
  else
    .next (((s.modCh ch fun c => { c with opMinAt := s.glob.uptimeMs }).setOpMin ch (Nat.min 7 ((s.dom ch).opMin + 1))).settle s)

/-! ### Drains, fences, repair -/

/-- DRAIN_TIMEOUT (R172, R173): 100 ms of SLOW; the drain, or its deferral recorded as SLOW to SLOW. -/
def execDrainTimeout (ch : Nat) (s : State) : Host.Outcome State Fault Refusal :=
  let c := s.ch ch
  if 36 ≤ ch || c.st != .slow || c.deferred || s.glob.uptimeMs < c.slowSince + 100 then .next s
  else if s.drainForbidden ch then .next ((s.modCh ch fun c => { c with deferred := true }).recordChannel ch .slow .slow)
  else .next ((s.drain ch 1).settle s)

/-- DRAIN_COMPLETE (R172): nothing begun remains and every context has moved; SCRUB. -/
def execDrainComplete (ch : Nat) (s : State) : Host.Outcome State Fault Refusal :=
  let c := s.ch ch
  if 36 ≤ ch || c.st != .draining || (s.chCtxs ch).any (fun x => x.phase != .finished) || c.pkRun.isSome then .next s
  else .next ((((s.modCh ch fun c => { c with st := .scrub }).setOpMin ch 0).recordChannel ch .draining .scrub).settle s)

/-- LANE_GROUP_FAIL (R13): the channel of the lane group, or the 18 channels of the die, are fenced. -/
def execLaneGroupFail (f : LaneFault) (s : State) : Host.Outcome State Fault Refusal :=
  match f with
  | .laneGroup ch => .next ((if ch < 36 then s.fence ch 2 else s).settle s)
  | .dieA => .next ((s.fenceAll (List.range 18) 3).settle s)
  | .dieB => .next ((s.fenceAll ((List.range 18).map (· + 18)) 3).settle s)

/-- LAST_FENCE_CAUSE of a fault. -/
def causeCode : FenceCause → Nat
  | .laneGroup => 2 | .dieBridge => 3 | .integrity => 4

/-- CHANNEL_FENCE (R174): out of service at once, its descriptors run again, then SCRUB. -/
def execChannelFence (ch : Nat) (cause : FenceCause) (s : State) : Host.Outcome State Fault Refusal :=
  .next ((if ch < 36 then s.fence ch (causeCode cause) else s).settle s)

/-- A channel's self-test asks for OP_7 (R175, R562). -/
def State.askTest (n : Nat) (s : State) : State :=
  s.modCh n fun c => { c with test := .settle, testSince := s.glob.uptimeMs }

/-- A channel out of service for good until CH_RETURN (R176). -/
def State.failChannel (n cause : Nat) (s : State) : State :=
  let old := (s.ch n).st
  ((s.modCh n fun c => { c with st := .failed, test := .none, powerUp := false, fenceCause := cause }).recordChannel n old .failed)

/-- SCRUB_COMPLETE (R175, R176, R469): the scrub has cleared the channel; at a third fence it is FAILED, and otherwise its self-test
starts, unless CH_FENCE or an A2 response holds it. -/
def execScrubComplete (ch : Nat) (s : State) : Host.Outcome State Fault Refusal :=
  let c := s.ch ch
  if 36 ≤ ch || c.st != .scrub then .next s
  else
    let s1 := (s.modCh ch Channel.scrubbed).eraseGen (ch + 2)
    if 3 ≤ s.fences24 ch then .next ((s1.failChannel ch 8).settle s)
    else
      let s2 := (s1.modCh ch fun c => { c with st := .selftest, test := .none }).recordChannel ch .scrub .selftest
      .next ((if c.cfHold || !c.a2Hold.isEmpty then s2 else s2.askTest ch).settle s)

/-- SELFTEST_COMPLETE (R175, R298): a pass returns the channel with a new generation (R577; the self-test of the start-up is no return),
SVC_RATE 1,024 and CREDIT_LIMIT 8; a
failure makes it FAILED. The pass needs its generator instantiated. -/
def execSelftestComplete (ch : Nat) (katOk rateOk : Bool) (s : State) : Host.Outcome State Fault Refusal :=
  let c := s.ch ch
  if 36 ≤ ch || c.st != .selftest || c.test != .run then .next s
  else if katOk && rateOk && s.genReady ch then
    let s1 := s.modCh ch fun c =>
      { c with st := .service, test := .none, creditLimit := 8, entered := true, svcRate := 1024, lowWindows := 0, goodWindows := 0,
               cfHold := false, winNominal := 0, winEntries := 0,
               generation := if c.powerUp then c.generation else (c.generation + 1) % 2 ^ 32, powerUp := false }
    .next (((s1.modDom ch fun d => { d with opMin := 0 }).recordChannel ch .selftest .service).settle s)
  else .next ((s.failChannel ch 5).settle s)

/-- SELFTEST_SETTLE_TIMEOUT (R175): OP_7 not settled 20 ms after the self-test asked for it. -/
def execSelftestSettleTimeout (ch : Nat) (s : State) : Host.Outcome State Fault Refusal :=
  let c := s.ch ch
  if 36 ≤ ch || c.st != .selftest || c.test != .settle || s.glob.uptimeMs < c.testSince + 20 then .next s
  else .next ((s.failChannel ch 9).settle s)

end Sys2Proof.Machine
end

