-- ==== Sys2Proof/Machine/Cipher.lean ====
section
/-! DEFINITION. The cipher engines (R186 to R210): the modes of operation over an AES block function left to its standard, the drawing of
IVs, held and released decryption, and key wrap. -/

namespace Sys2Proof.Machine

/-! ### Blocks -/

/-- One AES block operation: enciphering or deciphering under a key (FIPS 197, opaque). -/
def aes (enc : Bool) (key blk : Bytes) : Bytes := Config.prim .aesBlock [leBytes 1 (b2n enc), key, blk] 16

/-- The 16-byte pieces of a byte string. -/
def blocks16 (b : Bytes) : List Bytes := (List.range ((b.length + 15) / 16)).map fun i => (b.drop (16 * i)).take 16

/-- CBC over whole blocks from a chaining block: output and the next chaining block. -/
def cbc (enc : Bool) (key prev data : Bytes) : Bytes × Bytes :=
  (blocks16 data).foldl (fun (o, p) x =>
    if enc then
      let y := aes true key (xorBytes x p)
      (o ++ y, y)
    else (o ++ xorBytes (aes false key x) p, x)) ([], prev)

/-- The last two blocks of CBC-CS3, of 16 + d bytes with d from 1 to 16. -/
def cs3Tail (enc : Bool) (key prev data : Bytes) : Bytes :=
  let a := data.take 16
  let b := data.drop 16
  let d := b.length
  if enc then
    let c1 := aes true key (xorBytes a prev)
    let c2 := aes true key (xorBytes (padTo 16 b) c1)
    c2 ++ c1.take d
  else
    let x := aes false key a
    let c1 := b ++ x.drop d
    xorBytes (aes false key c1) prev ++ xorBytes (x.take d) b

/-- CFB128: the key stream block is the enciphered previous ciphertext block. -/
def cfb (enc : Bool) (key prev data : Bytes) : Bytes × Bytes :=
  (blocks16 data).foldl (fun (o, p) x =>
    let y := xorBytes x (aes true key p)
    (o ++ y, if enc then y else x)) ([], prev)

/-- OFB: the key stream is the repeatedly enciphered IV. -/
def ofb (key prev data : Bytes) : Bytes × Bytes :=
  (blocks16 data).foldl (fun (o, p) x =>
    let z := aes true key p
    (o ++ xorBytes x z, z)) ([], prev)

/-- A counter key stream applied: block i under the counter block ctr i. -/
def ctrWith (key : Bytes) (ctr : Nat → Bytes) (first : Nat) (data : Bytes) : Bytes :=
  ((blocks16 data).zipIdx.map fun (x, i) => xorBytes x (aes true key (ctr (first + i)))).flatten

/-- The counter block of CTR (R191): the initial block as a big-endian integer, plus i, modulo 2^128. -/
def ctrBlock (init : Bytes) (i : Nat) : Bytes := beBytes 16 ((ofBe (padTo 16 init) + i) % 2 ^ 128)

/-- The counter block of GCM: 12 IV bytes and a 32-bit counter that starts at 2 for the data. -/
def gcmBlock (iv : Bytes) (i : Nat) : Bytes := padTo 12 iv ++ beBytes 4 ((i + 2) % 2 ^ 32)

/-- The counter block of CCM: flags, nonce, and a counter that starts at 1 for the data. -/
def ccmBlock (nonce : Bytes) (i : Nat) : Bytes :=
  leBytes 1 (14 - nonce.length) ++ nonce ++ beBytes (15 - nonce.length) (i + 1)

/-! ### XTS (R190) -/

/-- Multiplication by the primitive element of the XTS field: a 128-bit little-endian value doubled. -/
def xtsDouble (t : Nat) : Nat := if bit t 127 then (t * 2 % 2 ^ 128) ^^^ 0x87 else t * 2

/-- The tweak of block j of data unit k: the unit's number enciphered under the second half of the key, doubled j times. -/
def xtsTweak (key tweak0 : Bytes) (k j : Nat) : Bytes :=
  let t := aes true (key.drop (key.length / 2)) (leBytes 16 ((ofLe (padTo 16 tweak0) + k) % 2 ^ 128))
  leBytes 16 (Nat.repeat xtsDouble j (ofLe t))

/-- One XTS block. -/
def xtsBlock (enc : Bool) (key t x : Bytes) : Bytes := xorBytes (aes enc (key.take (key.length / 2)) (xorBytes x t)) t

/-- Whole XTS blocks from byte position pos of the message, in data units of u bytes (0: one unit). -/
def xtsBlocks (enc : Bool) (key tweak0 : Bytes) (u pos : Nat) (data : Bytes) : Bytes :=
  ((blocks16 data).zipIdx.map fun (x, i) =>
    let p := pos + 16 * i
    let k := if u = 0 then 0 else p / u
    xtsBlock enc key (xtsTweak key tweak0 k ((p - k * u) / 16)) x).flatten

/-- The last 16 + d bytes of a data unit that is no multiple of 16: ciphertext stealing. -/
def xtsTail (enc : Bool) (key tweak0 : Bytes) (pos : Nat) (data : Bytes) : Bytes :=
  let a := data.take 16
  let b := data.drop 16
  let d := b.length
  let t1 := xtsTweak key tweak0 0 (pos / 16)
  let t2 := xtsTweak key tweak0 0 (pos / 16 + 1)
  let y := xtsBlock enc key (if enc then t1 else t2) a
  let z := xtsBlock enc key (if enc then t2 else t1) (b ++ y.drop d)
  z ++ y.take d

/-! ### One segment -/

/-- What a mode needs of a message: mode, direction, key, IV or nonce or tweak, data unit size. -/
structure CipherJob where
  mode : Nat
  enc : Bool
  key : Bytes
  iv : Bytes
  unit : Nat
deriving DecidableEq, Repr

/-- The authenticator's running state over a further piece (GHASH, Poly1305 or CBC-MAC, opaque): of ciphertext, for CCM of plaintext. -/
def macStep (j : CipherJob) (image data : Bytes) : Bytes :=
  if data.isEmpty then image else Config.prim .cipherState [leBytes 1 j.mode, j.key, j.iv, image, data] 64

/-- The tag over a message (opaque). -/
def macTag (j : CipherJob) (image : Bytes) (aadLen total n : Nat) : Bytes :=
  Config.prim .cipherTag [leBytes 1 j.mode, j.key, j.iv, image, leBytes 8 aadLen, leBytes 8 total] n

/-- The key stream of ChaCha20-Poly1305 applied at a position of the message (opaque). -/
def chacha (j : CipherJob) (pos : Nat) (data : Bytes) : Bytes :=
  xorBytes data (Config.prim .cipherOut [leBytes 1 j.mode, j.key, j.iv, leBytes 8 pos] data.length)

/-- Modes in which the last block of a segment waits for the next, for the stealing that may follow (CBC-CS3, XTS). -/
def steals (mode : Nat) : Bool := mode == 3 || mode == 7

/-- A piece of a message run through a mode: its output, and the running state. `pos` is the message position of the piece's first byte,
`image` the running state before it, `end_` that no data follows. -/
def cipherRun (j : CipherJob) (pos : Nat) (image data : Bytes) (end_ : Bool) : Bytes × Bytes :=
  let prev := if image.isEmpty then padTo 16 j.iv else image.take 16
  match j.mode with
  | 1 => (((blocks16 data).map (aes j.enc j.key)).flatten, [])
  | 2 => cbc j.enc j.key prev data
  | 3 =>
    let all := image.drop 16 ++ data
    if end_ then
      if all.length ≤ 16 then cbc j.enc j.key prev all
      else
        let n := all.length - (16 + ((all.length - 1) % 16 + 1))
        let (o, p) := cbc j.enc j.key prev (all.take n)
        (o ++ cs3Tail j.enc j.key p (all.drop n), [])
    else
      let n := all.length - 16
      let (o, p) := cbc j.enc j.key prev (all.take n)
      (o, p ++ all.drop n)
  | 4 => cfb j.enc j.key prev data
  | 5 => ofb j.key prev data
  | 6 => (ctrWith j.key (ctrBlock j.iv) (pos / 16) data, [])
  | 7 =>
    let all := image ++ data
    let at_ := pos - image.length
    if end_ then
      if all.length % 16 = 0 then (xtsBlocks j.enc j.key j.iv j.unit at_ all, [])
      else
        let n := all.length - (16 + all.length % 16)
        (xtsBlocks j.enc j.key j.iv j.unit at_ (all.take n) ++ xtsTail j.enc j.key j.iv (at_ + n) (all.drop n), [])
    else (xtsBlocks j.enc j.key j.iv j.unit at_ (all.take (all.length - 16)), all.drop (all.length - 16))
  | 8 =>
    let o := ctrWith j.key (gcmBlock j.iv) (pos / 16) data
    (o, macStep j image (if j.enc then o else data))
  | 9 =>
    let o := ctrWith j.key (ccmBlock j.iv) (pos / 16) data
    (o, macStep j image (if j.enc then data else o))
  | _ =>
    let o := chacha j pos data
    (o, macStep j image (if j.enc then o else data))

/-- The CipherJob of a context. A CBC-CS3 link that is not the last runs as CBC: stealing falls in the last link alone (R192). -/
def Ctx.cipherJob (c : Ctx) : CipherJob :=
  let d := c.desc
  let inl := c.msgInline
  let iv :=
    if !c.iv.isEmpty then (if d.mode = 6 then padTo 16 c.iv else c.iv)
    else if d.mode = 8 || d.mode = 10 then inl.take 12
    else if d.mode = 9 then inl.take (fieldLe inl 13 1)
    else inl
  { mode := if d.mode = 3 && d.chainNext then 2 else d.mode, enc := d.opcode == 1, key := (c.key.map (·.material)).getD [], iv := iv, unit := c.msgAuxLen }

/-- The next segment of a context that may run: the oldest not run, with its data and the auxiliary input at hand. -/
def Ctx.nextRun (c : Ctx) : Option (Seg × Bytes) :=
  match c.segs.find? (fun g => !g.ran) with
  | some g =>
    match g.data with
    | some b => if c.desc.readsAux && c.aux.isNone then none else some (g, b)
    | none => none
  | none => none

/-- An entry issued to channel n before this context's next one has not begun yet (R166; DEDUCED, log entry 92: entries begin in the order
of their issue). The queue of PK_OPs is the engine's own (R241, R242). -/
def State.behind (s : State) (n : Nat) (c : Ctx) : Bool :=
  (s.chCtxs n).any fun y => y.id != c.id && y.desc.opcode != 0x10 &&
    match y.turnNow, c.turnNow with
    | some a, some b => a < b
    | _, _ => false

/-- The channel of a context runs work: in service or draining, and awake; the host link carries its DMA, and its turn has come. -/
def State.runnable (s : State) (c : Ctx) : Bool :=
  c.phase == .issued && (s.dmaOk || !c.isLocal) &&
  match c.home with
  | some n => ((s.ch n).inService || (s.ch n).st == .draining) && (c.desc.opcode == 0x10 || !s.behind n c)
  | none => false

/-- A segment marked run, its data gone from the channel, the running state kept and its source bytes counted (R140). -/
def State.ranSeg (id k : Nat) (image : Bytes) (s : State) : State :=
  s.modCtx id fun c =>
    { c with image := image, bytes := c.bytes + (if c.desc.opcode == 0x18 then 0 else c.desc.segLen k), segs := c.segs.map fun g => if g.k == k then { g with ran := true, data := some [] } else g }

/-- A channel's draw for a context (R194, R264, R276): taken into its IV field; one that waits releases the credit and the context stays
admitted (R305); a refusal ends the descriptor; a full list of a stalled generator hands it back to the distributor (R304, R305). -/
def State.ctxDraw (c : Ctx) (n : Nat) (pr : Bool) (s : State) : State × Bool :=
  match c.home with
  | some h =>
    match s.draw (h + 2) n pr (.ctx c.id n) with
    | (.bytes b, s1) => (s1.modCtx c.id fun x => { x with iv := x.iv ++ b }, true)
    | (.waits, s1) =>
      let unrun := c.segs.filter (!·.ran)
      let s2 := ((c.segs.filter (·.ran)).map (·.k)).foldl (fun t k => t.entryDone c k) s1
      let s3 := if c.nextSeg = unrun.length then s2.releaseHome c else s2
      (s3.modCtx c.id fun x => { x with phase := .waitDraw, segs := [], nextSeg := x.nextSeg - unrun.length, reads := [],
                                        aux := if x.isLocal then none else x.aux, out2In := if x.isLocal then none else x.out2In }, false)
    | (.refused st, s1) => (s1.endOp c st 0 0 0, false)
    | (.held, s1) => (if c.notBegun then s1.withdraw c.id else s1, false)
  | none => (s, false)

/-- IV length and tag written to OUT2 at the end of an encryption (R187, R195). -/
def Ctx.encOut2 (c : Ctx) (j : CipherJob) (image : Bytes) : Bytes :=
  let inl := c.msgInline
  let tag := if c.desc.aead then macTag j image (c.msgAuxLen) (c.sumBefore + c.desc.length) (tagLen c.desc.mode inl) else []
  (if c.desc.ivGen then c.iv else []) ++ tag

/-- The AAD enters the authenticator before the first data of a message. -/
def startImage (c : Ctx) (j : CipherJob) (k : Nat) : Bytes :=
  if c.desc.aead && k = 0 && c.imported.isNone then macStep j c.image (c.aux.getD []) else c.image

/-- ENCRYPT (R187 to R195): the IV is drawn first where IV_GEN asks; each segment is enciphered and written; the last writes OUT2. -/
def execEncrypt (ctx : Nat) (s : State) : Host.Outcome State Fault Refusal :=
  match s.ctx? ctx with
  | some c =>
    if c.desc.opcode != 1 || !s.runnable c then .next s
    else if c.needsIv && c.imported.isNone then
      let (s1, ok) := s.ctxDraw c (ivDraw c.desc.mode c.desc.inline) false
      .next (if ok then s1.startReads ctx 0 else s1)
    else
      match c.nextRun with
      | some (g, data) =>
        let j := c.cipherJob
        let last := g.k + 1 = c.desc.segCount
        let off := Config.segment * g.k
        let im := startImage c j g.k
        let (out, image) := cipherRun j (c.sumBefore + off) im data last
        let hold := if steals j.mode then im.drop (if j.mode = 3 then 16 else 0) else []
        let s1 := (s.writeDst c (off - hold.length) out).ranSeg ctx g.k image
        if last then
          let s2 := if c.desc.chainNext then s1 else s1.writeOut2 c (c.encOut2 j image)
          .next (s2.endOp c .done 0 c.desc.length 0)
        else .next s1
      | none => .next s
  | none => .next s

/-- The end of an authenticated decryption (R199 to R201): the tag is compared over the whole message. -/
def State.decEnd (c : Ctx) (j : CipherJob) (image plain : Bytes) (held : Bool) (s : State) : State :=
  let d := c.desc
  let inl := c.msgInline
  if d.chainNext then s.endOp c .doneDeferredAuth 0 d.length 0
  else
    let n := tagLen d.mode inl
    let tag := macTag j image (c.msgAuxLen) (c.sumBefore + d.length) n
    if tag = padTo n (c.out2In.getD []) then
      if held then (s.writeDst c 0 plain).endOp c .done 0 d.length 0 else s.endOp c .doneDeferredAuth 0 d.length 0
    else (s.zeroDst c d.length).endOp c .authFail 0 d.length 0

/-- A decryption is held until its tag check (R199, R201). -/
def Desc.isHeld (d : Desc) : Bool := d.aead && !d.chainNext && d.length ≤ Config.heldMax

/-- DECRYPT (R187 to R206): each segment's plaintext is written, or kept in the hold pool until the tag has been compared. -/
def execDecrypt (ctx : Nat) (s : State) : Host.Outcome State Fault Refusal :=
  match s.ctx? ctx with
  | some c =>
    if c.desc.opcode != 2 || !s.runnable c then .next s
    else
      match c.nextRun with
      | some (g, data) =>
        let d := c.desc
        let j := c.cipherJob
        if d.aead && !d.chainNext && c.out2In.isNone then .next s
        else
          let last := g.k + 1 = d.segCount
          let off := Config.segment * g.k
          let im := startImage c j g.k
          let (out, image) := cipherRun j (c.sumBefore + off) im data last
          let hold := if steals j.mode then im.drop (if j.mode = 3 then 16 else 0) else []
          let s1 := (if d.isHeld then s.modCtx ctx fun x => { x with held := x.held ++ out }
                     else s.writeDst c (off - hold.length) out).ranSeg ctx g.k image
          if last then
            .next (if d.aead then s1.decEnd c j image (c.held ++ out) d.isHeld else s1.endOp c .done 0 d.length 0)
          else .next s1
      | none => .next s
  | none => .next s

/-! ### Key wrap (R209, R210) -/

/-- WRAP: KW or KWP under the key-encryption key; for KWP the padding after MLI must be zero. -/
def execWrap (ctx : Nat) (s : State) : Host.Outcome State Fault Refusal :=
  match s.ctx? ctx with
  | some c =>
    if c.desc.opcode != 3 || !s.runnable c then .next s
    else
      match c.nextRun with
      | some (_, data) =>
        let d := c.desc
        let key := (c.key.map (·.material)).getD []
        let mli := if d.mode = 17 then fieldLe d.inline 0 4 else d.length
        if d.mode = 17 && anySet (data.drop mli) then .next (s.endOp c .inputRange 0 d.length 0)
        else
          let out := Config.prim .keyWrap [leBytes 1 d.mode, key, data.take mli] (d.length + 8)
          .next ((s.writeDst c 0 out).endOp c .done 0 d.length 0)
      | none => .next s
  | none => .next s

/-- The plaintext semiblocks of a wrapped package, where its integrity check passes, and the MLI of a KWP package (R209). -/
def unwrapKey (mode : Nat) (key ct : Bytes) : Option (Bytes × Nat) :=
  if Config.primCheck .wrapIntegrity [leBytes 1 mode, key, ct] then
    let n := ct.length - 8
    let pad := if mode = 17 then (Config.primByte .keyUnwrap [leBytes 1 mode, key, ct, ascii "MLI"] 0).toNat % 8 else 0
    let mli := n - pad
    some (padTo n ((Config.prim .keyUnwrap [leBytes 1 mode, key, ct] n).take mli), mli)
  else none

/-- UNWRAP: the plaintext is written only after the integrity check has passed; otherwise zeros, and AUTH_FAIL. -/
def execUnwrap (ctx : Nat) (s : State) : Host.Outcome State Fault Refusal :=
  match s.ctx? ctx with
  | some c =>
    if c.desc.opcode != 4 || !s.runnable c then .next s
    else
      match c.nextRun with
      | some (_, data) =>
        let d := c.desc
        match unwrapKey d.mode ((c.key.map (·.material)).getD []) data with
        | some (plain, mli) =>
          .next ((s.writeDst c 0 plain).endOp c .done 0 d.length (BitVec.ofNat 64 (if d.mode = 17 then mli else 0)))
        | none => .next ((s.zeroDst c (d.length - 8)).endOp c .authFail 0 d.length 0)
      | none => .next s
  | none => .next s

end Sys2Proof.Machine
end

