-- ==== Sys2Proof/Machine/Digest.lean ====
section
/-! DEFINITION. Digests, keyed digests and check values (R215 to R240): DIGEST, KEYED_DIGEST, CRC and RANDOM descriptors, the resident
contexts, and the register-fed sessions. -/

namespace Sys2Proof.Machine

/-! ### Digest contexts and save images (R219, R221) -/

/-- Chaining state bytes of a function (FIPS 180-4, FIPS 202). -/
def stateLen (f : Nat) : Nat := if f ≤ 2 then 32 else if f ≤ 6 then 64 else 200

/-- Bytes a function compresses at a time (R219; FIPS 180-4, FIPS 202). -/
def blockLen (f : Nat) : Nat :=
  match f with
  | 8 => 144 | 9 => 136 | 10 => 104 | 11 => 72 | 12 => 168 | 13 => 136
  | _ => funcBlock f

/-- A digest context: function code, chaining state, partial block and byte count (R219). -/
structure DigestCtx where
  func : Nat
  count : Nat
  st : Bytes
  tail : Bytes
deriving DecidableEq, Repr

/-- A context before the first byte. -/
def newDigest (f : Nat) : DigestCtx := ⟨f, 0, Config.prim (.shaInit f) [] (stateLen f), []⟩

/-- A context restored from a pad state, with a byte count of one block (R225). -/
def padDigest (f : Nat) (st : Bytes) : DigestCtx := ⟨f, blockLen f, st, []⟩

/-- The whole blocks of n bytes at the front of a byte string. -/
def wholeBlocks (n : Nat) (b : Bytes) : List Bytes := (List.range (b.length / n)).map fun i => (b.drop (n * i)).take n

/-- One block compressed. -/
def compress (f : Nat) (st blk : Bytes) : Bytes := Config.prim (.shaBlock f) [st, blk] (stateLen f)

/-- Bytes taken into a context, each whole block compressed. -/
def DigestCtx.absorb (x : DigestCtx) (data : Bytes) : DigestCtx :=
  let all := x.tail ++ data
  let n := blockLen x.func
  { x with count := x.count + data.length, st := (wholeBlocks n all).foldl (compress x.func) x.st, tail := all.drop (all.length / n * n) }

/-- n bytes of output of a finished context. -/
def DigestCtx.final (x : DigestCtx) (n : Nat) : Bytes := Config.prim (.shaFinal x.func) [x.st, x.tail, leBytes 16 x.count] n

/-- The save image of a context: format, engine, function code, 128-bit byte count, chaining state, partial block. The order of the fields
is a DESIGN CHOICE (log entry 93); the lengths are R221's, 216 bytes at most for SHA-2 and 392 for SHA-3 and SHAKE. -/
def DigestCtx.image (x : DigestCtx) : Bytes :=
  [1, 0] ++ leBytes 6 x.func ++ leBytes 16 x.count ++ padTo (stateLen x.func) x.st ++ padTo (blockLen x.func) x.tail

/-- The context a save image holds. -/
def digestOf (b : Bytes) : DigestCtx :=
  let f := fieldLe b 2 6
  let n := fieldLe b 8 16
  ⟨f, n, sub b 24 (stateLen f), sub b (24 + stateLen f) (n % blockLen f)⟩

/-- A digest of a whole message. -/
def hash (func : Nat) (msg : Bytes) : Bytes := ((newDigest func).absorb msg).final (funcLen func)

/-- SHA-384, the digest the device uses for its own structures. -/
def sha384 (msg : Bytes) : Bytes := hash 3 msg

/-- The context of an inner digest over a key's pad states (R223, R225). -/
def innerDigest (func : Nat) (pads : Bytes) : DigestCtx := padDigest func (pads.take (funcState func))

/-- HMAC finished from its inner digest (R225). -/
def hmacFinal (func : Nat) (pads : Bytes) (inner : DigestCtx) : Bytes :=
  let n := funcState func
  ((padDigest func (sub pads n n)).absorb (inner.final (funcLen func))).final (funcLen func)

/-- The pad states of a key K (R223, R224): each pad block compressed from the function's initial value. -/
def padStates (func : Nat) (k : Bytes) : Bytes :=
  let n := funcBlock func
  let k0 := padTo n (if n < k.length then hash func k else k)
  let pad (x : Byte) := compress func (newDigest func).st (k0.map (· ^^^ x))
  pad 0x36 ++ pad 0x5C

/-- HMAC under a key K. -/
def hmac (func : Nat) (k msg : Bytes) : Bytes :=
  let p := padStates func k
  hmacFinal func p ((innerDigest func p).absorb msg)

/-! ### Resident contexts (R219, R220) -/

/-- A resident context may be evicted: its owner is a cut descriptor that has not ended. -/
def State.evictable (s : State) : DigestOwner → Bool
  | .ctx id => (s.ctx? id).any fun c => c.desc.cut && c.phase != .finished
  | .session _ => false

/-- A resident context whose descriptor has ended and waits for its record: it holds nothing more to be computed. -/
def State.idleEnded (s : State) : DigestOwner → Bool
  | .ctx id => (s.ctx? id).all fun c => c.phase == .finished
  | .session _ => false

/-- A context taken for an owner, most recently used last; when none is free the longest idle evictable one is saved and cleared, and where
there is none (R220 says there always is) the longest idle one of a descriptor that has ended (DESIGN CHOICE, log entry 93). -/
def State.takeDigest (n : Nat) (o : DigestOwner) (s : State) : State :=
  let l := (s.ch n).digests.filter (· != o)
  let gone := if l.length < Config.digestCtxs then none
              else match l.find? s.evictable with
                | some y => some y
                | none => l.find? s.idleEnded
  s.modCh n fun c => { c with digests := l.filter (fun y => some y != gone) ++ [o] }

/-- A context of a session released. -/
def State.dropSessionCtx (n k : Nat) (s : State) : State := s.modCh n fun c => { c with digests := c.digests.filter (· != .session k) }

/-! ### DIGEST and KEYED_DIGEST -/

/-- The output length of a digest message: of its function, or AUX_LEN for SHAKE (R216). -/
def Ctx.digestLen (c : Ctx) : Nat :=
  if c.desc.func == 12 || c.desc.func == 13 then c.msgAuxLen else funcLen c.desc.func

/-- The digest context of a descriptor after a further segment: its message's first segment begins one, from the inner pad state of its key
for a keyed digest (R225); later segments go on from its save image (R165, R167). -/
def Ctx.digestAfter (c : Ctx) (k : Nat) (data : Bytes) : DigestCtx :=
  let start :=
    if k = 0 && c.imported.isNone then
      if c.desc.opcode = 9 then innerDigest c.desc.func ((c.key.map (·.material)).getD []) else newDigest c.desc.func
    else digestOf c.image
  start.absorb data

/-- A segment absorbed into the context of its descriptor. -/
def State.absorbSeg (c : Ctx) (k : Nat) (data : Bytes) (s : State) : State :=
  match c.home with
  | some n => (s.takeDigest n (.ctx c.id)).ranSeg c.id k (c.digestAfter k data).image
  | none => s

/-- DIGEST (R216): the message is hashed, and the last link writes the digest to OUT2. -/
def execDigest (ctx : Nat) (s : State) : Host.Outcome State Fault Refusal :=
  match s.ctx? ctx with
  | some c =>
    if c.desc.opcode != 8 || !s.runnable c then .next s
    else
      match c.nextRun with
      | some (g, data) =>
        let s1 := s.absorbSeg c g.k data
        if g.k + 1 = c.desc.segCount then
          let s2 := if c.desc.chainNext then s1 else s1.writeOut2 c ((c.digestAfter g.k data).final c.digestLen)
          .next (s2.endOp c .done 0 c.desc.length 0)
        else .next s1
      | none => .next s
  | none => .next s

/-- The expected value of a verification: read at the first link, and carried by the chain state (R226, R227). -/
def Ctx.expectedValue (c : Ctx) : Bytes :=
  match c.imported with
  | some h => h.expected
  | none => c.aux.getD []

/-- KEYED_DIGEST (R225, R226): HMAC from the key's pad states; written to OUT2, or its first bytes compared with the expected value. -/
def execKeyedDigest (ctx : Nat) (s : State) : Host.Outcome State Fault Refusal :=
  match s.ctx? ctx with
  | some c =>
    if c.desc.opcode != 9 || !s.runnable c then .next s
    else
      match c.nextRun with
      | some (g, data) =>
        let d := c.desc
        let s1 := s.absorbSeg c g.k data
        if g.k + 1 = d.segCount then
          if d.chainNext then .next (s1.endOp c .done 0 d.length 0)
          else
            let out := hmacFinal d.func ((c.key.map (·.material)).getD []) (c.digestAfter g.k data)
            if d.verify then
              let n := c.msgAuxLen
              .next (s1.endOp c (if out.take n = padTo n c.expectedValue then .done else .verifyFail) 0 d.length 0)
            else .next ((s1.writeOut2 c out).endOp c .done 0 d.length 0)
        else .next s1
      | none => .next s
  | none => .next s

/-! ### CRC -/

/-- The CRC parameters of a message (R229, R232): a preset's, with a seed, or those of AUX_LEN and INLINE. -/
def crcParams (func variant auxLen : Nat) (inl : Bytes) : CrcParams :=
  match crcPreset func with
  | some p => if bit variant 4 then { p with init := fieldLe inl 0 8 } else p
  | none => ⟨bits auxLen 0 7, fieldLe inl 0 8, fieldLe inl 8 8, bit auxLen 7, bit auxLen 8, bit auxLen 9⟩

/-- CRC (R229 to R232): RESULT holds the running value for a link that is not the last or under RAW_OUT, else the final value. -/
def execCrc (ctx : Nat) (s : State) : Host.Outcome State Fault Refusal :=
  match s.ctx? ctx with
  | some c =>
    if c.desc.opcode != 10 || !s.runnable c then .next s
    else
      match c.nextRun with
      | some (g, data) =>
        let d := c.desc
        let p := crcParams d.func d.variant c.msgAuxLen c.msgInline
        let start := if g.k = 0 ∧ c.imported.isNone then p.init else c.crcRun.toNat
        let run := crcRun p start data
        let s1 := (s.ranSeg ctx g.k []).modCtx ctx fun x => { x with crcRun := BitVec.ofNat 64 run }
        if g.k + 1 = d.segCount then
          let v := if d.chainNext || bit d.variant 5 then run else crcFinal p run
          .next (s1.endOp c .done 0 d.length (BitVec.ofNat 64 v))
        else .next s1
      | none => .next s
  | none => .next s

/-! ### RANDOM -/

/-- RANDOM (R299, R300): each segment is one generate call of the channel's generator, written to the destination. -/
def execRandom (ctx : Nat) (s : State) : Host.Outcome State Fault Refusal :=
  match s.ctx? ctx with
  | some c =>
    if c.desc.opcode != 0x18 || !s.runnable c then .next s
    else
      match c.segs.find? (fun g => !g.ran) with
      | some g =>
        let d := c.desc
        let run (b : Bytes) (t : State) : State :=
          let t1 := ((t.writeDst c (Config.segment * g.k) b).ranSeg ctx g.k []).modCtx ctx fun x => { x with iv := [] }
          if g.k + 1 = d.segCount then t1.endOp c .done 0 d.length 0 else t1
        if c.iv.isEmpty then
          match s.ctxDraw c (d.segLen g.k) (bit d.variant 0) with
          | (s1, true) => .next (run (((s1.ctx? ctx).map (·.iv)).getD []) s1)
          | (s1, false) => .next s1
        else .next (run c.iv s)
      | none => .next s
  | none => .next s

/-! ### Register-fed sessions (R234 to R240) -/

/-- A session of a channel. -/
def Channel.session (c : Channel) (k : Nat) : Session := if k = 0 then c.session0 else c.session1

/-- f applied to session k of channel n. -/
def State.modSession (n k : Nat) (f : Session → Session) (s : State) : State :=
  s.modCh n fun c => if k = 0 then { c with session0 := f c.session0 } else { c with session1 := f c.session1 }

/-- An action ended with a status: ERROR is set unless it is DONE. -/
def Session.ended (x : Session) (st : Status) : Session := { x with status := st, error := x.error || st != .done }

/-- A channel's return from SLEEP or DEEP (R577): a new generation, its cached keys forgotten, operand memory zeroed, its microcode's digest
to be checked again (R251), the generator to be reseeded before its next call; its domain runs, and LAST_WAKE names the source (R569). -/
def State.channelReturn (n source : Nat) (s : State) : State :=
  let s1 := s.modCh n fun c =>
    { c with generation := (c.generation + 1) % 2 ^ 32, cache := [], bnOwner := none, regKey := [], regIn := [], regWork := [],
             regResult := [], mcRecheck := c.mcState == .active || c.mcRecheck }
  (s1.modGen (n + 2) fun g => { g with returned := true }).wakeNote n source

/-- A session write wakes a channel in SLEEP or DEEP (R234). -/
def State.sessionWake (n : Nat) (s : State) : State :=
  if s.asleep n then s.channelReturn n 4 else s

/-- The CRC parameters of a session (R236). -/
def Session.crcParams (x : Session) : CrcParams :=
  (crcPreset x.func).getD ⟨x.crcWidth, x.crcPoly.toNat, x.crcValue.toNat, x.crcRefin, x.crcRefout, x.crcFinalInv⟩

/-- FUNC and the CRC parameters are defined (R238). A SHAKE session whose OUT_LEN is not 1 to 64 (R236) is refused as an undefined parameter
is: DESIGN CHOICE, log entry 93. -/
def Session.funcOk (x : Session) : Bool :=
  if x.engineCrc then
    x.func ≤ 13 && (x.func != 0 || (3 ≤ x.crcWidth && x.crcWidth ≤ 64 && x.crcPoly.toNat < 2 ^ x.crcWidth && x.crcValue.toNat < 2 ^ x.crcWidth))
  else funcDefined x.func && ((x.func != 12 && x.func != 13) || (1 ≤ x.outLen && x.outLen ≤ 64))

/-- Channel and session numbers that exist. -/
def sessionNo (ch k : Nat) : Bool := ch < 36 && k < 2

/-- The fields of a control write taken: ENGINE, FUNC, OUT_LEN take effect with OPEN (R236). -/
def Session.withCtrl (x : Session) (ctrl : BitVec 32) : Session :=
  let v := ctrl.toNat
  { x with engineCrc := bit v 5, func := bits v 8 4, outLen := bits v 16 7 }

/-- A session opened on a context. MATCH is cleared with RESULT: DESIGN CHOICE, log entry 93. -/
def Session.opened (x : Session) (context : Bytes) (fed : Nat) : Session :=
  { x with isOpen := true, fed := fed, status := .done, busy := false, resultValid := false, isMatch := false, result := [],
           context := context, waiting := [] }

/-- SESSION_OPEN (R234, R236, R237): refused with CFG_HELD while open, NOT_READY on a channel out of service, DESC_MALFORMED for an
undefined function; a CRC session takes its preset's INIT. -/
def State.sessionOpen (ch sn : Nat) (ctrl : BitVec 32) (s : State) : State :=
  if !sessionNo ch sn then s
  else
    let s0 := s.sessionWake ch
    let c := s0.ch ch
    let x := (c.session sn).withCtrl ctrl
    if (c.session sn).isOpen then (s0.modSession ch sn fun x => x.ended .cfgHeld)
    else if !c.inService then (s0.modSession ch sn fun y => (y.withCtrl ctrl).ended .notReady)
    else if !x.funcOk then (s0.modSession ch sn fun y => (y.withCtrl ctrl).ended .descMalformed)
    else
      let s1 := s0.modSession ch sn fun y =>
        let v := y.withCtrl ctrl
        let z := v.opened (if v.engineCrc then [] else (newDigest v.func).image) 0
        if z.engineCrc then { z with crcValue := BitVec.ofNat 64 (match crcPreset z.func with | some p => p.init | none => z.crcValue.toNat) } else z
      (if x.engineCrc then s1 else s1.takeDigest ch (.session sn))

/-- SESSION_OPEN. -/
def execSessionOpen (ch sn : Nat) (ctrl : BitVec 32) (s : State) : Host.Outcome State Fault Refusal := .next (s.sessionOpen ch sn ctrl)

/-- SESSION_ABANDON (R236): the session closes, its context and result cleared. -/
def State.sessionAbandon (ch sn : Nat) (s : State) : State :=
  if !sessionNo ch sn then s
  else
    (((s.sessionWake ch).modSession ch sn fun x => { x.abandoned .done with error := x.error, image := x.image }).dropSessionCtx ch sn)

/-- SESSION_ABANDON. -/
def execSessionAbandon (ch sn : Nat) (s : State) : Host.Outcome State Fault Refusal := .next (s.sessionAbandon ch sn)

/-- The save image of a session's context (R221, R239): a CRC session's holds its running value in place of the chaining state. -/
def Session.saved (x : Session) : Bytes :=
  padTo 512 (if x.engineCrc then [1, 1] ++ leBytes 6 x.func ++ leBytes 16 x.fed ++ leBytes 8 x.crcValue.toNat else x.context)

/-- An image's format, function code and byte count agree with the session that is to be opened from it (R239). -/
def Session.imageOk (x : Session) : Bool :=
  fieldLe x.image 0 1 == 1 && fieldLe x.image 1 1 == b2n x.engineCrc && fieldLe x.image 2 6 == x.func && fieldLe x.image 8 16 ≤ x.declLen

/-- SESSION_SAVE (R239): the open context copied into IMAGE. While the session is closed or BUSY the write is dropped, STATUS and ERROR
unchanged: DESIGN CHOICE, log entry 93. -/
def State.sessionSave (ch sn : Nat) (s : State) : State :=
  if !sessionNo ch sn then s
  else
    let s0 := s.sessionWake ch
    let x := (s0.ch ch).session sn
    if !x.isOpen || x.busy then s0
    else (s0.modSession ch sn fun x => { x with status := .done, image := x.saved })

/-- SESSION_SAVE. -/
def execSessionSave (ch sn : Nat) (s : State) : Host.Outcome State Fault Refusal := .next (s.sessionSave ch sn)

/-- SESSION_RESTORE (R239): the image's format, function code and byte count are checked, and the session opens from it, FED at its count. -/
def State.sessionRestore (ch sn : Nat) (s : State) : State :=
  if !sessionNo ch sn then s
  else
    let s0 := s.sessionWake ch
    let c := s0.ch ch
    let x := c.session sn
    if x.isOpen then (s0.modSession ch sn fun y => y.ended .cfgHeld)
    else if !c.inService then (s0.modSession ch sn fun y => y.ended .notReady)
    else if !x.imageOk || !x.funcOk then (s0.modSession ch sn fun y => y.ended .descMalformed)
    else
      let s1 := s0.modSession ch sn fun y =>
        let z := y.opened (if y.engineCrc then [] else y.image.take (24 + stateLen y.func + blockLen y.func)) (fieldLe y.image 8 16)
        if z.engineCrc then { z with crcValue := BitVec.ofNat 64 (fieldLe y.image 24 8 % 2 ^ z.crcParams.width) } else z
      (if x.engineCrc then s1 else s1.takeDigest ch (.session sn))

/-- SESSION_RESTORE. -/
def execSessionRestore (ch sn : Nat) (s : State) : Host.Outcome State Fault Refusal := .next (s.sessionRestore ch sn)

/-- SESSION_COMPARE (R228): the first CMP_LEN bytes of RESULT and CMP. A CMP_LEN outside 1 to 64 gives a MATCH the spec does not state:
a free value. -/
def State.sessionCompare (ch sn : Nat) (s : State) : State :=
  if !sessionNo ch sn then s
  else
    let s := s.sessionWake ch
    let x := (s.ch ch).session sn
    if 1 ≤ x.cmpLen ∧ x.cmpLen ≤ 64 then
      (s.modSession ch sn fun x => { x with status := .done, isMatch := padTo x.cmpLen x.result == padTo x.cmpLen x.cmp })
    else
      let (b, s1) := s.freeBytes 1
      (s1.modSession ch sn fun x => { x with status := .done, isMatch := bit (ofLe b) 0 })

/-- SESSION_COMPARE. -/
def execSessionCompare (ch sn : Nat) (s : State) : Host.Outcome State Fault Refusal := .next (s.sessionCompare ch sn)

/-- Bytes absorbed by a session's engine (R237). -/
def Session.absorb (x : Session) (data : Bytes) : Session :=
  if x.engineCrc then { x with fed := x.fed + data.length, crcValue := BitVec.ofNat 64 (crcRun x.crcParams x.crcValue.toNat data) }
  else { x with fed := x.fed + data.length, context := ((digestOf x.context).absorb data).image }

/-- The input waiting in the bridge absorbed. -/
def Session.drain (x : Session) : Session := { x.absorb x.waiting with waiting := [], busy := false }

/-- FEED (R237, R238): message bytes wait in the bridge, unless FED would pass DECL_LEN. While the session is closed the write is dropped,
STATUS and ERROR unchanged: DESIGN CHOICE, log entry 93. -/
def State.feed (ch sn : Nat) (data : Bytes) (s : State) : State :=
  if !sessionNo ch sn then s
  else
    let s := s.sessionWake ch
    if !((s.ch ch).session sn).isOpen || !([1, 2, 4, 8].contains data.length) then s
    else
      (s.modSession ch sn fun x =>
        if x.declLen < x.fed + x.waiting.length + data.length then x.ended .lengthMismatch
        else { x with waiting := x.waiting ++ data, busy := true })

/-- FEED. -/
def execFeed (ch sn : Nat) (data : Bytes) (s : State) : Host.Outcome State Fault Refusal := .next (s.feed ch sn data)

/-- The finished value of a session (R239): a digest or SHAKE output, or a CRC final value little-endian. -/
def Session.finalResult (x : Session) : Bytes :=
  if x.engineCrc then padTo 64 (leBytes 8 (crcFinal x.crcParams x.crcValue.toNat))
  else padTo 64 ((digestOf x.context).final (if x.func = 12 || x.func = 13 then x.outLen else funcLen x.func))

/-- LAST_CNT (R238, R239): the last bytes are absorbed and the value finalised, and the session closes; a count that disagrees with
DECL_LEN leaves it open exactly as it was. While the session is closed the write is dropped: DESIGN CHOICE, log entry 93. -/
def State.lastCnt (ch sn n : Nat) (s : State) : State :=
  if !sessionNo ch sn then s
  else
    let s := s.sessionWake ch
    let x := (s.ch ch).session sn
    if !x.isOpen then s
    else if 8 < n then (s.modSession ch sn fun x => x.ended .descMalformed)
    else if x.fed + x.waiting.length + n != x.declLen then (s.modSession ch sn fun x => x.ended .lengthMismatch)
    else
      ((s.modSession ch sn fun x =>
        let y := x.drain.absorb ((leBytes 8 x.lastData.toNat).take n)
        { y with result := y.finalResult, resultValid := true, isOpen := false, status := .done, context := [] }).dropSessionCtx ch sn)

/-- LAST_CNT. -/
def execLastCnt (ch sn n : Nat) (s : State) : Host.Outcome State Fault Refusal := .next (s.lastCnt ch sn n)

/-- CRC_VALUE (R237): the running value of an open session, after the bytes already fed, or the INIT of the next. -/
def State.crcValueWrite (ch sn : Nat) (value : BitVec 64) (s : State) : State :=
  if !sessionNo ch sn then s
  else ((s.sessionWake ch).modSession ch sn fun x => { (if x.isOpen then x.drain else x) with crcValue := value })

/-- CRC_VALUE. -/
def execCrcValue (ch sn : Nat) (value : BitVec 64) (s : State) : Host.Outcome State Fault Refusal := .next (s.crcValueWrite ch sn value)

/-- SESSION_ABSORB (R235): the waiting input is compressed. -/
def execSessionAbsorb (ch sn : Nat) (s : State) : Host.Outcome State Fault Refusal :=
  let x := (s.ch ch).session sn
  if !sessionNo ch sn || !x.isOpen || x.waiting.isEmpty then .next s else .next (s.modSession ch sn Session.drain)

end Sys2Proof.Machine
end

