-- ==== Sys2Proof/Machine/Spill.lean ====
section
/-! DEFINITION. Work shared over the fabric: spill to a neighbour (R179 to R182) and remote operations at a holder of a domain key
(R542, R543), at the device that sends the work and at the one that does it. -/

namespace Sys2Proof.Machine

/-! ### Sending -/

/-- The operation may be spilled (R179): one of five opcodes, not a chain link, with no key or a domain key this device holds and whose
policy permits it. -/
def State.mayTravel (s : State) (x : Slice) (r : RingPair) (d : Desc) : Bool :=
  ([1, 2, 8, 10, 0x10].contains d.opcode) && r.chain.isNone && !d.chainNext &&
  (d.keyHandle == 0 || (!hBlob d.keyHandle && hScope d.keyHandle == 2 &&
    match s.lookSlot 2 0 (hSlot d.keyHandle) with
    | .key k => !k.bad && !k.shadow && k.usage.getLsbD 17 && d.keyFits x.num k
    | _ => false))

/-- A descriptor offered to a neighbour: its inputs, once read, go there, and its entry stays at the ring's head until the neighbour has
taken it (R180). -/
def State.spillOut (c : Ctx) (port : Nat) (s : State) : State :=
  let k := match s.lookSlot 2 0 (hSlot c.desc.keyHandle) with
    | .key k => if c.desc.keyHandle = 0 then none else some k
    | _ => none
  let c1 := ({ c with key := k, executed := false } : Ctx).outward (.spilled port s.dist.nextXid)
  let s1 := s.modDist fun d => { d with ctxs := d.ctxs ++ [c1], nextCtx := d.nextCtx + 1, nextXid := (d.nextXid + 1) % 2 ^ 32 }
  ((s1.issueReads c.id c1.allReads).modCtx c.id fun x => { x with key := none }).sendWork c.id

/-- SPILL_HOLD_EXPIRE (R179, R180): with every shared channel out of credit for SPILL_HOLD_US, the next descriptor of a ring pair is
handed to a neighbour. -/
def execSpillHoldExpire (slice rp port : Nat) (s : State) : Host.Outcome State Fault Refusal :=
  let x := s.slice slice
  match s.ring? slice rp with
  | some r =>
    match r.fetched with
    | some f =>
      if s.dist.spillEn && s.saturated && x.spillOk && !x.partition && s.dist.ports.getLsbD port && (s.port port).st == .up &&
          s.dmaOk && s.mayDecide x rp r f && (s.admitChecks x r f).isNone && s.mayTravel x r f.desc then
        .next (s.spillOut (s.newCtx x rp r f) port)
      else .next s
    | none => .next s
  | none => .next s

/-! ### Results -/

/-- The result of travelled work written by the local device alone (R180, R182, R542), which also does the zeroing of a decryption that
failed its tag check (R207). -/
def State.takeResult (c : Ctx) (w : WorkResult) (s : State) : State :=
  let st := (Status.ofCode w.status).getD .internal
  let s1 := (s.writeDst c 0 w.output).writeOut2 c w.out2
  let s2 := if st = .authFail then s1.zeroDst c (c.desc.dstLen 0) else s1
  (s2.finish c.id st w.detail (BitVec.ofNat 64 w.result)).modCtx c.id fun x => { x with bytes := if x.faulted && st != .dmaFault then x.bytes else w.bytes, paceGrew := x.paceGrew || w.paceGrew }

/-- The context spilled over a port under an XID. -/
def State.spilledCtx (s : State) (port xid : Nat) : Option Ctx := s.dist.ctxs.find? fun c => c.phase == .spilled port xid

/-- SPILL_RESULT (R180): the output and the tag are written under the slice's PASID and the record follows; a result that no descriptor
waits for is discarded. In D3hot the result waits (R78). -/
def execSpillResult (port : Nat) (w : WorkResult) (s : State) : Host.Outcome State Fault Refusal :=
  match s.takeUnit port 0x21 with
  | some s1 =>
    match s1.spilledCtx port w.xid with
    | some c => .next (if s.dmaOk then s1.takeResult c w else s)
    | none => .next s1
  | none => .next s

/-- SPILL_REFUSE (R181): the descriptor stays local, at its ring's head. -/
def execSpillRefuse (port xid : Nat) (s : State) : Host.Outcome State Fault Refusal :=
  match s.takeUnit port 0x22 with
  | some s1 =>
    match s1.spilledCtx port xid with
    | some c => .next (s1.dropOffered fun y => y.id == c.id)
    | none => .next s1
  | none => .next s

/-- SPILL_PATH_LOSS (R182): the link or the neighbour failed; each descriptor spilled over the port runs again from its start. -/
def execSpillPathLoss (port : Nat) (s : State) : Host.Outcome State Fault Refusal := .next (s.spillLost port)

/-! ### Work of another device -/

/-- The descriptor that travels, as the device that runs it takes it. -/
def WorkReq.toDesc (w : WorkReq) : Desc :=
  let d := parseDesc w.entry []
  { d with auxAddr := 16, out2Addr := 16 }

/-- A context for another device's work: its inputs are at hand. -/
def State.foreign (s : State) (w : WorkReq) (owner : Owner) (k : Option Key) : Ctx :=
  { id := s.dist.nextCtx, owner := owner, slice := (k.map (·.slice)).getD 0, inst := 0, rp := 0, sqIndex := 0, pasid := 0,
    desc := WorkReq.toDesc w, src := [], dst := [], hdr := w.source, epoch := s.keys.epoch, phase := .ready, home := none, segs := [],
    nextSeg := 0, image := [], crcRun := 0, aux := some w.aux, out2In := some w.out2, reads := [], iv := [], held := [], outBuf := [],
    out2Buf := [], key := none, inChain := false, firstLink := true, chain0 := none, pkBlinded := false, queued := none, runs := 0, rerun := false, priority := false,
    spilledRec := false, paceGrew := false, executed := true, status := .done, detail := 0, bytes := 0, result := 0 }

/-- The domain key a request names, held with its material at the same change serial (R181, R542). -/
def State.sameKey (s : State) (w : WorkReq) : Option (Option Key) :=
  match w.slot with
  | none => some none
  | some n =>
    match s.lookSlot 2 0 n with
    | .key k => if k.serial = w.serial ∧ !k.shadow ∧ !k.bad then some (some k) else none
    | _ => none

/-- A shared channel with free credit for which no local slice has work ready (R181). -/
def State.idleShared (s : State) (d : Desc) : Bool :=
  s.sharedList.any fun n => 1 ≤ s.creditFree n && s.eligibleOn d n && s.slices.all fun x => (s.nextOf n x).isNone

/-- Another device's work taken in. -/
def State.takeIn (c : Ctx) (s : State) : State := s.modDist fun d => { d with ctxs := d.ctxs ++ [c], nextCtx := d.nextCtx + 1 }

/-- SPILL_REQ (R181): accepted with the same key version and an idle shared channel, or refused. -/
def execSpillReq (port : Nat) (w : WorkReq) (s : State) : Host.Outcome State Fault Refusal :=
  match s.takeUnit port 0x20 with
  | some s1 =>
    match s1.sameKey w with
    | some k =>
      if s1.dist.spillAccept && !s1.keepMode && s1.idleShared (WorkReq.toDesc w) then
        .next (s1.takeIn (s1.foreign w (.spilledIn port w.xid w.origin) k))
      else .next (s1.sendUnit port (.spillRefuse w.xid))
    | none => .next (s1.sendUnit port (.spillRefuse w.xid))
  | none => .next s

/-- REMOTE_REQ (R542): run on the shared channels where the slot has the same change serial, or refused. -/
def execRemoteReq (port : Nat) (w : WorkReq) (s : State) : Host.Outcome State Fault Refusal :=
  match s.takeUnit port 0x28 with
  | some s1 =>
    match s1.sameKey w with
    | some (some k) =>
      if s1.keepMode then .next (s1.sendTo w.origin (.remoteRefuse w.origin w.xid))
      else .next (s1.takeIn (s1.foreign w (.remoteIn port w.xid w.origin) (some k)))
    | _ => .next (s1.sendTo w.origin (.remoteRefuse w.origin w.xid))
  | none => .next s

/-! ### Remote operations at their device -/

/-- The remote operation of an XID. -/
def State.remote? (s : State) (xid : Nat) : Option Remote := s.dist.remotes.find? fun r => r.xid == xid

/-- REMOTE_RESULT (R542, R543): the result and the record are written; a late result is discarded. -/
def execRemoteResult (port : Nat) (w : WorkResult) (s : State) : Host.Outcome State Fault Refusal :=
  match s.takeUnit port 0x29 with
  | some s1 =>
    match s1.remote? w.xid with
    | some r =>
      let s2 := s1.modDist fun d => { d with remotes := d.remotes.filter (·.xid != w.xid) }
      match s2.ctx? r.ctx with
      | some c => if c.phase == .finished then .next s2 else .next (if s.dmaOk then s2.takeResult c w else s)
      | none => .next s2
    | none => .next s1
  | none => .next s

/-- REMOTE_REFUSE (R543): the next holder. -/
def execRemoteRefuse (port xid : Nat) (s : State) : Host.Outcome State Fault Refusal :=
  match s.takeUnit port 0x2A with
  | some s1 =>
    match s1.remote? xid with
    | some r => .next (s1.remoteNext r.ctx)
    | none => .next s1
  | none => .next s

/-- REMOTE_TIMEOUT (R543): no result within REMOTE_TIMEOUT_MS; the next holder. -/
def execRemoteTimeout (xid : Nat) (s : State) : Host.Outcome State Fault Refusal :=
  match s.remote? xid with
  | some r => if r.since + s.hier.remoteTimeoutMs ≤ s.glob.uptimeMs then .next (s.remoteNext r.ctx) else .next s
  | none => .next s

end Sys2Proof.Machine
end

