-- ==== Sys2Proof/Machine/Tamper.lean ====
section
/-! DEFINITION. Tamper sensing and alarm response (R458 to R484): the counting of events, the responses by grade, Tahr's own record
buffer, the cells, and what each supply senses. -/

namespace Sys2Proof.Machine

/-! ### Time and sensing -/

/-- Milliseconds since a reading of Tahr's wrapping counter (R465, R479). -/
def State.sinceMs (s : State) (t : Nat) : Nat := (s.tamper.tahrMs + 2 ^ 32 - t) % 2 ^ 32

/-- The cell a service window names (R395). -/
def State.windowCell (s : State) : Option Nat := if s.dual.winOpen then some s.dual.winCell else none

/-- A source raises events now (R459 to R462): class S, L, R and C on main power alone, a loop unless OFF, a cell once armed and outside its
own service window. -/
def State.senses (s : State) (i : Nat) : Bool :=
  i < 32 &&
  match sourceClass i with
  | 0 => if i = 5 || i = 6 then s.tamper.cellArmed.getLsbD (i - 5) && s.windowCell != some (i - 5) else true
  | 1 => (s.src i).loopMode != 0
  | _ => s.tamper.mainPower

/-- N of a source on the supply in use (R463). -/
def State.limitN (s : State) (t : TSource) : Nat := if s.tamper.mainPower then t.n else t.nCell
/-- W of a source on the supply in use, in ms. -/
def State.limitW (s : State) (t : TSource) : Nat := if s.tamper.mainPower then t.windowMs else t.windowCellMs

/-! ### Records -/

/-- An entry put into Tahr's buffer (R479): when full it replaces the oldest below A3, and where there is none it is dropped. -/
def Tamper.putEntry (t : Tamper) (e : TahrEntry) : Tamper :=
  if t.buf.length < Config.tahrBuffer then { t with buf := t.buf ++ [e] }
  else
    match t.buf.find? fun x => x.grade < 3 with
    | some old => { t with buf := t.buf.erase old ++ [e] }
    | none => { t with overflow := true }

/-- A note or an alarm of a source written (R463, R473, R479): an event record, or Tahr's own entry while main power or the vault link is
absent. -/
def State.tamperRecord (i grade : Nat) (s : State) : State :=
  let n := (s.src i).count
  if s.tamper.mainPower && !s.tamper.vaultDown then
    (s.modSrc i fun t => { t with lastSeq := s.recordSeq }).record 0x80 (0x200 + i) grade (pack [(1, i), (1, n)])
  else
    { s with tamper := s.tamper.putEntry { source := i, grade := grade, inForce := s.gradeInForce, count := n, cell := s.tamper.supplyCell,
                                           time := s.tamper.tahrMs } }

/-! ### Responses -/

/-- The channels of a source's fence scope (R458): a die for the engine-die sources, one channel for an integrity fault in a channel, and all
otherwise. `scope` names the die (0 A, 1 B) or the channel. -/
def fenceScope (i scope : Nat) : List Nat :=
  if i = 7 then (if scope = 0 then List.range 18 else (List.range 18).map (· + 18))
  else if i = 20 ∨ i = 21 then List.range 18
  else if i = 23 ∨ i = 24 then (List.range 18).map (· + 18)
  else if i = 26 ∧ scope < 36 then [scope]
  else List.range 36

/-- A1 on one channel (R468, R563): TARGET is clamped, and OP_LOOP follows at once unless a paced operation runs. -/
def State.clampOne (on : Bool) (n : Nat) (s : State) : State :=
  let s1 := (s.modDom n fun d => { d with clamp := on }).modCh n fun c => { c with targetChanged := true }
  if (s.ch n).pacedRunning then s1 else s1.followTarget n

/-- The A1 response taken. -/
def State.takeA1 (i : Nat) (s : State) : State :=
  (if s.tamper.sources.any (·.throttle) then s else s.each (List.range 36) (State.clampOne true)).modSrc i fun t => { t with throttle := true }

/-- A2 on one channel (R469): fenced, and held from its self-test until the source has been re-armed for 100 ms. A channel already under
repair is held too. -/
def State.fenceA2 (i n : Nat) (s : State) : State :=
  let s1 := s.fence n 7
  s1.modCh n fun c =>
    { c with a2Hold := if c.a2Hold.contains i then c.a2Hold else c.a2Hold ++ [i], test := if c.st == .selftest then .none else c.test }

/-- The A2 response taken. -/
def State.takeA2 (i scope : Nat) (s : State) : State :=
  (s.each (fenceScope i scope) (State.fenceA2 i)).modSrc i fun t => { t with fencing := true }

/-- Admitted descriptors aborted, their waits for draws and remote operations withdrawn (R33, R306). -/
def State.abortAll (s : State) : State :=
  let ids := (s.dist.ctxs.filter fun c => c.executed && c.phase != .finished).map (·.id)
  (s.abortAdmitted.each ids State.dropWaiter).modDist fun d => { d with remotes := [] }

/-- Every key cache and every staging row erased (R470). -/
def State.dropCaches (s : State) : State :=
  { s with chs := s.chs.map (fun c => { c with cache := [] }), keys := { s.keys with stage := [], badStage := [], old := [] } }

/-- The A3 response (R470, R474). -/
def State.takeA3 (s : State) : State :=
  let s1 := { s with tamper := { s.tamper with latch := Nat.max 3 s.tamper.latch }, md := { s.md with alarm := s.tamper.mainPower || s.md.alarm } }
  if s.tamper.mainPower then s1.abortAll.dropCaches else s1

/-- Everything a zeroisation erases of the keys (R316, R472). -/
def State.eraseKeys (s : State) : State :=
  { s.dropCaches with
    keys := { s.keys with root := none, sik := none, dks := [], staged := none, keys := [], stage := [], badStage := [], old := [], spareRows := [] }
    slices := s.slices.map fun x => { x with smk := none, smkBad := false, smkTag := .raw [] } }

/-- A cell service window closed, with its record (R396). -/
def State.closeWindow (s : State) : State :=
  if s.dual.winOpen then
    let left := s.dual.winLeftS
    ({ s with dual := { s.dual with winOpen := false, winLeftS := 0, winMs := 0 } }).record 0x53 2 0 (pack [(1, s.dual.winCell), (1, 2), (2, left)])
  else s

/-- Entry to ZEROISED (R34, R298, R383, R472, R515): keys erased, admitted work aborted, every generator uninstantiated, the challenge ended,
the window closed, every fabric session erased. -/
def State.zeroiseNow (s : State) : State :=
  let s1 := { s.abortAll.eraseKeys with md := { s.md with zeroised := true }, tamper := { s.tamper with latch := 4 } }
  let s2 := (s1.each (List.range 38) State.eraseGen).closeWindow
  let s3 : State := { s2 with dual := { s2.dual with chal := { s2.dual.chal with live := false }, cards := s2.dual.cards.map fun (c : CardPort) => { c with proposal := none, asked := none } } }
  s3.each (List.range 20) fun p t => t.portDown p 0

/-- The A4 response: on cell power Tahr erases the root store alone; the key SRAM went with main power (R477). -/
def State.takeA4 (s : State) : State :=
  if s.tamper.mainPower then s.zeroiseNow
  else { s with tamper := { s.tamper with latch := 4 }, keys := { s.keys with root := none, dks := [], staged := none },
                dual := { s.dual with winOpen := false, winLeftS := 0, winMs := 0 } }

/-- The response of an alarm whose grade is above the grade in force (R473). Nothing can be capped or fenced on cell power. -/
def State.respond (i grade scope : Nat) (s : State) : State :=
  if grade ≤ s.gradeInForce then s
  else if grade = 4 then s.takeA4
  else if grade = 3 then s.takeA3
  else if !s.tamper.mainPower then s
  else if grade = 2 then s.takeA2 i scope
  else if grade = 1 then s.takeA1 i
  else s

/-! ### Counting -/

/-- An event of a source counted, and the alarm it completes (R463, R464, R473). -/
def State.countEvent (i scope : Nat) (s : State) : State :=
  let t := s.src i
  let s1 := s.modSrc i fun x => { x with asserted := true, events := sat 32 (x.events + 1) }
  if t.alarmed then s1
  else
    let times := (t.times.filter fun x => s.sinceMs x < s.limitW t) ++ [s.tamper.tahrMs]
    let s2 := s1.modSrc i fun x => { x with times := times }
    if times.length < s.limitN t then
      if t.armedOnce then s2 else (s2.modSrc i fun x => { x with armedOnce := true }).tamperRecord i 0
    else
      let s3 := s2.modSrc i fun x => { x with alarmed := true, alarms := sat 32 (x.alarms + 1), a3Raised := x.a3Raised || t.grade == 3 }
      (s3.respond i t.grade scope).tamperRecord i t.grade

/-- An event of a source, where the source senses now. -/
def State.tamperEvent (i scope : Nat) (s : State) : State := if s.senses i then s.countEvent i scope else s

/-- Cell c read absent or out of range: CELL_x_OK falls (R54); while Tahr runs on the cells it takes the other (R603). -/
def State.cellBad (c : Nat) (absent : Bool) (s : State) : State :=
  let m := BitVec.ofNat 2 (2 ^ c)
  { s with tamper := { s.tamper with
      cellRange := s.tamper.cellRange &&& ~~~m, cellPresent := if absent then s.tamper.cellPresent &&& ~~~m else s.tamper.cellPresent,
      supplyCell := if absent && s.tamper.supplyCell == c then 1 - c else s.tamper.supplyCell } }

/-- TAMPER_EVENT (R458, R463): a sensor reports an event. A report of a condition that has persisted since the event before counts nothing
(R464). On cell power a loop is sensed by its readings alone (R459). `scope` is the die or channel of R458, and for a cell 0 removed, 1 above
3.9 V. -/
def execTamperEvent (src scope : Nat) (persists : Bool) (s : State) : Host.Outcome State Fault Refusal :=
  let s0 := if src = 5 ∨ src = 6 then s.cellBad (src - 5) (scope == 0) else s
  if (persists && (s.src src).asserted) || (sourceClass src == 1 && !s.tamper.mainPower) then .next (s0.settle s)
  else .next ((s0.tamperEvent src scope).settle s)

/-- A source re-arms after an alarm with COUNT 0 (R464). -/
def State.rearm (i : Nat) (s : State) : State :=
  s.modSrc i fun t =>
    if t.alarmed then { t with asserted := false, alarmed := false, times := [], armedOnce := false, rearmedAt := s.tamper.tahrMs }
    else { t with asserted := false }

/-- SOURCE_REARM (R464): the condition has been absent for 10 ms on main power, or for one reading on cell power. -/
def execSourceRearm (src : Nat) (s : State) : Host.Outcome State Fault Refusal :=
  if (s.src src).asserted || (s.src src).alarmed then .next (s.rearm src) else .next s

/-- THROTTLE_END (R468, R563): 1 s after the source re-arms the A1 response ends; with the last one the clamp lifts. -/
def execThrottleEnd (src : Nat) (s : State) : Host.Outcome State Fault Refusal :=
  let t := s.src src
  if !t.throttle || t.alarmed || s.sinceMs t.rearmedAt < 1000 then .next s
  else
    let s1 := s.modSrc src fun t => { t with throttle := false }
    .next ((if s1.tamper.sources.any (·.throttle) then s1 else s1.each (List.range 36) (State.clampOne false)).settle s)

/-- A channel let go by an A2 source: its self-test begins unless something else holds it (R469). -/
def State.releaseA2 (i n : Nat) (s : State) : State :=
  let c := s.ch n
  if c.a2Hold.contains i then
    let s1 := s.modCh n fun c => { c with a2Hold := c.a2Hold.filter (· != i) }
    if c.st == .selftest && c.test == .none && !c.cfHold && (s1.ch n).a2Hold.isEmpty then s1.askTest n else s1
  else s

/-- FENCE_END (R469): 100 ms after the source re-arms the A2 response ends, and its channels begin their self-tests. -/
def execFenceEnd (src : Nat) (s : State) : Host.Outcome State Fault Refusal :=
  let t := s.src src
  if !t.fencing || t.alarmed || s.sinceMs t.rearmedAt < 100 then .next s
  else .next (((s.modSrc src fun t => { t with fencing := false }).each (List.range 36) (State.releaseA2 src)).settle s)

/-! ### Cell power -/

/-- LOOP_PERIOD in ms (R482). -/
def State.loopMs (s : State) : Nat := 32 * 2 ^ s.tamper.loopPeriod

/-- One loop's reading on cell power (R459, R460, R464). -/
def State.readLoop (clean : BitVec 8) (k : Nat) (s : State) : State :=
  let i := 8 + k
  if (s.src i).loopMode = 0 then s
  else if clean.getLsbD k then (if (s.src i).asserted || (s.src i).alarmed then s.rearm i else s)
  else s.tamperEvent i 36

/-- LOOP_READING (R459, R479): on cell power every loop takes its reading once per LOOP_PERIOD; Tahr's clock moves on by that period. -/
def execLoopReading (clean : BitVec 8) (s : State) : Host.Outcome State Fault Refusal :=
  if s.tamper.mainPower then .next s
  else
    let ms := s.loopMs
    let s1 := { s with tamper := { s.tamper with tahrMs := (s.tamper.tahrMs + ms) % 2 ^ 32 }, dual := s.dual.tick ms }
    .next (s1.each (List.range 8) (State.readLoop clean))

/-! ### Cells -/

/-- CELL_ARM (R462): a cell that has read present and in range for 1 s outside BLANK arms its source, with an A0 record. -/
def execCellArm (cell : Nat) (s : State) : Host.Outcome State Fault Refusal :=
  let t := s.tamper
  if cell < 2 && t.cellPresent.getLsbD cell && t.cellRange.getLsbD cell && !t.cellArmed.getLsbD cell && s.keys.lc != .blank &&
      1000 ≤ s.sinceMs (t.cellSince.getD cell 0) then
    .next (State.tamperRecord (5 + cell) 0 { s with tamper := { t with cellArmed := t.cellArmed ||| BitVec.ofNat 2 (2 ^ cell) } })
  else .next s

/-- CELL_LOW (R461): the cell falls below 2.5 V: CELL_x_OK clears, and an armed source writes an A0 record. -/
def execCellLow (cell : Nat) (s : State) : Host.Outcome State Fault Refusal :=
  let t := s.tamper
  if cell < 2 && t.cellRange.getLsbD cell then
    let s1 := s.cellBad cell false
    .next ((if t.cellArmed.getLsbD cell then s1.tamperRecord (5 + cell) 0 else s1).settle s)
  else .next s

/-- CELL_IN_RANGE (R54): a cell is inserted or rises into its range; CELL_x_OK reads 1. -/
def execCellInRange (cell : Nat) (s : State) : Host.Outcome State Fault Refusal :=
  let t := s.tamper
  if 2 ≤ cell || (t.cellPresent.getLsbD cell && t.cellRange.getLsbD cell) then .next s
  else
    let m := BitVec.ofNat 2 (2 ^ cell)
    .next (State.settle { s with tamper := { t with cellPresent := t.cellPresent ||| m, cellRange := t.cellRange ||| m,
                                                      cellSince := t.cellSince.set cell t.tahrMs,
                                                      supplyCell := if t.cellPresent = 0 then cell else t.supplyCell } } s)

/-! ### The vault link -/

/-- VAULT_LINK_FAIL (R14): a logic-class event of source VAULT_LINK. -/
def execVaultLinkFail (s : State) : Host.Outcome State Fault Refusal := .next ((s.tamperEvent 27 36).settle s)

end Sys2Proof.Machine
end

