-- ==== Sys2Proof/Machine/Recorder.lean ====
section
/-! DEFINITION. The event recorder's flush, losses and acknowledgement (R488 to R499), the firmware's notes, and what the loss of main power
leaves (R493, R575, R605). -/

namespace Sys2Proof.Machine

/-! ### Held records -/

/-- The records held, oldest first (R495). -/
def Recorder.held (r : Recorder) : List Record := r.log ++ r.buffer

/-- OLDEST_SEQ: the lowest record held, or the next number when none is. -/
def Recorder.oldestSeq (r : Recorder) : Nat := ((r.held.head?).map (·.seq)).getD r.nextSeq

/-- The fraction of the log ACK_WARN names (R500): 0 off. -/
def warnLevel : Nat → Nat
  | 1 => Config.logRecords / 2 | 2 => Config.logRecords * 3 / 4 | 3 => Config.logRecords * 9 / 10 | _ => 0

/-- The ACK_WARN condition holds: more records above ACK_SEQ in the log than its fraction (R499). -/
def Recorder.ackOver (r : Recorder) : Bool :=
  r.ackWarn % 4 != 0 && warnLevel (r.ackWarn % 4) < (r.log.filter fun x => r.ackSeq < x.seq).length

/-- The condition raised once when it first holds, and re-armed when it no longer does (R499). -/
def State.checkAck (s : State) : State :=
  let past := s.er.ackOver
  let s1 := { s with er := { s.er with warned := past } }
  if past && !s.er.warned then s1.raiseCause 2 else s1

/-! ### Flushing -/

/-- ER_FLUSH_TIMER (R490): 10 ms after the last flush a flush of waiting records begins. -/
def execErFlushTimer (s : State) : Host.Outcome State Fault Refusal :=
  if s.er.flushing || s.er.buffer.isEmpty || s.glob.uptimeMs < s.er.lastFlush + 10 then .next s else .next s.flushStart

/-- Records written to the log: the oldest give way when it is full (R491). -/
def Recorder.toLog (r : Recorder) : Recorder :=
  let all := r.log ++ r.buffer
  let gone := all.take (all.length - Config.logRecords)
  { r with log := all.drop gone.length, buffer := [], flushedSeq := ((r.buffer.getLast?).map (·.seq)).getD r.flushedSeq,
           overwritten := sat 32 (r.overwritten + (gone.filter fun x => r.ackSeq < x.seq).length) }

/-- A flush completed (R490, R491, R493, R494, R605): every buffered record stands in the log; a power-fail flush writes the header with CLEAN,
which the first record flushed after it clears; Tahr clears the entries whose records have been flushed. -/
def State.flushLog (s : State) : State :=
  let merged := (s.er.buffer.filter (·.merged)).length
  let r := s.er.toLog
  let r1 := { r with flushing := false, powerFlush := false, lastFlush := s.glob.uptimeMs,
                     clean := s.er.powerFlush || (s.er.clean && s.er.buffer.isEmpty) }
  let s1 := { s with er := r1, tamper := { s.tamper with buf := s.tamper.buf.drop merged } }
  if s.er.overwritten != r1.overwritten then s1.checkAck.raiseCause 2 else s1.checkAck

/-- ER_FLUSH_DONE. -/
def execErFlushDone (s : State) : Host.Outcome State Fault Refusal := if !s.er.flushing then .next s else .next s.flushLog

/-- ER_LOST_RECOVER (R492): an entry is free again; one LOST record covers the dropped numbers. -/
def execErLostRecover (s : State) : Host.Outcome State Fault Refusal := .next s.writeLost

/-- ER_ACK (R499, R500): ACK_SEQ written; it erases nothing. -/
def State.ackWrite (value : Nat) (s : State) : State :=
  (State.checkAck { s with er := { s.er with ackSeq := value % 2 ^ 64 } })

/-- ER_ACK: the host's write, admitted or refused (R65). -/
def execErAck (value : Nat) (s : State) : Host.Outcome State Fault Refusal := .next (s.hostAccess 0 0xA0018 8 (State.ackWrite value))

/-! ### Firmware notes -/

/-- FW_NOTE requests a world made within the last second, this moment included. -/
def WorldSt.notesNow (x : WorldSt) (now : Nat) : List Nat := x.fwNotes.filter fun t => now < t + 1000

/-- FW_NOTE_REQUEST (R488): up to 1,000 per second per world; beyond that it is refused with QUOTA and uses no number. -/
def execFwNoteRequest (w : World) (body : Bytes) (s : State) : Host.Outcome State Fault Refusal :=
  let x := s.world w
  let l := x.notesNow s.glob.uptimeMs
  if !x.up then .next s
  else if 1000 ≤ l.length then .next (s.modWorld w fun y => { y with noteStatus := .quota })
  else
    .next ((s.modWorld w fun y => { y with fwNotes := l ++ [s.glob.uptimeMs], noteStatus := .done }).record 0x90 (match w with | .tw => 3 | .ow => 4) 0 (padTo 40 body))

/-! ### The loss of main power -/

/-- The POWER_FAIL record and the flush of the whole buffer (R490, R493); cause 1 PWR_FAIL, 2 droop. -/
def State.powerFlush (cause : Nat) (s : State) : State :=
  let s1 := s.record 2 6 0 (pack [(1, cause), (2, s.er.buffer.length)])
  { s1 with er := { s1.er with flushing := true, powerFlush := true } }

/-- What Tahr, the MRAM, the fuses and the flash keep through the loss of main power (R313, R377, R381, R408, R474, R481, R491, R575): the
rest stands as at reset. -/
def State.dark (s : State) : State :=
  let r := State.reset
  { r with
    pending := s.pending
    glob := { r.glob with freeCtr := s.glob.freeCtr }
    dist := { r.dist with nextCtx := s.dist.nextCtx }
    keys := { r.keys with lc := s.keys.lc, reRoots := s.keys.reRoots, root := s.keys.root, dks := s.keys.dks, lcPending := s.keys.lcPending,
                          subsysVendor := s.keys.subsysVendor, subsysId := s.keys.subsysId, boardLabel := s.keys.boardLabel }
    mail := { r.mail with cred := s.mail.cred }
    dual := { r.dual with m := s.dual.m, custodians := s.dual.custodians, winOpen := s.dual.winOpen, winCell := s.dual.winCell,
                          winLeftS := s.dual.winLeftS, winMs := s.dual.winMs }
    gate := { r.gate with policy := s.gate.policy, removed := s.gate.removed, bootCount := s.gate.bootCount, latest := s.gate.latest,
                          partOffset := s.gate.partOffset }
    tamper := { s.tamper with sources := s.tamper.sources.map fun t => { t with throttle := false, fencing := false } }
    er := { s.er with ackSeq := 0, overwritten := 0, notifyGrade := 1, notifyAll := false, ackWarn := 2, warned := false, lastFlush := 0 }
    renewal := { r.renewal with twFloor := s.renewal.twFloor, mcFuse := s.renewal.mcFuse, owFloor := s.renewal.owFloor,
                                owSigner := s.renewal.owSigner, dir := s.renewal.dir, twPending := s.renewal.twPending, owPending := s.renewal.owPending,
                                mcPending := s.renewal.mcPending, nextKind := s.renewal.nextKind } }

/-- Tahr without main power and without a cell loses what it holds: the root store, the latch, its configuration and its buffer. -/
def State.tahrLost (s : State) : State :=
  if s.tamper.cellPresent = 0 then
    { s with keys := { s.keys with root := none, dks := [] }, dual := { s.dual with winOpen := false, winLeftS := 0, winMs := 0 },
             tamper := { sources := resetSources, mainPower := s.tamper.mainPower } }
  else s

/-- Main power lost (R493, R575, R604): the record and its flush, then everything volatile is gone. -/
def State.mainLost (cause : Nat) (s : State) : State :=
  let s1 := (s.powerFlush cause).dark
  { s1 with tamper := { s1.tamper with mainPower := false, supplyCell := if s1.tamper.cellPresent.getLsbD 0 then 0 else 1 },
            power := { s1.power with failPin := s.power.failPin }, renewal := { s1.renewal with nextKind := 1 } }

/-- PWR_FAIL_ASSERT (R493): POWER_FAIL and the flush of the whole buffer; a droop of a main rail is the loss of main power itself. -/
def execPwrFailAssert (droop : Bool) (s : State) : Host.Outcome State Fault Refusal :=
  if !s.tamper.mainPower then .next s
  else if droop then .next (s.mainLost 2).tahrLost
  else if s.power.failPin then .next s
  else .next (State.powerFlush 1 { s with power := { s.power with failPin := true } })

/-- PWR_FAIL_RELEASE (R605): the device goes on without a reset. -/
def execPwrFailRelease (s : State) : Host.Outcome State Fault Refusal := .next { s with power := { s.power with failPin := false } }

/-- SYS_PWRGD_LOW (R604): handled as a loss of main power; the rails hold Tahr. -/
def execSysPwrgdLow (s : State) : Host.Outcome State Fault Refusal := if !s.tamper.mainPower then .next s else .next (s.mainLost 2)

end Sys2Proof.Machine
end

