-- ==== Sys2Proof/Machine/Derive.lean ====
section
/-! DEFINITION. What the device derives: the KDF of R317 and the keys made with it (R320, R341, R511), the device's identity (R399 to R401), and
the personalisation layout of its generators (R296, R297). -/

namespace Sys2Proof.Machine

/-- The counter-mode KDF (R317): n bytes from key, label and context. -/
def kdfWith (key label ctx : Bytes) (n : Nat) : Bytes :=
  let block (i : Nat) := hmac 3 key (beBytes 4 (i + 1) ++ label ++ [0] ++ ctx ++ beBytes 4 (8 * n))
  ((List.range ((n + 47) / 48)).flatMap block).take n

/-- The KDF under an ASCII label. -/
def kdf (key : Bytes) (label : String) (ctx : Bytes) (n : Nat) : Bytes := kdfWith key (ascii label) ctx n

/-- LC as a KDF context holds it (R317). -/
def State.lcByte (s : State) : Bytes := leBytes 1 s.keys.lc.code

/-- The slice master key of a slice under a DK (R320). -/
def State.smkUnder (s : State) (dk : Bytes) (x : Slice) : Bytes :=
  kdf dk "ZV1600 SMK" (s.lcByte ++ leBytes 2 x.num ++ x.keyset) 32

/-- The slice master key a slice should hold: none while no DK is CURRENT (R320). -/
def State.smkNow (s : State) (x : Slice) : Option Bytes :=
  match s.curDk? with
  | some e => if x.exists_ && !x.keyset.isEmpty then some (s.smkUnder e.dk x) else none
  | none => none

/-- Every slice master key derived again and written into its row (R320, R536); the rewriting of a BAD row is recorded (R333). -/
def State.deriveSmks (s : State) : State :=
  (s.slices.filter (·.smkBad)).foldl (fun t x => t.rewritten 1 (.smk x.num)) { s with slices := s.slices.map fun x => s.withSmk x (s.smkNow x) }

/-- The row of a slice's master key failed its check (R333): it is BAD, with its record, and the trusted world derives it again, once it runs.
The row has no handle: that of the record is FREE (log entry 98). -/
def State.smkFailed (n : Nat) (s : State) : State :=
  if (s.slice n).smk.isNone || (s.slice n).smkBad then s
  else
    let (b, t) := s.freeBytes 4
    let u := t.record 0x40 1 0 (b ++ pack [(1, 1)])
    if s.worlds.tw.up then (u.modSlice n fun x => s.withSmk x (s.smkNow x)).rewritten 1 (.smk n)
    else u.modSlice n fun x => { x with smkBad := true }

/-- The check of a slice's master key row where it is read (R332). -/
def State.checkSmk (n : Nat) (s : State) : State := if s.smkPasses (s.slice n) then s else s.smkFailed n

/-- Every slice master key derived again and compared with its row (R349): one that differs has failed. -/
def State.compareSmks (s : State) : State :=
  s.each ((s.slices.filter fun x => x.smk != s.smkNow x || !s.smkPasses x).map (·.num)) State.smkFailed

/-- The slot integrity key of a root (R317). -/
def State.sikOf (s : State) (root : Bytes) : Bytes := kdf root "ZV1600 SIK" s.lcByte 32

/-- The SIK loaded into the tag engine (R316, R317). -/
def State.loadSik (s : State) : State := s.modKeys fun k => { k with sik := k.root.map s.sikOf }

/-- The domain blob key of a DK. -/
def State.blobKey (s : State) (dk : Bytes) : Bytes := kdf dk "ZV1600 DBLOB" s.lcByte 32

/-! ### Identity -/

/-- The DeviceID public key x ‖ y (R399): its private key is the KDF of the UDS over the boot ROM digest, as a P-384 key. -/
def deviceIdPublic : Bytes := Config.prim (.ecPublic 2) [kdf Config.uds "ZV1600 DEVICEID" Config.bootRomDigest 48] 96

/-- The device identity digest (R401). -/
def State.identityDigest (s : State) : Bytes :=
  hash 6 (deviceIdPublic ++ leBytes 2 s.keys.subsysVendor ++ leBytes 2 s.keys.subsysId ++ padTo 64 s.keys.boardLabel)

/-- Alias exists (R400): a root is present and the trusted world runs. -/
def State.aliasExists (s : State) : Bool := s.keys.root.isSome && s.worlds.tw.image.isSome && !s.md.zeroised

/-! ### Personalisation -/

/-- The generation number an instance is personalised with (R296). -/
def State.instanceCount (s : State) (i : Nat) : Nat :=
  if i = 0 then s.worlds.tw.restarts else if i = 1 then s.worlds.ow.restarts else (s.ch (i - 2)).generation

/-- Bytes 36 to 71 of the layout (R296, R297). -/
def State.additional (s : State) (i : Nat) : Bytes := leBytes 4 (s.instanceCount i) ++ padTo 32 s.rng.personal

/-- The personalisation string of an instance (R296). -/
def State.personalString (s : State) (i : Nat) : Bytes := padTo 32 s.identityDigest ++ leBytes 1 i ++ zeros 3 ++ s.additional i

end Sys2Proof.Machine
end

