-- ==== Sys2Proof/Machine/Blobs.lean ====
section
/-! DEFINITION. Key blobs (R334 to R338): opened under the slice master key or the domain blob key of their DK version, and staged for a
descriptor that names one. -/

namespace Sys2Proof.Machine

/-- A blob opened under a wrapping key (R335): AES-256-GCM with the header, TAG zero, as AAD. -/
def openBlob (wk blob : Bytes) : Option Key :=
  let len := bits (fieldLe blob 4 4) 0 14
  let hdr := putAt (sub blob 0 64) 0x20 (zeros 16)
  let ct := sub blob 64 (len + 40)
  let iv := sub blob 0x10 12
  let tag := sub blob 0x20 16
  if Config.primCheck .gcmTag [wk, iv, hdr, ct, tag] then
    let pt := Config.prim .gcmOpen [wk, iv, hdr, ct] (len + 40)
    some (keyOf (pt.take len) (pt.drop len))
  else none

/-- The domain key of a version that opens blobs: CURRENT, PREVIOUS or staged, recorded under this lifecycle state (R314, R537). -/
def State.dkFor (s : State) (v : Nat) : Option Bytes :=
  match s.keys.dks.find? fun d => d.version == v && (d.state == 1 || d.state == 2) && d.lc == s.keys.lc.code with
  | some d => some d.dk
  | none => match s.keys.staged with
    | some (w, dk) => if w = v then some dk else none
    | none => none

/-- The slice master key a blob of a DK version was sealed under: the row's own for the CURRENT version, else derived (R320, R335, R537). -/
def State.smkFor (s : State) (x : Slice) (v : Nat) : Option Bytes :=
  if (s.curDk?.map (·.version)) == some v then s.smkOk x
  else if x.smk.isSome then (s.dkFor v).map fun dk => s.smkUnder dk x
  else none

/-- The blob header the distributor read and the blob agree with a scope 1 blob of the slice (R336). -/
def blobFits (hdr blob : Bytes) (slice : Nat) : Bool :=
  let w := fieldLe blob 8 4
  sub blob 0 64 == sub hdr 0 64 && fieldLe blob 0 2 == 1 && bits w 12 2 == 1 && bits w 0 12 == slice &&
  fieldLe blob 0xC 4 == bits (fieldLe blob 4 4) 0 14 + 40

/-- A key staged: the least recently used entries give up their rows until it fits (R337). -/
def stageKey (e : Staged) (l : List Staged) : List Staged :=
  let rec drop : List Staged → List Staged
    | [] => []
    | y :: ys => if Config.stagingRows < e.key.rows + ((y :: ys).map (·.key.rows)).sum then drop ys else y :: ys
  drop (l.filter fun y => !(y.slice == e.slice && y.inst == e.inst && y.blobAddr == e.blobAddr && y.tag == e.tag)) ++ [e]

/-- The blob as it is read under the slice's PASID (R336): none where the read fails, or fails its admission (R26). -/
def State.blobRead (s : State) (c : Ctx) (blob : Option Bytes) : Option Bytes :=
  blob.filter fun b => (s.dmaRefused .read c.desc.blobAddr b.length).isNone

/-- The blob opened under the slice master key its header asks for (R336); none where it fits nothing or its tag fails. -/
def State.openBlobOf (s : State) (c : Ctx) (b : Bytes) : Option Key :=
  if blobFits c.hdr b c.slice && fieldLe b 0xB 1 == s.keys.lc.code then
    (s.smkFor (s.slice c.slice) (fieldLe b 0xA 1)).bind fun wk => openBlob wk b
  else none

/-- The key of an opened blob as it stands in staging rows (R337). -/
def State.stagedKey (s : State) (c : Ctx) (k : Key) : Staged :=
  s.sealStaged ⟨c.slice, c.inst, c.desc.blobAddr, sub c.hdr 0x20 16, c.epoch,
                { k with scope := 1, slice := c.slice, slot := 0x3FFFF, origin := 4 }⟩

/-- A staged key written: its rows over what stood there, a blob whose rows had gone BAD rewritten (R333), and no entry for an epoch that has
passed. -/
def State.stageIn (e : Staged) (s : State) : State :=
  let name := (e.slice, e.blobAddr, e.tag)
  let s0 := if s.keys.badStage.contains name then s.rewritten 2 (e.place 0) else s
  (s0.overwrite e.places).modKeys fun kk =>
    { kk with stage := if e.epoch = kk.epoch then stageKey e kk.stage else kk.stage, badStage := kk.badStage.filter (· != name) }

/-- The state a blob is opened in: the link has left L1, its page is translated, and the slice master key's row has been checked (R332). -/
def State.blobCheck (c : Ctx) (n : Nat) (s : State) : State := (s.linkExit.translate c.pasid c.desc.blobAddr n).checkSmk c.slice

/-- BLOB_UNWRAP (R332, R336): the blob is opened under the slice master key and staged, or the descriptor completes KEY_ABSENT. -/
def execBlobUnwrap (ctx : Nat) (blob : Option Bytes) (s : State) : Host.Outcome State Fault Refusal :=
  match s.ctx? ctx with
  | some c =>
    if c.phase != .waitBlob || !s.dmaOk || !s.worlds.tw.up then .next s
    else
      let s := s.blobCheck c (blob.getD []).length
      match (s.blobRead c blob).bind (s.openBlobOf c) with
      | some k =>
        let e := s.stagedKey c k
        let s1 := s.stageIn e
        let s2 := match c.home with
          | some n => s1.fill n c e.key
          | none => s1
        .next (s2.modCtx ctx fun y => { y with phase := .ready })
      | none => .next (s.finish ctx .keyAbsent 0 0)
  | none => .next s

end Sys2Proof.Machine
end

