-- ==== Sys2Proof/Machine/PkOps.lean ====
section
/-! DEFINITION. Public-key operations and the big-number engine (R241 to R284): inputs and checks, draws, results, the three timing
disciplines and the pacer. RSA and raw modular arithmetic are computed; curve and lattice arithmetic is left to its standard. -/

namespace Sys2Proof.Machine

/-! ### Modular arithmetic -/

/-- b^e mod m, one bit of the exponent after another. -/
def powMod (b e m : Nat) : Nat :=
  ((List.range (e.log2 + 1)).reverse).foldl (fun a i => let q := a * a % m; if bit e i then q * b % m else q) (1 % m)

/-- The extended Euclidean steps from (r0, t0), (r1, t1): the coefficient of the greatest common divisor. -/
def egcd : Nat → Nat → Nat → Int → Int → Nat × Int
  | 0, r0, _, t0, _ => (r0, t0)
  | fuel + 1, r0, r1, t0, t1 => if r1 = 0 then (r0, t0) else egcd fuel r1 (r0 % r1) t1 (t0 - (r0 / r1 : Nat) * t1)

/-- The inverse of a modulo m, where it has one. -/
def modInverse (a m : Nat) : Option Nat :=
  let (g, t) := egcd (2 * m.log2 + 4) m (a % m) 0 1
  if g = 1 then some (t % (m : Int)).toNat else none

/-! ### RSA keys -/

/-- An RSA key as its material or auxiliary input holds it (R274, R326). -/
structure RsaKey where
  k : Nat
  n : Nat
  e : Nat
  p : Nat
  q : Nat
  dP : Nat
  dQ : Nat
  qInv : Nat
deriving DecidableEq, Repr

/-- An RSA key read: n in k bytes, e in 4, then the CRT values of k/2 bytes each. -/
def rsaKeyOf (k : Nat) (m : Bytes) : RsaKey :=
  let h := k / 2
  let at_ (i : Nat) := ofBe (sub m (k + 4 + i * h) h)
  { k := k, n := ofBe (sub m 0 k), e := ofBe (sub m k 4), p := at_ 0, q := at_ 1, dP := at_ 2, dQ := at_ 3, qInv := at_ 4 }

/-- c^d mod n by the Chinese remainder theorem. -/
def RsaKey.priv (r : RsaKey) (c : Nat) : Nat :=
  let m1 := powMod (c % r.p) r.dP r.p
  let m2 := powMod (c % r.q) r.dQ r.q
  m2 + r.qInv * (m1 + r.p - m2 % r.p) % r.p * r.q

/-- m^e mod n. -/
def RsaKey.pub (r : RsaKey) (m : Nat) : Nat := powMod m r.e r.n

/-- 1 ≤ x ≤ n − 1 (R277). -/
def inRange (x n : Nat) : Bool := 1 ≤ x && x < n

/-! ### What an operation has read -/

/-- The inputs of an operation: its descriptor, key material, source, key and rest of the auxiliary input, OUT2 and drawn bytes. -/
structure PkIn where
  d : Desc
  k : Nat
  key : Bytes
  src : Bytes
  rest : Bytes
  out2 : Bytes
  drawn : Bytes
deriving DecidableEq, Repr

/-- The inputs of a context's PK_OP: a public key comes from the auxiliary input when no handle names one (R272). -/
def Ctx.pkIn (c : Ctx) (src : Bytes) : PkIn :=
  let k := c.pkBytes
  let p := c.desc.shape k
  let aux := c.aux.getD []
  let fromAux := p.key = .slotOrAux ∧ c.desc.keyHandle = 0
  { d := c.desc, k := k, src := src, out2 := padTo p.out2In (c.out2In.getD []), drawn := c.iv,
    key := if fromAux then aux.take p.auxKey else (c.key.map (·.material)).getD [],
    rest := if fromAux then aux.drop p.auxKey else aux }

/-- The RSA key of an operation. -/
def PkIn.rsa (i : PkIn) : RsaKey := rsaKeyOf i.k i.key

/-- The prefix of the source and the rest: point coordinates, r and s. -/
def halves (b : Bytes) : Nat × Nat := (ofBe (b.take (b.length / 2)), ofBe (b.drop (b.length / 2)))

/-- The operands of a raw operation (R275): n, a, b; a of MOD_REDUCE has twice the words. -/
def PkIn.raw (i : PkIn) : Nat × Nat × Nat :=
  let w := 8 * i.d.modWords
  if i.d.pkOp = 0x33 then (ofBe (sub i.src 0 w), ofBe (sub i.src w (2 * w)), 0)
  else (ofBe (sub i.src 0 w), ofBe (sub i.src w w), ofBe (sub i.src (2 * w) w))

/-! ### Public checks (R265, R277) -/

/-- A modulus of w words is odd with a non-zero top word. -/
def modulusOk (n w : Nat) : Bool := n % 2 == 1 && 2 ^ (64 * (w - 1)) ≤ n

/-- A point of a P-curve: coordinates below p, then on the curve. -/
def pointCheck (curve : Nat) (b : Bytes) : Option Status :=
  let (x, y) := halves b
  if Config.curveP curve ≤ x || Config.curveP curve ≤ y then some .inputRange
  else if Config.primCheck (.onCurve curve) [b] then none else some .notOnCurve

/-- The first public check that fails; those of a verification that report VERIFY_FAIL are part of its result. -/
def PkIn.publicCheck (i : PkIn) : Option Status :=
  let d := i.d
  let op := d.pkOp
  let c := d.inl 0
  let h := d.hashLen
  let r := i.rsa
  let no (b : Bool) : Option Status := if b then none else some .inputRange
  let auxKey := if rsaOp op && d.keyHandle == 0 then no (modulusOk r.n (i.k / 8) && r.e % 2 == 1 && 3 ≤ r.e) else none
  match auxKey with
  | some st => some st
  | none =>
    match op with
    | 0x01 => no (inRange (ofBe i.src) r.n)
    | 0x02 => no (inRange (ofBe i.src) r.n)
    | 0x07 => no (inRange (ofBe i.src) r.n)
    | 0x03 => no (d.paramLen + h + 2 ≤ i.k)
    | 0x04 => no (d.paramLen + h + 2 ≤ i.k)
    | 0x08 => no (i.src.length + 2 * h + 2 ≤ i.k)
    | 0x11 => pointCheck c i.key
    | 0x12 => if c ≤ 3 then pointCheck c i.src else none
    | 0x15 => if Config.primCheck (.eddsaKeyDecodes c) [i.key] then none else some .notOnCurve
    | 0x20 => no (Config.primCheck (.mlkemModulus c) [i.src])
    | 0x23 => no (Config.primCheck (.mldsaKeyDecodes c) [i.key])
    | 0x30 =>
      let (n, a, b) := i.raw
      no (modulusOk n d.modWords && 1 < n && (d.flag 3 || (a < n && a != 0)) && (d.flag 4 || (b < n && b != 0)))
    | 0x31 =>
      let (n, a, b) := i.raw
      no (modulusOk n d.modWords && 1 < n && (d.flag 3 || a < n) && (d.flag 4 || b < n))
    | 0x32 =>
      let (n, a, _) := i.raw
      no (modulusOk n d.modWords && 1 < n && (d.flag 3 || (a < n && (modInverse a n).isSome)))
    | 0x33 =>
      let (n, _, _) := i.raw
      no (modulusOk n d.modWords && 1 < n)
    | _ => none

/-! ### Results (R275 to R282) -/

/-- What the real computation finds: status, destination, OUT2, RESULT, and a CRT fault (R280). -/
structure PkOut where
  status : Status := .done
  out : Bytes := []
  out2 : Bytes := []
  result : Nat := 0
  crtFault : Bool := false
deriving DecidableEq, Repr

/-- A CRT result for an input, checked by raising it to e (R280). -/
def PkIn.crt (i : PkIn) (x : Nat) : Nat × Bool :=
  let m := i.rsa.priv x
  (m, i.rsa.pub m != x % i.rsa.n)

/-! ### Encodings of RFC 8017 -/

/-- MGF1 over a hash function, n bytes. -/
def mgf1 (f : Nat) (seed : Bytes) (n : Nat) : Bytes :=
  ((List.range ((n + funcLen f - 1) / funcLen f)).flatMap fun i => hash f (seed ++ beBytes 4 i)).take n

/-- The bits of a modulus less one, and the bytes they take. -/
def emBits (n : Nat) : Nat := n.log2
/-- Bytes of a PSS encoded message. -/
def emLen (n : Nat) : Nat := (emBits n + 7) / 8

/-- A byte string's leading bits above the low n of its integer cleared. -/
def clearTop (n : Nat) (b : Bytes) : Bytes := beBytes b.length (ofBe b % 2 ^ n)

/-- The data block mask of PSS and its hash: H of eight zero bytes, the digest and the salt. -/
def pssHash (f : Nat) (digest salt : Bytes) : Bytes := hash f (zeros 8 ++ digest ++ salt)

/-- EMSA-PSS-ENCODE with MGF1 over the same function (DESIGN CHOICE, log entry 94), for a modulus n. -/
def pssEncode (f n : Nat) (digest salt : Bytes) : Bytes :=
  let h := pssHash f digest salt
  let db := zeros (emLen n - salt.length - h.length - 2) ++ [1] ++ salt
  clearTop (emBits n - 8 * h.length - 8) (xorBytes db (mgf1 f h db.length)) ++ h ++ [0xBC]

/-- EMSA-PSS-VERIFY for a salt of sLen bytes. -/
def pssVerify (f n : Nat) (digest em : Bytes) (sLen : Nat) : Bool :=
  let h := funcLen f
  let dbLen := emLen n - h - 1
  let m := em.take dbLen
  let db := clearTop (8 * dbLen - (8 * emLen n - emBits n)) (xorBytes m (mgf1 f (sub em dbLen h) dbLen))
  h + sLen + 2 ≤ emLen n && sub em (dbLen + h) 1 == [0xBC] && clearTop (8 * dbLen - (8 * emLen n - emBits n)) m == m &&
    db.take (dbLen - sLen) == zeros (dbLen - sLen - 1) ++ [1] && sub em dbLen h == pssHash f digest (db.drop (dbLen - sLen))

/-- The DigestInfo of a hash function, before the digest (RFC 8017, with the function's NIST object identifier; PRESUMED, log entry 94). -/
def digestInfo (f : Nat) : Bytes :=
  let oid : Nat := match f with
    | 1 => 4 | 2 => 1 | 3 => 2 | 4 => 3 | 5 => 5 | 6 => 6 | 8 => 7 | 9 => 8 | 10 => 9 | _ => 10
  [0x30, BitVec.ofNat 8 (17 + funcLen f), 0x30, 0x0D, 0x06, 0x09, 0x60, 0x86, 0x48, 0x01, 0x65, 0x03, 0x04, 0x02, BitVec.ofNat 8 oid,
   0x05, 0x00, 0x04, BitVec.ofNat 8 (funcLen f)]

/-- EMSA-PKCS1-v1_5-ENCODE in k bytes. -/
def pkcs1Encode (f k : Nat) (digest : Bytes) : Bytes :=
  let t := digestInfo f ++ digest
  [0, 1] ++ List.replicate (k - t.length - 3) 0xFF ++ [0] ++ t

/-- EME-OAEP encoding of a message in k bytes, with MGF1 over the same function (DESIGN CHOICE, log entry 94). -/
def oaepEncode (f k : Nat) (msg label seed : Bytes) : Bytes :=
  let h := funcLen f
  let db := hash f label ++ zeros (k - msg.length - 2 * h - 2) ++ [1] ++ msg
  let masked := xorBytes db (mgf1 f seed db.length)
  [0] ++ xorBytes seed (mgf1 f masked h) ++ masked

/-- EME-OAEP decoding of k bytes: the message, or none on a decryption error. -/
def oaepDecode (f k : Nat) (em label : Bytes) : Option Bytes :=
  let h := funcLen f
  let masked := sub em (1 + h) (k - h - 1)
  let db := xorBytes masked (mgf1 f (xorBytes (sub em 1 h) (mgf1 f masked h)) masked.length)
  let rest := (db.drop h).dropWhile (· == 0)
  if k < 2 * h + 2 || em.take 1 != [0] || db.take h != hash f label || rest.take 1 != [1] then none else some (rest.drop 1)

/-- A verification's verdict. -/
def verdict (ok : Bool) : PkOut := { status := if ok then .done else .verifyFail }

/-- A secret failure (R266). -/
def secretFail : PkOut := { status := .inputRange }

/-- The nonce of an ECDSA signature: the first or the second of those drawn; none with DETERMINISTIC. -/
def PkIn.nonce (i : PkIn) (j : Nat) : Bytes :=
  let o := curveField (i.d.inl 0) + 8
  if i.d.flag 0 then [] else (i.drawn.drop (j * o)).take o

/-- r and s of an ECDSA signature with its first or second nonce, or first or second candidate (R278). -/
def PkIn.ecdsa (i : PkIn) (j : Nat) : Bytes :=
  Config.prim (.ecdsaSign (i.d.inl 0)) [i.key, i.src, i.nonce j, leBytes 1 (i.d.inl 1), leBytes 1 j] (curveSig (i.d.inl 0))

/-- r or s of it is zero. -/
def PkIn.ecdsaZero (i : PkIn) (j : Nat) : Bool :=
  let (r, s) := halves (i.ecdsa j)
  r == 0 || s == 0

/-- The shared secret of ECDH on a curve; none where the result is the point at infinity, or all zero on X25519 and X448 (R277). -/
def ecdhSecret (c : Nat) (key peer : Bytes) : Option Bytes :=
  let z := Config.prim (.ecdh c) [key, peer] (curveField c)
  if (if c ≤ 3 then Config.primCheck (.ecdhInfinity c) [key, peer] else !anySet z) then none else some z

/-- The result of an operation whose public checks have passed. -/
def PkIn.compute (i : PkIn) : PkOut :=
  let d := i.d
  let c := d.inl 0
  let hf := d.inl 1
  let h := d.hashLen
  let r := i.rsa
  match d.pkOp with
  | 0x01 => { out := beBytes i.k (r.pub (ofBe i.src)) }
  | 0x02 =>
    let (m, bad) := i.crt (ofBe i.src)
    { out := beBytes i.k m, crtFault := bad }
  | 0x03 =>
    let (m, bad) := i.crt (ofBe (pssEncode hf r.n i.src (i.drawn.take d.paramLen)))
    { out := beBytes i.k m, crtFault := bad }
  | 0x04 =>
    let (m, bad) := i.crt (ofBe (pkcs1Encode hf i.k i.src))
    { out := beBytes i.k m, crtFault := bad }
  | 0x05 =>
    let sg := ofBe i.out2
    let em := r.pub sg
    verdict (inRange sg r.n && em < 2 ^ (8 * emLen r.n) && pssVerify hf r.n i.src (beBytes (emLen r.n) em) d.paramLen)
  | 0x06 =>
    let sg := ofBe i.out2
    verdict (inRange sg r.n && beBytes i.k (r.pub sg) == pkcs1Encode hf i.k i.src)
  | 0x07 =>
    let (m, bad) := i.crt (ofBe i.src)
    match oaepDecode hf i.k (beBytes i.k m) i.rest with
    | some msg => { out := padTo i.k msg, result := msg.length, crtFault := bad }
    | none => { secretFail with crtFault := bad }
  | 0x08 => { out := beBytes i.k (r.pub (ofBe (oaepEncode hf i.k i.src i.rest (i.drawn.take h)))) }
  | 0x10 =>
    if !inRange (ofBe i.key) (Config.curveN c) || (i.ecdsaZero 0 && i.ecdsaZero 1) then secretFail
    else { out := i.ecdsa (if i.ecdsaZero 0 then 1 else 0) }
  | 0x11 =>
    let (sr, ss) := halves i.out2
    verdict (inRange sr (Config.curveN c) && inRange ss (Config.curveN c) && Config.primCheck (.ecdsaVerify c) [i.key, i.src, i.out2])
  | 0x12 =>
    if c ≤ 3 && !inRange (ofBe i.key) (Config.curveN c) then secretFail
    else
      match ecdhSecret c i.key i.src with
      | some z => { out := z }
      | none => secretFail
  | 0x14 => { out := Config.prim (.eddsaSign c) [i.key, i.src, i.rest, leBytes 1 (b2n (d.flag 1))] (curveSig c) }
  | 0x15 =>
    verdict (Config.primCheck (.eddsaSigDecodes c) [i.out2] &&
      Config.primCheck (.eddsaVerify c) [i.key, i.src, i.rest, leBytes 1 (b2n (d.flag 1)), i.out2])
  | 0x20 => { out := Config.prim (.mlkemCiphertext c) [i.src, i.drawn] (kemCt c), out2 := Config.prim (.mlkemSecret c) [i.src, i.drawn] 32 }
  | 0x21 => { out := Config.prim (.mlkemDecaps c) [i.key, i.src] 32 }
  | 0x22 => { out := Config.prim (.mldsaSign c) [i.key, i.src, i.rest, leBytes 1 (b2n (d.flag 2)), i.drawn] (dsaSig c) }
  | 0x23 =>
    verdict (Config.primCheck (.mldsaHints c) [i.out2] &&
      Config.primCheck (.mldsaVerify c) [i.key, i.src, i.rest, leBytes 1 (b2n (d.flag 2)), i.out2])
  | 0x30 =>
    let (n, a, b) := i.raw
    if (d.flag 3 && (n ≤ a || a == 0)) || (d.flag 4 && (n ≤ b || b == 0)) then secretFail
    else { out := beBytes (8 * d.modWords) (powMod a b n) }
  | 0x31 =>
    let (n, a, b) := i.raw
    if (d.flag 3 && n ≤ a) || (d.flag 4 && n ≤ b) then secretFail else { out := beBytes (8 * d.modWords) (a * b % n) }
  | 0x32 =>
    let (n, a, _) := i.raw
    match modInverse a n with
    | some x => if n ≤ a then secretFail else { out := beBytes (8 * d.modWords) x }
    | none => secretFail
  | 0x33 =>
    let (n, a, _) := i.raw
    if d.flag 3 && n ≤ a then secretFail else { out := beBytes (8 * d.modWords) (a % n) }
  | _ => {}

/-! ### Disciplines and pace (R256 to R264) -/

/-- The operation has a secret input (R275). -/
def Desc.pkSecret (d : Desc) : Bool :=
  let op := d.pkOp
  blindable op || op == 0x20 || op == 0x21 || op == 0x22 || (rawOp op && (d.flag 3 || d.flag 4))

/-- The operation on this context is blinded: its slice had PK_BLINDED at its admission (R90), nothing asks for fixed time, and it has a
blinded form (R256). -/
def Ctx.pkBlind (c : Ctx) : Bool :=
  c.isLocal && c.pkBlinded && !c.desc.fixed && blindable c.desc.pkOp &&
    !(c.key.any fun k => k.usage.getLsbD 16)

/-- Bytes of the blinding draw (R264): two 64-bit multiples and r for an RSA private operation; a 64-bit multiple and a coordinate for a
scalar multiplication. -/
def Ctx.blindDraw (c : Ctx) : Nat := if rsaOp c.desc.pkOp then 16 + c.pkBytes else 8 + curveField (c.desc.inl 0)

/-- The draws of an operation before T0 (R276, R264), each one generate call; a second nonce where the first gives a zero (R278). -/
def Ctx.pkDraws (c : Ctx) (src : Bytes) : List Nat :=
  let n := c.desc.pkDraw
  let again := c.desc.pkOp == 0x10 && n != 0 && n ≤ c.iv.length && (c.pkIn src).ecdsaZero 0
  (if n = 0 then [] else [n]) ++ (if again then [n] else []) ++ (if c.pkBlind then [c.blindDraw] else [])

/-- The next draw an operation still needs, given the bytes it has. -/
def drawStill : List Nat → Nat → Option Nat
  | [], _ => none
  | n :: ns, have_ => if have_ < n then some n else drawStill ns (have_ - n)

/-- The pace of a part (R257): B, or B scaled by the engine's speed and rounded up. -/
def paceFor (b speed : Nat) : Nat := if speed = 0 ∨ 1024 ≤ speed then b else (b * 1024 + speed - 1) / speed

/-- SPEED as it applies to later operations (R261). -/
def Channel.speedNow (c : Channel) : Nat :=
  match c.speedCap with
  | some v => Nat.min c.speed v
  | none => c.speed

/-- The PACE record (R487). -/
def State.recordPace (n op b p : Nat) (late : Bool) (s : State) : State :=
  s.record 0x22 (0x100 + n) 0 (pack [(1, op), (2, b), (2, p), (1, b2n late)])

/-- A part's pace fixed at its start (R257, R281): B and P from the point in force, growth noted and recorded at a change (R262). -/
def State.startPart (n : Nat) (c : Ctx) (r : PkRun) (part : Nat) (s : State) : State :=
  let ch := s.ch n
  let b := Config.basePace ch.mcVersion c.desc.pkOp (c.desc.inl 0) (c.desc.pkClass c.pkBytes) (s.dom n).op part
  let p := paceFor b ch.speedNow
  let grew := b < p
  let s1 := s.modCh n fun ch =>
    { ch with pkRun := some { r with b := b, p := p, part := part, computed := false, overrun := false, realNs := 0 },
              lastExtra := sat 8 (p - b), lastGrew := grew }
  let s2 := if grew then s1.modCtx c.id fun x => { x with paceGrew := true } else s1
  if grew = ch.lastGrew then s2 else s2.recordPace n c.desc.pkOp b p false

/-- The owner of operand memory an operation makes (R250). -/
def Ctx.bnOwner (c : Ctx) : BnOwner :=
  match c.owner with
  | .slice => .slice c.slice c.inst
  | .spilledIn _ _ o => .origin o
  | .remoteIn _ _ o => .origin o

/-- The operation a run describes before its computation. -/
def pkRunOf (c : Ctx) (paced blinded : Bool) (o : PkOut) : PkRun :=
  { ctx := c.id, paced := paced, blinded := blinded, b := 0, p := 0, part := 0, computed := false, overrun := false, realNs := 0,
    status := o.status, out := o.out, out2 := o.out2, result := BitVec.ofNat 64 o.result, crtFault := o.crtFault,
    accepted := false, wiping := false }

/-- The engine of channel n may begin this context's operation: it is wiped, its microcode is ACTIVE, and no PK_OP was issued before
(R241, R249). -/
def State.pkTurn (s : State) (n : Nat) (c : Ctx) : Bool :=
  (s.ch n).pkRun.isNone && (s.ch n).mcState == .active && (s.pkHead n).map (·.id) == some c.id

/-- The draws an operation still needs, in their order (R264, R276): false while one waits or has been refused. -/
def State.pkDrawAll (ctx : Nat) (src : Bytes) : Nat → State → State × Bool
  | 0, s => (s, false)
  | n + 1, s =>
    match s.ctx? ctx with
    | some c =>
      match drawStill (c.pkDraws src) c.iv.length with
      | some k =>
        match s.ctxDraw c k false with
        | (s1, true) => s1.pkDrawAll ctx src n
        | (s1, false) => (s1, false)
      | none => (s, true)
    | none => (s, false)

/-- Operand memory as an operation finds it (R245, R250): where the owner changes, all but its own input region is zero. Its key and its
drawn values enter KEY and WORK. -/
def Channel.pkLoad (ch : Channel) (c : Ctx) : Channel :=
  { ch with bnOwner := some c.bnOwner, regIn := if ch.bnOwner = some c.bnOwner then ch.regIn else ch.regIn.filter (·.1 == c.id),
            regKey := (c.key.map (·.material)).getD [], regWork := c.iv, regResult := [] }

/-- The substitute value of a blinded operation whose secret input fails (R267), one generate call. Its length is not stated: that of the
modulus or the field (DESIGN CHOICE, log entry 94). -/
def State.substitute (n : Nat) (c : Ctx) (s : State) : State :=
  if s.genReady n && !(s.gen (n + 2)).spent then
    let k := if rsaOp c.desc.pkOp then c.pkBytes else curveField (c.desc.inl 0)
    (s.call (n + 2) k (.ctx c.id k)).2
  else s

/-- A PK_OP begins to run: the key, T0 and the pace; the next one's inputs are fetched (R247). -/
def State.pkBegin (n ctx : Nat) (src : Bytes) (s : State) : State :=
  match s.ctx? ctx with
  | some c =>
    let blinded := c.pkBlind
    let paced := c.desc.pkSecret && !blinded
    let o := (c.pkIn src).compute
    let r := pkRunOf c paced blinded o
    let s1 := (s.modCtx ctx fun x => { x with phase := .pkRunning, bytes := c.desc.length }).modCh n fun ch =>
      { (ch.pkLoad c) with pkRun := some r }
    let s2 := if blinded && o.status == .inputRange then s1.substitute n c else s1
    (if paced then s2.startPart n c r 0 else s2).pkFetch n
  | none => s

/-- The inputs of a PK_OP that stand in its input region: source, auxiliary input, and what it reads from OUT2. -/
def Ctx.pkInputs (c : Ctx) (src : Bytes) : Bytes := src ++ c.aux.getD [] ++ c.out2In.getD []

/-- A failed check on a public input (R265, R249): the operation ends at once, whatever the engine runs; its input region is wiped, and an
idle engine wipes the rest before its next operation. -/
def State.pkPublicFail (n : Nat) (c : Ctx) (st : Status) (s : State) : State :=
  ((s.endOp c st 0 c.desc.length 0).modCh n fun ch =>
    { ch with regIn := ch.regIn.filter (·.1 != c.id),
              pkRun := if ch.pkRun.isNone then some { pkRunOf c false false {} with wiping := true } else ch.pkRun }).pkFetch n

/-- The microcode store's digest checked again before the first operation after a return from SLEEP or DEEP (R251); a store whose digest
differs is EMPTY. -/
def Channel.mcCheck (ch : Channel) : Channel :=
  if ch.mcRecheck then
    { ch with mcRecheck := false, mcState := if sha384 ch.mcImage = ch.mcDigest then ch.mcState else .empty }
  else ch

/-- The inputs of a PK_OP written into its input region (R247). -/
def State.pkStand (n : Nat) (c : Ctx) (src : Bytes) (s : State) : State :=
  s.modCh n fun ch => { ch with regIn := ch.regIn.map fun e => if e.1 == c.id then (c.id, c.pkInputs src) else e }

/-- The microcode checked where a return asks for it, the engine being free (R251). -/
def State.mcChecked (n : Nat) (s : State) : State := if (s.ch n).pkRun.isNone then s.modCh n Channel.mcCheck else s

/-- A PK_OP started (R247, R257, R265, R276): next in its queue and its inputs in an input region, its public checks are made; with the
engine free, its draws and its run follow. -/
def State.pkStart (op ctx : Nat) (s : State) : State :=
  match s.ctx? ctx with
  | some c =>
    match c.home with
    | some n =>
      if c.desc.opcode != 0x10 || c.desc.pkOp != op || !s.runnable c || (s.pkHead n).map (·.id) != some c.id then s
      else
        match c.nextRun with
        | none => s.pkFetch n
        | some (_, src) =>
          if !(s.ch n).regIn.any fun e => e.1 == c.id then s.pkFetch n
          else if (c.desc.shape c.pkBytes).out2In != 0 && c.out2In.isNone then s
          else
            let s0 := s.pkStand n c src
            match (c.pkIn src).publicCheck with
            | some st => s0.pkPublicFail n c st
            | none =>
              let s1 := s0.mcChecked n
              if !s1.pkTurn n c then s1
              else
                match s1.pkDrawAll ctx src 5 with
                | (s2, true) => s2.pkBegin n ctx src
                | (s2, false) => s2
    | none => s
  | none => s

/-! ### Release -/

/-- The result written at release (R248, R266): output, or zeros over destination and OUT2 for a secret failure; nothing on VERIFY_FAIL. -/
def State.pkWrite (c : Ctx) (r : PkRun) (s : State) : State :=
  let p := c.desc.shape c.pkBytes
  match r.status with
  | .done => (s.writeDst c 0 r.out).writeOut2 c r.out2
  | .inputRange => (s.writeDst c 0 (zeros p.dst)).writeOut2 c (zeros p.out2Out)
  | _ => s

/-- Operations counted by discipline at their release. -/
def Channel.countPk (c : Channel) (r : PkRun) (grew : Bool) : Channel :=
  let m := 2 ^ 64
  { c with pacedOps := (c.pacedOps + b2n r.paced) % m, blindedOps := (c.blindedOps + b2n r.blinded) % m,
           measuredOps := (c.measuredOps + b2n (!r.paced && !r.blinded)) % m, grewnOps := (c.grewnOps + b2n grew) % m }

/-- An operation released: written and ended, and operand memory wiped; a CRT fault fences the channel instead (R249, R280). -/
def State.pkRelease (n : Nat) (r : PkRun) (s : State) : State :=
  match s.ctx? r.ctx with
  | some c =>
    if r.crtFault then s.fence n 4
    else
      let s1 := (s.pkWrite c r).endOp c r.status 0 c.desc.length r.result
      s1.modCh n fun ch => { (ch.countPk r c.paceGrew) with pkRun := some { r with wiping := true } }
  | none => s.modCh n fun ch => { ch with pkRun := some { r with wiping := true } }

/-- The end of a paced part: MLDSA_SIGN goes on to its next attempt until one is accepted (R281). -/
def State.partEnd (n : Nat) (r : PkRun) (s : State) : State :=
  match s.ctx? r.ctx with
  | some c =>
    if c.desc.pkOp = 0x22 then
      let i := c.pkIn (((c.segs.head?).bind (·.data)).getD [])
      let ok := r.part != 0 &&
        Config.primCheck (.mldsaAccepts (c.desc.inl 0)) [i.key, i.src, i.rest, leBytes 1 (b2n (c.desc.flag 2)), i.drawn, leBytes 4 r.part]
      if ok then s.pkRelease n { r with result := BitVec.ofNat 64 r.part, accepted := true } else s.startPart n c r (r.part + 1)
    else s.pkRelease n r
  | none => s.pkRelease n r

/-- The release of a run's result is withheld: its descriptor's host is in D3hot (R78). -/
def State.pkWithheld (s : State) (r : PkRun) : Bool := !s.dmaOk && (s.ctx? r.ctx).any Ctx.isLocal

/-- A paced part released in its slots counts from its T0 (R263). -/
def State.countPaced (n slots : Nat) (r : PkRun) (s : State) : State :=
  match s.ctx? r.ctx with
  | some c => s.modCh n fun ch => { ch with winPaced := ch.winPaced + slots * r.p * quantumPs (c.desc.pkClass c.pkBytes) }
  | none => s

/-- PK_COMPUTE_END (R260): a measured or blinded operation is released; a paced one's result awaits its release while filler runs. -/
def execPkComputeEnd (ch elapsedNs : Nat) (s : State) : Host.Outcome State Fault Refusal :=
  match (s.ch ch).pkRun with
  | some r =>
    if r.wiping || r.computed then .next s
    else if r.paced then
      .next (s.modCh ch fun c => { c with regResult := r.out ++ r.out2, pkRun := some { r with computed := true, realNs := elapsedNs } })
    else if s.pkWithheld r then .next s
    else .next ((s.pkRelease ch r).settle s)
  | none => .next s

/-- PACER_RELEASE (R257, R261, R562): at T0 + P quanta the result goes out, and a TARGET changed meanwhile takes hold; or the result waits
for the overrun slot. -/
def execPacerRelease (ch : Nat) (s : State) : Host.Outcome State Fault Refusal :=
  match (s.ch ch).pkRun with
  | some r =>
    if r.wiping || !r.paced || r.overrun || s.pkWithheld r then .next s
    else if r.computed then
      let s1 := (s.countPaced ch 1 r).partEnd ch r
      .next ((if (s.ch ch).targetChanged then s1.followTarget ch else s1).settle s)
    else .next (s.modCh ch fun c => { c with pkRun := some { r with overrun := true } })
  | none => .next s

/-- SPEED's limit after an overrun (R261): at most 1,024 × (B × quantum) ÷ (1.125 × the real time). -/
def overrunSpeed (b quantum realNs : Nat) : Nat := if realNs = 0 then 1024 else 8 * 1024 * b * quantum / (9 * realNs * 1000)

/-- PACE_OVERRUN (R261): at the overrun slot the result goes out with PACE_GREW, or the operation is abandoned and its channel fenced. -/
def execPaceOverrun (ch : Nat) (s : State) : Host.Outcome State Fault Refusal :=
  match (s.ch ch).pkRun with
  | some r =>
    match s.ctx? r.ctx with
    | some c =>
      if r.wiping || !r.paced || !r.overrun || s.pkWithheld r then .next s
      else if r.computed then
        let v := overrunSpeed r.b (quantumPs (c.desc.pkClass c.pkBytes)) r.realNs
        let s1 := (s.modCh ch fun x => { x with overruns := sat 16 (x.overruns + 1), speedCap := some (Nat.min v ((x.speedCap).getD v)) }).modCtx
          r.ctx fun x => { x with paceGrew := true }
        .next ((((s1.recordPace ch c.desc.pkOp r.b r.p true).countPaced ch 2 r).partEnd ch r).settle s)
      else .next ((s.fence ch 4).settle s)
    | none => .next s
  | none => .next s

/-- Operand memory after an operation (R249): KEY, WORK, RESULT and its input region hold zeros. -/
def Channel.pkWiped (c : Channel) (id : Nat) : Channel :=
  { c with pkRun := none, regKey := [], regWork := [], regResult := [], regIn := c.regIn.filter (·.1 != id) }

/-- PK_WIPE_COMPLETE (R249): the wipe is complete; the engine may begin its next operation. -/
def execPkWipeComplete (ch : Nat) (s : State) : Host.Outcome State Fault Refusal :=
  match (s.ch ch).pkRun with
  | some r => if r.wiping then .next ((s.modCh ch fun c => c.pkWiped r.ctx).pkFetch ch) else .next s
  | none => .next s

/-! ### The operations -/

/-- RSA_PUBLIC: m^e mod n, measured. -/
def execRsaPublic (ctx : Nat) (s : State) : Host.Outcome State Fault Refusal := .next (s.pkStart 0x01 ctx)

/-- RSA_PRIVATE (R280): c^d mod n by CRT, paced or blinded, checked before release. -/
def execRsaPrivate (ctx : Nat) (s : State) : Host.Outcome State Fault Refusal := .next (s.pkStart 0x02 ctx)

/-- RSA_SIGN_PSS: a signature with a drawn salt. -/
def execRsaSignPss (ctx : Nat) (s : State) : Host.Outcome State Fault Refusal := .next (s.pkStart 0x03 ctx)

/-- RSA_SIGN_PKCS1. -/
def execRsaSignPkcs1 (ctx : Nat) (s : State) : Host.Outcome State Fault Refusal := .next (s.pkStart 0x04 ctx)

/-- RSA_VERIFY_PSS: the signature is read from OUT2, measured. -/
def execRsaVerifyPss (ctx : Nat) (s : State) : Host.Outcome State Fault Refusal := .next (s.pkStart 0x05 ctx)

/-- RSA_VERIFY_PKCS1. -/
def execRsaVerifyPkcs1 (ctx : Nat) (s : State) : Host.Outcome State Fault Refusal := .next (s.pkStart 0x06 ctx)

/-- RSA_DECRYPT_OAEP: the message, then zeros; RESULT holds its length. -/
def execRsaDecryptOaep (ctx : Nat) (s : State) : Host.Outcome State Fault Refusal := .next (s.pkStart 0x07 ctx)

/-- RSA_ENCRYPT_OAEP: with a drawn seed, measured. -/
def execRsaEncryptOaep (ctx : Nat) (s : State) : Host.Outcome State Fault Refusal := .next (s.pkStart 0x08 ctx)

/-- ECDSA_SIGN (R278): a random or deterministic nonce, a second attempt on a zero r or s. -/
def execEcdsaSign (ctx : Nat) (s : State) : Host.Outcome State Fault Refusal := .next (s.pkStart 0x10 ctx)

/-- ECDSA_VERIFY. -/
def execEcdsaVerify (ctx : Nat) (s : State) : Host.Outcome State Fault Refusal := .next (s.pkStart 0x11 ctx)

/-- ECDH: the shared secret of a peer's point. -/
def execEcdh (ctx : Nat) (s : State) : Host.Outcome State Fault Refusal := .next (s.pkStart 0x12 ctx)

/-- EDDSA_SIGN. -/
def execEddsaSign (ctx : Nat) (s : State) : Host.Outcome State Fault Refusal := .next (s.pkStart 0x14 ctx)

/-- EDDSA_VERIFY: the cofactored equation. -/
def execEddsaVerify (ctx : Nat) (s : State) : Host.Outcome State Fault Refusal := .next (s.pkStart 0x15 ctx)

/-- MLKEM_ENCAPS: ciphertext, and the shared secret at OUT2. -/
def execMlkemEncaps (ctx : Nat) (s : State) : Host.Outcome State Fault Refusal := .next (s.pkStart 0x20 ctx)

/-- MLKEM_DECAPS (R279): implicit rejection, always DONE. -/
def execMlkemDecaps (ctx : Nat) (s : State) : Host.Outcome State Fault Refusal := .next (s.pkStart 0x21 ctx)

/-- MLDSA_SIGN (R281): paced in parts; RESULT holds the attempts. -/
def execMldsaSign (ctx : Nat) (s : State) : Host.Outcome State Fault Refusal := .next (s.pkStart 0x22 ctx)

/-- MLDSA_VERIFY. -/
def execMldsaVerify (ctx : Nat) (s : State) : Host.Outcome State Fault Refusal := .next (s.pkStart 0x23 ctx)

/-- MOD_EXP (R282): a^b mod n. -/
def execModExp (ctx : Nat) (s : State) : Host.Outcome State Fault Refusal := .next (s.pkStart 0x30 ctx)

/-- MOD_MUL: a × b mod n. -/
def execModMul (ctx : Nat) (s : State) : Host.Outcome State Fault Refusal := .next (s.pkStart 0x31 ctx)

/-- MOD_INV: a⁻¹ mod n. -/
def execModInv (ctx : Nat) (s : State) : Host.Outcome State Fault Refusal := .next (s.pkStart 0x32 ctx)

/-- MOD_REDUCE: a double-length a modulo n. -/
def execModReduce (ctx : Nat) (s : State) : Host.Outcome State Fault Refusal := .next (s.pkStart 0x33 ctx)

end Sys2Proof.Machine
end

