-- ==== Sys2Proof/Machine/Images.lean ====
section
/-! DEFINITION. Images (R402, R578 to R580): signatures, the header, whether an image qualifies, and the directory of the device partition. -/

namespace Sys2Proof.Machine

/-! ### Signatures under ALG 1 and 2 (R366, R377) -/

/-- A signature over a message: ECDSA P-384 over its SHA-384, or ML-DSA-65 with an empty context (R385). -/
def sigVerifies (alg : Nat) (key msg sig : Bytes) : Bool :=
  if alg = 1 then
    let (r, t) := halves sig
    sig.length == 96 && inRange r (Config.curveN 2) && inRange t (Config.curveN 2) &&
      Config.primCheck (.ecdsaVerify 2) [key, sha384 msg, sig]
  else if alg = 2 then
    sig.length == 3309 && Config.primCheck (.mldsaHints 2) [sig] && Config.primCheck (.mldsaVerify 2) [key, msg, [], leBytes 1 0, sig]
  else false

/-- Bytes of a public key and of a signature of an ALG. -/
def algKey (alg : Nat) : Nat := if alg = 2 then 1952 else 96
/-- Bytes of a signature. -/
def algSig (alg : Nat) : Nat := if alg = 2 then 3309 else 96

/-- A public key of an ALG that may be taken: the ALG, the length, the point. -/
def algKeyFault (alg : Nat) (key : Bytes) : Option Status :=
  if (alg != 1 && alg != 2) || key.length != algKey alg then some .inputRange
  else if alg = 1 then pointCheck 2 key
  else if Config.primCheck (.mldsaKeyDecodes 2) [key] then none else some .inputRange

/-! ### Images (R579, R580) -/

/-- Version and SVN of an image, zero where none runs. -/
def imageInfo (i : Option Image) : Nat × Nat := match i with | some x => (x.version, x.svn) | none => (0, 0)

/-- Longest body of a kind. -/
def bodyMax (kind : Nat) : Nat := if kind = 3 then 0x8000 else 0x400000

/-- The header of an image is well formed (R579). -/
def headerOk (b : Bytes) : Bool :=
  let kind := fieldLe b 4 1
  let alg := fieldLe b 6 1
  256 ≤ b.length && sub b 0 4 == ascii "ZVIM" && fieldLe b 5 1 == 1 && fieldLe b 7 1 == 0 && !anySet (sub b 0x14 12) &&
    (if kind = 2 then alg == 1 || alg == 2 else alg == 3) &&
    (if kind = 1 then !anySet (sub b 0x81 127)
     else if kind = 2 then fieldLe b 0x81 1 ≤ 1 && !anySet (sub b 0xB7 73)
     else !anySet (sub b 0x80 128))

/-- The signatures of an image's block verify (R579, R580): both Agorpen signatures, or the one of KIND 2 under the key in its block. -/
def signaturesOk (b : Bytes) : Bool :=
  let n := 256 + fieldLe b 0x10 4
  let msg := b.take n
  let block := b.drop n
  let sig (alg : Nat) : Bytes := if alg = 1 then sub block 0x800 96 else sub block 0x1000 3309
  let alg := fieldLe b 6 1
  if alg = 3 then
    sigVerifies 1 (Config.agorpenKey 1) msg (sig 1) && sigVerifies 2 (Config.agorpenKey 2) (sha384 msg) (sig 2)
  else
    let key := sub block 0 (algKey alg)
    sha384 key == sub b 0x50 48 && sigVerifies alg key (if alg = 1 then msg else sha384 msg) (sig alg)

/-- The image some bytes spell (R579). The measurement is the SHA-384 of header and body. -/
def imageOf (b : Bytes) : Image :=
  let kind := fieldLe b 4 1
  let n := fieldLe b 0x10 4
  { kind := kind, version := fieldLe b 8 4, svn := fieldLe b 0xC 4, bodyLen := n, bodyDigest := sub b 0x20 48,
    measurement := sha384 (b.take (256 + n)), signerDigest := sub b 0x50 48,
    sigOk := signaturesOk b && sha384 (sub b 256 n) == sub b 0x20 48,
    mcFloor := if kind = 1 then fieldLe b 0x80 1 else 0, worldCfg := fieldLe b 0x80 1, session1Ow := fieldLe b 0x81 1 == 1,
    tRegions := fieldLe b 0x82 1,
    extensions := if kind = 2 then Config.extensionTable ((sub b 256 n).drop (fieldLe b 0x83 4)) else [],
    nextSigner := sub b 0x87 48 }

/-- The floor of an image's kind (R580). -/
def State.floorOf (s : State) (kind : Nat) : Nat :=
  if kind = 1 then s.renewal.twFloor else if kind = 3 then s.mcFloor else s.renewal.owFloor

/-- An open-world signer is recorded (R580). -/
def State.signerRecorded (s : State) : Bool := !s.renewal.owSigner.isEmpty

/-- Why an image of a kind does not qualify (R580, R581): its range before its signatures. -/
def State.imageFault (s : State) (kind : Nat) (i : Image) : Option Status :=
  if i.kind != kind || bodyMax kind < i.bodyLen || (kind != 2 && 63 < i.svn) || i.svn < s.floorOf kind then some .inputRange
  else if !i.sigOk || (kind = 2 && s.signerRecorded && i.signerDigest != s.renewal.owSigner) then some .verifyFail
  else none

/-- Some bytes have the form of an image of a kind (R579): a well-formed header, and the length it gives. -/
def imageForm (kind : Nat) (b : Bytes) : Bool :=
  headerOk b && fieldLe b 4 1 == kind && b.length == 256 + fieldLe b 0x10 4 + 8192

/-- The copy to start of a kind (R402, R580): of those that qualify, the higher SVN, then the higher VERSION. -/
def State.bestImage (s : State) (kind : Nat) (l : List (Image × Nat)) : Option (Image × Nat) :=
  l.foldl (fun best x =>
    if (s.imageFault kind x.1).isSome then best
    else
      match best with
      | none => some x
      | some y => if y.1.svn < x.1.svn ∨ (y.1.svn = x.1.svn ∧ y.1.version < x.1.version) then some x else best) none

/-! ### The directory (R578) -/

/-- A directory entry from its 32 bytes. -/
def entryOf (b : Bytes) : DirEntry :=
  { kind := fieldLe b 0 1, copy := fieldLe b 1 1, state := fieldLe b 2 1, offset := fieldLe b 4 4, length := fieldLe b 8 4,
    version := fieldLe b 12 4, svn := fieldLe b 16 4 }

/-- A slot of the directory: its MAGIC and CHECK stand. -/
def slotOf (n : Nat) (b : Bytes) : Option Directory :=
  if sub b 0 4 == ascii "ZVDP" && crc32c (sub b 0 0x7FC) == fieldLe b 0x7FC 4 then
    some { slot := n, seq := fieldLe b 8 8, partOffset := fieldLe b 0x10 4,
           entries := (List.range 6).map fun i => entryOf (sub b (0x20 + 32 * i) 32) }
  else none

/-- The slot that governs: of those that stand, the one with the higher WRITE_SEQ. -/
def directoryOf (b : Bytes) : Option Directory :=
  match slotOf 0 (sub b 0 0x800), slotOf 1 (sub b 0x800 0x800) with
  | some x, some y => some (if x.seq < y.seq then y else x)
  | some x, none => some x
  | none, y => y

/-- One write of the directory (R578, R585): the other slot, with the next WRITE_SEQ, and the entry of a kind and copy changed. -/
def Directory.rewrite (kind copy : Nat) (f : DirEntry → DirEntry) (d : Directory) : Directory :=
  { d with slot := 1 - d.slot, seq := (d.seq + 1) % 2 ^ 64, entries := d.entries.map fun e => if e.kind = kind ∧ e.copy = copy then f e else e }

/-- The valid copies the directory names, with what each says of itself: `copies` are the bytes at its entries, in their order. -/
def Directory.copiesOf (d : Directory) (copies : List Bytes) : List (Image × Nat) :=
  (d.entries.zip copies).filterMap fun (e, b) => if e.state = 1 && imageForm e.kind b then some (imageOf b, e.copy) else none

/-- The copies the boot ROM reads under the directory in flash. -/
def State.flashCopies (s : State) (copies : List Bytes) : List (Image × Nat) :=
  match s.renewal.dir with
  | some d => d.copiesOf copies
  | none => []

end Sys2Proof.Machine
end

