-- ==== Sys2Proof/Machine/Entropy.lean ====
section
/-! DEFINITION. The noise banks, the entropy buffer and the seeding of the generators (R286 to R298, R302 to R305), and the draw ports (R595). -/

namespace Sys2Proof.Machine

/-! ### Banks -/

/-- A noise bank. -/
def State.bank (s : State) (b : Nat) : Bank := s.rng.banks.getD b {}

/-- A bank neither set aside nor retired; a bank under raw capture stands as it did before (R293, R308). -/
def Bank.usable (b : Bank) : Bool :=
  let st := if b.st = .capture then b.captured else b.st
  st != .setAside && st != .retired

/-- A bank started under R290. -/
def State.startBank (b : Nat) (s : State) : State := s.modBank b fun x => { x with st := .warmup, run := 0 }

/-- A bank restarted under R290, counted. -/
def State.restartBank (b : Nat) (s : State) : State :=
  s.modBank b fun x => { x with st := .warmup, run := 0, restarts := sat 16 (x.restarts + 1) }

/-- The source seeds: STARTUP or RECOVERY. -/
def State.seeding (s : State) : Bool := s.rng.source == .startup || s.rng.source == .recovery

/-- No bank remains that is neither set aside nor retired: the source is FAILED, and the draws of uninstantiated instances end (R293, R307). -/
def State.checkFailed (s : State) : State :=
  if s.rng.source != .off && s.rng.banks.all (fun b => !b.usable) then
    let s1 := s.modRng fun r => { r with source := .failed, selftest := [] }
    s1.each ((List.range 38).filter fun i => (s.gen i).st == .unseeded || (s.gen i).st == .stalled) State.failWaiting
  else s

/-- The next bank in order after b that has not been started takes its place (R293). -/
def State.nextBank (b : Nat) (s : State) : State :=
  if s.rng.banks.any fun x => x.st == .warmup || x.st == .test || x.st == .service then s
  else
    match ((List.range 4).map fun k => (b + 1 + k) % 4).find? fun k => (s.bank k).st == .off with
    | some k => s.startBank k
    | none => s

/-- Once CD_0 is instantiated, each set-aside bank is restarted once, and the banks not yet started start (R293). -/
def State.allBanks (s : State) : State :=
  s.each [0, 1, 2, 3] fun b t =>
    if (t.bank b).st = .setAside ∧ !(t.bank b).retried then (t.modBank b fun x => { x with retried := true }).restartBank b
    else if (t.bank b).st = .off then t.startBank b
    else t

/-- The source enters SERVICE when CD_0 is instantiated and every bank's start-up test has ended. -/
def State.checkService (s : State) : State :=
  if s.seeding && (s.gen 0).st != .unseeded && s.rng.banks.all (fun b => b.st != .warmup && b.st != .test) &&
      s.rng.banks.any (fun b => b.st == .service) then
    s.modRng fun r => { r with source := .service }
  else s

/-- The next bank of a self-test restarted, where none runs its start-up test (R308). -/
def State.nextSelftest (s : State) : State :=
  match s.rng.selftest with
  | b :: bs =>
    if s.rng.banks.any fun x => x.st == .warmup || x.st == .test then s
    else if (s.bank b).st = .service then (s.modRng fun r => { r with selftest := bs }).restartBank b
    else s.modRng fun r => { r with selftest := bs }
  | [] => s

/-! ### Health tests (R289, R290) -/

/-- The raw bits of a block, the first bit of each byte its least significant. -/
def rawBits (raw : Bytes) : List Bool := (padTo 128 raw).flatMap fun b => (List.range 8).map fun i => bit b.toNat i

/-- One raw bit through the repetition count test: the last bit, identical bits so far, and whether the cutoff of 41 was reached. -/
def repetition (a : Bool × Nat × Bool) (b : Bool) : Bool × Nat × Bool :=
  let n := if a.2.1 != 0 && a.1 == b then a.2.1 + 1 else 1
  (b, n, a.2.2 || 41 ≤ n)

/-- Raw bits of a bank through the repetition count test, which runs on from its bits before. -/
def Bank.repetitions (x : Bank) (l : List Bool) : Bool × Nat × Bool := l.foldl repetition (x.lastBit, x.run, false)

/-- The repetition count test fails on some bits. -/
def Bank.rctFails? (x : Bank) (l : List Bool) : Bool := (x.repetitions l).2.2

/-- The adaptive proportion test fails within a window: 796 occurrences of its first bit. -/
def aptFails? (l : List Bool) : Bool := 796 ≤ (l.filter (· == l.headD false)).length

/-- Raw bits of a bank pass both tests. -/
def Bank.healthy (x : Bank) (l : List Bool) : Bool := !x.rctFails? l && !aptFails? l

/-- The repetition count after some bits. -/
def Bank.sampled (x : Bank) (l : List Bool) : Bank := { x with lastBit := (x.repetitions l).1, run := (x.repetitions l).2.1 }

/-- Raw bits of the 10 µs warm-up, at 50 Mbit/s (R286, R290). -/
def warmupBits : Nat := 500

/-- BANK_WARMUP_END (R290): the bits of the warm-up pass the repetition count, no window of the other test ending in them, and the start-up
test begins. Bits that fail are HEALTH_TEST_FAIL's. -/
def execBankWarmupEnd (d : BankBits) (s : State) : Host.Outcome State Fault Refusal :=
  let x := s.bank d.bank
  let l := (rawBits d.raw).take warmupBits
  if x.st = .warmup && !x.rctFails? l then .next (s.modBank d.bank fun x => { x.sampled l with st := .test }) else .next s

/-- BANK_STARTUP_TEST_PASS (R290, R293): 1,024 raw bits pass both tests, and the bank supplies blocks. -/
def execBankStartupTestPass (d : BankBits) (s : State) : Host.Outcome State Fault Refusal :=
  let x := s.bank d.bank
  let l := rawBits d.raw
  if x.st = .test && x.healthy l then
    .next ((s.modBank d.bank fun x => { x.sampled l with st := .service, retried := false }).checkService.nextSelftest)
  else .next s

/-! ### Blocks -/

/-- The conditioner's block (R287): Hash_df with SHA-512. -/
def conditioned (raw : Bytes) : Bytes := Config.prim .hashDf [padTo 128 raw] 32

/-- A block of a raw capture written to the host buffer without a PASID (R308). When the count is reached the bank restarts; one that was set aside, retired
or off is so again (R293). -/
def State.captureBlock (raw : Bytes) (s : State) : State :=
  let left := s.rng.captureLeft - 1024
  let s1 := (s.emit (.write none s.rng.captureAddr (padTo 128 raw))).modRng fun r =>
    { r with captureLeft := left, captureAddr := r.captureAddr + 128 }
  let x := s.bank s.rng.captureBank
  if left != 0 then s1
  else if x.usable && x.captured != .off then s1.restartBank s.rng.captureBank
  else s1.modBank s.rng.captureBank fun x => { x with st := x.captured }

/-- BANK_BLOCK (R287, R288, R291): 1,024 bits that passed both tests give one block to the buffer, which is discarded while the buffer is full;
a bank under capture sends them to the host. Bits that fail a test are HEALTH_TEST_FAIL's. -/
def execBankBlock (bank : Nat) (raw : Bytes) (s : State) : Host.Outcome State Fault Refusal :=
  match (s.bank bank).st with
  | .capture => if s.rng.captureLeft = 0 || !s.dmaOk then .next s else .next (s.captureBlock raw)
  | .service =>
    if !(s.bank bank).healthy (rawBits raw) then .next s
    else
      .next ((s.modBank bank fun x => { x.sampled (rawBits raw) with blocks := (x.blocks + 1) % 2 ^ 32 }).modRng fun r =>
        { r with buffer := if r.buffer.length < Config.entropyBlocks then r.buffer ++ [conditioned raw] else r.buffer })
  | _ => .next s

/-! ### Failures -/

/-- An instance uninstantiated with its waiting draws kept (R294, R305). -/
def Gen.unseed (g : Gen) : Gen := { g.erased with waiting := g.waiting }

/-- Every instance uninstantiated, the buffer emptied, and the source in RECOVERY from the banks in service (R294). -/
def State.recovery (s : State) : State :=
  let s1 := s.modRng fun r =>
    { r with buffer := [], source := .recovery, due := [], cd0 := r.cd0.unseed, cd1 := r.cd1.unseed, gens := r.gens.map Gen.unseed }
  s1.nextBank 3

/-- The fatal RNG alarm (R292, R294): the bank retired, RECOVERY, and an event of source RNG. -/
def State.fatalRng (b : Nat) (s : State) : State :=
  let s1 := (s.modBank b fun x => { x with st := .retired }).modRng fun r => { r with fatalCount := (r.fatalCount + 1) % 256, selftest := [] }
  ((s1.recovery.recordRng b 6).checkFailed).tamperEvent 30 36

/-- A bank set aside, or retired when it has failed again after its one restart (R293). -/
def State.setAside (b : Nat) (s : State) : State :=
  if (s.bank b).retried then ((s.modBank b fun x => { x with st := .retired }).recordRng b 3)
  else
    let s1 := (s.modBank b fun x => { x with st := .setAside }).recordRng b 2
    if (s.gen 0).st = .unseeded then s1.nextBank b
    else (s1.modBank b fun x => { x with retried := true }).restartBank b

/-- A bank with its failed tests counted. -/
def Bank.counted (x : Bank) (rct apt : Bool) : Bank :=
  { x with rctFails := sat 32 (x.rctFails + b2n rct), aptFails := sat 32 (x.aptFails + b2n apt), run := 0 }

/-- HEALTH_TEST_FAIL (R289 to R294): the raw bits of the phase or block so far fail a test; the block is discarded. In SERVICE the failure
counts, the third within 1 s being fatal, and elsewhere the bank is set aside and the next takes its place. -/
def execHealthTestFail (d : BankBits) (count : Nat) (s : State) : Host.Outcome State Fault Refusal :=
  let b := s.bank d.bank
  let l := (rawBits d.raw).take (if b.st = .warmup then Nat.min count warmupBits else count)
  if (b.st != .service && b.st != .test && b.st != .warmup) || b.healthy l then .next s
  else
    let s1 := s.modBank d.bank fun x => x.counted (b.rctFails? l) (aptFails? l)
    if s.seeding || !s.rng.selftest.isEmpty || s.mail.running.any (fun j => j.kind == .selftest) then
      .next ((s1.setAside d.bank).checkFailed.checkService.nextSelftest.settle s)
    else
      let fails := (b.fails.filter fun t => s.glob.uptimeMs < t + 1000) ++ [s.glob.uptimeMs]
      let s2 := (s1.modBank d.bank fun x => { x with fails := fails }).recordRng d.bank 1
      .next ((if 3 ≤ fails.length then s2.fatalRng d.bank else s2.restartBank d.bank).settle s)

/-! ### Seeding -/

/-- A channel whose generator is to be instantiated: its self-test runs, or it serves without one (R294, R298). -/
def State.wantsSeed (s : State) (i : Nat) : Bool :=
  (s.gen i).st == .unseeded &&
  (i < 2 || ((s.ch (i - 2)).st == .selftest && (s.ch (i - 2)).test == .run) || (s.ch (i - 2)).inService || (s.ch (i - 2)).st == .draining)

/-- The instance next in the order of R302 to be instantiated: CD_0, CD_1, then channels in ascending number. -/
def State.nextSeed (s : State) : Option Nat := (List.range 38).find? s.wantsSeed

/-- An instance waits for a reseed. -/
def State.wantsReseed (s : State) (i : Nat) : Bool :=
  (s.gen i).st != .unseeded && (s.gen i).st != .failed && ((s.gen i).st == .stalled || s.isDue i || (s.gen i).prPending)

/-- DRBG_INSTANTIATE (R296, R302, R293): two blocks seed the instance whose turn it is; its waiting draws are served in arrival order. CD_0
seeded, the other banks start. -/
def execDrbgInstantiate (inst : Nat) (s : State) : Host.Outcome State Fault Refusal :=
  match s.rng.buffer with
  | b1 :: b2 :: rest =>
    if s.nextSeed != some inst || (inst != 0 && s.wantsReseed 0) then .next s
    else
      let seed := Config.prim .drbgSeed [b1, b2.take 16, s.personalString inst] 48
      let s1 := (s.modRng fun r => { r with buffer := rest, due := r.due.filter (· != inst) }).modGen inst fun g =>
        { g with st := .seeded, seed := seed, calls := 0, reseeds := 0, returned := false, prPending := false,
                 interval := s.rng.reseedLog2 }
      let s2 := if s.keys.root.isNone then (s1.serve inst true).loadSik else s1.serve inst true
      .next (if inst = 0 ∧ s.seeding then s2.allBanks.checkService else s2).ranDry
  | _ => .next s

/-- The instance whose prediction-resistance reseed is next in the round (R302). -/
def State.nextPr (s : State) : Option Nat :=
  ((List.range 37).map fun k => (s.rng.prTurn + k) % 37 + 1).find? fun i => (s.gen i).prPending && s.wantsReseed i

/-- A reseed of an instance may take the next block (R302). -/
def State.reseedTurn (s : State) (i : Nat) : Bool :=
  s.wantsReseed i &&
  (i == 0 ||
   (!s.wantsReseed 0 && s.nextSeed.isNone &&
    ((s.gen i).st == .stalled ||
     ((List.range 38).all (fun k => (s.gen k).st != .stalled) &&
      match s.rng.due.head?, s.nextPr with
      | some d, some p => if s.rng.prLast then i == d else i == p
      | some d, none => i == d
      | none, some p => i == p
      | none, none => false))))

/-- RNG_RESEED's instances still to reseed, after one has. -/
def reseedJob (i : Nat) (j : Job) : Job :=
  match j.kind with
  | .reseed m => { j with kind := .reseed (if bit m i then m - 2 ^ i else m) }
  | _ => j

/-- One block consumed by a reseed of an instance (R297); its waiting draws are served. -/
def State.reseedWith (i : Nat) (block : Bytes) (s : State) : State :=
  let g := s.gen i
  let seed := Config.prim .drbgSeed [g.seed, block, s.additional i] 48
  let s1 := (s.modRng fun r =>
    { r with due := r.due.filter (· != i), prLast := g.prPending, prTurn := if g.prPending && i != 0 then i else r.prTurn }).modGen i fun g =>
    { g with st := .seeded, seed := seed, calls := 0, reseeds := (g.reseeds + 1) % 2 ^ 32, returned := false, prPending := false,
             interval := s.rng.reseedLog2 }
  State.serve i false (s1.modMail fun m => { m with running := m.running.map (reseedJob i) })

/-- DRBG_RESEED (R297, R302, R303): one block reseeds the instance whose turn it is. -/
def execDrbgReseed (inst : Nat) (s : State) : Host.Outcome State Fault Refusal :=
  match s.rng.buffer with
  | b :: rest =>
    if s.reseedTurn inst then
      let t := State.reseedWith inst b (s.modRng fun r => { r with buffer := rest })
      .next (if s.keys.root.isNone then t.loadSik else t).ranDry
    else .next s
  | [] => .next s

/-! ### Draw ports -/

/-- The instance behind a world's draw port. -/
def portInst : World → Nat
  | .tw => 0 | .ow => 1

/-- DRAW_REQUEST (R595): one generate call of CD_0 or CD_1; a request while BUSY is dropped. -/
def State.drawPortWrite (w : World) (len : Nat) (pr : Bool) (s : State) : State :=
  let x := s.world w
  if !x.up || x.drawBusy then s
  else
    let s0 := s.modWorld w fun x => { x with drawLen := len % 128, drawValid := false, drawData := zeros 64 }
    if len % 128 = 0 ∨ 64 < len % 128 then (s0.portDone w 0 .descMalformed [])
    else
      let n := len % 128
      match s0.draw (portInst w) n pr (.port w n pr) with
      | (.bytes b, s1) => (s1.portDone w n .done b)
      | (.refused st, s1) => (s1.portDone w n st [])
      | (.waits, s1) => (s1.modWorld w fun x => { x with drawBusy := true })
      | (.held, s1) => (s1.modWorld w fun x => { x with drawBusy := true })

/-- DRAW_REQUEST. -/
def execDrawRequest (w : World) (len : Nat) (pr : Bool) (s : State) : Host.Outcome State Fault Refusal := .next (s.drawPortWrite w len pr)

end Sys2Proof.Machine
end

