-- ==== Sys2Proof/Machine/Sram.lean ====
section
/-! DEFINITION. Serow SRAM as a canonical list of cells, and the admission table: blocks of the interconnect map (R593), the check of R445
and R446, the commit of R443, the entries the boot ROM writes (R450). -/

namespace Sys2Proof.Machine

/-! ### Serow SRAM -/

/-- The byte at an address: zero where nothing is listed (step 4 of the power-up). -/
def Mem.read (m : List Host.Cell) (a : Nat) : Byte := assocD m a 0

/-- One byte written, the canonical form kept: a zero is not listed. -/
def Mem.put (a : Nat) (v : Byte) : List Host.Cell → List Host.Cell
  | [] => if v = 0 then [] else [(a, v)]
  | c :: r =>
    if a < c.1 then (if v = 0 then c :: r else (a, v) :: c :: r)
    else if a = c.1 then (if v = 0 then r else (a, v) :: r)
    else c :: Mem.put a v r

/-- Bytes written from an address on. -/
def Mem.write : Nat → Bytes → List Host.Cell → List Host.Cell
  | _, [], m => m
  | a, b :: bs, m => Mem.write (a + 1) bs (Mem.put a b m)

/-- n bytes from an address on. -/
def Mem.bytes (m : List Host.Cell) (a n : Nat) : Bytes := (List.range n).map fun i => Mem.read m (a + i)

/-- Addresses strictly rising. -/
def Mem.rising : List Host.Cell → Bool
  | [] => true
  | [_] => true
  | c :: d :: r => c.1 < d.1 && Mem.rising (d :: r)

/-- The canonical form: addresses strictly rising, and no cell that reads as an unlisted one does. -/
def Memory.wf (m : List Host.Cell) : Bool := Mem.rising m && m.all fun c => c.2 != 0

/-- First address of a world's half of Serow SRAM, and of the end of SRAM. -/
def sramBase : World → Nat
  | .tw => 0x80000000 | .ow => 0x82000000
/-- The end of Serow SRAM. -/
def sramEnd : Nat := 0x84000000

/-- A world's half of Serow SRAM zeroed (R437, R440): what is left is the other half. -/
def State.zeroHalf (w : World) (s : State) : State :=
  let keep := s.worlds.sram.filter fun c => decide (c.1 < sramBase w) || decide (sramBase w + 0x2000000 ≤ c.1)
  { s with worlds := { s.worlds with sram := keep } }

/-- Bytes stored in Serow SRAM; a byte beyond its end goes nowhere. -/
def State.sramWrite (a : Nat) (b : Bytes) (s : State) : State :=
  { s with worlds := { s.worlds with sram := Mem.write a (b.take (sramEnd - a)) s.worlds.sram } }

/-! ### Faults of a core -/

/-- PRIV as ADM_FAULT shows it is held as the mode; TYPE as its code. -/
def AccessType.code : AccessType → Nat
  | .read => 1 | .write => 2 | .execute => 4

/-- A Serow core's fault (R447): logged where the world's log is free, and counted. -/
def State.serowFault (w : World) (p : Priv) (t : AccessType) (a : Nat) (s : State) : State :=
  let s1 := s.modWorld w fun x =>
    if x.admFault.valid then x else { x with admFault := { addr := a, priv := p, typ := AccessType.code t, valid := true } }
  { s1 with worlds := { s1.worlds with serowFaults := sat 16 (s1.worlds.serowFaults + 1) } }

/-! ### Commits -/

/-- Two VALID entries overlap. -/
def Region16.overlaps (e f : Region16) : Bool :=
  e.valid && f.valid && e.base < f.base + 2 ^ f.sizeLog2 && f.base < e.base + 2 ^ e.sizeLog2

/-- The permissions only a trusted-world entry may grant: TW_M, TW_S, TW_U and HOST (R442). -/
def twOnly : BitVec 24 := 0x0C01FF#24
/-- The DEBUG permissions. -/
def dbgPerms : BitVec 24 := 0xC00000#24

/-- What refuses entry i of a resulting table (R442, R443): 1 OVERLAP, 2 ALIGN, 3 SIZE, 4 PERM. -/
def State.regionBad (s : State) (table : List (Nat × Region16)) (i : Nat) (cause : Nat) : Bool :=
  let e := assocD table i {}
  e.valid &&
  match cause with
  | 1 => table.any fun p => p.1 != i && e.overlaps p.2
  | 2 => e.base % 2 ^ e.sizeLog2 != 0
  | 3 => e.sizeLog2 < 12 || 36 < e.sizeLog2
  | _ => (s.regionWorld i == .ow && e.perms &&& twOnly != 0) || (e.lock && e.perms &&& dbgPerms != 0)

/-- The first cause that refuses a commit, with its entry. -/
def State.commitBad (s : State) (table : List (Nat × Region16)) (shadows : List (Nat × Region16)) : Option (Nat × Nat) :=
  ([1, 2, 3, 4].flatMap fun c => shadows.map fun p => (c, p.1)).find? fun q => s.regionBad table q.2 q.1

/-- The channel reads outstanding, as the admission table counts them (R449). -/
def State.outstandingReads (s : State) : List (Nat × DmaPart) :=
  s.dist.ctxs.flatMap (fun c => if c.owner == .slice then c.reads.map fun p => (c.id, p) else []) ++
    s.dist.orphans.map fun o => (o.ctx, o.part)

/-- ADM_EPOCH advances (R448, R449): every access outstanding is of an older epoch. -/
def State.admAdvance (s : State) : State :=
  { s with worlds := { s.worlds with admEpoch := (s.worlds.admEpoch + 1) % 65536, oldReads := s.outstandingReads, oldTx := s.hp.tx.length,
                                     oldDbg := s.worlds.dbgBus.isSome } }

/-- EPOCH_DRAINED. -/
def State.epochDrained (s : State) : Bool := s.worlds.oldReads.isEmpty && (s.worlds.oldTx = 0 || s.hp.tx.isEmpty) && !s.worlds.oldDbg

/-- A refusal of an admission table write or commit (R443, R444). -/
def State.admErr (w : World) (cause entry : Nat) (s : State) : State :=
  s.modWorld w fun x => { x with admErrCause := cause, admErrEntry := entry, admErrValid := true }

/-- A table with shadows applied. -/
def withShadows (table shadows : List (Nat × Region16)) : List (Nat × Region16) :=
  shadows.foldl (fun t p => assocSet t p.1 p.2) table

/-- ADM_COMMIT (R443): a world asks for its shadows to be applied. -/
def State.commitWrite (w : World) (s : State) : State :=
  if !(s.world w).up then s else (s.modWorld w fun x => { x with admCommit := true })

/-- ADM_COMMIT. -/
def execAdmCommit (w : World) (s : State) : Host.Outcome State Fault Refusal := .next (s.commitWrite w)

/-- ADM_COMMIT_APPLY (R443, R448): the whole resulting table is checked, then applied with an epoch advance, or refused whole.
A shadow of an entry locked since it was written changes nothing (R450). -/
def execAdmCommitApply (w : World) (s : State) : Host.Outcome State Fault Refusal :=
  let x := s.world w
  if !x.admCommit then .next s
  else
    let s1 := s.modWorld w fun x => { x with admCommit := false }
    let shadows := x.shadows.filter fun p => !(assocD s.worlds.regions p.1 {}).lock
    let table := withShadows s.worlds.regions shadows
    match s.commitBad table shadows with
    | some (c, i) => .next (s1.admErr w c i)
    | none =>
      let s2 : State := { s1 with worlds := { s1.worlds with regions := table } }
      .next ((s2.modWorld w fun x => { x with shadows := [] }).admAdvance)

/-! ### The boot ROM's entries -/

/-- One entry of the boot ROM's table: base, size, permissions. -/
def lockedRegion (base sizeLog2 perms : Nat) : Region16 :=
  { base := base, sizeLog2 := sizeLog2, perms := BitVec.ofNat 24 perms, valid := true, lock := true }

/-- The entries the boot ROM writes and the custody controller locks (R376, R450): key SRAM, the trusted-world peripherals, the trusted
half, the BAR targets, the outbound window, the gate window. Which numbers, sizes and further permissions they have is the model's
choice (DESIGN CHOICE, log entry 30). -/
def State.bootRegions (s : State) : List (Nat × Region16) :=
  let cores := ((List.range 4).filter fun c => s.coreWorld c == .tw).map fun c => (12 + c, lockedRegion (0x10000000 + c * 0x100000) 20 0x1B)
  [(0, lockedRegion 0x20000000 25 0x3), (1, lockedRegion 0x17000000 24 0x3), (2, lockedRegion 0x80000000 25 0x3F),
   (3, lockedRegion 0x40000000 24 0xC001B), (4, lockedRegion 0x44000000 26 0xC001B), (5, lockedRegion 0x48000000 25 0xC001B),
   (6, lockedRegion 0x4000000000 36 0x300603), (7, lockedRegion 0x13000000 12 0x3600), (8, lockedRegion 0x11000000 13 0x3),
   (9, lockedRegion 0x14000000 12 0x1B), (10, lockedRegion 0x15000000 12 0x1B)] ++ cores

/-- The trusted-world entries written back and locked, and the assignment locked (R433, R437, R450). -/
def State.lockTable (s : State) : State :=
  let own := s.worlds.regions.filter fun p => s.worlds.twRegions ≤ p.1
  { s with worlds := { s.worlds with regions := s.bootRegions ++ own, lock := true } }

/-- The locks of the trusted-world entries and WORLD_LOCK cleared (step 3 of R437). -/
def State.unlockTable (s : State) : State :=
  { s with worlds := { s.worlds with lock := false, regions := s.worlds.regions.map fun p => (p.1, { p.2 with lock := false }) } }

end Sys2Proof.Machine
end

