-- ==== Sys2Proof/Machine/Worlds.lean ====
section
/-! DEFINITION. Restarts of a world alone (R436 to R440), watchdogs, and integrity faults (R467). -/

namespace Sys2Proof.Machine

/-! ### Jobs that a restart ends -/

/-- Running commands of a kind ended: their reply is ready with a status (R355). -/
def State.endJobs (p : Job → Bool) (st : Status) (detail : Nat) (s : State) : State :=
  s.modMail fun m => { m with running := m.running.map fun j => if p j then { j with kind := .wait, status := st, detail := detail } else j }

/-- The import assemblies discarded; the next part of each replies ABORTED (R370). -/
def State.discardAssemblies (s : State) : State :=
  s.modMail fun m => { m with boxes := m.boxes.map fun b => if b.assembly.isSome then { b with assembly := none, discarded := true } else b }

/-! ### The fault -/

/-- Session s of a channel is assigned to a world (R234, R429). -/
def State.sessionWorld (s : State) (n : Nat) : World := if n = 1 ∧ s.worlds.session1Ow then .ow else .tw

/-- Every session assigned to a world abandoned (R240). -/
def State.loseWorldSessions (w : World) (s : State) : State :=
  let zero := s.sessionWorld 0 == w
  let one := s.sessionWorld 1 == w
  { s with chs := s.chs.map fun c =>
      { c with session0 := if zero then c.session0.lost else c.session0, session1 := if one then c.session1.lost else c.session1,
               digests := c.digests.filter fun o => match o with | .session k => !(if k = 0 then zero else one) | .ctx _ => true } }

/-- CD_0 or CD_1 uninstantiated by its world's restart (R298); a request of the world's draw port is gone with its caller, and a waiting
command goes on waiting (R370). -/
def State.dropCd (i : Nat) (s : State) : State :=
  let keep := (s.gen i).waiting.filter fun w => match w with | .cmd _ _ _ => true | .root => true | _ => false
  (s.eraseGen i).modGen i fun g => { g with waiting := keep }

/-- A world's cores held in reset: its restart register, draw port and sessions (R240, R437, R440, R595). -/
def State.holdWorld (w : World) (cause : Nat) (s : State) : State :=
  let s1 := s.modWorld w fun x =>
    { x with up := false, inProgress := true, lastCause := cause, waitFlash := false, reread := false, drawData := zeros 64, drawBusy := false, drawValid := false,
             admCommit := false }
  ((s1.loseWorldSessions w).dropCd (if w = .tw then 0 else 1)).zeroHalf w

/-- The WORLD_RESTART record (R487). -/
def State.recordRestart (w : World) (cause : Nat) (s : State) : State :=
  s.record 0x70 (if w = .tw then 3 else 4) 0
    (pack [(1, if w = .tw then 0 else 1), (1, cause), (2, (s.world w).restarts)])

/-- A restart counted and recorded (step 7 of R437, R438). -/
def State.countRestart (w : World) (s : State) : State :=
  let s1 := s.modWorld w fun x => { x with restarts := (x.restarts + 1) % 65536 }
  s1.recordRestart w (s1.world w).lastCause

/-- A new trusted-world image discarded for the one before it, and FW_UPDATE replies INTERNAL (R582). -/
def State.discardNew (s : State) : State :=
  let s1 := s.modWorld .tw fun x => { x with image := x.prevImage, prevImage := none }
  State.endJobs (fun j => j.kind == .trial) .internal 0
    { s1 with renewal := { s1.renewal with twTrial := false, twPending := false, twSetFloor := false, reverted := true } }

/-- A fault during a trial: the next restart runs the previous image (R582). -/
def State.revertTrial (s : State) : State := if s.renewal.twTrial then s.discardNew else s

/-- Every interrupt source masked in the controllers of the trusted world's cores (step 2 of R437). -/
def State.maskSources (s : State) : State :=
  let enable (a : Nat) : Bool :=
    0x10000000 ≤ a && a < 0x10400000 && s.coreWorld (a / 0x100000 % 4) == .tw && 0x2000 ≤ a % 0x100000 && a % 0x100000 < 0x80000
  { s with worlds := { s.worlds with coreRegs := s.worlds.coreRegs.filter fun c => !enable c.1 } }

/-- Steps 1 to 3 of a trusted-world restart (R437): a restart still under way when another fault strikes counts as one (R438). -/
def State.twFault (cause : Nat) (s : State) : State :=
  let s0 := if s.worlds.tw.inProgress then s.countRestart .tw else s
  let s1 := ((s0.revertTrial.holdWorld .tw cause).maskSources.discardAssemblies).unlockTable
  { s1 with hp := { s1.hp with spdmSessions := [] } }

/-- The entries the open world owns invalidated, with an epoch advance (R440). -/
def State.dropOwRegions (s : State) : State :=
  let table := s.worlds.regions.map fun p => if s.regionWorld p.1 = .ow then (p.1, { p.2 with valid := false }) else p
  State.admAdvance { s with worlds := { s.worlds with regions := table } }

/-- The fault of an open-world restart (R371, R440). -/
def State.owFault (cause : Nat) (s : State) : State :=
  let s0 := if s.worlds.ow.inProgress then s.countRestart .ow else s
  ((s0.holdWorld .ow cause).dropOwRegions).endJobs (fun j => j.kind == .extension) .aborted 5

/-- A world restarts alone (R436); a world that does not run has no fault. -/
def State.worldFault (w : World) (cause : Nat) (s : State) : State :=
  if (s.world w).up || (s.world w).inProgress then
    match w with
    | .tw => s.twFault cause
    | .ow => s.owFault cause
  else s

/-! ### The faults' commands -/

/-- PERIOD_MS in force for a core: 10 ms in the trusted world (R436). -/
def State.watchPeriod (s : State) (c : Nat) : Nat := if s.coreWorld c = .tw then 10 else s.worlds.periods.getD c 10

/-- The watchdog periods of a world's cores started anew. -/
def State.startWatchdogs (w : World) (s : State) : State :=
  { s with worlds := { s.worlds with serviced := s.worlds.serviced.zipIdx.map fun (t, c) => if s.coreWorld c = w then s.glob.uptimeMs else t } }

/-- SERVICE: the core's watchdog period starts again. -/
def State.serviceWrite (core : Nat) (s : State) : State :=
  if 4 ≤ core || !(s.world (s.coreWorld core)).up then s
  else { s with worlds := { s.worlds with serviced := s.worlds.serviced.set core s.glob.uptimeMs } }

/-- SERVICE. -/
def execService (core : Nat) (s : State) : Host.Outcome State Fault Refusal := .next (s.serviceWrite core)

/-- FATAL (R436): the writing core's world restarts. -/
def State.fatalWrite (core : Nat) (s : State) : State :=
  if 4 ≤ core || !(s.world (s.coreWorld core)).up then s else (s.worldFault (s.coreWorld core) 2)

/-- FATAL. -/
def execFatal (core : Nat) (s : State) : Host.Outcome State Fault Refusal := .next (s.fatalWrite core)

/-- A core stands in SLEEP or DEEP. -/
def State.coreAsleep (s : State) (c : Nat) : Bool := (s.dom (36 + c)).pstate = .sleep || (s.dom (36 + c)).pstate = .deep

/-- WATCHDOG_EXPIRE (R436, R551): the period of a core has passed since its last SERVICE write; it stops while the core sleeps. -/
def execWatchdogExpire (core : Nat) (s : State) : Host.Outcome State Fault Refusal :=
  if 4 ≤ core || !(s.world (s.coreWorld core)).up || s.coreAsleep core || s.glob.uptimeMs < s.worlds.serviced.getD core 0 + s.watchPeriod core then .next s
  else .next (s.worldFault (s.coreWorld core) 1)

/-- SEROW_MEMORY_ERROR (R436). -/
def execSerowMemoryError (w : World) (s : State) : Host.Outcome State Fault Refusal := .next (s.worldFault w 3)

/-- INTEGRITY_FAIL (R467, R490): an event of source INTEGRITY, a flush, and the rule of the unit concerned. -/
def execIntegrityFail (u : FaultUnit) (s : State) : Host.Outcome State Fault Refusal :=
  let count (scope : Nat) := s.tamperEvent 26 scope
  let done (t : State) := t.flushStart.settle s
  match u with
  | .channel n => .next (done ((count n).fence n 4))
  | .world w => .next (done ((count 36).worldFault w 3))
  | .vaultLink => .next (done ((count 36).tamperEvent 27 36))
  | .hostPort ctx part addr => .next (done ((count 36).dmaFail ctx part addr 0))

/-! ### The restart's end -/

/-- KEY_EPOCH advances, or the advance stays due until KEY_DRAINED reads 1 (R337, R349). -/
def State.advanceEpoch (s : State) : State :=
  if s.keyDrained then s.modKeys fun k => { k with epoch := (k.epoch + 1) % 65536, stage := [], badStage := [] }
  else s.modKeys fun k => { k with epochDue := k.epochDue + 1 }

/-- The assignment a WORLD_CFG, SESSION1 and T give (R428, R579): 0xFF names none, which is the default. -/
def assignment (cfg : Nat) (s1 : Bool) (t : Nat) : BitVec 4 × Bool × Nat :=
  (if cfg = 0xFF then 0xC#4 else BitVec.ofNat 4 (8 + (if bit cfg 1 then 4 else 0) + (if bit cfg 0 then 2 else 0)), s1,
   if 32 ≤ t ∧ t ≤ 224 then t else 64)

/-- The performance counters of cores that move to the trusted world hold from then on (R434): the name of this assignment marks them. -/
def heldCounters (old new : BitVec 4) (name : Nat) (l : List Nat) : List Nat :=
  l.zipIdx.map fun (v, c) => if old.getLsbD c && !new.getLsbD c then name else v

/-- An assignment written (R432, R433): a core of the trusted world runs at SF_3 (R561). -/
def State.assign (a : Nat × Bool × Nat) (s : State) : State :=
  let (c, s1, t) := assignment a.1 a.2.1 a.2.2
  let name := s.glob.freeCtr + 1
  let held := heldCounters s.worlds.coreOw c name s.worlds.ctrHeld
  let s2 : State := { s with glob := { s.glob with freeCtr := name },
                             worlds := { s.worlds with coreOw := c, session1Ow := s1, twRegions := t, ctrHeld := held } }
  s2.each [0, 1, 2, 3] fun n u => if u.coreWorld n = .tw then u.modDom (36 + n) fun d => { d with op := 3 } else u

/-- The assignment an open-world image's manifest names. -/
def Image.assign (i : Image) : Nat × Bool × Nat := (i.worldCfg, i.session1Ow, i.tRegions)

/-- A restart's comparison failed (R439, R440): the record, the event of source MEASURE, and the re-read of flash, which waits while the
gate is open in SPI mode. -/
def State.mismatch (w : World) (s : State) : State :=
  let s1 := (s.modWorld w fun x => { x with lastCause := 4, reread := true, waitFlash := !s.gate.espi && s.gate.st == .opened }).recordRestart w 4
  s1.tamperEvent 29 36

/-- The image a restart starts, with its copy: the retained one, or after a failed comparison the one that qualifies of those read again
(R402, R439). -/
def State.restartImage (s : State) (w : World) (copies : List Bytes) : Option (Image × Nat) :=
  let kind := match w with | .tw => 1 | .ow => 2
  let copy := match w with | .tw => s.renewal.twCopy | .ow => s.renewal.owCopy
  if (s.world w).reread then s.bestImage kind (s.flashCopies copies) else (s.world w).image.map fun i => (i, copy)

/-- A gate measurement that a trusted-world restart cut short begins again, under the policy now in force (R412, R416). -/
def State.remeasure (s : State) : State :=
  if s.gate.measuring then { s with gate := { s.gate with inForce := s.gate.policy } } else s

/-- TW_RESTART_COMPLETE (R437, R439, R582, R583): the re-measured image matches, the table and assignment are locked, the derived keys are
made again, KEY_EPOCH advances, packets are accepted, and ports waiting in AUTH go on (R509); an updated image starts its trial. A new image
whose comparison fails is discarded first; where no copy in flash qualifies the world stays down. -/
def execTwRestartComplete (r : RestartRead) (s0 : State) : Host.Outcome State Fault Refusal :=
  let x := s0.worlds.tw
  match x.image, s0.restartImage .tw r.copies with
  | some i, found =>
    if !x.inProgress || x.waitFlash then .next s0
    else if !x.reread && r.measured != i.measurement then .next (((if x.prevImage.isSome then s0.discardNew else s0).mismatch .tw).settle s0)
    else
    match found with
    | none => .next s0
    | some (j, copy) =>
      let s1 := s0.remeasure.modWorld .tw fun x => { x with image := some j, reread := false }
      let s : State := { s1 with renewal := { s1.renewal with twCopy := copy } }
      let s1 := match s.renewal.newAssign with
        | some a => let t := s.assign a; { t with renewal := { t.renewal with newAssign := none } }
        | none => s
      let s2 := s1.lockTable.loadSik
      let s3 := s2.deriveSmks.advanceEpoch
      let s4 := (s3.modWorld .tw fun x => { x with up := true, inProgress := false }).countRestart .tw
      let s5 := { s4.startWatchdogs .tw with ports := s4.ports.map fun (x : Port) => if x.st == PortState.auth && x.cause == 4 then { x with cause := 0 } else x }
      let trial := x.prevImage.isSome
      .next (State.settle { s5 with renewal := { s5.renewal with twTrial := trial, twPending := s5.renewal.twPending || trial,
                                                                    trialSince := if trial then s.glob.uptimeMs else s5.renewal.trialSince } } s0)
  | none, _ => .next s0

/-- The previous open-world image returns by a further restart of the same kind (R583). -/
def State.revertOw (s : State) : State :=
  match s.worlds.ow.prevImage with
  | some old =>
    let s1 := s.modWorld .ow fun x => { x with image := some old, prevImage := none, lastCause := 4, waitFlash := false, reread := false }
    let s2 : State := { s1 with renewal := { s1.renewal with owPending := false, owSetFloor := false, reverted := true },
                                mail := { s1.mail with ext := old.extensions } }
    let s3 := s2.endJobs (fun j => j.kind == .owStart) .internal 0
    if s.renewal.bothWorlds then State.worldFault .tw 2 { s3 with renewal := { s3.renewal with newAssign := some (Image.assign old) } } else s3
  | none => s

/-- The open-world signer as an image that starts leaves it (R580): recorded where there was none, and replaced where the recorded signer's image
names the next. -/
def signerAfter (i : Image) (old : Bytes) : Bytes :=
  let now := if old.isEmpty then padTo 48 i.signerDigest else old
  if padTo 48 i.signerDigest = padTo 48 now ∧ anySet i.nextSigner then padTo 48 i.nextSigner else now

/-- OW_RESTART_COMPLETE (R440, R583): the open world runs again from its measured image, or the comparison failed. Both worlds restarted
together, the assignment has been written first. -/
def execOwRestartComplete (r : RestartRead) (s : State) : Host.Outcome State Fault Refusal :=
  let x := s.worlds.ow
  match x.image, s.restartImage .ow r.copies with
  | some i, found =>
    if !x.inProgress || x.waitFlash || s.renewal.newAssign.isSome then .next s
    else if !x.reread && r.measured != i.measurement then
      .next ((if x.prevImage.isSome then (s.mismatch .ow).revertOw else s.mismatch .ow).settle s)
    else
    match found with
    | none => .next s
    | some (j, copy) =>
      let s1 := (s.modWorld .ow fun x => { x with up := true, inProgress := false, prevImage := none, image := some j, reread := false }).countRestart .ow
      let s2 := (s1.startWatchdogs .ow).endJobs (fun j => j.kind == .owStart) .done 0
      .next { s2 with renewal := { s2.renewal with bothWorlds := false, owCopy := copy, owSigner := signerAfter j s2.renewal.owSigner },
                      mail := { s2.mail with ext := j.extensions } }
  | none, _ => .next s

end Sys2Proof.Machine
end

