-- ==== Sys2Proof/Machine/Packet.lean ====
section
/-! DEFINITION. Command packets (R352 to R376): where a caller's packet lies, its checks in the order of R362, authorities (R368), the quorum check
(R365, R387, R388), import assembly (R344), the reply (R355, R357, R361, R624) and the COMMAND record (R487). -/

namespace Sys2Proof.Machine

/-! ### Packets -/

/-- A command packet (R359), with its parameter block, its data field and the digest of R384 over the parts at hand. -/
structure Packet where
  hdr : Bytes
  body : Bytes
  params : Bytes
  data : Bytes
  digest : Bytes
deriving DecidableEq, Repr

/-- OPCODE. -/
def Packet.opcode (p : Packet) : Nat := fieldLe p.hdr 0 2
/-- TAG. -/
def Packet.tag (p : Packet) : Nat := fieldLe p.hdr 4 4
/-- BODY_LEN. -/
def Packet.bodyLen (p : Packet) : Nat := bits (fieldLe p.hdr 8 4) 0 13
/-- CHALLENGE_ID. -/
def Packet.challenge (p : Packet) : Nat := fieldLe p.hdr 0x10 8
/-- PART. -/
def Packet.part (p : Packet) : Nat := fieldLe p.hdr 0x18 2
/-- PART_COUNT. -/
def Packet.partCount (p : Packet) : Nat := fieldLe p.hdr 0x1A 2

/-- The i-th parameter of a layout as an integer. -/
def Packet.int (p : Packet) (l : List Fld) (i : Nat) : Nat :=
  fieldLe p.params ((offsets 0 l).getD i 0) ((l.map Fld.size).getD i 0)

/-- The i-th parameter of a layout as a byte string. -/
def Packet.str (p : Packet) (l : List Fld) (i : Nat) : Bytes :=
  sub p.params ((offsets 0 l).getD i 0) ((l.map Fld.size).getD i 0)

/-- The digest of R384. -/
def commandDigest (opcode partCount : Nat) (bodies : List Bytes) : Bytes :=
  sha384 (leBytes 2 opcode ++ leBytes 2 partCount ++ bodies.flatten)

/-- The header group (R362): the DETAIL of the first failure. `body` is the body area. -/
def headerFault (hdr body : Bytes) : Option Nat :=
  let w := fieldLe hdr 8 4
  let len := bits w 0 13
  if fieldLe hdr 2 1 != 1 then some 10
  else if fieldLe hdr 3 1 != 0 || bits w 13 19 != 0 || fieldLe hdr 0x1C 4 != 0 then some 3
  else if 4096 < len then some 4
  else if fieldLe hdr 0xC 4 != crc32c (putAt (padTo 32 hdr) 0xC (zeros 4) ++ padTo len body) then some 9
  else none

/-- Address of a gate slot's buffer, an allowed one (R374, R376): 4 KiB aligned in Serow SRAM, open to open-world reads and writes throughout. -/
def State.gateBuf (s : State) (g : Nat) : Option Nat :=
  let a := (s.mail.slots.getD g {}).bufAddr
  let may (x : Nat) : Bool := [Priv.machine, .supervisor].any fun p => s.admits (.core .ow p) .read x && s.admits (.core .ow p) .write x
  if a % 4096 = 0 ∧ 0x80000000 ≤ a ∧ a + 0x2000 ≤ sramEnd ∧ may a ∧ may (a + 0x1000) then some a else none

/-- The header and body a caller presents: a mailbox's areas, a gate slot's buffer, a card's proposal. -/
def State.presented (s : State) : Caller → Option (Bytes × Bytes)
  | .mbx m => if m < Config.mailboxes then some (padTo 32 (s.box m).hdr, (s.box m).body) else none
  | .gate g => (s.gateBuf g).map fun a => (Mem.bytes s.worlds.sram a 32, Mem.bytes s.worlds.sram (a + 0x1000) 4096)
  | .card p => (s.dual.cards.getD p {}).proposal

/-- The packet of a header and body, without data. -/
def mkPacket (hdr area : Bytes) (data : Bool) : Packet :=
  let body := padTo (bits (fieldLe hdr 8 4) 0 13) area
  { hdr := hdr, body := body, params := if data then body.take 128 else body, data := if data then body.drop 128 else [],
    digest := commandDigest (fieldLe hdr 0 2) (fieldLe hdr 0x1A 2) [body] }

/-! ### Callers and authority -/

/-- Whose authority a command runs with (R368, R374, R393). -/
inductive Who where
  | slice (n : Nat)
  | mgr (m : Nat)
  | ow
  | card
  | nobody
deriving DecidableEq, Repr

/-- The authority of a mailbox. -/
def whoBox (m : Nat) : Who := if m < Config.mgrMailbox then .slice m else if m < Config.mailboxes then .mgr m else .nobody

/-- An extension command of a mailbox runs (R374). -/
def State.extRunning (s : State) (m : Nat) : Bool :=
  s.mail.running.any fun j => j.caller == .mbx m && j.kind == .extension

/-- A gate call may be made on a mailbox's behalf (R374): its extension runs, and a manager mailbox holds an open session. -/
def State.onBehalfOk (s : State) (m : Nat) : Bool :=
  m < Config.mailboxes && s.extRunning m && (m < Config.mgrMailbox || (s.box m).session)

/-- Whose authority a caller has. -/
def State.who (s : State) : Caller → Who
  | .mbx m => whoBox m
  | .gate g =>
    let b := (s.mail.slots.getD g {}).onBehalf
    if b = 0xFFFF then .ow else if s.onBehalfOk b then whoBox b else .nobody
  | .card _ => .card

/-- The mailbox whose import assembly a caller's parts go to. -/
def State.asmBox (s : State) : Caller → Option Nat
  | .mbx m => some m
  | .gate g => let b := (s.mail.slots.getD g {}).onBehalf; if b < Config.mailboxes then some b else none
  | .card _ => none

/-- SOURCE of a caller's COMMAND record (R486, R487). -/
def State.sourceOf (s : State) : Caller → Nat
  | .mbx m => 0x1000 + m
  | .gate g => let b := (s.mail.slots.getD g {}).onBehalf; if b < Config.mailboxes then 0x1000 + b else 4
  | .card p => 0x2100 + p

/-- The mailbox number a challenge names for a caller (R382, R393). -/
def State.chalBox (s : State) : Caller → Nat
  | .mbx m => m
  | .gate g => (s.mail.slots.getD g {}).onBehalf
  | .card _ => 0xFFFE

/-- Opcodes a gate call may not carry (R375). -/
def gateBarred (op : Nat) : Bool :=
  (0x300 ≤ op && op ≤ 0x307) || (2 ≤ op && op ≤ 5) || op == 0x210 || 0x8000 ≤ op

/-- A gate slot. -/
def isGate : Caller → Bool
  | .gate _ => true
  | _ => false

/-- An authority: of the state, the caller and the packet. -/
abbrev Auth := State → Who → Packet → Bool

/-- A, OW: any mailbox and the open world. -/
def authAny : Auth := fun _ w _ => match w with | .nobody => false | _ => true
/-- A manager mailbox, no session needed. -/
def authBox : Auth := fun _ w _ => match w with | .mgr _ => true | _ => false
/-- M: a manager mailbox with an open session; a card-port proposal runs with it too (R393). -/
def authMgr : Auth := fun s w _ => match w with | .mgr m => (s.box m).session | .card => true | _ => false
/-- M, OW. -/
def authMgrOw : Auth := fun s w p => w == .ow || authMgr s w p

/-! ### Commands -/

/-- How a command uses PART (R344): not at all, as the parts of an import or image, as the part of an export it asks for. -/
inductive PartKind where
  | single | multi | export_
deriving DecidableEq, Repr

/-- Its event record (R487): a COMMAND record, none, or a record of its own. -/
inductive RecKind where
  | command | none | own
deriving DecidableEq, Repr

/-- What an opcode's reply records (R487): the reader commands record nothing, QUORUM_CHALLENGE records itself. -/
def logOf (op : Nat) : RecKind :=
  if 0x8000 ≤ op then .none
  else if op = 0x300 then .own
  else if [0x1, 0x2, 0x106, 0x10A, 0x20A, 0x203, 0x204, 0x205, 0x20B, 0x400, 0x401, 0x402, 0x500, 0x600, 0x700, 0x704, 0x801,
           0xA00].contains op then .none
  else .command

/-- What a command's run comes to. -/
inductive Ran where
  /-- it replies -/
  | done (st : Status) (detail : Nat) (body : Bytes) (obj : Nat) (s : State)
  /-- an export's part, with the number of parts -/
  | part (body : Bytes) (count obj : Nat) (s : State)
  /-- it goes on running -/
  | hold (kind : JobKind) (body : Bytes) (obj : Nat) (s : State)

/-- The run of a command: its caller, its packet, and whether it runs again from its start after a wait (R305, R370). -/
abbrev Run := Caller → Packet → Bool → State → Ran

/-- An opcode of the index (R368) with its checks. -/
structure Cmd where
  op : Nat
  auth : Auth
  zOk : Bool := false
  flds : List Fld := []
  data : Bool := false
  dataOk : Packet → Nat → Bool := fun _ _ => true
  paramOk : State → Packet → Bool := fun _ _ => true
  parts : PartKind := .single
  quorum : State → Who → Packet → Bool := fun _ _ _ => false
  obj : Packet → Nat := fun _ => 0
  /-- the handles of the keys whose rows it reads (R332) -/
  keys : Packet → List Nat := fun _ => []
  /-- it reads the row of the caller's slice master key (R335) -/
  readsSmk : Bool := false
  /-- refused with DEVICE_KEEP while the A3 cause stands (R470) -/
  alarmBar : Bool := false
  /-- refused with NOT_READY in BLANK (R313) -/
  blankBar : Bool := false

/-- Bytes no parameter covers are zero (R360). -/
def gapsZero (l : List Fld) (e : Nat) (params : Bytes) : Bool :=
  (layoutGaps e 0 l).all fun g => !anySet (sub params g.1 g.2)

/-- The body's length and parameters (R362): DETAIL 4 or 3. A command without a quorum carries CHALLENGE_ID 0 (R365). The parameters of a later
part are not looked at (DEDUCED, log entry 31). -/
def Cmd.bodyFault (k : Cmd) (s : State) (needsQ later : Bool) (p : Packet) : Option Nat :=
  let e := if k.data then 128 else layoutEnd 0 k.flds
  if (if k.data then p.bodyLen < 128 || !k.dataOk p (p.bodyLen - 128) else p.bodyLen != e) then some 4
  else if !later && (!gapsZero k.flds e p.params || !k.paramOk s p || (!needsQ && p.challenge != 0)) then some 3
  else none

/-- Another part of the import under assembly in the caller's mailbox: the next one of the same command (R344). -/
def Assembly.continues (a : Assembly) (p : Packet) : Bool :=
  a.opcode == p.opcode && a.partCount == p.partCount && a.parts.length == p.part && 0 < p.part

/-- The assembly of a caller. -/
def State.assembly (s : State) (c : Caller) : Option Assembly := (s.asmBox c).bind fun m => (s.box m).assembly

/-- The next part of a discarded import (R344). -/
def State.wasDiscarded (s : State) (c : Caller) (p : Packet) : Bool :=
  0 < p.part && (match s.asmBox c with | some m => (s.box m).discarded | none => false)

/-- PART and PART_COUNT (R362): DETAIL 11; a multi-part command in one part has PART_COUNT 0 or 1 (R384); every part of a quorum command carries the consumed CHALLENGE_ID (R388). -/
def Cmd.partFault (k : Cmd) (s : State) (c : Caller) (p : Packet) : Bool :=
  match k.parts with
  | .single => p.part != 0 || p.partCount != 0
  | .export_ => p.partCount != 0 && p.partCount ≤ p.part
  | .multi =>
    Nat.max 1 p.partCount ≤ p.part ||
    (0 < p.part &&
      match s.assembly c with
      | some a => !a.continues p || a.challenge != p.challenge
      | none => true)

/-- The count of a challenge: indices with a valid approval (R386). -/
def Challenge.count (q : Challenge) : Nat := ((List.range 16).filter fun i => q.approved.getLsbD i).length

/-- The quorum check (R365, R378, R387). A change of M applies to challenges issued after it (R380). -/
def State.quorumFault (s : State) (c : Caller) (p : Packet) : Option Status :=
  let q := s.dual.chal
  if s.dual.m = 0 || (q.live && q.m = 0) then some .quorumMissing
  else if !q.live || p.challenge != q.id || q.mailbox != s.chalBox c || q.opcode != p.opcode then some .challengeStale
  else if q.count < q.m then some .quorumMissing
  else none

/-- The live challenge consumed by a command, and bound to it until its reply (R365, R388). -/
def State.consume (c : Caller) (s : State) : State :=
  { s with dual := { s.dual with chal := { s.dual.chal with live := false, boundTo := some c } } }

/-! ### The reply -/

/-- The COMMAND record (R487). -/
def State.recordCommand (src : Nat) (p : Packet) (st : Status) (obj : Nat) (s : State) : State :=
  s.record 0x50 src 0 (pack [(2, p.opcode), (1, st.code), (4, p.tag), (8, p.challenge), (4, obj)] ++ padTo 16 p.digest)

/-- The reply header (R361). -/
def replyHeader (p : Packet) (st : Status) (detail seq part count : Nat) (body : Bytes) : Bytes :=
  let h := leBytes 1 st.code ++ [0] ++ leBytes 2 detail ++ leBytes 2 p.opcode ++ [0, 0] ++ leBytes 4 p.tag ++ leBytes 4 body.length ++
    leBytes 8 seq ++ zeros 4 ++ leBytes 2 part ++ leBytes 2 count
  putAt h 0x18 (leBytes 4 (crc32c (h ++ body)))

/-- The notification of a mailbox's reply (R353, R357). -/
def State.notify (m : Nat) (s : State) : State :=
  let b := s.box m
  if !b.intEn then s
  else if Config.mgrMailbox ≤ m then s.raiseVec (16 + (m - Config.mgrMailbox))
  else s.sliceInt b.intEntry m

/-- The reply written where the packet lay (R355, R374, R393): REPLIED, the body area holding the reply alone; a card-port proposal's
status in LAST_STATUS. -/
def State.deliverReply (c : Caller) (h body : Bytes) (st : Status) (s : State) : State :=
  match c with
  | .mbx m => (s.modBox m fun b => { b with replyHdr := h, body := body, st := .replied }).notify m
  | .gate g =>
    let s1 := match s.gateBuf g with
      | some a => (s.sramWrite (a + 0x100) h).sramWrite (a + 0x1000) (padTo 4096 body)
      | none => s
    s1.modMail fun x => { x with slots := x.slots.modify g fun t => { t with st := .replied } }
  | .card p =>
    { s with dual := { s.dual with cards := s.dual.cards.modify p fun (x : CardPort) => { x with lastStatus := st, proposal := none } } }

/-- The reply of a command: its record, its reply header and body, its notification, and the end of its hold on a challenge. -/
def State.reply (c : Caller) (log : RecKind) (p : Packet) (st : Status) (detail obj part count : Nat) (body : Bytes) (s : State) : State :=
  let s1 := if log == .command then s.recordCommand (s.sourceOf c) p st obj else s
  let seq := match log with
    | .command => s.recordSeq
    | .none => 0
    | .own => if st = .done then s.er.nextSeq - 1 else 0
  let b := body.take 4096
  let s2 := s1.deliverReply c (replyHeader p st detail seq part count b) b st
  if log != .none && s2.dual.chal.boundTo == some c then { s2 with dual := { s2.dual with chal := { s2.dual.chal with boundTo := none } } } else s2

/-- A packet refused in the header group (R363): no record. -/
def State.refuseHeader (c : Caller) (hdr body : Bytes) (detail : Nat) (s : State) : State :=
  let p := mkPacket hdr body false
  s.reply c .none p .descMalformed detail 0 p.part p.partCount []

/-! ### Acceptance (R356, R370) -/

/-- Running commands of the host's mailboxes, and of them those of slice mailboxes. -/
def State.hostJobs (s : State) : List Nat := s.mail.running.filterMap fun j => match j.caller with | .mbx m => some m | _ => none

/-- The slice mailboxes submitted, as a turn starts after the last one accepted. -/
def State.nextSliceBox (s : State) : Option Nat :=
  let l := (s.mail.boxes.filter fun b => b.st == .submitted && b.num < Config.mgrMailbox).map (·.num)
  match l.find? (fun n => s.mail.lastSlice < n) with
  | some n => some n
  | none => l.head?

/-- The packet a caller has submitted is the next to be accepted: the trusted world runs, a place is free, and its turn has come. -/
def State.mayAccept (s : State) (c : Caller) : Bool :=
  s.worlds.tw.up &&
  match c with
  | .mbx m =>
    (s.box m).st == .submitted && s.hostJobs.length < Config.places &&
    (if Config.mgrMailbox ≤ m then s.mail.goOrder.head? == some m
     else s.mail.goOrder.isEmpty && s.nextSliceBox == some m && (s.hostJobs.filter (· < Config.mgrMailbox)).length < Config.slicePlaces)
  | .gate g => (s.mail.slots.getD g {}).st == .submitted
  | .card _ => false

/-- A packet accepted: counted, and out of the order it waited in. -/
def State.accept (c : Caller) (s : State) : State :=
  match c with
  | .mbx m =>
    (s.modBox m fun b => { b with accepted := (b.accepted + 1) % 65536 }).modMail fun x =>
      { x with goOrder := x.goOrder.filter (· != m), lastSlice := if m < Config.mgrMailbox then m else x.lastSlice }
  | _ => s

/-- A command arrives in a mailbox (R344): an assembly it is no part of is discarded; a part 0 begins the import anew. -/
def State.meetAssembly (c : Caller) (p : Packet) (s : State) : State :=
  match s.asmBox c with
  | some m =>
    let b := s.box m
    match b.assembly with
    | some a =>
      if a.opcode = p.opcode ∧ 0 < p.part then s
      else s.modBox m fun b => { b with assembly := none, discarded := a.opcode != p.opcode }
    | none => s
  | none => s

/-- The discarded import has had its answer (R344). -/
def State.clearDiscarded (c : Caller) (s : State) : State :=
  match s.asmBox c with
  | some m => if (s.box m).discarded then s.modBox m fun b => { b with discarded := false } else s
  | none => s

/-! ### One command -/

/-- A command begins to run: its mailbox or slot reads RUNNING, and it stands among the running commands (R356). -/
def State.startJob (c : Caller) (p : Packet) (kind : JobKind) (body : Bytes) (obj : Nat) (s : State) : State :=
  let j : Job := { caller := c, opcode := p.opcode, hdr := p.hdr, body := p.params ++ p.data, digest := p.digest, kind := kind,
                   since := s.glob.uptimeMs, challenge := p.challenge, status := .done, detail := 0, reply := body, obj := obj }
  let s1 := s.modMail fun m => { m with running := m.running ++ [j] }
  match c with
  | .mbx m => s1.modBox m fun b => { b with st := .running }
  | .gate g => s1.modMail fun x => { x with slots := x.slots.modify g fun t => { t with st := .running } }
  | .card _ => s1

/-- The packet a running command was accepted with. -/
def Job.packet (j : Job) (data : Bool) : Packet :=
  { hdr := j.hdr, body := j.body, params := if data then j.body.take 128 else j.body, data := if data then j.body.drop 128 else [],
    digest := j.digest }

/-- A command's draw stands in the wait list of CD_0 (R305). -/
def State.drawWaits (s : State) (c : Caller) : Bool := s.rng.cd0.waiting.any fun w => match w with | .cmd d _ _ => d == c | _ => false

/-- A command's draw taken out of the wait list. -/
def State.leaveDraws (c : Caller) (s : State) : State :=
  s.modRng fun r => { r with cd0 := { r.cd0 with waiting := r.cd0.waiting.filter fun w => match w with | .cmd d _ _ => d != c | _ => true } }

/-- A running command taken out of its place, and out of every wait list. -/
def State.dropJob (j : Job) (s : State) : State := (s.modMail fun m => { m with running := m.running.erase j }).leaveDraws j.caller

/-- An output delivered to a waiting command erased. -/
def State.forgetDraw (c : Caller) (s : State) : State := s.modRng fun r => { r with served := r.served.filter (·.1 != c) }

/-- A running command ends: its place is free and its reply is written. -/
def State.endJob (j : Job) (st : Status) (detail : Nat) (body : Bytes) (s : State) : State :=
  let p := j.packet false
  ((s.dropJob j).forgetDraw j.caller).reply j.caller (logOf j.opcode) p st detail j.obj p.part p.partCount body

/-- What a run came to, replied or held. -/
def State.conclude (c : Caller) (log : RecKind) (p : Packet) (r : Ran) : State :=
  match r with
  | .done st detail body obj s => s.reply c log p st detail obj p.part p.partCount body
  | .part body count obj s => s.reply c log p .done 0 obj p.part count body
  | .hold kind body obj s => s.startJob c p kind body obj

/-- A part that is not the last kept in the assembly (R344). -/
def State.keepPart (c : Caller) (p : Packet) (s : State) : State :=
  match s.asmBox c with
  | some m => s.modBox m fun b =>
      let old := match b.assembly with | some a => a.parts | none => []
      { b with assembly := some { opcode := p.opcode, parts := old ++ [p.body], partCount := p.partCount, challenge := p.challenge,
                                  digest := (match b.assembly with | some a => a.digest | none => padTo 48 s.dual.chal.digest), at_ := s.glob.uptimeMs }, discarded := false }
  | none => s

/-- The packet of the whole command, at its last part: the parameters of part 0, the data of every part, the digest over every body. -/
def State.wholePacket (s : State) (c : Caller) (p : Packet) : Packet :=
  let bodies := (match s.assembly c with | some a => a.parts | none => []) ++ [p.body]
  { p with params := (bodies.headD []).take 128, data := bodies.flatMap (·.drop 128),
           digest := commandDigest p.opcode p.partCount bodies }

/-- The assembly is complete: nothing is assembled any more. -/
def State.endAssembly (c : Caller) (s : State) : State :=
  match s.asmBox c with
  | some m => if (s.box m).assembly.isSome then s.modBox m fun b => { b with assembly := none } else s
  | none => s

/-- A slice's own mailbox refuses new commands outside ACTIVE (R106, R115). -/
def State.boxClosed (s : State) : Caller → Bool
  | .mbx m => m < Config.mgrMailbox && (s.slice m).state != .active
  | _ => false

/-- The packet whose parameters decide a command's authority and quorum: a later part stands under those of part 0 (R344). -/
def State.ruling (s : State) (c : Caller) (k : Cmd) (p : Packet) : Packet :=
  match k.parts, s.assembly c with
  | .multi, some a => if 0 < p.part then { p with params := (a.parts.headD []).take 128 } else p
  | _, _ => p

/-- The digest the consumed challenge was bound to (R388). -/
def State.boundDigest (s : State) (c : Caller) : Bytes :=
  match s.assembly c with
  | some a => a.digest
  | none => padTo 48 s.dual.chal.digest

/-- The rows a command reads are checked as it reads them (R332, R333). -/
def State.checkReads (k : Cmd) (w : Who) (p : Packet) (s : State) : State :=
  let s1 := (k.keys p).foldl (fun t h => t.checkRows h) s
  match w with
  | .slice n => if k.readsSmk then s1.checkSmk n else s1
  | _ => s1

/-- The checks of R362 after the header group, then the run. `s` is the state once the packet is accepted. -/
def State.checked (c : Caller) (k : Cmd) (run : Run) (p : Packet) (s : State) : State :=
  let w := s.who c
  let r := s.ruling c k p
  let last := k.parts != .multi || p.part + 1 = Nat.max 1 p.partCount
  let log := if last then logOf k.op else .none
  let refuse (st : Status) (d : Nat) (u : State) : State := u.reply c log p st d (k.obj r) p.part p.partCount []
  let needsQ := k.quorum s w r
  let later := k.parts == .multi && 0 < p.part && ((s.assembly c).isSome || s.wasDiscarded c p)
  if (s.md.mode == .zeroised && !k.zOk && !(w == .card && k.op == 0x211)) || (s.md.alarm && k.alarmBar) then refuse .deviceKeep 0 s
  else if s.boxClosed c && s.md.mode != .zeroised then refuse .sliceBusy 0 s
  else if !k.auth s w r || (gateBarred k.op && isGate c) then refuse .roleDenied 0 s
  else
    match (if needsQ && !later then s.quorumFault c p else none) with
    | some st => refuse st 0 s
    | none =>
      let s1 := if needsQ && !later then s.consume c else s
      match k.bodyFault s1 needsQ later p with
      | some d => refuse .descMalformed d s1
      | none =>
        if s1.wasDiscarded c p then refuse .aborted 3 (s1.clearDiscarded c)
        else if k.partFault s1 c p then refuse .descMalformed 11 s1
        else if s1.keys.lc == .blank && k.blankBar then refuse .notReady 0 s1
        else if !last then (s1.keepPart c p).reply c .none p .done 0 0 p.part p.partCount []
        else
          let q := if k.parts = .multi then s1.wholePacket c p else p
          let s2 := s1.endAssembly c
          if needsQ && q.digest != s1.boundDigest c then
            s2.reply c (logOf k.op) q .quorumMissing 0 (k.obj q) p.part p.partCount []
          else State.conclude c (logOf k.op) q (run c q false (s2.checkReads k w q))

/-- A command's step: the caller's packet is the next to be accepted, passes the header group and carries this opcode; it is accepted, checked
and run. Any other moment changes nothing. -/
def State.command (c : Caller) (k : Cmd) (run : Run) (s : State) : State :=
  match s.presented c with
  | some (hdr, area) =>
    let p := mkPacket hdr area k.data
    if !s.mayAccept c || (headerFault hdr area).isSome || p.opcode != k.op then s
    else (((s.accept c).meetAssembly c p).checked c k run p).settle s
  | none => s

/-- A run whose changes are committed at its reply (R102, R370): refused at once, or held until then. -/
def atReply (run : Run) : Run := fun c p again s =>
  if again then run c p true s
  else
    match run c p false s with
    | .done .done _ _ obj _ => .hold .draw [] obj s
    | .part _ _ obj _ => .hold .draw [] obj s
    | r => r

/-! ### Draws of commands -/

/-- A command's draw of n bytes from CD_0 (R299, R305): the output delivered to it while it waited, or a draw now; the bytes with the
state, or what the command comes to. -/
def State.cmdDraw (c : Caller) (n : Nat) (pr : Bool) (obj : Nat) (s : State) : (Bytes × State) ⊕ Ran :=
  match s.rng.served.find? (·.1 == c) with
  | some (_, b) => .inl (b, s.forgetDraw c)
  | none =>
    match s.draw 0 n pr (.cmd c n pr) with
    | (.bytes b, t) => .inl (b, t)
    | (.refused st, t) => .inr (.done st 0 [] obj t)
    | (.waits, t) => .inr (.hold .draw [] obj t)
    | (.held, t) => .inr (.hold .draw [] obj t)

/-- A command of this slice, ring pair, key, channel or device object runs already. -/
def State.jobOn (s : State) (ops : List Nat) (obj : Nat) : Bool := s.mail.running.any fun j => ops.contains j.opcode && j.obj == obj

/-- Commands that wait for one another on one object (R369): the channel commands, those that take the noise banks, the creation of a domain key. -/
def conflicts (op : Nat) : List Nat :=
  if op = 0x110 ∨ op = 0x111 then [0x110, 0x111]
  else if op = 0x11A ∨ op = 0x11B ∨ op = 0x11C then [0x11A, 0x11B, 0x11C]
  else if op = 0x208 ∨ op = 0x209 then [0x205]
  else if op = 0x702 then [0x702]
  else if op = 0x900 ∨ op = 0x902 then [0x900, 0x902]
  else []

/-- A run that waits until an earlier command on the same object has replied (R369). -/
def inTurn (op : Nat) (obj : Packet → Nat) (run : Run) : Run := fun c p again s =>
  if !again && s.jobOn (conflicts op) (obj p) then .hold .draw [] (obj p) s else run c p again s

end Sys2Proof.Machine
end

