-- ==== Sys2Proof/Machine/Slices.lean ====
section
/-! DEFINITION. Slices and their management (R84 to R119, R620 to R622): creation, change, quiesce, resume, reset, removal, query. -/

namespace Sys2Proof.Machine

/-! ### What a slice reads as -/

/-- FLUSHING (R88): a quiesce with FLUSH still completes unadmitted descriptors. -/
def State.flushingNow (s : State) (x : Slice) : Bool :=
  x.flushing && (x.rings.any (fun r => r.submitted != 0) || s.dist.ctxs.any fun c => c.ofSlice x.num && !c.executed)

/-- The slice table entry (R88): a FREE entry reads zero but for INSTANCE. -/
def State.sliceEntry (s : State) (n : Nat) : Bytes :=
  let x := s.slice n
  if !x.exists_ then padTo 64 (leBytes 4 (x.inst % 65536 * 2 ^ 16))
  else
    leBytes 4 (x.state.code + b2n x.partition * 2 ^ 8 + b2n x.pkBlinded * 2 ^ 9 + b2n x.partDegraded * 2 ^ 10 +
      b2n (s.flushingNow x) * 2 ^ 11 + x.inst % 65536 * 2 ^ 16) ++
    leBytes 4 x.pasid ++ leBytes 4 (x.rpCount + x.ints.length * 2 ^ 16) ++ leBytes 4 x.keyQuota ++ leBytes 4 (s.keyUsed n) ++
    leBytes 4 (x.weight + b2n x.spillOk * 2 ^ 16) ++ leBytes 4 x.drbgShare ++ zeros 4 ++ leBytes 8 x.exclMask.toNat ++
    leBytes 2 (s.admitted n) ++ leBytes 2 (s.dmaOutstanding n) ++ leBytes 4 (s.cmdRunning n % 256) ++ leBytes 8 x.completed ++ zeros 8

/-! ### What a creation or a change asks for -/

/-- The fields of SLICE_CREATE and SLICE_MODIFY (R622). -/
structure SliceSpec where
  pasid : Nat
  rp : Nat
  ints : Nat
  assign : Bytes
  quota : Nat
  weight : Nat
  drbg : Nat
  part : Nat
  excl : Nat
  blind : Nat
  spill : Nat
deriving DecidableEq, Repr

/-- The sizes of the fields (R622). -/
def specFlds : List Fld := [.int 4, .int 1, .int 1, .str 64, .int 4, .int 2, .int 4, .int 1, .int 8, .int 1, .int 1]

/-- The fields a packet carries from parameter i on. -/
def Packet.spec (p : Packet) (l : List Fld) (i : Nat) : SliceSpec :=
  { pasid := p.int l i, rp := p.int l (i + 1), ints := p.int l (i + 2), assign := p.str l (i + 3), quota := p.int l (i + 4),
    weight := p.int l (i + 5), drbg := p.int l (i + 6), part := p.int l (i + 7), excl := p.int l (i + 8), blind := p.int l (i + 9),
    spill := p.int l (i + 10) }

/-- The fields as a slice has them; no ring pair beyond the last names an entry. -/
def Slice.spec (x : Slice) : SliceSpec :=
  { pasid := x.pasid, rp := x.rpCount, ints := x.ints.length,
    assign := (List.range 64).map fun p => match x.assign.getD p none with | some i => BitVec.ofNat 8 i | none => 0xFF#8,
    quota := x.keyQuota, weight := x.weight, drbg := x.drbgShare, part := b2n x.partition, excl := x.exclMask.toNat,
    blind := b2n x.pkBlinded, spill := b2n x.spillOk }

/-- The fields a mask selects taken from `new` (R622). -/
def SliceSpec.select (mask : Nat) (old new : SliceSpec) : SliceSpec :=
  let on (i : Nat) (a b : Nat) : Nat := if bit mask i then b else a
  let rp := on 1 old.rp new.rp
  { pasid := on 0 old.pasid new.pasid, rp := rp, ints := on 2 old.ints new.ints,
    assign := if bit mask 3 then new.assign
              else (List.range 64).map fun p => if p < rp then old.assign.getD p 0xFF else 0xFF#8,
    quota := on 4 old.quota new.quota, weight := on 5 old.weight new.weight, drbg := on 6 old.drbg new.drbg,
    part := on 7 old.part new.part, excl := on 8 old.excl new.excl, blind := on 9 old.blind new.blind, spill := on 10 old.spill new.spill }

/-- A flag above 1, a PASID above 20 bits, a channel above CH_35: values no field holds. -/
def SliceSpec.outside (v : SliceSpec) : Bool :=
  1 < v.part || 1 < v.blind || 1 < v.spill || 2 ^ 20 ≤ v.pasid || 2 ^ 36 ≤ v.excl

/-- PARTITION without channels, or channels without PARTITION (R96); an assignment outside R621. -/
def SliceSpec.malformed (v : SliceSpec) : Bool :=
  ((v.part == 1) != (v.excl != 0)) ||
  (List.range 64).any fun p => let b := (v.assign.getD p 0xFF).toNat; b != 0xFF && (v.rp ≤ p || v.ints ≤ b)

/-- The PASID is bound to another slice (R84, R85). -/
def State.pasidBound (s : State) (n pasid : Nat) : Bool := s.slices.any fun x => x.num != n && x.exists_ && x.pasid == pasid

/-- Channels exclusive to other slices, claims counted (R96, R97). -/
def State.othersExcl (s : State) (n : Nat) : List Nat :=
  (List.range 36).filter fun i => match s.exclOwner i with | some o => o != n | none => false

/-- A pool or a range would be left (R91, R92, R93, R96). A channel counts among the eight that stay shared whatever its service, as the pool
of 28 of R91 does (DESIGN CHOICE, log entry 88). -/
def State.overQuota (s : State) (n : Nat) (v : SliceSpec) : Bool :=
  let others := s.slices.filter fun x => x.num != n && x.exists_
  let total (f : Slice → Nat) : Nat := (others.map f).sum
  let ex := s.othersExcl n
  let mine := (List.range 36).filter (bit v.excl)
  v.rp = 0 || 64 < v.rp || 64 < v.ints || Config.poolKeys < v.quota || v.weight = 0 || 4096 < v.weight || Config.poolDrbg < v.drbg ||
  Config.poolRings < total (·.rpCount) + v.rp || Config.poolInts < total (·.ints.length) + v.ints ||
  Config.poolKeys < total (·.keyQuota) + v.quota || Config.poolWeight < total (·.weight) + v.weight ||
  Config.poolDrbg < total (·.drbgShare) + v.drbg ||
  mine.any ex.contains || Config.poolExcl < ex.length + mine.length ||
  v.quota < s.keyUsed n

/-- The lowest k free entries of the slice interrupt table (R622). -/
def State.freeInts (s : State) (k : Nat) : List Nat :=
  ((List.range Config.poolInts).filter fun i => !(s.intE i).allocated).take k

/-- Entries given to a slice: MASK 1, everything else zero (R67, R622). -/
def State.giveInts (n : Nat) (l : List Nat) (s : State) : State :=
  s.each l fun i t => t.modInt i fun _ => { owner := n, allocated := true }

/-- Entries taken back (R112). -/
def State.takeInts (l : List Nat) (s : State) : State := s.each l fun i t => t.modInt i fun _ => {}

/-- The assignment of a slice from its bytes (R621). -/
def SliceSpec.entries (v : SliceSpec) : List (Option Nat) :=
  (List.range v.rp).map fun p => let b := (v.assign.getD p 0xFF).toNat; if b = 0xFF then none else some b

/-- A slice's fields set, its ring pairs kept as far as they go, new ones disarmed (R622). -/
def Slice.shaped (x : Slice) (v : SliceSpec) (ints : List Nat) : Slice :=
  { x with pasid := v.pasid, rpCount := v.rp, ints := ints, assign := v.entries, keyQuota := v.quota, weight := v.weight,
           drbgShare := v.drbg, partition := v.part == 1, exclMask := BitVec.ofNat 36 v.excl, pkBlinded := v.blind == 1,
           spillOk := v.spill == 1, rings := x.rings.take v.rp ++ List.replicate (v.rp - x.rings.length) {} }

/-- A reply that lists interrupt entries (R621, R624). -/
def intsReply (l : List Nat) : Bytes := layBytes [(.arr 2 l.length, l.flatMap (leBytes 2))]

/-! ### Commands that run one at a time (R102) -/

/-- The slice-management commands of R102, and the ring commands that count with them. -/
def sliceOps : List Nat := [0x100, 0x101, 0x102, 0x103, 0x104, 0x105, 0x108, 0x109]

/-- One of them runs on the slice. -/
def State.sliceBusy (s : State) (n : Nat) : Bool := s.jobOn sliceOps n

/-- A slice-management command refused. -/
def refused (st : Status) (n : Nat) (s : State) : Ran := .done st 0 [] n s

/-- The slice number is a parameter of its own range (R620). -/
def sliceOk (l : List Fld) (p : Packet) : Bool := p.int l 0 < Config.slices

/-- A slice may not take a command that changes it: FREE, FENCED, or another runs (R89, R102, R620). -/
def State.sliceShut (s : State) (n : Nat) (again : Bool) : Bool :=
  let st := (s.slice n).state
  st == .free || (st == .fenced && !again) || (!again && s.sliceBusy n)

/-! ### Exclusive channels (R97) -/

/-- Descriptors of others than slice n on the channels of a mask. -/
def State.othersOn (s : State) (n : Nat) (mask : Nat) : List Ctx :=
  s.dist.ctxs.filter fun c => match c.home with | some h => bit mask h && !c.ofSlice n && c.phase != .finished | none => false

/-- Channels claimed (R97): what others have there and have not begun moves to shared channels. -/
def State.claim (n mask : Nat) (s : State) : State :=
  let l := s.othersOn n mask
  let gone := (l.filter Ctx.notBegun).map (·.id)
  let cut := (l.filter fun c => !c.notBegun && c.phase == .issued && c.desc.holdBytes == 0 && 1 < c.nextSeg).map (·.id)
  (s.each gone State.withdraw).each cut State.withdrawSegs

/-- The wait for the channels claimed, and for the old PASID's DMA to end where it changes (R87, R97). -/
def State.waitClaim (n mask : Nat) (pasid : Bool) (s : State) : Ran :=
  .hold (.channels (BitVec.ofNat 36 mask) n ((s.othersOn n mask).map (·.id)) pasid) [] n (s.claim n mask)

/-- A slice's PASID replaced (R86, R87): every DMA issued for it from now on carries the new one. -/
def State.rebind (n pasid : Nat) (s : State) : State :=
  let own (c : Ctx) : Ctx := if c.ofSlice n then { c with pasid := pasid } else c
  { (s.modDist fun d => { d with ctxs := d.ctxs.map own }).modSlice n fun x =>
      { x with rings := x.rings.map fun r => { r with fetched := r.fetched.map fun f => { f with pasid := pasid } } } with
    hp := { s.hp with unacked := s.hp.unacked.map own } }

/-! ### SLICE_CREATE -/

/-- Parameters of SLICE_CREATE. -/
def createFlds : List Fld := .int 2 :: specFlds

/-- SLICE_CREATE (R84 to R97, R320, R621). -/
def sliceCreateRun : Run := fun c p again s =>
  let n := p.int createFlds 0
  let v := p.spec createFlds 1
  if (s.slice n).exists_ || s.pasidBound n v.pasid || (!again && s.sliceBusy n) then refused .sliceBusy n s
  else if s.overQuota n v then refused .quota n s
  else if !again && v.excl != 0 then s.waitClaim n v.excl false
  else
    match s.cmdDraw c 32 false n with
    | .inr r => r
    | .inl (k, t) =>
      let l := t.freeInts v.ints
      let x : Slice := { num := n, state := .active, inst := ((t.slice n).inst + 1) % 65536, keyset := k }
      let y := x.shaped v l
      .done .done 0 (intsReply l) n (((t.giveInts n l).overwrite [.smk n]).setSlice (t.withSmk y (t.smkNow y)))

/-- SLICE_CREATE's row of the index. -/
def sliceCreateCmd : Cmd :=
  { op := 0x100, auth := authMgr, flds := createFlds, obj := fun p => p.int createFlds 0,
    paramOk := fun _ p => sliceOk createFlds p && !(p.spec createFlds 1).outside && !(p.spec createFlds 1).malformed }

/-- SLICE_CREATE. -/
def execSliceCreate (c : Caller) (s : State) : Host.Outcome State Fault Refusal := .next (s.command c sliceCreateCmd (atReply sliceCreateRun))

/-! ### SLICE_MODIFY -/

/-- Parameters of SLICE_MODIFY. -/
def modifyFlds : List Fld := .int 2 :: .int 2 :: specFlds

/-- A Held field changes, or a count falls, outside QUIESCED (R87, R89). -/
def heldChange (x : Slice) (old v : SliceSpec) : Bool :=
  x.state != .quiesced &&
  (v.pasid != old.pasid || v.part != old.part || v.excl != old.excl || v.rp < old.rp || v.ints < old.ints)

/-- SLICE_MODIFY (R87 to R97, R622). Which refusal comes first where several apply, the spec says only of R620 and R102 before R89; the rest
of the order is the model's (DESIGN CHOICE, log entry 88). -/
def sliceModifyRun : Run := fun _ p again s =>
  let n := p.int modifyFlds 0
  let mask := p.int modifyFlds 1
  let x := s.slice n
  let old := x.spec
  let v := old.select mask (p.spec modifyFlds 2)
  if s.sliceShut n again then refused .sliceBusy n s
  else if v.malformed || (v.ints < old.ints && !bit mask 3) then .done .descMalformed 3 [] n s
  else if heldChange x old v then refused .cfgHeld n s
  else if (v.pasid != old.pasid && s.pasidBound n v.pasid) || (x.rings.drop v.rp).any (·.armed) then refused .sliceBusy n s
  else if s.overQuota n v then refused .quota n s
  else if !again && (v.pasid != old.pasid || (List.range 36).any fun i => bit v.excl i && !bit old.excl i) then
    s.waitClaim n (v.excl &&& (2 ^ 36 - 1 - old.excl)) (v.pasid != old.pasid)
  else
    let added := s.freeInts (v.ints - x.ints.length)
    let kept := x.ints.take v.ints
    let s1 := ((s.takeInts (x.ints.drop v.ints)).giveInts n added).rebind n v.pasid
    .done .done 0 (intsReply added) n (s1.setSlice ((s1.slice n).shaped v (kept ++ added)))

/-- The selected fields hold values they can hold. -/
def modifyOk (p : Packet) : Bool :=
  let zero : SliceSpec := ⟨0, 0, 0, [], 0, 0, 0, 0, 0, 0, 0⟩
  sliceOk modifyFlds p && p.int modifyFlds 1 < 2 ^ 11 && !(zero.select (p.int modifyFlds 1) (p.spec modifyFlds 2)).outside

/-- SLICE_MODIFY's row of the index. -/
def sliceModifyCmd : Cmd :=
  { op := 0x101, auth := authMgr, flds := modifyFlds, obj := fun p => p.int modifyFlds 0, paramOk := fun _ p => modifyOk p }

/-- SLICE_MODIFY. -/
def execSliceModify (c : Caller) (s : State) : Host.Outcome State Fault Refusal := .next (s.command c sliceModifyCmd (atReply sliceModifyRun))

/-! ### Quiesce and resume -/

/-- The 1 s of an open chain runs only while its slice is ACTIVE (R148): the part already run is kept, and taken up again. -/
def Slice.chainClock (f : Nat → Nat) (x : Slice) : Slice :=
  { x with rings := x.rings.map fun r => { r with chain := r.chain.map fun h => { h with openSince := h.openSince.map f } } }

/-- A flush comes into force (R105): open chains are abandoned (R148). -/
def State.startFlush (n : Nat) (s : State) : State :=
  s.modSlice n fun x =>
    { x with flush := true, rings := x.rings.map fun r =>
        if r.chainOpen then { r with chain := r.chain.map Chain.abandon } else r }

/-- Parameters of SLICE_QUIESCE: slice, FLUSH. -/
def quiesceFlds : List Fld := [.int 2, .int 1]

/-- SLICE_QUIESCE (R102, R104, R105, R107, R620). -/
def sliceQuiesceRun : Run := fun _ p _ s =>
  let n := p.int quiesceFlds 0
  let x := s.slice n
  let flushed (t : State) : State := if p.int quiesceFlds 1 = 1 then t.startFlush n else t
  if x.state = .quiescing then .hold (.quiesce n) [] n (flushed s)
  else if s.sliceShut n false then refused .sliceBusy n s
  else if x.state = .quiesced then
    if p.int quiesceFlds 1 = 1 then .hold (.quiesce n) [] n (flushed s) else .done .done 0 [] n s
  else
    .hold (.quiesce n) [] n
      ((flushed s).modSlice n fun y => (y.chainClock fun t => s.glob.uptimeMs - t) |> fun z => { z with state := .quiescing })

/-- SLICE_QUIESCE's row of the index. -/
def sliceQuiesceCmd : Cmd :=
  { op := 0x102, auth := authMgr, flds := quiesceFlds, obj := fun p => p.int quiesceFlds 0,
    paramOk := fun _ p => sliceOk quiesceFlds p && p.int quiesceFlds 1 ≤ 1 }

/-- SLICE_QUIESCE. -/
def execSliceQuiesce (c : Caller) (s : State) : Host.Outcome State Fault Refusal := .next (s.command c sliceQuiesceCmd sliceQuiesceRun)

/-- The quiesces of a slice that run. -/
def State.quiesceJobs (s : State) (n : Nat) : List Job := s.mail.running.filter fun j => j.kind == .quiesce n

/-- SLICE_QUIESCE_DONE (R107): nothing of the slice is in flight; it is QUIESCED and every quiesce that waits replies DONE, at once or
when the trusted world runs again (R29). -/
def execSliceQuiesceDone (slice : Nat) (s : State) : Host.Outcome State Fault Refusal :=
  if (s.slice slice).state != .quiescing || s.admitted slice != 0 || s.dmaOutstanding slice != 0 || s.cmdRunning slice != 0 then .next s
  else
    let s1 := s.modSlice slice fun x => { x with state := .quiesced }
    if s.worlds.tw.up then .next (((s.quiesceJobs slice).foldl (fun t j => t.endJob j .done 0 []) s1).settle s)
    else
      .next (s1.modMail fun m =>
        { m with running := m.running.map fun j => if j.kind == .quiesce slice then { j with kind := .wait } else j })

/-- A QUIESCED slice has completed what a flush found submitted (R620). -/
def State.flushDone (s : State) (n : Nat) : Bool :=
  let x := s.slice n
  x.state == .quiesced && x.rings.all (fun r => r.submitted == 0) && s.dist.ctxs.all fun c => !c.ofSlice n

/-- Parameters of a command that names a slice alone. -/
def sliceFlds : List Fld := [.int 2]

/-- SLICE_RESUME (R118). -/
def sliceResumeRun : Run := fun _ p again s =>
  let n := p.int sliceFlds 0
  if (s.slice n).state != .quiesced || (!again && s.sliceBusy n) then refused .sliceBusy n s
  else
    .done .done 0 [] n (s.modSlice n fun x =>
      let y := x.chainClock fun t => s.glob.uptimeMs - t
      { y with state := .active, flush := false })

/-- SLICE_RESUME's row of the index. -/
def sliceResumeCmd : Cmd :=
  { op := 0x103, auth := authMgr, flds := sliceFlds, obj := fun p => p.int sliceFlds 0, paramOk := fun _ p => sliceOk sliceFlds p }

/-- SLICE_RESUME. -/
def execSliceResume (c : Caller) (s : State) : Host.Outcome State Fault Refusal := .next (s.command c sliceResumeCmd (atReply sliceResumeRun))

/-! ### Reset and removal -/

/-- The descriptors of a slice taken out without a record (R110, R114): reads stay outstanding, engine work is wiped. -/
def State.abortSlice (n : Nat) (s : State) : State :=
  let gone := s.dist.ctxs.filter (·.ofSlice n)
  let ids := gone.map (·.id)
  let s1 := (s.each ids State.dropWaiter).modDist fun d =>
    { d with ctxs := d.ctxs.filter fun c => !c.ofSlice n, remotes := d.remotes.filter fun r => !ids.contains r.ctx,
             orphans := d.orphans ++ gone.flatMap Ctx.orphanReads }
  { s1 with
    hp := { s1.hp with unacked := s1.hp.unacked.filter fun c => c.slice != n }
    chs := s1.chs.map fun c =>
      { c with pkRun := c.pkRun.map fun r => if ids.contains r.ctx then { r with wiping := true } else r,
               ctxStore := c.ctxStore.filter fun i => !ids.contains i, regIn := c.regIn.filter fun e => !ids.contains e.1,
               digests := c.digests.filter fun o => match o with | .ctx i => !ids.contains i | .session _ => true } }

/-- The slice's own running commands at its fence (R114): a deletion or a change of policy, whose rows were rewritten at its acceptance,
completes wholly where the old copies are gone with the slice's descriptors; every other command ends ABORTED, DETAIL 6. -/
def State.abortCommands (n : Nat) (s : State) : State :=
  (s.mail.running.filter fun j => j.caller == .mbx n).foldl (fun t j =>
    match j.kind with
    | .dropCopies scope sl slot delete =>
      if t.copiesGone scope sl slot then (t.freeRows scope sl slot delete).endJob j .done 0 j.reply else t.endJob j .aborted 6 []
    | _ => t.endJob j .aborted 6 []) s

/-- Descriptors counted where memory alone tells an entry from its extension (R110): from half of k entries to all of them, a free
value. -/
def State.countOf (k : Nat) (s : State) : Nat × State :=
  if k ≤ 1 then (k, s)
  else
    let lo := (k + 1) / 2
    let (b, t) := s.freeBytes 2
    (lo + ofLe b % (k - lo + 1), t)

/-- Descriptors submitted and not admitted of one ring pair (R110): the index of the first and their number. They are the decided ones whose
record is not written, then the entries from SQ_HEAD on; the first of those is known where it has been read. With nothing to discard the
index is SQ_HEAD (DESIGN CHOICE, log entry 88). -/
def State.discarded (n p : Nat) (r : RingPair) (s : State) : Bytes × State :=
  let l := s.ringCtxs n p
  let decided := l.filter fun c => !c.executed && !c.offered
  let head := (r.fetched.map (·.desc.ext)) <|> ((l.find? Ctx.offered).map (·.desc.ext))
  let first := match decided with | c :: _ => c.sqIndex | [] => r.sqHead
  let (rest, t) := match head with
    | some ext =>
      let (m, t) := s.countOf (r.submitted - (if ext then 2 else 1))
      (m + 1, t)
    | none => s.countOf r.submitted
  (leBytes 2 first ++ leBytes 2 (decided.length + rest), t)

/-- The discarded descriptors of every ring pair, in order. -/
def State.discardedAll (n : Nat) (s : State) : Bytes × State :=
  (((s.slice n).rings).zipIdx).foldl (fun (b, t) (r, p) => let (x, u) := t.discarded n p r; (b ++ x, u)) ([], s)

/-- A reset or removal as it is accepted (R109, R110, R114): refused while work is in flight and FORCE is 0; else the slice is FENCED, and what
it discards is known. -/
def fenceSlice (n : Nat) (force eraseKeys : Bool) (s : State) : Ran :=
  if s.sliceShut n false || (!force && s.inFlight n) then refused .sliceBusy n s
  else
    let (body, s1) := s.discardedAll n
    let fld : Fld := .arr 2 (2 * (s.slice n).rings.length)
    .hold (.fence n eraseKeys) (layBytes [(fld, body)]) n
      (((s1.abortSlice n).abortCommands n).modSlice n fun x => { x with state := .fenced, flush := false })

/-- The slice's mailbox IDLE, every area zero (R358). -/
def State.clearBox (n : Nat) (s : State) : State :=
  s.modBox n fun b => { b with hdr := [], body := [], replyHdr := [], st := .idle, assembly := none, discarded := false }

/-- Parameters of SLICE_RESET: slice, FORCE, RESET_KEYS. -/
def resetFlds : List Fld := [.int 2, .int 1, .int 1]

/-- SLICE_RESET (R109 to R111, R320, R358): fenced at acceptance; ACTIVE at its reply under the next INSTANCE, with a new keyset when
RESET_KEYS asks. A draw of the keyset refused ends the command with that status once the sequence of R109 has run, and the keyset stays
(DESIGN CHOICE, log entry 103). -/
def sliceResetRun : Run := fun c p again s =>
  let n := p.int resetFlds 0
  let keys := p.int resetFlds 2 == 1
  if !again then fenceSlice n (p.int resetFlds 1 == 1) keys s
  else
    let back (st : Status) (t : State) (f : Slice → Slice) : Ran :=
      let x := f { (t.slice n) with state := .active, inst := ((t.slice n).inst + 1) % 65536 }
      .done st 0 [] n ((t.clearBox n).setSlice (if keys then t.withSmk x (t.smkNow x) else x))
    if keys then
      match s.cmdDraw c 32 false n with
      | .inr (.done st _ _ _ t) => back st t id
      | .inr r => r
      | .inl (k, t) => back .done t fun x => { x with keyset := k }
    else back .done s id

/-- SLICE_RESET's row of the index. -/
def sliceResetCmd : Cmd :=
  { op := 0x104, auth := authMgr, flds := resetFlds, obj := fun p => p.int resetFlds 0,
    paramOk := fun _ p => sliceOk resetFlds p && p.int resetFlds 1 ≤ 1 && p.int resetFlds 2 ≤ 1 }

/-- SLICE_RESET. -/
def execSliceReset (c : Caller) (s : State) : Host.Outcome State Fault Refusal := .next (s.command c sliceResetCmd sliceResetRun)

/-- SLICE_REMOVE (R112, R320, R358): fenced at acceptance; at its reply the entry is FREE under the next INSTANCE, its quotas and entries
are back in the pools, and its mailbox stands as at reset. -/
def sliceRemoveRun : Run := fun _ p again s =>
  let n := p.int quiesceFlds 0
  if !again then fenceSlice n (p.int quiesceFlds 1 == 1) true s
  else
    let x := s.slice n
    .done .done 0 [] n (((s.takeInts x.ints).setSlice { num := n, inst := (x.inst + 1) % 65536 }).modBox n fun _ => { num := n })

/-- SLICE_REMOVE's row of the index. -/
def sliceRemoveCmd : Cmd :=
  { op := 0x105, auth := authMgr, flds := quiesceFlds, obj := fun p => p.int quiesceFlds 0,
    paramOk := fun _ p => sliceOk quiesceFlds p && p.int quiesceFlds 1 ≤ 1 }

/-- SLICE_REMOVE. -/
def execSliceRemove (c : Caller) (s : State) : Host.Outcome State Fault Refusal := .next (s.command c sliceRemoveCmd sliceRemoveRun)

/-- A key reference that belongs to a slice. -/
def KeyRef.ofSlice (n : Nat) : KeyRef → Bool
  | .slot scope sl _ _ => scope == 1 && sl == n
  | .staged sl _ _ _ => sl == n

/-- What a scrub clears of a slice on one channel (R116): its key-cache entries, and the operand memory where the slice was its last owner.
Its context-store entries and digest contexts went with its descriptors. -/
def Channel.scrubSlice (n : Nat) (c : Channel) : Channel :=
  let c1 := { c with cache := c.cache.filter fun e => !e.ref.ofSlice n }
  match c.bnOwner with
  | some (.slice m _) => if m = n then { c1 with pkRun := none, bnOwner := none, regKey := [], regWork := [], regResult := [] } else c1
  | _ => c1

/-- A channel generator the scrub of a slice uninstantiates (R116, R298); draws that wait on it stay. -/
def Gen.sliceScrub (g : Gen) : Gen :=
  if g.st == .unseeded || g.st == .failed then g else { g.erased with waiting := g.waiting }

/-- The scrub of R116: every channel and the translation cache lose what belongs to the slice, and every channel's generator is
uninstantiated (R298; DEDUCED, log entry 103). -/
def State.scrubSlice (n : Nat) (s : State) : State :=
  { s.modRng (fun r => { r with gens := r.gens.map Gen.sliceScrub, due := r.due.filter (· < 2) }) with
    chs := s.chs.map (Channel.scrubSlice n), hp := { s.hp with ats := s.hp.ats.filter fun e => e.1 != (s.slice n).pasid } }

/-- SLICE_FENCE_END (R115, R116, R109 to R113, R119): no read under the PASID is outstanding; the channels and the translation cache are
scrubbed of the slice, its ring pairs are disarmed and emptied, its entries masked, its keys erased where the command says. -/
def execSliceFenceEnd (slice : Nat) (s : State) : Host.Outcome State Fault Refusal :=
  match s.mail.running.find? fun j => match j.kind with | .fence n _ => n == slice | _ => false with
  | some j =>
    if (s.slice slice).state != .fenced || s.dmaOutstanding slice != 0 || s.cmdRunning slice != 0 then .next s
    else
      let x := s.slice slice
      let erase := match j.kind with | .fence _ e => e | _ => false
      let s3 := ((s.scrubSlice slice).modSlice slice fun y => { y with rings := y.rings.map RingPair.disarmed }).each x.ints
        fun i t => t.modInt i fun e => { e with mask := true, pending := false }
      let s4 := s3.modKeys fun k =>
        { k with stage := k.stage.filter (fun e => e.slice != slice), badStage := k.badStage.filter (fun e => e.1 != slice),
                 keys := if erase then k.keys.filter fun y => !(y.scope == 1 && y.slice == slice) else k.keys }
      let done (y : Job) : Job := if y == j then { y with kind := .draw } else y
      .next ((s4.modMail fun m => { m with running := m.running.map done }).settle s)
  | none => .next s

/-! ### SLICE_QUERY -/

/-- SLICE_QUERY (R88, R620). -/
def sliceQueryRun : Run := fun _ p _ s => .done .done 0 (s.sliceEntry (p.int sliceFlds 0)) (p.int sliceFlds 0) s

/-- SLICE_QUERY's row of the index. -/
def sliceQueryCmd : Cmd :=
  { op := 0x106, auth := authMgr, flds := sliceFlds, obj := fun p => p.int sliceFlds 0, paramOk := fun _ p => sliceOk sliceFlds p }

/-- SLICE_QUERY. -/
def execSliceQuery (c : Caller) (s : State) : Host.Outcome State Fault Refusal := .next (s.command c sliceQueryCmd sliceQueryRun)

end Sys2Proof.Machine
end

