-- ==== Sys2Proof/Machine/Manage.lean ====
section
/-! DEFINITION. Commands on rings (R123, R124), channels (R176, R184), the random number generation (R308), and the manager's sessions and
device commands (R36, R366, R367). -/

namespace Sys2Proof.Machine

/-! ### Rings -/

/-- The register block of a ring pair (R126), words 0x00 to 0x38. -/
def State.ringBlock (s : State) (x : Slice) (p : Nat) (r : RingPair) : Bytes :=
  let e := (x.assign.getD p none).bind fun i => x.ints[i]?
  let w (l : List Nat) : Bytes := l.flatMap (leBytes 8)
  w [r.sqTail, r.sqHead, r.cqHead, r.cqTail + b2n r.phase * 2 ^ 16,
     r.sqLog2 + r.cqLog2 * 2 ^ 8 + e.getD 0 * 2 ^ 16 + b2n e.isSome * 2 ^ 31,
     b2n r.armed + b2n r.irqEn * 2 + b2n r.stopped * 2 ^ 3 + r.stopCause * 2 ^ 4 + b2n r.dbRange * 2 ^ 8 +
       b2n (r.submitted != 0 && s.cqFree x.num p r == 0) * 2 ^ 9,
     r.faultAddr, s.rpAdmitted x.num p + b2n r.chainOpen * 2 ^ 16]

/-- The first checks of R123: the slice is FREE or FENCED, or another slice-management command runs on it; the index. -/
def State.ringShut (s : State) (n p : Nat) (busy : Bool) : Option (Status × Nat) :=
  let x := s.slice n
  if x.state = .free ∨ x.state = .fenced ∨ busy then some (.sliceBusy, 0)
  else if x.rpCount ≤ p then some (.descMalformed, 3)
  else none

/-- Parameters of RING_ARM. -/
def ringArmFlds : List Fld := [.int 2, .int 1, .int 8, .int 1, .int 8, .int 1, .int 1]

/-- A ring size as a base-2 logarithm (R123). -/
def ringLog (k : Nat) : Bool := 6 ≤ k && k ≤ 16

/-- RING_ARM (R123). -/
def ringArmRun : Run := fun _ p again s =>
  let n := p.int ringArmFlds 0
  let i := p.int ringArmFlds 1
  let f := p.int ringArmFlds
  match s.ringShut n i (!again && s.sliceBusy n) with
  | some (st, d) => .done st d [] n s
  | none =>
    if ((s.ring? n i).map (·.armed)).getD false then refused .sliceBusy n s
    else if f 2 % 4096 != 0 || f 4 % 4096 != 0 || !ringLog (f 3) || !ringLog (f 5) then .done .descMalformed 3 [] n s
    else
      .done .done 0 [] n (s.modRing n i fun _ =>
        { armed := true, sqBase := f 2, sqLog2 := f 3, cqBase := f 4, cqLog2 := f 5, irqEn := f 6 == 1 })

/-- RING_ARM's row of the index. -/
def ringArmCmd : Cmd :=
  { op := 0x108, auth := authMgr, flds := ringArmFlds, obj := fun p => p.int ringArmFlds 0,
    paramOk := fun _ p => sliceOk ringArmFlds p && p.int ringArmFlds 6 ≤ 1 }

/-- RING_ARM. -/
def execRingArm (c : Caller) (s : State) : Host.Outcome State Fault Refusal := .next (s.command c ringArmCmd (atReply ringArmRun))

/-- Parameters of RING_DISARM and RING_QUERY. -/
def ringFlds : List Fld := [.int 2, .int 1]

/-- RING_DISARM (R124): a pair with nothing submitted, admitted or open, whose records have all been written. -/
def ringDisarmRun : Run := fun _ p again s =>
  let n := p.int ringFlds 0
  let i := p.int ringFlds 1
  match s.ringShut n i (!again && s.sliceBusy n) with
  | some (st, d) => .done st d [] n s
  | none =>
    match s.ring? n i with
    | some r =>
      if !r.armed then .done .done 0 [] n s
      else if r.sqHead != r.sqTail || !(s.ringCtxs n i).isEmpty || r.chainOpen then refused .sliceBusy n s
      else
        .done .done 0 [] n (State.modRing n i RingPair.disarmed
          { s with hp := { s.hp with unacked := s.hp.unacked.filter fun c => !c.ofRing n i } })
    | none => .done .done 0 [] n s

/-- RING_DISARM's row of the index. -/
def ringDisarmCmd : Cmd :=
  { op := 0x109, auth := authMgr, flds := ringFlds, obj := fun p => p.int ringFlds 0, paramOk := fun _ p => sliceOk ringFlds p }

/-- RING_DISARM. -/
def execRingDisarm (c : Caller) (s : State) : Host.Outcome State Fault Refusal := .next (s.command c ringDisarmCmd (atReply ringDisarmRun))

/-- RING_QUERY (R124, R126). -/
def ringQueryRun : Run := fun _ p _ s =>
  let n := p.int ringFlds 0
  let i := p.int ringFlds 1
  match s.ringShut n i false with
  | some (st, d) => .done st d [] n s
  | none => .done .done 0 (s.ringBlock (s.slice n) i ((s.ring? n i).getD {})) n s

/-- RING_QUERY's row of the index. -/
def ringQueryCmd : Cmd :=
  { op := 0x10A, auth := authMgr, flds := ringFlds, obj := fun p => p.int ringFlds 0, paramOk := fun _ p => sliceOk ringFlds p }

/-- RING_QUERY. -/
def execRingQuery (c : Caller) (s : State) : Host.Outcome State Fault Refusal := .next (s.command c ringQueryCmd ringQueryRun)

/-! ### Channels -/

/-- Parameters of CH_FENCE: channel, DRAIN. -/
def chFenceFlds : List Fld := [.int 1, .int 1]

/-- CH_FENCE (R176, R184): the channel is drained or fenced, and waits for CH_RETURN unless it is FAILED. -/
def chFenceRun : Run := fun _ p _ s =>
  let n := p.int chFenceFlds 0
  let gentle := p.int chFenceFlds 1 == 1
  let st := (s.ch n).st
  if st = .failed then .done .done 0 [] n s
  else
    let s1 := if st = .service ∨ st = .slow then (if gentle then s.drain n 6 else s.fence n 6)
              else if st = .draining ∧ !gentle then s.fence n 6 else s
    .hold (.chFence n) [] n (s1.modCh n fun c => { c with cfHold := true, test := .none })

/-- CH_FENCE's row of the index. -/
def chFenceCmd : Cmd :=
  { op := 0x110, auth := authMgr, flds := chFenceFlds, obj := fun p => p.int chFenceFlds 0,
    paramOk := fun _ p => p.int chFenceFlds 0 < Config.channels && p.int chFenceFlds 1 ≤ 1 }

/-- CH_FENCE. -/
def execChFence (c : Caller) (s : State) : Host.Outcome State Fault Refusal :=
  .next (s.command c chFenceCmd (inTurn 0x110 chFenceCmd.obj chFenceRun))

/-- Parameters of CH_RETURN. -/
def chFlds : List Fld := [.int 1]

/-- CH_RETURN (R176, R184): FENCES_24H cleared; a held or FAILED channel begins its self-test. -/
def chReturnRun : Run := fun _ p _ s =>
  let n := p.int chFlds 0
  let c := s.ch n
  if !c.a2Hold.isEmpty then refused .notReady n s
  else
    let s1 := s.modCh n fun c => { c with fences := [], cfHold := false }
    if c.inService then .done .done 0 [] n s1
    else
      match c.st with
      | .failed =>
        .hold (.chReturn n) [] n (((s1.modCh n fun c => { c with st := .selftest }).recordChannel n .failed .selftest).askTest n)
      | .selftest => .hold (.chReturn n) [] n (if c.test = .none then s1.askTest n else s1)
      | _ => .hold (.chReturn n) [] n s1

/-- CH_RETURN's row of the index. -/
def chReturnCmd : Cmd :=
  { op := 0x111, auth := authMgr, flds := chFlds, obj := fun p => p.int chFlds 0, paramOk := fun _ p => p.int chFlds 0 < Config.channels }

/-- CH_RETURN. -/
def execChReturn (c : Caller) (s : State) : Host.Outcome State Fault Refusal :=
  .next (s.command c chReturnCmd (inTurn 0x111 chReturnCmd.obj chReturnRun))

/-! ### Random number generation (R308) -/

/-- Parameters of RNG_RESEED. -/
def reseedFlds : List Fld := [.int 8]

/-- RNG_RESEED (R297, R308): a reseed of every instance named falls due; an instance not instantiated has none to make. -/
def rngReseedRun : Run := fun _ p _ s =>
  let l := (List.range 38).filter fun i => bit (p.int reseedFlds 0) i && (s.gen i).st != .unseeded && (s.gen i).st != .failed
  if s.rng.source = .failed then .done .rngFailed 0 [] 0 s
  else .hold (.reseed ((l.map (2 ^ ·)).sum)) [] 0 (s.each l State.makeDue)

/-- RNG_RESEED's row of the index. -/
def rngReseedCmd : Cmd := { op := 0x118, auth := authMgr, flds := reseedFlds, paramOk := fun _ p => p.int reseedFlds 0 < 2 ^ 38 }

/-- RNG_RESEED. -/
def execRngReseed (c : Caller) (s : State) : Host.Outcome State Fault Refusal := .next (s.command c rngReseedCmd rngReseedRun)

/-- Parameters of RNG_PERSONALISE. -/
def personaliseFlds : List Fld := [.str 32]

/-- RNG_PERSONALISE (R296, R308). -/
def rngPersonaliseRun : Run := fun _ p _ s => .done .done 0 [] 0 (s.modRng fun r => { r with personal := p.str personaliseFlds 0 })

/-- RNG_PERSONALISE's row of the index. -/
def rngPersonaliseCmd : Cmd := { op := 0x119, auth := authMgr, flds := personaliseFlds }

/-- RNG_PERSONALISE. -/
def execRngPersonalise (c : Caller) (s : State) : Host.Outcome State Fault Refusal := .next (s.command c rngPersonaliseCmd rngPersonaliseRun)

/-- RNG_RECOVER (R294, R308): every retired and set-aside bank is usable again, and RECOVERY runs; the reply waits for CD_0 and CD_1. -/
def rngRecoverRun : Run := fun _ _ _ s =>
  let back (b : Bank) : Bank := if b.usable then b else { b with st := .off, retried := false }
  .hold .recover [] 0 (s.modRng fun r => { r with banks := r.banks.map back, selftest := [] }).recovery

/-- RNG_RECOVER's row of the index. -/
def rngRecoverCmd : Cmd := { op := 0x11A, auth := authMgr }

/-- RNG_RECOVER. -/
def execRngRecover (c : Caller) (s : State) : Host.Outcome State Fault Refusal :=
  .next (s.command c rngRecoverCmd (inTurn 0x11A rngRecoverCmd.obj rngRecoverRun))

/-- CD_0 or CD_1 whose own known-answer test has failed twice in a row is FAILED, and its waiting draws end (R307). -/
def State.failGen (i : Nat) (s : State) : State := (s.modGen i fun g => { g.erased with st := .failed, waiting := g.waiting }).failWaiting i

/-- The known-answer tests of CD_0 and CD_1 (R307, R308): what they find is FREE (log entry 54). -/
def State.testGens (s : State) : State :=
  let (b, t) := s.freeBytes 1
  t.each ([0, 1].filter (bit (ofLe b))) State.failGen

/-- RNG_SELFTEST (R293, R307, R308): the known-answer tests run, and every bank in service restarts in turn, while the others supply blocks. -/
def rngSelftestRun : Run := fun _ _ _ s =>
  if s.rng.source = .failed then .done .rngFailed 0 [] 0 s
  else
    let l := [0, 1, 2, 3].filter fun b => (s.bank b).st == .service
    .hold .selftest [] 0 (s.testGens.modRng fun r => { r with selftest := l }).nextSelftest

/-- RNG_SELFTEST's row of the index. -/
def rngSelftestCmd : Cmd := { op := 0x11B, auth := authMgr }

/-- RNG_SELFTEST. -/
def execRngSelftest (c : Caller) (s : State) : Host.Outcome State Fault Refusal :=
  .next (s.command c rngSelftestCmd (inTurn 0x11B rngSelftestCmd.obj rngSelftestRun))

/-- Parameters of RNG_RAW_CAPTURE: bank, raw bits, host buffer address. -/
def captureFlds : List Fld := [.int 1, .int 4, .int 8]

/-- RNG_RAW_CAPTURE (R308): the bank's raw bits go to the host buffer until the count is reached. -/
def rngRawCaptureRun : Run := fun _ p _ s =>
  let b := p.int captureFlds 0
  .hold .capture [] 0 ((s.modBank b fun x => { x with st := .capture, captured := if x.st = .capture then x.captured else x.st }).modRng fun r =>
    { r with captureBank := b, captureLeft := p.int captureFlds 1, captureAddr := p.int captureFlds 2 })

/-- RNG_RAW_CAPTURE's row of the index: DEVELOPMENT alone gives its authority. -/
def rngRawCaptureCmd : Cmd :=
  { op := 0x11C, auth := fun s w p => s.keys.lc == .development && authMgr s w p, flds := captureFlds,
    paramOk := fun _ p =>
      let n := p.int captureFlds 1
      p.int captureFlds 0 < 4 && 1024 ≤ n && n ≤ 2 ^ 23 && n % 1024 == 0 }

/-- RNG_RAW_CAPTURE. -/
def execRngRawCapture (c : Caller) (s : State) : Host.Outcome State Fault Refusal :=
  .next (s.command c rngRawCaptureCmd (inTurn 0x11C rngRawCaptureCmd.obj rngRawCaptureRun))

/-! ### Manager sessions (R366, R367) -/

/-- DEV_INFO. -/
def devInfoRun : Run := fun _ _ _ s =>
  let t := imageInfo s.worlds.tw.image
  let o := imageInfo s.worlds.ow.image
  .done .done 0 (layInts [(2, Config.deviceId), (1, Config.revisionId), (1, s.keys.lc.code), (4, s.modeWord), (4, t.1), (4, t.2), (4, o.1), (4, o.2)]) 0 s

/-- DEV_INFO's row of the index. -/
def devInfoCmd : Cmd := { op := 1, auth := authAny, zOk := true }

/-- DEV_INFO. -/
def execDevInfo (c : Caller) (s : State) : Host.Outcome State Fault Refusal := .next (s.command c devInfoCmd devInfoRun)

/-- The manager mailbox of a caller; none for any other. -/
def mgrBox : Caller → Nat
  | .mbx m => m
  | _ => 0

/-- MGR_CHALLENGE (R367): a nonce of CD_0, bound to the mailbox; a later one replaces it. -/
def mgrChallengeRun : Run := fun c _ _ s =>
  match s.cmdDraw c 32 false 0 with
  | .inr r => r
  | .inl (b, t) => .done .done 0 b 0 (t.modBox (mgrBox c) fun x => { x with nonce := some (b, t.glob.uptimeMs) })

/-- MGR_CHALLENGE's row of the index. -/
def mgrChallengeCmd : Cmd := { op := 2, auth := authBox, zOk := true }

/-- MGR_CHALLENGE. -/
def execMgrChallenge (c : Caller) (s : State) : Host.Outcome State Fault Refusal := .next (s.command c mgrChallengeCmd mgrChallengeRun)

/-- Parameters of MGR_OPEN: nonce, algorithm. -/
def mgrOpenFlds : List Fld := [.str 32, .int 1]

/-- MGR_OPEN (R366, R367): the nonce is judged first, and serves once; then the signature under the credential. -/
def mgrOpenRun : Run := fun c p _ s =>
  let m := mgrBox c
  match s.mail.cred with
  | none => .done .roleDenied 0 [] 0 s
  | some (alg, key) =>
    let fresh := match (s.box m).nonce with
      | some (n, t) => n == p.str mgrOpenFlds 0 && s.glob.uptimeMs < t + 60000
      | none => false
    if !fresh then .done .challengeStale 0 [] 0 s
    else
      let s1 := s.modBox m fun x => { x with nonce := none }
      let msg := s.identityDigest ++ leBytes 2 m ++ p.str mgrOpenFlds 0
      if p.int mgrOpenFlds 1 = alg && sigVerifies alg key msg p.data then
        .done .done 0 [] 0 (s1.modBox m fun x => { x with session := true })
      else .done .roleDenied 0 [] 0 s1

/-- MGR_OPEN's row of the index. -/
def mgrOpenCmd : Cmd := { op := 3, auth := authBox, zOk := true, flds := mgrOpenFlds, data := true }

/-- MGR_OPEN. -/
def execMgrOpen (c : Caller) (s : State) : Host.Outcome State Fault Refusal := .next (s.command c mgrOpenCmd mgrOpenRun)

/-- MGR_CLOSE (R367). -/
def mgrCloseRun : Run := fun c _ _ s => .done .done 0 [] 0 (s.modBox (mgrBox c) fun x => { x with session := false })

/-- MGR_CLOSE's row of the index. -/
def mgrCloseCmd : Cmd := { op := 4, auth := authBox, zOk := true }

/-- MGR_CLOSE. -/
def execMgrClose (c : Caller) (s : State) : Host.Outcome State Fault Refusal := .next (s.command c mgrCloseCmd mgrCloseRun)

/-- Every manager session ended (R358, R367). -/
def State.endSessions (s : State) : State :=
  s.modMail fun m => { m with boxes := m.boxes.map fun b => { b with session := false } }

/-- MGR_CRED_SET (R366, R367): the first credential, or a replacement, which ends every session. -/
def mgrCredSetRun : Run := fun _ p _ s =>
  let alg := p.int [.int 1] 0
  match algKeyFault alg p.data with
  | some st => .done st 0 [] 0 s
  | none =>
    let s1 := s.modMail fun m => { m with cred := some (alg, p.data) }
    .done .done 0 [] 0 (if s.mail.cred.isSome then s1.endSessions else s1)

/-- MGR_CRED_SET's row of the index: any manager mailbox sets the first credential; afterwards a session and a quorum (R366, R389). -/
def mgrCredSetCmd : Cmd :=
  { op := 5, auth := fun s w p => if s.mail.cred.isSome then authMgr s w p else authBox s w p, flds := [.int 1], data := true,
    quorum := fun s _ _ => s.mail.cred.isSome }

/-- MGR_CRED_SET. -/
def execMgrCredSet (c : Caller) (s : State) : Host.Outcome State Fault Refusal := .next (s.command c mgrCredSetCmd mgrCredSetRun)

/-! ### KEEP and its end (R32, R36) -/

/-- DEV_KEEP: KEEP_MANAGER stands before the reply is written. -/
def devKeepRun : Run := fun _ _ _ s => .done .done 0 [] 0 (State.refreshMode s.modeWord { s with md := { s.md with manager := true } })

/-- DEV_KEEP's row of the index. -/
def devKeepCmd : Cmd := { op := 8, auth := authMgr }

/-- DEV_KEEP. -/
def execDevKeep (c : Caller) (s : State) : Host.Outcome State Fault Refusal := .next (s.command c devKeepCmd devKeepRun)

/-- DEV_RESUME (R36, R555): the manager's cause clears, and a deferred OFF request is cancelled. -/
def devResumeRun : Run := fun _ _ _ s =>
  let s1 := { s with md := { s.md with manager := false } }
  .done .done 0 [] 0 ((s1.modPower fun p => { p with offRequest := false }).modDom 61 fun d => { d with deferred := false })

/-- DEV_RESUME's row of the index. -/
def devResumeCmd : Cmd := { op := 9, auth := authMgr }

/-- DEV_RESUME. -/
def execDevResume (c : Caller) (s : State) : Host.Outcome State Fault Refusal := .next (s.command c devResumeCmd devResumeRun)

end Sys2Proof.Machine
end

