-- ==== Sys2Proof/Machine/FabricLink.lean ====
section
/-! DEFINITION. The fabric links (R501 to R523): bring-up, session keys, frames received, retry and its timers, retraining, wake. -/

namespace Sys2Proof.Machine

/-! ### Bring-up -/

/-- Roles whose ports of this kind are brought up (the roles table): up ports of a Worker or a Relay, down ports of a Relay or a Lead, any peer port. -/
def State.broughtUp (s : State) (p : Nat) : Bool :=
  if p < 16 then s.hier.role == 2 || s.hier.role == 3 else if p < 18 then s.hier.role == 1 || s.hier.role == 2 else true

/-- Kind of a port (R501): 0 down, 1 up, 2 peer. -/
def portKind (p : Nat) : Nat := if p < 16 then 0 else if p < 18 then 1 else 2

/-- The pairing of R502 and R525: down with up under a Relay or Lead and one DOMAIN_ID, or peer with peer. -/
def State.pairOk (s : State) (p : Nat) (i : PeerInit) : Bool :=
  let upper (r : Nat) := r == 2 || r == 3
  match portKind p with
  | 0 => i.kind == 1 && upper s.hier.role && i.domainId == s.hier.domainId
  | 1 => i.kind == 0 && upper i.role && i.domainId == s.hier.domainId
  | _ => i.kind == 2

/-- The lanes a port comes up on out of those that reached their margin (R504), at most MAX_WIDTH: the mask and the WIDTH code. -/
def chooseLanes (maxWidth : Nat) (ok : BitVec 4) : BitVec 4 × Nat :=
  if 2 ≤ maxWidth ∧ ok = 0xF then (0xF, 3)
  else if 1 ≤ maxWidth ∧ ok &&& 3 = 3 then (3, 2)
  else if 1 ≤ maxWidth ∧ ok &&& 0xC = 0xC then (0xC, 2)
  else match [0, 1, 2, 3].find? fun i => ok.getLsbD i with
    | some i => (1 <<< i, 1)
    | none => (0, 0)

/-- Frames sent that carry nothing above the link: the transmit counter moves on (R512). -/
def Port.sentCtl (n : Nat) (p : Port) : Port := { p with txCtr := p.txCtr + n }

/-- The whole replay buffer sent again with fresh counters (R519), counted in RETRIES. -/
def Port.resendAll (p : Port) : Port := { p.sentCtl p.replay.length with retries := sat 32 (p.retries + p.replay.length) }

/-- The numbers this device advertises on its up ports (R529): its own, and every number its children advertise. -/
def State.advertised (s : State) : List (Nat × Bool) :=
  (s.hier.device, s.hier.holder) :: ((s.upOf downPorts).flatMap fun p => (s.port p).reach).foldl (fun l e => if l.any (·.1 == e.1) then l else l ++ [e]) []

/-- The port reaches UP (R507, R526, R529): the replay buffer is sent again, HELLO goes out, and on an up port the routes below. -/
def State.portUp (p : Nat) (s : State) : State :=
  let s1 := (s.modPort p fun x => ({ x with st := .up, cause := 0, fullTrain := false } : Port).resendAll).sendUnit p .hello
  let s2 := if portKind p = 1 then s1.sendUnit p (.route s1.advertised []) else s1
  (s2.modPort p Port.pump).refreshLevel

/-- A port reaches UP under a new session (R529): what the lost link may have taken is sent again by serial, a Lead's pending changes to a
level-1 device or the other Lead, a staged version's report to the Lead. -/
def State.sessionUp (p : Nat) (s : State) : State :=
  let s1 := s.portUp p
  if s1.hier.activeLead then s1.hier.pendings.foldl (fun t c => t.sendUnit p (.change c)) s1
  else
    match s1.hier.stageSerial with
    | some n => if portKind p = 1 && s1.keys.staged.isSome then s1.sendTo s1.hier.leadDev (.changeAck n [s1.hier.device]) else s1
    | none => s1

/-- Entry to AUTH (R509): it waits for the trusted world where that is down. -/
def State.toAuth (p : Nat) (s : State) : State :=
  (s.leaveUp p .auth).modPort p fun x => { x with cause := if s.worlds.tw.up then 0 else 4 }

/-- EN (R523): enabled, the port waits for a signal; cleared, the link goes DOWN. -/
def State.enWrite (port : Nat) (value : Bool) (s : State) : State :=
  if 20 ≤ port || (s.port port).en == value then s
  else if value then (s.modPort port fun x => { x with en := true, cause := 1 })
  else (((s.portDown port 0).modPort port fun x => { x with en := false }).settle s)

/-- EN: the host's write, admitted or refused (R65). -/
def execEn (port : Nat) (value : Bool) (s : State) : Host.Outcome State Fault Refusal := .next (s.hostReg 0 (0xB0000 + 0x40 * port) (State.enWrite port value))

/-- RETRAIN (R507, R523): a retrain of a port past training; never a full training. -/
def State.retrainWrite (port : Nat) (s : State) : State :=
  match (s.port port).st with
  | .align => (s.retrain port)
  | .auth => (s.retrain port)
  | .up => ((s.retrain port).settle s)
  | _ => s

/-- RETRAIN: the host's write, admitted or refused (R65). -/
def execRetrain (port : Nat) (s : State) : Host.Outcome State Fault Refusal := .next (s.hostReg 0 (0xB0000 + 0x40 * port) (State.retrainWrite port))

/-- FP_SIGNAL_DETECT (R507, step 1): an enabled port its role brings up starts its training. -/
def execFpSignalDetect (port : Nat) (s : State) : Host.Outcome State Fault Refusal :=
  let x := s.port port
  if x.en && x.st == .down && s.broughtUp port && !s.portAsleep port then
    .next (s.modPort port fun x => { x with st := .train, cause := 0 })
  else .next s

/-- A free margin a trained lane shows, at least the 8 it reached (R507). -/
def trainedMargin (old : Nat) (ok : Bool) (b : Byte) : Nat := if ok then Nat.max 8 b.toNat else old

/-- FP_TRAIN_COMPLETE (R504, R507, steps 2 and 3): the port enters ALIGN on the lanes that reached MARGIN 8; the others stay out until the
next full training. A port none of whose lanes trained goes DOWN. -/
def execFpTrainComplete (port : Nat) (lanes : BitVec 4) (s : State) : Host.Outcome State Fault Refusal :=
  let x := s.port port
  if x.st != .train then .next s
  else
    let full := x.fullTrain || x.downSince + 100 ≤ s.glob.uptimeMs
    let ok := if full then lanes else lanes &&& ~~~x.excluded
    let (mask, w) := chooseLanes x.maxWidth ok
    let (b, s1) := s.freeBytes 4
    if w = 0 then .next ((s.portDown port 1).settle s)
    else
      .next (s1.modPort port fun x =>
        { x with st := .align, width := w, lanes := mask, cause := 0, excluded := ~~~ok,
                 margin := (List.range 4).map fun i => trainedMargin (x.margin.getD i 0) (ok.getLsbD i) (b.getD i 0) })

/-- A session both ends hold under the same KEY_PHASE, out of UP for less than 100 ms (R508). -/
def State.retainable (s : State) (p : Nat) (i : PeerInit) : Bool :=
  let x := s.port p
  x.session && i.retained && i.sessionId == x.sessionId && i.keyPhase == x.rxPhase && s.glob.uptimeMs < x.downSince + 100

/-- LINK_INIT (R502, R507 to R509, R516, R525): the peer's parameters; a wrong pairing stays in ALIGN, a held session goes UP, else AUTH. -/
def execLinkInit (port : Nat) (i : PeerInit) (s : State) : Host.Outcome State Fault Refusal :=
  if (s.port port).st != .align || (s.port port).cause == 2 || !i.crcOk then .next s
  else
    let s1 := s.modPort port fun x => { x with peerDev := i.dev % 16384 }
    if !s.pairOk port i then .next (s1.modPort port fun x => { x with cause := 2, authSince := s.glob.uptimeMs })
    else
      let s2 := s1.modPort port fun x => { x with peer := some i, txCredits := i.credits, rxCredits := [512, 1024, 8192, 512] }
      if s.retainable port i then .next ((s2.portUp port).settle s)
      else
        .next (((s2.dropSession port).modPort port fun x => { x with txCredits := i.credits }).toAuth port)

/-- FP_INIT_RETRY (R502): a second after a kind mismatch the exchange is made again. -/
def execFpInitRetry (port : Nat) (s : State) : Host.Outcome State Fault Refusal :=
  let x := s.port port
  if x.st == .align && x.cause == 2 && x.authSince + 1000 ≤ s.glob.uptimeMs then .next (s.modPort port fun x => { x with cause := 0 })
  else .next s

/-! ### Session keys -/

/-- Why an exchange fails (R510, R546): the AUTH_FAIL cause, none where the link may reach UP. -/
def State.authFault (s : State) (a : PeerAuth) : Option Nat :=
  if !s.aliasExists then some 4
  else if !Config.primCheck .certChain [a.chain] then some 1
  else if !sigVerifies 1 (Config.certKey a.chain) a.exchange a.sig then some 2
  else if Config.certLc a.chain != s.keys.lc.code || !(s.keys.lc == .development || s.keys.lc == .production) then some 3
  else none

/-- The session secret (R511): the ECDH secret, then the two ML-KEM secrets in the order of the devices whose ciphertexts carried them. -/
def authSecrets (a : PeerAuth) (own peer : Nat) : Bytes :=
  a.ecdh ++ (if own ≤ peer then a.kemOwn ++ a.kemPeer else a.kemPeer ++ a.kemOwn)

/-- The session of a completed exchange (R511): its secret's 64 bytes, the first half the transmit key of the lower device number. -/
def Port.establish (own now : Nat) (a : PeerAuth) (p : Port) : Port :=
  let lo := Nat.min own p.peerDev
  let hi := Nat.max own p.peerDev
  let digest := sha384 a.exchange
  let k := kdf (authSecrets a own p.peerDev) "ZV1600 LINK" (leBytes 2 lo ++ leBytes 2 hi ++ digest) 64
  let first := own ≤ p.peerDev
  { p with session := true, sessionId := fieldLe digest 0 8, txKey := if first then k.take 32 else k.drop 32,
           rxKey := if first then k.drop 32 else k.take 32, rxOldKey := [], keyPhase := false, rxPhase := false, txCtr := 0, rxCtr := 0,
           rxAny := false, txSeq := 0, rxSeq := 0, keySince := now }

/-- AUTH (R509 to R511): the link reaches UP, or stays in AUTH with CAUSE 3 and a record. -/
def execAuth (port : Nat) (a : PeerAuth) (s : State) : Host.Outcome State Fault Refusal :=
  let x := s.port port
  if x.st != .auth || x.cause == 3 || !a.crcOk then .next s
  else if !s.worlds.tw.up then .next (s.modPort port fun x => { x with cause := 4 })
  else
    match s.authFault a with
    | some c =>
      .next ((s.modPort port fun x => { x with cause := 3, authSince := s.glob.uptimeMs }).record 0xA4 (0x300 + port) 0
        (pack [(1, port), (2, x.peerDev), (1, c)]))
    | none => .next (((s.modPort port (Port.establish s.hier.device s.glob.uptimeMs a)).sessionUp port).settle s)

/-- AUTH_RETRY (R510): a second after a failed exchange it is made again. -/
def execAuthRetry (port : Nat) (s : State) : Host.Outcome State Fault Refusal :=
  let x := s.port port
  if x.st == .auth && x.cause == 3 && x.authSince + 1000 ≤ s.glob.uptimeMs then .next (s.toAuth port) else .next s

/-! ### Frames received -/

/-- The full transmit counter of a frame (R512): the smallest above the last accepted whose low 32 bits are TX_CTR_LO. -/
def Port.fullCtr (p : Port) (lo : Nat) : Nat :=
  let base := if p.rxAny then p.rxCtr + 1 else 0
  base + (lo % 2 ^ 32 + 2 ^ 32 - base % 2 ^ 32) % 2 ^ 32

/-- A frame whose tag fails (R514): discarded, counted, a NAK sent; the 64th within 1 s drops the session. The record's cause byte is open. -/
def State.tagFailed (p : Nat) (s : State) : State :=
  let now := s.glob.uptimeMs
  let s1 := s.modPort p fun x =>
    ({ x with tagFails := sat 16 (x.tagFails + 1), tagTimes := (x.tagTimes.filter fun t => now < t + 1000) ++ [now], gap := true,
              naks := x.naks + 1 } : Port).sentCtl 1
  if 64 ≤ (s1.port p).tagTimes.length then
    let (b, s2) := (s1.modPort p fun x => { x with tagTimes := [] }).freeBytes 1
    (s2.restartPort p).record 0xA4 (0x300 + p) 0 (pack [(1, p), (2, (s2.port p).peerDev)] ++ b)
  else s1

/-- The key of a frame's phase is at hand: the peer's, or its old one while that is kept (R513). -/
def Port.phaseOk (p : Port) (f : Frame) : Bool := f.keyPhase == p.rxPhase || !p.rxOldKey.isEmpty

/-- A frame that passed its tag: its counter is the last accepted (R512). -/
def Port.counted (f : Frame) (p : Port) : Port :=
  if f.keyPhase == p.rxPhase then { p with rxCtr := p.fullCtr f.txCtrLo, rxAny := true } else p

/-- Frames of the replay buffer an ACK covers: those before its SEQ (R519). -/
def Port.ackedBy (ack : Nat) (p : Port) : Nat :=
  match p.replay.head? with
  | some (q, _) => let n := (ack + 65536 - q) % 65536; if n ≤ p.replay.length then n else 0
  | none => 0

/-- ACK and credits of a frame header (R516, R518, R519). -/
def Port.acknowledged (f : Frame) (p : Port) : Port :=
  let n := p.ackedBy f.ack
  { p with replay := p.replay.drop n, resends := if n = 0 then p.resends else 0,
           txCredits := (List.range 4).map fun v => p.txCredits.getD v 0 + f.credits.getD v 0 }

/-- The frames unacknowledged sent again; the eighth time for one frame retrains the port (R507, R519). -/
def State.resend (p : Nat) (s : State) : State :=
  if (s.port p).replay.isEmpty then s
  else
    let s1 := s.modPort p fun x => ({ x with resends := x.resends + 1 } : Port).resendAll
    if 8 ≤ (s1.port p).resends then s1.retrain p else s1

/-- What every well-formed frame brings: acknowledgement, credits, a NAK. -/
def State.frameHeader (p : Nat) (f : Frame) (s : State) : State :=
  let s1 := s.modPort p fun x => (x.acknowledged f).pump
  if f.nak then s1.resend p else s1

/-- A frame counted in MALFORMED (R517, R518). -/
def State.malformedFrame (p : Nat) (s : State) : State := s.modPort p fun x => { x with malformed := sat 16 (x.malformed + 1) }

/-- A frame in UP through its tag and its form (R514, R517): the state with its header taken, or what its discard leaves. -/
def State.takeFrame (p : Nat) (f : Frame) (ctl : Bool) (s : State) : State × Bool :=
  if !f.tagOk || !(s.port p).phaseOk f then (s.tagFailed p, false)
  else
    let s1 := s.modPort p (Port.counted f)
    if f.reserved || 128 < f.len || (ctl && f.len != 0) then (s1.malformedFrame p, false)
    else (s1.frameHeader p f, true)

/-! ### Units of a DATA frame -/

/-- UTYPEs of R528. -/
def utypeDefined (u : Nat) : Bool :=
  (1 ≤ u && u ≤ 6) || (0x10 ≤ u && u ≤ 0x14) || (0x20 ≤ u && u ≤ 0x22) || (0x28 ≤ u && u ≤ 0x2A) || u == 0x30 || u == 0x31

/-- Units that are routed, not for the link neighbour alone (R528). -/
def utypeRouted (u : Nat) : Bool := u == 0x12 || u == 0x13 || u == 0x14 || (0x28 ≤ u && u ≤ 0x2A) || u == 0x30 || u == 0x31

/-- One unit of a frame on virtual channel vc (R525 to R529): malformed, forwarded, dropped, or kept to be handled at its last part. -/
def State.takeUnitIn (p vc : Nat) (h : UnitHdr) (s : State) : State :=
  if !utypeDefined h.utype || utypeVc h.utype != vc || h.reserved || (h.hops == 0 && h.dst != s.hier.device) then s.malformedFrame p
  else if s.hier.state = 1 && vc != 0 then s
  else if utypeRouted h.utype && h.dst != s.hier.device then
    if 2 ≤ s.hier.role then s.sendTo h.dst (.forwarded { h with hops := h.hops - 1 }) else s
  else if h.partCount == 0 || h.part + 1 == h.partCount then s.modPort p fun x => { x with rx := x.rx ++ [h] }
  else s

/-- Credits of a virtual channel whose buffer holds nothing are the whole buffer again. -/
def Port.freeVc (vc : Nat) (p : Port) : Port :=
  if p.rx.any fun h => utypeVc h.utype == vc then p else { p with rxCredits := p.rxCredits.set vc (vcBuffer vc) }

/-- DATA (R512, R514, R516 to R520, R528): accepted in SEQ order, or discarded, with a NAK as a gap begins. -/
def execData (port : Nat) (f : Frame) (s : State) : Host.Outcome State Fault Refusal :=
  if (s.port port).st != .up then .next s
  else
    let (s1, ok) := s.takeFrame port f false
    let x := s1.port port
    if !ok || x.st != .up then .next (s1.settle s)
    else
      let ahead := (f.seq % 65536 + 65536 - x.rxSeq) % 65536
      if ahead != 0 then
        if ahead < 32768 && !x.gap then .next (s1.modPort port fun x => ({ x with gap := true, naks := x.naks + 1 } : Port).sentCtl 1) else .next s1
      else if x.rxCredits.getD f.vc 0 < frameCredits f.len then .next (((s1.malformedFrame port).retrain port).settle s)
      else
        let s2 := s1.modPort port fun x =>
          { x with gap := false, rxSeq := (x.rxSeq + 1) % 65536, rxCredits := x.rxCredits.modify f.vc fun c => c - frameCredits f.len }
        .next ((f.units.foldl (fun t h => t.takeUnitIn port f.vc h) (s2.portWork port)).modPort port (Port.freeVc f.vc))

/-- CTRL (R516, R518, R519, R521): acknowledgement, credits, NAK, and the power state the peer proposes, agreed to within the allowance. -/
def execCtrl (port : Nat) (f : Frame) (s : State) : Host.Outcome State Fault Refusal :=
  if (s.port port).st != .up then .next s
  else
    let (s1, ok) := s.takeFrame port f true
    if !ok || (s1.port port).st != .up then .next (s1.settle s)
    else
      let d := s1.dom (40 + port)
      let allow := if d.allowTw.code < d.allowOw.code then d.allowTw else d.allowOw
      match f.pwr.bind PState.ofCode with
      | some st =>
        if (st = .sleep ∨ st = .deep) ∧ st.code ≤ allow.code then .next (s1.modPort port fun x => { x with agreed := some st })
        else .next (s1.modPort port fun x => { x with agreed := none })
      | none => .next s1

/-- The next key of a transmit key (R513). -/
def nextKey (k : Bytes) (phase : Bool) : Bytes := kdf k "ZV1600 LINK UPD" (leBytes 1 (b2n phase)) 32

/-- KEY_UPDATE (R513): the peer's next frames come under its next key, their counter restarted. -/
def execKeyUpdate (port : Nat) (f : Frame) (s : State) : Host.Outcome State Fault Refusal :=
  if (s.port port).st != .up then .next s
  else
    let (s1, ok) := s.takeFrame port f true
    if !ok || (s1.port port).st != .up then .next (s1.settle s)
    else
      .next (s1.modPort port fun x =>
        { x with rxOldKey := x.rxKey, rxKey := nextKey x.rxKey (!x.rxPhase), rxPhase := !x.rxPhase, rxCtr := 0, rxAny := false })

/-! ### Timers -/

/-- KEY_UPDATE_DUE (R513): after 2^32 frames or 3,600 s the sender moves to its next key; at 2^34 frames the link goes down, to AUTH. -/
def execKeyUpdateDue (port : Nat) (s : State) : Host.Outcome State Fault Refusal :=
  let x := s.port port
  if x.st != .up then .next s
  else if 2 ^ 34 ≤ x.txCtr then .next (((s.leaveUp port .auth).dropSession port |>.toAuth port).settle s)
  else if 2 ^ 32 ≤ x.txCtr || x.keySince + 3600000 ≤ s.glob.uptimeMs then
    .next (s.modPort port fun x =>
      { x with txKey := nextKey x.txKey (!x.keyPhase), keyPhase := !x.keyPhase, txCtr := 0, keySince := s.glob.uptimeMs,
               rekeys := (x.rekeys + 1) % 2 ^ 32 })
  else .next s

/-- RETRY_TIMEOUT (R507, R519): 20 µs without ACK progress; everything from the oldest unacknowledged frame is sent again. -/
def execRetryTimeout (port : Nat) (s : State) : Host.Outcome State Fault Refusal :=
  if (s.port port).st != .up then .next s else .next ((s.resend port).settle s)

/-- NAK_TIMER (R519): a NAK each 5 µs while a gap lasts. -/
def execNakTimer (port : Nat) (s : State) : Host.Outcome State Fault Refusal :=
  let x := s.port port
  if x.st == .up && x.gap then .next (s.modPort port fun x => ({ x with naks := x.naks + 1 } : Port).sentCtl 1) else .next s

/-- ACK_TIMER (R513, R519): an ACK each 2 µs while frames arrive; with every frame acknowledged, the peer's old key goes. -/
def execAckTimer (port : Nat) (s : State) : Host.Outcome State Fault Refusal :=
  let x := s.port port
  if x.st == .up && x.rxAny then
    .next (s.modPort port fun x => ({ x with acks := x.acks + 1, rxOldKey := [] } : Port).sentCtl 1)
  else .next s

/-- LANE_MARGIN_FAIL (R506, R507): a lane in use at MARGIN 0 for 1 ms; the port retrains. -/
def execLaneMarginFail (port lane : Nat) (s : State) : Host.Outcome State Fault Refusal :=
  let x := s.port port
  if x.st == .up && x.lanes.getLsbD lane then
    .next (((s.modPort port fun x => { x with margin := x.margin.set lane 0 }).retrain port).settle s)
  else .next s

/-- FEC_UNCORRECTABLE_LIMIT (R507): 16 uncorrectable codewords within 1 ms; the port retrains. -/
def execFecUncorrectableLimit (port : Nat) (s : State) : Host.Outcome State Fault Refusal :=
  if (s.port port).st == .up then
    .next (((s.modPort port fun x => { x with fecUncorr := sat 32 (x.fecUncorr + 16), gap := true }).retrain port).settle s)
  else .next s

/-- FABRIC_WAKE (R522, R567): the wake ordered set on lane 0 of a sleeping port starts its exit. -/
def execFabricWake (port : Nat) (s : State) : Host.Outcome State Fault Refusal :=
  .next (if port < 20 then s.startWake (40 + port) .fabric else s)

end Sys2Proof.Machine
end

