-- ==== Sys2Proof/Machine/Domain.lean ====
section
/-! DEFINITION. Domain keys and domain changes (R532 to R541): what a change does at a device, its issue and commit at the active Lead, and
the records carried upward (R544). -/

namespace Sys2Proof.Machine

/-! ### Domain slots (R538) -/

/-- Version of the CURRENT domain key; 0 for none. -/
def State.dkVersion (s : State) : Nat := (s.curDk?.map (·.version)).getD 0

/-- The device carries the material of slots 0x200 to 0x3FF: a holder, and both Leads. -/
def State.keepsUpper (s : State) : Bool := s.hier.holder || s.hier.role == 3

/-- The form a domain key takes without its material: one row of its attributes. -/
def Key.toShadow (k : Key) : Key := { k with shadow := true, material := [], rows := 1 }

/-- A domain key as this device installs it: ORIGIN 5, its CURRENT DK version, the change's serial; a shadow where it carries no material. -/
def State.domainKey (s : State) (slot serial : Nat) (attrs material : Bytes) : Key :=
  let k := keyOf material attrs
  let k1 : Key := { k with scope := 2, slot := slot, origin := 5, dkVersion := s.dkVersion, serial := serial }
  if 0x200 ≤ slot && !s.keepsUpper then k1.toShadow else k1

/-- Domain keys whose slots meet a run removed, their cached copies invalidated (R345). -/
def State.dropDomain (slot rows : Nat) (s : State) : State :=
  let hit (k : Key) : Bool := k.scope == 2 && k.slot < slot + rows && slot < k.slot + k.rows
  let gone := s.keys.keys.filter hit
  (gone.foldl (fun t k => t.supersede k) s).modKeys fun x => { x with keys := x.keys.filter fun k => !hit k }

/-- A domain key written into its slot. -/
def State.putDomain (k : Key) (s : State) : State :=
  ((s.dropDomain k.slot k.rows).overwrite k.places).modKeys fun x => { x with keys := x.keys ++ [s.seal k] }

/-- The keys of slots 0x200 to 0x3FF become shadows, and their cached copies are invalidated (R345, R538). -/
def State.shedUpper (s : State) : State :=
  let hit (k : Key) : Bool := k.scope == 2 && 0x200 ≤ k.slot && !k.shadow
  let l := s.keys.keys.filter hit
  (l.foldl (fun t k => t.supersede k) s).modKeys fun x =>
    { x with keys := x.keys.map fun k => if hit k then s.seal k.toShadow else k }

/-! ### A change applied (R532, R536) -/

/-- The DK record (R546). -/
def State.recordDk (event version serial : Nat) (dom : Bytes) (s : State) : State :=
  s.record 0xA2 0 0 (pack [(1, event), (1, version), (8, serial)] ++ padTo 16 dom)

/-- A domain key table entry made now, in this lifecycle state (R319). -/
def State.newDk (s : State) (version : Nat) (dom dk : Bytes) : DkEntry :=
  { version := version, state := 1, lc := s.keys.lc.code, domainId := padTo 16 dom, createdSeq := s.recordSeq, dk := dk }

/-- The PREVIOUS entry of the lowest version. -/
def oldestPrevious (l : List DkEntry) : Option DkEntry :=
  (l.filter (·.state == 2)).foldl (fun m e => match m with | none => some e | some x => if e.version < x.version then some e else some x) none

/-- The staged version becomes CURRENT in one write of the root store; the SMKs are derived again and KEY_EPOCH advances (R536). -/
def State.activateDk (v serial : Nat) (s : State) : State :=
  match s.keys.staged with
  | some (w, dk) =>
    if w != v then s
    else
      let dom := (s.curDk?.map (·.domainId)).getD s.hier.domainId
      let old := if s.keys.dks.length < 4 then none else oldestPrevious s.keys.dks
      let e := s.newDk v dom dk
      let prev := s.keys.dks.map fun (d : DkEntry) => if d.state == 1 then { d with state := 2 } else d
      let dks := match old with
        | some o => prev.map fun (d : DkEntry) => if d.version == o.version then e else d
        | none => prev ++ [e]
      let s1 := (s.modKeys fun k => { k with dks := dks, staged := none }).recordDk 3 v serial dom
      let s2 := match old with
        | some o => s1.recordDk 4 o.version serial dom
        | none => s1
      s2.deriveSmks.advanceEpoch
  | none => s

/-- What a change does to a device (R532). A domain key version the device already holds or has passed is not made again. -/
def State.applyKind (c : Change) (s : State) : State :=
  match c.kind with
  | .dkNew dk dom =>
    if !s.keys.dks.isEmpty then s
    else ((s.modKeys fun k => { k with dks := [s.newDk 1 dom dk] }).recordDk 1 1 c.serial dom).deriveSmks
  | .dkStage v dk =>
    if v ≤ s.dkVersion then s else (s.modKeys fun k => { k with staged := some (v, dk) }).recordDk 2 v c.serial s.hier.domainId
  | .dkActivate v => s.activateDk v c.serial
  | .dkeyPut slot attrs material => s.putDomain (s.domainKey slot c.serial attrs material)
  | .dkeyDel slot => s.dropDomain slot 1
  | .dkeyPolicy slot usage modes =>
    match s.lookSlot 2 0 slot with
    | .key k =>
      (s.supersede k).rewriteKey 2 0 slot fun x =>
        { x with usage := BitVec.ofNat 32 usage, modes := BitVec.ofNat 16 modes, serial := c.serial }
    | _ => s
  | .param l t => s.modHier fun h => { h with level1 := l, remoteTimeoutMs := t }

/-- A DK or DKEY change, which a device under an A3 response neither applies nor acknowledges (R541). -/
def State.heldByAlarm (s : State) (c : Change) : Bool :=
  s.tamper.latch == 3 && (match c.kind with | .param _ _ => false | _ => true)

/-- A stage that has been applied is reported to the Lead (R535). -/
def State.reportStage (c : Change) (s : State) : State :=
  match c.kind with
  | .dkStage _ _ => if s.hier.activeLead then s else s.sendTo s.hier.leadDev (.changeAck c.serial [s.hier.device])
  | _ => s

/-- The committed changes a Lead keeps: the last 65,536 (R540). -/
def keepLog (l : List Change) (c : Change) : List Change :=
  newest 65536 (l ++ [{ c with committed := true }])

/-- Where a rollover stands after a change (R535). -/
def Hier.stageAfter (h : Hier) (c : Change) (now : Nat) : Hier :=
  match c.kind with
  | .dkStage _ _ => { h with stageSerial := some c.serial, stageAt := some now }
  | .dkActivate _ => { h with stageSerial := none, stageAt := none }
  | _ => h

/-- A change applied: APPLIED_SERIAL moves on. -/
def State.applyChange (c : Change) (s : State) : State :=
  let s1 := (s.applyKind c).modHier fun h =>
    let h1 : Hier := { h with applied := c.serial, pendings := h.pendings.filter fun x => c.serial < x.serial }
    let h2 := h1.stageAfter c s.glob.uptimeMs
    if h.role = 3 then { h2 with log := keepLog h.log c } else h2
  s1.reportStage c

/-- A committed change passed on to the children (R532). -/
def State.passDown (c : Change) (s : State) : State :=
  s.sendAll (s.upOf downPorts) (.change { c with committed := true })

/-- The next change in serial order applied and passed on; any other changes nothing (R532, R541). -/
def State.applyNext (c : Change) (s : State) : State :=
  if c.serial = s.hier.applied + 1 && !s.heldByAlarm c then (s.applyChange c).passDown c else s

/-! ### At the active Lead -/

/-- Devices that make a majority of the level-1 list (R530). -/
def Hier.majority (h : Hier) : Nat := h.level1.length / 2 + 1

/-- Ports to the level-1 devices and to the other Lead. -/
def State.leadPorts (s : State) : List Nat := s.upOf downPorts ++ s.upOf peerPorts

/-- Acknowledgements of a serial. -/
def Hier.acksOf (h : Hier) (serial : Nat) : List Nat := assocD h.acks serial []

/-- A running command that waits for the commit of a serial is ready to reply (R533). -/
def State.committed (serial : Nat) (s : State) : State :=
  s.modMail fun m => { m with running := m.running.map fun j => if j.kind == .change serial then { j with kind := .wait } else j }

/-- A change committed: COMMIT goes out, the Lead applies it, its acknowledgements count stagings from here on (R532, R535). -/
def State.commitOne (c : Change) (s : State) : State :=
  let s1 := s.sendAll s.leadPorts (.commit s.hier.term c.serial)
  ((s1.applyChange c).modHier fun h => { h with commitSerial := c.serial, acks := h.acks.filter fun a => c.serial < a.1 }).committed c.serial

/-- Pending changes a majority has acknowledged committed in serial order. -/
def State.commitReady : Nat → State → State
  | 0, s => s
  | n + 1, s =>
    match s.hier.pendings.find? fun c => c.serial == s.hier.applied + 1 with
    | some c =>
      if s.hier.majority ≤ ((s.hier.acksOf c.serial).filter s.hier.level1.contains).length && !s.heldByAlarm c then
        State.commitReady n (s.commitOne c)
      else s
    | none => s

/-- A change issued by the active Lead (R532): the next serial, to the level-1 devices and the standby. -/
def State.issueChange (k : ChangeKind) (s : State) : State :=
  let c : Change := { term := s.hier.term, serial := s.hier.nextSerial, kind := k, committed := false }
  (s.modHier fun h => { h with nextSerial := h.nextSerial + 1, pendings := h.pendings ++ [c] }).sendAll s.leadPorts (.change c)

/-- A command's change issued: the command runs until its commit (R533). -/
def State.issueFor (k : ChangeKind) (reply : Bytes) (obj : Nat) (s : State) : Ran :=
  .hold (.change s.hier.nextSerial) reply obj (s.issueChange k)

/-- Devices the Lead holds a route to (R535). -/
def State.routed (s : State) : List Nat :=
  ((s.upOf downPorts).flatMap fun p => (s.port p).reach.map Prod.fst).foldl (fun l d => if l.contains d then l else l ++ [d]) []

/-- The other Lead's device number, over the peer link. -/
def State.otherLead (s : State) : Option Nat :=
  ((s.upOf peerPorts).find? fun p => (s.port p).peerRole == 3).map fun p => (s.port p).peerDev

/-- REACHABLE: the devices the Lead holds a route to, and both Leads (R535). -/
def State.reachable (s : State) : Nat := if s.hier.activeLead then s.routed.length + 2 else 0

/-- STAGED_ACKS: the reachable devices that have staged the version. -/
def State.stagedAcks (s : State) : Nat :=
  if !s.hier.activeLead then 0
  else
    match s.hier.stageSerial with
    | some n =>
      let a := s.hier.acksOf n
      (s.routed.filter a.contains).length + b2n s.keys.staged.isSome + (match s.otherLead with | some d => b2n (a.contains d) | none => 0)
    | none => 0

/-- LEAD's record (R546): 1 became active, 2 stepped down. -/
def State.recordLead (event votes : Nat) (s : State) : State := s.record 0xA1 0 0 (pack [(1, event), (4, s.hier.term), (1, votes)])

/-- Running commands that wait for a commit end ABORTED, DETAIL 7 (R533). -/
def State.abortChanges (s : State) : State :=
  (s.mail.running.filter fun j => match j.kind with | .change _ => true | _ => false).foldl (fun t j => t.endJob j .aborted 7 []) s

/-- The active Lead steps down (R530, R533). -/
def State.stepDown (s : State) : State :=
  if s.hier.activeLead then ((s.modHier fun h => { h with activeLead := false, candidate := none, votes := [], lastBeat := s.glob.uptimeMs }).recordLead 2 0).abortChanges
  else s

/-- BEAT sent through every down port and the peer link (R530). -/
def State.sendBeat (s : State) : State :=
  (s.modHier fun h => { h with beatSent := s.glob.uptimeMs }).sendAll s.leadPorts (.beat s.hier.term s.hier.device s.hier.commitSerial)

/-- This Lead becomes active in a term (R531): it re-issues the highest pending change reported in the votes, and then sends BEAT. -/
def State.becomeActive (term votes : Nat) (s : State) : State :=
  let now := s.glob.uptimeMs
  let re := s.hier.votePending.filter fun c => s.hier.applied < c.serial
  let s1 := s.modHier fun h =>
    { h with activeLead := true, term := term, leadDev := h.device, candidate := none, votes := [], votePending := none,
             beatAcks := h.level1.map fun d => (d, now), commitSerial := h.applied, acks := [],
             pendings := re.toList.map (fun c => ({ c with term := term, committed := false } : Change)),
             nextSerial := (match re with | some c => c.serial | none => h.applied) + 1 }
  let s2 := (s1.setFab 3 0).recordLead 1 votes
  let s3 := s2.hier.pendings.foldl (fun t c => t.sendAll t.leadPorts (.change c)) s2
  s3.sendBeat

/-! ### Records carried upward (R485, R544) -/

/-- The 64 bytes of a record (R485). -/
def Record.bytes (r : Record) : Bytes :=
  let h := leBytes 8 r.seq ++ leBytes 2 r.typ ++ leBytes 2 r.source ++
    leBytes 4 (r.body.length + r.grade * 2 ^ 8 + r.inForce * 2 ^ 11 + b2n r.merged * 2 ^ 14) ++ padTo 44 r.body
  h ++ leBytes 4 (crc32c h)

/-- A record is forwarded: its grade reaches FWD_GRADE, or it is a fabric record. -/
def Hier.forwards (h : Hier) (r : Record) : Bool := h.fwdGrade ≤ r.grade || (0xA0 ≤ r.typ && r.typ ≤ 0xAF)

/-- The records a member may send now: in SEQ order, at most 64 unacknowledged (R544). -/
def State.toForward (s : State) : List Record :=
  let l := s.er.held.filter fun r => s.hier.fwdSeq < r.seq && s.hier.forwards r
  let out := (l.filter fun r => r.seq ≤ s.hier.fwdSent).length
  (l.filter fun r => s.hier.fwdSent < r.seq).take (64 - out)

/-- Records sent toward the active Lead by a member that is not the Lead itself. -/
def State.forwardRecords (s : State) : State :=
  if s.hier.role = 0 || s.hier.state != 3 || s.hier.activeLead || (s.routeTo s.hier.leadDev).isNone then s
  else
    let l := s.toForward
    match l.getLast? with
    | some r => (s.modHier fun h => { h with fwdSent := r.seq }).sendTo s.hier.leadDev (.recordUp s.hier.leadDev (l.map Record.bytes))
    | none => s

end Sys2Proof.Machine
end

