-- ==== Sys2Proof/Machine/Hierarchy.lean ====
section
/-! DEFINITION. The Etesian hierarchy: the units of R528 as a device handles them (R526 to R545), the Lead's timers, and the commands of
R547. -/

namespace Sys2Proof.Machine

/-! ### Neighbours and routes -/

/-- The device's number is another's (R526): ISOLATED with CAUSE 2, and the DUPLICATE record. -/
def State.duplicate (p : Nat) (s : State) : State :=
  (s.setFab 1 2).record 0xA6 0 0 (pack [(2, s.hier.device), (1, p)])

/-- Both Leads find each other before any term (R531): the lower DEVICE is active in term 1. -/
def State.formation (role dev term : Nat) (s : State) : State :=
  if s.hier.role = 3 && role == 3 && s.hier.term == 0 && term == 0 && s.hier.device < dev then s.becomeActive 1 0 else s

/-- The highest term seen (R548); an active Lead of an older one steps down. -/
def State.seeTerm (term : Nat) (s : State) : State :=
  if s.hier.term < term then s.stepDown.modHier fun h => { h with term := term } else s

/-- HELLO (R526, R528, R531): the neighbour's role, number, domain and level; a number already in use is rejected. -/
def execHello (port role dev : Nat) (domainId identity : Bytes) (term _applied level : Nat) (holder : Bool) (s : State) :
    Host.Outcome State Fault Refusal :=
  match s.takeUnit port 0x01 with
  | some s1 =>
    if s1.hier.role = 0 || domainId != s1.hier.domainId then .next s1
    else if dev = s1.hier.device then .next (if identity != s1.identityDigest then s1.duplicate port else s1)
    else
      let known := s1.hier.identities.find? (fun e => e.1 == dev)
      let twice := s1.hier.activeLead && (known.map Prod.snd).any (· != identity) && (List.range 20).any fun q => s1.reaches q dev
      if twice then .next s1
      else
        let s2 := s1.modHier fun h => { h with identities := assocSet h.identities dev identity }
        let s3 := s2.modPort port fun x =>
          { x with peerRole := role, peerDev := dev, peerLevel := if portKind port = 1 then level else x.peerLevel,
                   reach := if portKind port = 0 then x.reach else [(dev, holder)] }
        .next (((s3.formation role dev term).seeTerm term).refreshLevel)
  | none => .next s

/-- ROUTE (R529): numbers added or withdrawn through a down port, passed on to both parents. -/
def execRoute (port : Nat) (added : List (Nat × Bool)) (withdrawn : List Nat) (s : State) : Host.Outcome State Fault Refusal :=
  match s.takeUnit port 0x02 with
  | some s1 =>
    if portKind port != 0 then .next s1
    else
      let drop (d : Nat) : Bool := withdrawn.contains d || added.any (·.1 == d)
      let s2 := s1.modPort port fun x => { x with reach := x.reach.filter (fun e => !drop e.1) ++ added }
      let lost := withdrawn.filter fun d => downPorts.all fun q => !s2.reaches q d
      .next ((s2.sendAll upPortList (.route added lost)).pathsLost)
  | none => .next s

/-! ### BEAT and the lease (R530, R531, R539, R540) -/

/-- SYNC_REQ sent to the active Lead: from APPLIED_SERIAL, or from 0 where the domain slots are wanted again (R538, R540, R541). -/
def State.askSync (s : State) : State :=
  if s.tamper.latch == 3 then s
  else (s.setFab 2 0).sendTo s.hier.leadDev (.syncReq s.hier.leadDev (if s.hier.snapshotDue then 0 else s.hier.applied))

/-- Where a member stands against the last COMMIT_SERIAL: MEMBER, or SYNCING with a request (R540). -/
def State.catchUp (s : State) : State :=
  if s.hier.state = 1 then s
  else if s.hier.applied < s.hier.commitSerial || s.hier.snapshotDue then s.askSync
  else s.setFab 3 0

/-- A BEAT of the highest term taken: the Lead, the serial, the pending changes of older terms gone (R531, R532). -/
def State.takeBeat (term lead serial : Nat) (s : State) : State :=
  let newTerm := s.hier.term < term
  s.modHier fun h =>
    { h with term := term, leadDev := lead, commitSerial := serial, lastBeat := s.glob.uptimeMs, lastAnyBeat := s.glob.uptimeMs,
             candidate := none, votes := [], fwdSent := if newTerm then h.fwdSeq else h.fwdSent,
             pendings := h.pendings.filter fun c => term ≤ c.term }

/-- BEAT (R530, R539, R540): forwarded to the children; a level-1 device answers the active Lead and relays to the other one. -/
def execBeat (port term lead commitSerial : Nat) (s : State) : Host.Outcome State Fault Refusal :=
  match s.takeUnit port 0x03 with
  | some s1 =>
    if s1.hier.role = 0 then .next s1
    else if term < s1.hier.term || (s1.hier.activeLead && term = s1.hier.term) then
      .next (s1.modHier fun h => { h with lastAnyBeat := s1.glob.uptimeMs })
    else
      let s2 := (if s1.hier.term < term then s1.stepDown else s1).takeBeat term lead commitSerial
      let direct := portKind port = 1 && (s2.port port).peerDev == lead
      let s3 := if 2 ≤ s2.hier.role then s2.sendAll (s2.upOf downPorts) (.beat term lead commitSerial) else s2
      let s4 := if s3.hier.level = 1 && direct then
          (s3.sendAll ((s3.upOf upPortList).filter (· != port)) (.beat term lead commitSerial)).sendUnit port (.beatAck term)
        else s3
      .next s4.catchUp.forwardRecords
  | none => .next s

/-- BEAT_ACK (R530): a level-1 device renews the lease. -/
def execBeatAck (port dev term : Nat) (s : State) : Host.Outcome State Fault Refusal :=
  match s.takeUnit port 0x04 with
  | some s1 =>
    if s1.hier.activeLead && term == s1.hier.term && s1.hier.level1.contains dev then
      .next (s1.modHier fun h => { h with beatAcks := assocSet h.beatAcks dev s1.glob.uptimeMs })
    else .next s1
  | none => .next s

/-- BEAT_TIMER (R530): every 50 ms. -/
def execBeatTimer (s : State) : Host.Outcome State Fault Refusal :=
  if s.hier.activeLead && s.hier.beatSent + 50 ≤ s.glob.uptimeMs then .next s.sendBeat else .next s

/-- The level-1 devices whose BEAT_ACK came within the last 300 ms. -/
def State.leaseAcks (s : State) : Nat :=
  (s.hier.level1.filter fun d => s.hier.beatAcks.any fun a => a.1 == d && s.glob.uptimeMs < a.2 + 300).length

/-- LEASE_EXPIRE (R530): without a majority the active Lead steps down. -/
def execLeaseExpire (s : State) : Host.Outcome State Fault Refusal :=
  if s.hier.activeLead && s.leaseAcks < s.hier.majority then .next s.stepDown else .next s

/-- VOTE_TIMEOUT (R531): 400 ms without a BEAT of the current term; votes for the next term are asked for. -/
def execVoteTimeout (s : State) : Host.Outcome State Fault Refusal :=
  if s.hier.role = 3 && !s.hier.activeLead && s.hier.lastBeat + 400 ≤ s.glob.uptimeMs then
    let t := (s.hier.candidate.getD s.hier.term) + 1
    .next ((s.modHier fun h => { h with candidate := some t, votes := [], votePending := none, lastBeat := s.glob.uptimeMs }).sendAll
      (s.upOf downPorts) (.voteReq t s.hier.applied))
  else .next s

/-- The pending change of the highest serial. -/
def highest (l : List Change) : Option Change :=
  l.foldl (fun m c => match m with | none => some c | some x => if x.serial < c.serial then some c else some x) none

/-- VOTE_REQ (R531): a level-1 device that has seen no BEAT for 300 ms grants each term one vote. -/
def execVoteReq (port term _applied : Nat) (s : State) : Host.Outcome State Fault Refusal :=
  match s.takeUnit port 0x05 with
  | some s1 =>
    if s1.hier.level = 1 && s1.hier.role != 3 && s1.hier.lastBeat + 300 ≤ s1.glob.uptimeMs && !s1.hier.votedTerms.contains term && s1.hier.term < term then
      .next ((s1.modHier fun h => { h with votedTerms := term :: h.votedTerms }).sendUnit port (.vote term (highest s1.hier.pendings)))
    else .next s1
  | none => .next s

/-- VOTE (R531): with a majority the Lead becomes active in the term. -/
def execVote (port dev term : Nat) (pending : Option Change) (s : State) : Host.Outcome State Fault Refusal :=
  match s.takeUnit port 0x06 with
  | some s1 =>
    if s1.hier.role = 3 && s1.hier.candidate == some term && s1.hier.level1.contains dev then
      let votes := if s1.hier.votes.contains dev then s1.hier.votes else s1.hier.votes ++ [dev]
      let s2 := s1.modHier fun h => { h with votes := votes, votePending := highest (h.votePending.toList ++ pending.toList) }
      .next (if s2.hier.majority ≤ votes.length then s2.becomeActive term votes.length else s2)
    else .next s1
  | none => .next s

/-- PARTITION_TIMEOUT (R539): 1 s without any BEAT. -/
def execPartitionTimeout (s : State) : Host.Outcome State Fault Refusal :=
  if s.hier.role != 0 && !s.hier.activeLead && s.hier.state != 1 && s.hier.lastAnyBeat + 1000 ≤ s.glob.uptimeMs then .next (s.setFab 4 0)
  else .next s

/-! ### Changes (R532) -/

/-- CHANGE (R532, R540, R541): held as pending and acknowledged by a level-1 device or the standby; committed below level 1, it is applied in
serial order and passed on. -/
def execChange (port : Nat) (c : Change) (s : State) : Host.Outcome State Fault Refusal :=
  match s.takeUnit port 0x10 with
  | some s1 =>
    if s1.hier.role = 0 || s1.hier.activeLead || c.term < s1.hier.term then .next s1
    else
      let s2 := s1.modHier fun h => { h with term := Nat.max h.term c.term }
      if c.committed then
        if s2.hier.applied + 1 < c.serial then .next s2.askSync else .next (s2.applyNext c)
      else if s2.hier.level = 1 || s2.hier.role = 3 then
        if c.serial ≤ s2.hier.applied || s2.heldByAlarm c then .next s2
        else
          .next ((s2.modHier fun h => { h with pendings := upsert (·.serial) c h.pendings }).sendTo s2.hier.leadDev
            (.changeAck c.serial [s2.hier.device]))
      else .next s2
  | none => .next s

/-- COMMIT (R532): the pending change is applied; a level-1 device passes it on. -/
def execCommit (port term serial : Nat) (s : State) : Host.Outcome State Fault Refusal :=
  match s.takeUnit port 0x11 with
  | some s1 =>
    if s1.hier.role = 0 || s1.hier.activeLead || term < s1.hier.term || serial ≤ s1.hier.applied then .next s1
    else
      match s1.hier.pendings.find? fun c => c.serial == serial && c.term == term with
      | some c =>
        if s1.hier.applied + 1 < serial then .next s1.askSync
        else if s1.hier.role = 3 then .next (if s1.heldByAlarm c then s1 else s1.applyChange c)
        else .next (s1.applyNext c)
      | none => .next s1.askSync
  | none => .next s

/-- CHANGE_ACK (R532, R535): counted at the active Lead, where a majority commits the change; a staging counts for its device. -/
def execChangeAck (port serial : Nat) (devs : List Nat) (s : State) : Host.Outcome State Fault Refusal :=
  match s.takeUnit port 0x12 with
  | some s1 =>
    if !s1.hier.activeLead then .next s1
    else
      let old := s1.hier.acksOf serial
      let s2 := s1.modHier fun h => { h with acks := assocSet h.acks serial (old ++ devs.filter fun d => !old.contains d) }
      .next ((s2.commitReady s2.hier.pendings.length).settle s)
  | none => .next s

/-- DK_ACTIVATE_ISSUE (R535): every reachable device has staged and ACTIVATE_AFTER_S has passed, or STAGE_WAIT_S has. -/
def execDkActivateIssue (s : State) : Host.Outcome State Fault Refusal :=
  match s.hier.stageAt, s.keys.staged with
  | some t, some (v, _) =>
    let issued := s.hier.pendings.any fun c => match c.kind with | .dkActivate _ => true | _ => false
    let age := s.glob.uptimeMs - t
    if s.hier.activeLead && !issued &&
        ((1000 * s.hier.activateAfterS ≤ age && s.reachable ≤ s.stagedAcks) || 1000 * s.hier.stageWaitS ≤ age) then
      .next (s.issueChange (.dkActivate v))
    else .next s
  | _, _ => .next s

/-! ### Reconciliation (R540, R541) -/

/-- The whole of the domain for one device: shadows where it is no holder. -/
def State.snapshotFor (s : State) (holder : Bool) : SyncBody :=
  .snapshot s.hier.term s.hier.applied s.hier.domainId (s.keys.dks.map fun e => ⟨e.version, e.state, e.lc, e.dk⟩)
    ((s.keys.keys.filter (·.scope == 2)).map fun k =>
      ⟨k.slot, k.serial, k.attrs, if 0x200 ≤ k.slot && !holder then [] else k.material⟩) s.hier.level1 s.hier.remoteTimeoutMs

/-- A device the Lead reaches is a holder. -/
def State.isHolder (s : State) (dev : Nat) : Bool := (List.range 20).any fun p => (s.port p).reach.any fun e => e.1 == dev && e.2

/-- SYNC_REQ (R540): answered from the log of committed changes, or with a snapshot when the request is older than that log. -/
def execSyncReq (port src serial : Nat) (s : State) : Host.Outcome State Fault Refusal :=
  match s.takeUnit port 0x13 with
  | some s1 =>
    if !s1.hier.activeLead then .next s1
    else
      let oldest := (s1.hier.log.head?.map (·.serial)).getD (s1.hier.applied + 1)
      let body := if oldest ≤ serial + 1 then SyncBody.changes (s1.hier.log.filter fun c => serial < c.serial)
                  else s1.snapshotFor (s1.isHolder src || s1.otherLead == some src)
      .next (s1.sendTo src (.sync src body))
  | none => .next s

/-- Material fetched again for a slot that stands as a shadow, or is marked BAD, though the device holds it (R333, R538). -/
def State.refill (before : List Key) (c : Change) (s : State) : State :=
  match c.kind with
  | .dkeyPut slot _ material =>
    if before.any fun k => k.scope == 2 && k.slot == slot && ((k.shadow && s.keepsUpper) || k.bad) then
      let bad := before.any fun k => k.scope == 2 && k.slot == slot && k.bad
      let s1 := s.rewriteKey 2 0 slot fun k => { k with material := material, rows := rowsFor material.length, shadow := false, bad := false }
      if bad then s1.rewritten 4 (.slot 2 0 slot) else s1
    else s
  | _ => s

/-- A snapshot taken in whole (R540): the domain key table, the parameters and every domain slot. -/
def State.takeSnapshot (term serial : Nat) (dom : Bytes) (dks : List SnapDk) (slots : List SnapSlot) (level1 : List Nat) (timeout : Nat) (s : State) :
    State :=
  let changed := dks.any fun d => d.state == 1 && d.version != s.dkVersion
  let entry (d : SnapDk) : DkEntry :=
    match s.keys.dks.find? fun e => e.version == d.version with
    | some e => { e with state := d.state }
    | none => { version := d.version, state := d.state, lc := d.lc, domainId := padTo 16 dom, createdSeq := s.recordSeq, dk := d.dk }
  let table := (dks.filter fun d => d.lc == s.keys.lc.code).map entry
  let s1 := (s.keys.keys.filter (·.scope == 2)).foldl (fun t k => t.dropDomain k.slot k.rows) s
  let s2 := s1.modKeys fun k => { k with dks := table, staged := if changed then none else k.staged }
  let s3 := slots.foldl (fun t x => t.putDomain (t.domainKey x.slot x.serial x.attrs x.material)) s2
  let s4 := s3.modHier fun h => { h with term := Nat.max h.term term, applied := serial, level1 := level1, remoteTimeoutMs := timeout }
  if changed then s4.deriveSmks.advanceEpoch else s4

/-- The end of a reconciliation (R540, R546): counted, recorded, and MEMBER where nothing is missing any more. -/
def State.synced (oldSerial : Nat) (snapshot : Bool) (s : State) : State :=
  let s1 := (s.modHier fun h => { h with syncs := sat 16 (h.syncs + 1), snapshotDue := false }).record 0xA3 0 0
    (pack [(8, oldSerial), (8, s.hier.applied), (1, b2n snapshot)])
  if s1.hier.state = 1 || s1.hier.applied < s1.hier.commitSerial then s1 else s1.setFab 3 0

/-- SYNC (R538, R540, R541): the changes or the snapshot applied, and passed on to the children. A snapshot older than what the device has
applied is discarded. -/
def execSync (port : Nat) (b : SyncBody) (s : State) : Host.Outcome State Fault Refusal :=
  match s.takeUnit port 0x14 with
  | some s1 =>
    if s1.hier.role = 0 || s1.hier.activeLead || s1.tamper.latch == 3 then .next s1
    else
      match b with
      | .changes cs =>
        let keys := s1.keys.keys
        let s2 := cs.foldl (fun t c => if c.serial ≤ s1.hier.applied then t.refill keys c else t.applyNext c) s1
        .next ((s2.synced s1.hier.applied false).settle s)
      | .snapshot term serial dom dks slots level1 timeout =>
        if serial < s1.hier.applied then .next s1 else
        let s2 := s1.takeSnapshot term serial dom dks slots level1 timeout
        let s3 := s2.each (s2.upOf downPorts) fun p t => t.sendUnit p (.sync (t.port p).peerDev b)
        .next ((s3.synced s1.hier.applied true).settle s)
  | none => .next s

/-! ### Records (R544, R545) -/

/-- The aggregation ring has no free entry. -/
def Hier.aggFull (h : Hier) : Bool := (h.aggTail + 1) % 2 ^ h.aggLog2 == h.aggHead % 2 ^ h.aggLog2

/-- One record written to the aggregation ring, where there is room: the state and the highest SEQ written. -/
def State.aggregate (src : Nat) (a : State × Option Nat) (r : Bytes) : State × Option Nat :=
  let h := a.1.hier
  if h.aggFull then a
  else
    let e := leBytes 2 src ++ zeros 2 ++ leBytes 4 h.term ++ zeros 8 ++ padTo 64 r
    ((a.1.emit (.write none (h.aggBase + 80 * h.aggTail) e)).modHier fun x => { x with aggTail := (x.aggTail + 1) % 2 ^ x.aggLog2 },
     some (fieldLe r 0 8))

/-- RECORD (R545): written to the ring; the acknowledgement is withheld while the ring is full. -/
def execRecord (port src : Nat) (recs : List Bytes) (s : State) : Host.Outcome State Fault Refusal :=
  match s.takeUnit port 0x30 with
  | some s1 =>
    if !s1.hier.activeLead then .next s1
    else
      let (s2, top) := recs.foldl (State.aggregate src) (s1, none)
      match top with
      | some q =>
        if s2.hier.aggFull then .next (s2.modHier fun h => { h with aggHeldAcks := assocSet h.aggHeldAcks src q })
        else .next (s2.sendTo src (.recordAck src q))
      | none => .next s2
  | none => .next s

/-- AGG_HEAD (R545, R548): entries freed; the acknowledgements withheld go out. -/
def State.aggHeadWrite (value : Nat) (s : State) : State :=
  let s1 := s.modHier fun h => { h with aggHead := value % 2 ^ 20 }
  if s1.hier.aggFull || !s1.hier.activeLead then s1
  else
    (s1.hier.aggHeldAcks.foldl (fun t (a : Nat × Nat) => t.sendTo a.1 (.recordAck a.1 a.2)) (s1.modHier fun h => { h with aggHeldAcks := [] }))

/-- AGG_HEAD: the host's write, admitted or refused (R65). -/
def execAggHead (value : Nat) (s : State) : Host.Outcome State Fault Refusal := .next (s.hostReg 0 0xC0040 (State.aggHeadWrite value))

/-- RECORD_ACK (R544): FWD_SEQ moves on, and further records may go. -/
def execRecordAck (port seq : Nat) (s : State) : Host.Outcome State Fault Refusal :=
  match s.takeUnit port 0x31 with
  | some s1 => .next (s1.modHier fun h => { h with fwdSeq := Nat.max h.fwdSeq seq }).forwardRecords
  | none => .next s

/-! ### Commands (R547) -/

/-- The registers of R548, in their order. -/
def State.hierRegs (s : State) : List (Fld × Bytes) :=
  let h := s.hier
  let i (n v : Nat) : Fld × Bytes := (.int n, leBytes n v)
  [i 4 (h.role + b2n h.holder * 4 + h.fwdGrade * 8 + h.device * 2 ^ 16),
   i 4 (h.state + b2n h.activeLead * 8 + h.level * 16 + h.cause * 2 ^ 8 + h.leadDev * 2 ^ 16), i 4 h.term, i 8 h.applied,
   i 8 h.commitSerial, (.str 16, h.domainId), i 4 (s.dkVersion + ((s.keys.staged.map Prod.fst).getD 0) * 2 ^ 8),
   i 4 (s.reachable + s.stagedAcks * 2 ^ 15), i 8 h.fwdSeq, i 4 h.aggHead, i 4 h.aggTail, i 4 (h.syncs + h.remoteFails * 2 ^ 16)]

/-- FAB_STATUS. -/
def fabStatusRun : Run := fun _ _ _ s =>
  .done .done 0 (layBytes (s.hierRegs ++ s.ports.flatMap fun p => [(.int 1, leBytes 1 p.st.code), (.int 2, leBytes 2 p.peerDev)])) 0 s

/-- FAB_STATUS's row of the index. -/
def fabStatusCmd : Cmd := { op := 0x700, auth := authMgrOw }

/-- FAB_STATUS. -/
def execFabStatus (c : Caller) (s : State) : Host.Outcome State Fault Refusal := .next (s.command c fabStatusCmd fabStatusRun)

/-- Parameters of FAB_ROLE_SET. -/
def fabRoleFlds : List Fld := [.int 2, .int 1, .int 2, .str 16, .int 1, .int 1, .int 1, .arr 2 16, .int 2, .int 8, .int 1]

/-- The values FAB_ROLE_SET asks for, each the one in force where its mask bit is clear. -/
structure RoleReq where
  role : Nat
  device : Nat
  domainId : Bytes
  holder : Nat
  fwdGrade : Nat
  level1 : List Nat
  timeout : Nat
  aggBase : Nat
  aggLog2 : Nat
  lead : Bool
deriving DecidableEq, Repr

/-- The request of a packet. -/
def State.roleReq (s : State) (p : Packet) : RoleReq :=
  let m := p.int fabRoleFlds 0
  let f := p.int fabRoleFlds
  let h := s.hier
  let pick (b i cur : Nat) : Nat := if bit m b then f i else cur
  let n := Nat.min 16 (f 6)
  { role := pick 0 1 h.role, device := pick 1 2 h.device, domainId := if bit m 2 then p.str fabRoleFlds 3 else h.domainId,
    holder := pick 3 4 (b2n h.holder), fwdGrade := pick 4 5 h.fwdGrade,
    level1 := if bit m 5 then (List.range n).map fun i => fieldLe (p.str fabRoleFlds 7) (2 * i) 2 else h.level1,
    timeout := pick 6 8 h.remoteTimeoutMs, aggBase := pick 7 9 h.aggBase, aggLog2 := pick 8 10 h.aggLog2, lead := bits m 5 4 != 0 }

/-- A value outside its range (R524, R543, R547), a Lead's field at another role, or a domain other than the table's. -/
def State.roleRange (s : State) (p : Packet) (r : RoleReq) : Bool :=
  3 < r.role || 16383 < r.device || 1 < r.holder || 7 < r.fwdGrade || (bit (p.int fabRoleFlds 0) 5 && 16 < p.int fabRoleFlds 6) ||
  r.level1.any (16383 < ·) || r.timeout < 10 || 1000 < r.timeout || (r.lead && r.role != 3) ||
  (bit (p.int fabRoleFlds 0) 8 && (r.aggLog2 < 10 || 20 < r.aggLog2)) ||
  (bit (p.int fabRoleFlds 0) 2 && s.keys.dks.any fun e => e.domainId != padTo 16 r.domainId)

/-- A changed HOLDER bit advertised on both up ports (R529), and the material it wants asked for (R538). -/
def State.holderChanged (old : Bool) (s : State) : State :=
  if s.hier.holder == old then s
  else
    let s1 := s.sendAll upPortList (.route [(s.hier.device, s.hier.holder)] [])
    if s1.hier.snapshotDue && s1.hier.state == 3 && !s1.hier.activeLead then s1.askSync else s1

/-- The hierarchy's configuration written (R524, R538). A device that takes a role waits for the domain's state; one that gives its role up
has none. -/
def State.setRole (r : RoleReq) (s : State) : State :=
  let h := s.hier
  let s1 := s.modHier fun h =>
    { h with role := r.role, device := r.device, domainId := r.domainId, holder := r.holder == 1, fwdGrade := r.fwdGrade,
             aggBase := r.aggBase, aggLog2 := r.aggLog2, snapshotDue := h.snapshotDue || (r.holder == 1 && !h.holder && r.role != 3) || (h.role = 0 && r.role != 0),
             lastBeat := if h.role = r.role then h.lastBeat else s.glob.uptimeMs,
             lastAnyBeat := if h.role = r.role then h.lastAnyBeat else s.glob.uptimeMs }
  let s2 := if s1.keepsUpper then s1 else s1.shedUpper
  if r.role = h.role then s2.holderChanged h.holder
  else
    let s3 := s2.stepDown
    (if r.role = 0 then (s3.setFab 0 0).modHier fun x => { x with level := 7, snapshotDue := false }
     else if h.role = 0 then s3.setFab 2 0 else s3).refreshLevel

/-- FAB_ROLE_SET (R524, R532, R533, R538): at the active Lead a level-1 list or REMOTE_TIMEOUT_MS goes out as a PARAM change. -/
def fabRoleSetRun : Run := fun _ p _ s =>
  let r := s.roleReq p
  let h := s.hier
  let held := r.role != h.role || r.device != h.device || r.domainId != h.domainId
  if held && s.ports.any (·.en) then .done .cfgHeld 0 [] 0 s
  else if s.roleRange p r then .done .inputRange 0 [] 0 s
  else
    let fell := h.holder && r.holder == 0 && r.role != 3
    let s1 := s.setRole r
    if h.activeLead && r.role == 3 && bits (p.int fabRoleFlds 0) 5 2 != 0 then s1.issueFor (.param r.level1 r.timeout) [] 0
    else
      let s2 := s1.modHier fun x => { x with level1 := r.level1, remoteTimeoutMs := r.timeout }
      if fell then .hold (.dropCopies 2 0 0x200 false) [] 0 s2 else .done .done 0 [] 0 s2

/-- FAB_ROLE_SET's row of the index. -/
def fabRoleSetCmd : Cmd := { op := 0x701, auth := authMgr, flds := fabRoleFlds, paramOk := fun _ p => p.int fabRoleFlds 0 < 512 }

/-- FAB_ROLE_SET. -/
def execFabRoleSet (c : Caller) (s : State) : Host.Outcome State Fault Refusal := .next (s.command c fabRoleSetCmd fabRoleSetRun)

/-- Parameters of DK_CREATE. -/
def dkCreateFlds : List Fld := [.str 16]

/-- DK_CREATE (R534): the first domain key of the domain, drawn after a reseed with prediction resistance. -/
def dkCreateRun : Run := fun c p _ s =>
  if !s.keys.dks.isEmpty || p.str dkCreateFlds 0 != s.hier.domainId then .done .inputRange 0 [] 0 s
  else
    match s.cmdDraw c 32 true 0 with
    | .inr r => r
    | .inl (dk, t) => t.issueFor (.dkNew dk t.hier.domainId) [] 0

/-- Accepted only at the active Lead (R533). -/
def authLead : Auth := fun s w p => authMgr s w p && s.hier.activeLead

/-- DK_CREATE's row of the index. -/
def dkCreateCmd : Cmd := { op := 0x702, auth := authLead, flds := dkCreateFlds, quorum := fun _ _ _ => true, alarmBar := true }

/-- DK_CREATE. -/
def execDkCreate (c : Caller) (s : State) : Host.Outcome State Fault Refusal := .next (s.command c dkCreateCmd (inTurn 0x702 dkCreateCmd.obj dkCreateRun))

/-- Parameters of DK_ROLLOVER: ACTIVATE_AFTER_S, STAGE_WAIT_S. -/
def rolloverFlds : List Fld := [.int 4, .int 4]

/-- A rollover has not been activated yet (R535). -/
def State.rolling (s : State) : Bool :=
  s.keys.staged.isSome || s.hier.pendings.any fun c => match c.kind with | .dkStage _ _ => true | _ => false

/-- DK_ROLLOVER (R535): the next version drawn and staged. -/
def dkRolloverRun : Run := fun c p _ s =>
  let v := s.dkVersion
  if v = 255 then .done .quota 0 [] 0 s
  else if s.rolling then .done .sliceBusy 0 [] 0 s
  else if v = 0 then .done .notReady 0 [] 0 s
  else
    match s.cmdDraw c 32 true 0 with
    | .inr r => r
    | .inl (dk, t) =>
      (t.modHier fun h => { h with activateAfterS := p.int rolloverFlds 0, stageWaitS := p.int rolloverFlds 1 }).issueFor
        (.dkStage (v + 1) dk) (leBytes 1 (v + 1)) 0

/-- DK_ROLLOVER's row of the index. -/
def dkRolloverCmd : Cmd :=
  { op := 0x703, auth := authLead, flds := rolloverFlds, quorum := fun _ _ _ => true, alarmBar := true,
    paramOk := fun _ p => p.int rolloverFlds 0 ≤ 86400 && 1 ≤ p.int rolloverFlds 1 && p.int rolloverFlds 1 ≤ 86400 }

/-- DK_ROLLOVER. -/
def execDkRollover (c : Caller) (s : State) : Host.Outcome State Fault Refusal := .next (s.command c dkRolloverCmd dkRolloverRun)

/-- DK_STATUS: the four entries without their DKs, the staged version, STAGED_ACKS and REACHABLE. -/
def dkStatusRun : Run := fun _ _ _ s =>
  let entry (i : Nat) : List (Fld × Bytes) :=
    match s.keys.dks[i]? with
    | some e => [(.int 1, leBytes 1 e.version), (.int 1, leBytes 1 e.state), (.int 1, leBytes 1 e.lc), (.str 16, e.domainId), (.int 8, leBytes 8 e.createdSeq)]
    | none => [(.int 1, [0]), (.int 1, [0]), (.int 1, [0]), (.str 16, zeros 16), (.int 8, zeros 8)]
  .done .done 0 (layBytes (([0, 1, 2, 3].flatMap entry) ++
    [(.int 1, leBytes 1 ((s.keys.staged.map Prod.fst).getD 0)), (.int 2, leBytes 2 s.stagedAcks), (.int 2, leBytes 2 s.reachable)])) 0 s

/-- DK_STATUS's row of the index. -/
def dkStatusCmd : Cmd := { op := 0x704, auth := authMgrOw }

/-- DK_STATUS. -/
def execDkStatus (c : Caller) (s : State) : Host.Outcome State Fault Refusal := .next (s.command c dkStatusCmd dkStatusRun)

end Sys2Proof.Machine
end

