-- ==== Sys2Proof/Machine/KeyMake.lean ====
section
/-! DEFINITION. Making a key (R323 to R330, R341 to R343): what a class holds and permits, the checks on its material, its place in a
namespace, and who may name or make it (R339). -/

namespace Sys2Proof.Machine

/-! ### Classes (R326, R328) -/

/-- A public class. -/
def publicClass (cls : Nat) : Bool := [6, 8, 10, 12, 14].contains cls

/-- Modulus bytes an RSA class takes. -/
def rsaSize (k : Nat) : Bool := k % 8 == 0 && 128 ≤ k && k ≤ 2048

/-- CLASS, PARAM and material length agree (R326). -/
def classLen (cls param len : Nat) : Bool :=
  let zero := param == 0
  let set := 1 ≤ param && param ≤ 3
  match cls with
  | 1 => zero && (len == 16 || len == 24 || len == 32)
  | 2 => zero && (len == 32 || len == 64)
  | 3 => zero && len == 32
  | 4 => 1 ≤ param && param ≤ 6 && len == 2 * funcState param
  | 5 => zero && (let k := rsaBytes 5 len; rsaSize k && 2 * len == 7 * k + 8)
  | 6 => zero && 4 ≤ len && rsaSize (len - 4)
  | 7 => 1 ≤ param && param ≤ 5 && len == curveField param
  | 8 => 1 ≤ param && param ≤ 5 && len == curvePub param
  | 9 => (param == 6 || param == 7) && len == curveField param
  | 10 => (param == 6 || param == 7) && len == curvePub param
  | 11 => set && len == 64
  | 12 => set && len == kemPub param
  | 13 => set && len == 32
  | 14 => set && len == dsaPub param
  | 15 => zero && 16 ≤ len && len ≤ 64
  | _ => false

/-- The USAGE bits that permit an operation of a class (R328). -/
def classUsage (cls scope : Nat) : List Nat :=
  (match cls with
    | 1 => [0, 1, 2, 3, 12, 13]
    | 2 => [0, 1]
    | 3 => [0, 1]
    | 4 => [4, 5]
    | 5 => [6, 7, 10, 11, 16]
    | 6 => [7]
    | 7 => [6, 8, 11, 16, 18]
    | 8 => [7]
    | 9 => [6, 16]
    | 10 => [7]
    | 11 => [9, 11, 13, 16, 18]
    | 13 => [6, 16]
    | 14 => [7]
    | 15 => [18]
    | _ => []) ++ [14, 15] ++ (if scope = 2 then [17] else [])

/-- A USAGE names no bit that permits nothing of its class (R330), and MODES no reserved bit. -/
def usageOk (cls scope usage modes : Nat) : Bool :=
  ((List.range 32).all fun i => !bit usage i || (classUsage cls scope).contains i) && modes < 2 ^ 13 && modes % 2 == 0

/-! ### Material (R343) -/

/-- n and e of an RSA key: n of full length and odd, e odd and at least 3. -/
def rsaPublicOk (r : RsaKey) : Bool := modulusOk r.n (r.k / 8) && r.e % 2 == 1 && 3 ≤ r.e

/-- The CRT values of an RSA key agree with p, q and e. -/
def rsaPrivateOk (r : RsaKey) : Bool :=
  rsaPublicOk r && 3 ≤ r.p && 3 ≤ r.q && r.n == r.p * r.q && r.e * r.dP % (r.p - 1) == 1 && r.e * r.dQ % (r.q - 1) == 1 &&
  r.q * r.qInv % r.p == 1

/-- The check of a class's material, of a length that fits: the first failure. -/
def materialFault (cls param : Nat) (m : Bytes) : Option Status :=
  let no (b : Bool) : Option Status := if b then none else some .inputRange
  match cls with
  | 2 => no (m.take (m.length / 2) != m.drop (m.length / 2))
  | 5 => no (rsaPrivateOk (rsaKeyOf (rsaBytes 5 m.length) m))
  | 6 => no (rsaPublicOk (rsaKeyOf (rsaBytes 6 m.length) m))
  | 7 => no (4 ≤ param || inRange (ofBe m) (Config.curveN param))
  | 8 => if 4 ≤ param then none else pointCheck param m
  | 10 => if Config.primCheck (.eddsaKeyDecodes param) [m] then none else some .notOnCurve
  | 12 => no (Config.primCheck (.mlkemModulus param) [m])
  | 14 => no (Config.primCheck (.mldsaKeyDecodes param) [m])
  | _ => none

/-- What the rows of a key hold from the material given: the pad states of K for a keyed-digest key (R224, R343). -/
def rowMaterial (cls param : Nat) (m : Bytes) : Status ⊕ Bytes :=
  if cls = 4 then
    if 1 ≤ param ∧ param ≤ 6 ∧ 1 ≤ m.length ∧ m.length ≤ 3968 then .inr (padStates param m) else .inl .inputRange
  else if !classLen cls param m.length then .inl .inputRange
  else
    match materialFault cls param m with
    | some st => .inl st
    | none => .inr m

/-! ### A key's place (R324) -/

/-- The slots a namespace has. -/
def slotsOf (scope : Nat) : Nat := if scope = 1 then 0x3FFFF else 0x400

/-- The runs taken in a namespace: those of keys, and for the domain those of changes not yet committed. -/
def State.taken (s : State) (scope slice : Nat) : List (Nat × Nat) :=
  (s.keys.keys.filter fun k => k.scope == scope && (scope != 1 || k.slice == slice)).map (fun k => (k.slot, k.rows)) ++
  (if scope = 2 then s.hier.pendings.filterMap fun c => match c.kind with | .dkeyPut slot _ m => some (slot, rowsFor m.length) | _ => none
   else [])

/-- The lowest free run of a namespace; a two-row keyed-digest key starts on an even slot. -/
def State.freeRun (s : State) (scope slice rows : Nat) (even : Bool) : Option Nat :=
  let l := s.taken scope slice
  let up (a : Nat) : Nat := if even then (a + 1) / 2 * 2 else a
  let fits (a : Nat) : Bool := a + rows ≤ slotsOf scope && l.all fun r => a + rows ≤ r.1 || r.1 + r.2 ≤ a
  ((0 :: l.map (fun r => up (r.1 + r.2))).filter fits).foldl (fun m a => match m with | none => some a | some b => some (Nat.min a b)) none

/-- A slice's quota and the pool allow more rows (R93). -/
def State.rowsAllowed (s : State) (scope slice rows : Nat) : Bool :=
  scope == 2 || (s.keyUsed slice + rows ≤ (s.slice slice).keyQuota && rows ≤ s.sliceRowsFree)

/-- What a key is to be, before it has a slot. -/
structure NewKey where
  scope : Nat
  slice : Nat
  cls : Nat
  param : Nat
  usage : Nat
  modes : Nat
  any : Bool
  keyId : Nat
  origin : Nat
  material : Bytes
deriving DecidableEq, Repr

/-- The handle in a reply. -/
def handleReply (h : Nat) : Bytes := layInts [(4, h)]

/-- The key made: installed in its run (R324), or for the domain issued as a change (R532), its CREATED the number of the command's record. -/
def State.install (v : NewKey) (s : State) : Ran :=
  let len := v.material.length
  let rows := rowsFor len
  match s.freeRun v.scope v.slice rows (v.cls = 4 && rows = 2) with
  | some slot =>
    let k : Key := { scope := v.scope, slice := v.slice, slot := slot, rows := rows, cls := v.cls, param := v.param, len := len,
                     material := v.material, origin := v.origin, anySlice := v.any, usage := BitVec.ofNat 32 v.usage,
                     modes := BitVec.ofNat 16 v.modes, dkVersion := 0, keyId := v.keyId, created := s.recordSeq, bad := false,
                     shadow := false, serial := 0 }
    if !s.rowsAllowed v.scope v.slice rows then .done .quota 0 [] 0 s
    else if v.scope = 2 then s.issueFor (.dkeyPut slot k.attrs k.material) (handleReply k.handle) k.handle
    else .done .done 0 (handleReply k.handle) k.handle ((s.overwrite k.places).modKeys fun x => { x with keys := x.keys ++ [s.seal k] })
  | none => .done .quota 0 [] 0 s

/-- A key made from material that still stands to be checked (R343), then policy (R330), then its place. -/
def State.make (v : NewKey) (s : State) : Ran :=
  match rowMaterial v.cls v.param v.material with
  | .inl st => .done st 0 [] 0 s
  | .inr m => if !usageOk v.cls v.scope v.usage v.modes then .done .keyPolicy 0 [] 0 s else s.install { v with material := m }

/-! ### Who names a key (R339) -/

/-- A caller names a key of its own scope: the owning slice, or a manager for the domain; SCOPE 3 is malformed, not denied (R323). A
change of the domain is accepted only at the active Lead (R533). -/
def scopeAuth (scope slice : Nat) (change : Bool) : Auth := fun s w p =>
  match w with
  | .slice n => scope == 3 || (scope == 1 && slice == n)
  | .mgr _ => authMgr s w p && (scope == 3 || (scope == 2 && (!change || s.hier.activeLead)))
  | _ => false

/-- The authority of a command that names a key by its first parameter. -/
def handleAuth (l : List Fld) (change : Bool) : Auth := fun s w p =>
  scopeAuth (hScope (p.int l 0)) (hSlice (p.int l 0)) change s w p

/-- The scope a caller makes keys in where no parameter names one: a slice its own, a manager the domain's. -/
def Who.makes : Who → Nat
  | .slice _ => 1
  | .mgr _ => 2
  | _ => 0

/-- The slice of a caller; 0 for a manager. -/
def Who.sliceNo : Who → Nat
  | .slice n => n
  | _ => 0

/-- The caller is a slice, or a manager with a session; a change of the domain only at the active Lead. -/
def makerAuth (change : Bool) : Auth := fun s w p => scopeAuth w.makes w.sliceNo change s w p

/-- A KEY_DELETE or KEY_SET_POLICY runs on a handle (R339). -/
def State.changing (s : State) (h : Nat) : Bool := s.jobOn [0x208, 0x209] h

/-- The key a custody command names (R323, R324, R333, R339). -/
def State.named (s : State) (h : Nat) (badOk again : Bool) : Status ⊕ Key :=
  if !again && s.changing h then .inl .sliceBusy
  else if hScope h = 2 ∧ (hSlice h ≠ 0 ∨ hBlob h) then .inl .keyPolicy
  else
    match s.lookSlot (hScope h) (hSlice h) (hSlot h) with
    | .empty => .inl .keyAbsent
    | .inside => .inl .keyPolicy
    | .key k => if k.bad && !badOk then .inl .keySlotBad else .inr k

/-- A named key whose material is needed: a shadow's is absent here. -/
def State.namedHere (s : State) (h : Nat) (again : Bool) : Status ⊕ Key :=
  match s.named h false again with
  | .inr k => if k.shadow then .inl .keyAbsent else .inr k
  | x => x

/-- A key-encryption key a caller may use (R342): the scope rules of R329 for a slice, the domain for a manager. -/
def State.kek (s : State) (w : Who) (h useBit : Nat) (kem : Bool) : Status ⊕ Key :=
  match s.namedHere h false with
  | .inl st => .inl st
  | .inr k =>
    let mine := match w with
      | .slice n => (k.scope == 1 && k.slice == n) || (k.scope == 2 && (k.anySlice || k.slice == n))
      | _ => k.scope == 2
    if mine && k.usage.getLsbD useBit && (if kem then k.cls == 11 else k.cls == 1 && k.len == 32) then .inr k else .inl .keyPolicy

/-- A caller may name a key-encryption key: its own scope, or the domain's. -/
def kekAuth (h : Nat) (w : Who) : Bool :=
  match hScope h with
  | 3 => true
  | 2 => true
  | 1 => w == .slice (hSlice h)
  | _ => false

end Sys2Proof.Machine
end

