-- ==== Sys2Proof/Machine/Keys.lean ====
section
/-! DEFINITION. The commands of key custody (R320, R321, R339 to R345), the sweep (R332, R333), the advance of KEY_EPOCH (R349) and the end of
an import that gets no next part (R344). -/

namespace Sys2Proof.Machine

/-! ### Generation and import -/

/-- Parameters of KEY_GENERATE: SCOPE, CLASS, PARAM, LEN, USAGE, MODES, ANY_SLICE, SLICE, KEY_ID. -/
def generateFlds : List Fld := [.int 1, .int 1, .int 1, .int 2, .int 4, .int 2, .int 1, .int 2, .int 8]

/-- Bytes KEY_GENERATE draws for a class (R343): K of the function's output length, a scalar with 8 bytes to spare, or the material. -/
def drawLen (cls param len : Nat) : Nat :=
  if cls = 4 then funcLen param
  else if cls = 7 ∧ param ≤ 3 then curveField param + 8
  else if cls = 5 then 64 else len

/-- The material of a generated key from its drawn bytes: an RSA key by its standard's method, a scalar in range. -/
def generated (cls param len : Nat) (b : Bytes) : Bytes :=
  if cls = 5 then Config.prim .rsaKeygen [b, leBytes 2 len] len
  else if cls = 7 ∧ param ≤ 3 then beBytes (curveField param) (ofBe b % (Config.curveN param - 1) + 1)
  else b

/-- The channel whose big-number engine generates an RSA key is the trusted world's while it does (R250, R343): the lowest that is free. Its
operand memory is wiped for the new owner. -/
def State.rsaEngine (cls : Nat) (s : State) : State :=
  if cls != 5 then s
  else
    match (List.range 36).find? fun n => (s.ch n).inService && (s.ch n).mcState == .active && (s.ch n).pkRun.isNone with
    | some n => s.modCh n fun c => { c with bnOwner := some .tw, regKey := [], regIn := [], regWork := [], regResult := [] }
    | none => s

/-- KEY_GENERATE (R330, R343). -/
def keyGenerateRun : Run := fun c p _ s =>
  let f := p.int generateFlds
  let w := s.who c
  let (scope, cls, param, len) := (f 0, f 1, f 2, f 3)
  let rows := rowsFor len
  let slice := if scope = 2 then f 7 else w.sliceNo
  if publicClass cls || !classLen cls param len then .done .inputRange 0 [] 0 s
  else if !usageOk cls scope (f 4) (f 5) then .done .keyPolicy 0 [] 0 s
  else if (s.freeRun scope slice rows (cls = 4 && rows = 2)).isNone || !s.rowsAllowed scope slice rows then .done .quota 0 [] 0 s
  else
    match s.cmdDraw c (drawLen cls param len) true 0 with
    | .inr r => r
    | .inl (b, t) =>
      let m := generated cls param len b
      if cls = 2 && m.take (len / 2) == m.drop (len / 2) then .hold .draw [] 0 t
      else
        (t.rsaEngine cls).install
          { scope := scope, slice := slice, cls := cls, param := param, usage := f 4, modes := f 5, any := f 6 == 1, keyId := f 8, origin := 0,
            material := if cls = 4 then padStates param m else m }

/-- The parameters of a generation: SCOPE 3, a reserved bit, or fields of scope 2 with another scope are malformed (R323, R362). -/
def generateOk (p : Packet) : Bool :=
  let f := p.int generateFlds
  f 0 != 3 && f 4 < 2 ^ 19 && f 5 < 2 ^ 13 && f 5 % 2 == 0 && f 6 ≤ 1 && f 7 < Config.slices && (f 0 == 2 || (f 6 == 0 && f 7 == 0))

/-- KEY_GENERATE's row of the index. -/
def keyGenerateCmd : Cmd :=
  { op := 0x200, auth := fun s w p => scopeAuth (p.int generateFlds 0) w.sliceNo true s w p, flds := generateFlds,
    quorum := fun _ _ p => p.int generateFlds 0 == 2, paramOk := fun _ p => generateOk p, blankBar := true }

/-- KEY_GENERATE. -/
def execKeyGenerate (c : Caller) (s : State) : Host.Outcome State Fault Refusal := .next (s.command c keyGenerateCmd keyGenerateRun)

/-- SLICE and ANY_SLICE of a domain key whose making names neither: free (log entry 40). -/
def State.openScope (scope slice : Nat) (s : State) : (Nat × Bool) × State :=
  if scope = 2 then
    let (b, t) := s.freeBytes 2
    ((ofLe b % 4096, bit (ofLe b) 12), t)
  else ((slice, false), s)

/-- A package opened by KWP: what it wraps, with its MLI (R341). -/
def openPackage (key pkg : Bytes) : Option (Bytes × Nat) :=
  if 16 ≤ pkg.length ∧ pkg.length % 8 = 0 then unwrapKey 17 key pkg else none

/-- A FORMAT 1 package: the shared secret of its ciphertext, and the LEN under whose key it opens (R341). -/
def openKem (set : Nat) (seed data : Bytes) : Option (Bytes × Nat) :=
  let ct := data.take (kemCt set)
  let pkg := data.drop (kemCt set)
  let ss := Config.prim (.mlkemDecaps set) [seed, ct] 32
  let n := pkg.length - 8
  ((List.range 8).filterMap fun i =>
    if 40 + i ≤ n then
      match openPackage (kdf ss "ZV1600 IMPORT" (leBytes 2 (n - 40 - i)) 32) pkg with
      | some (b, m) => if m = n - i then some (b, m) else none
      | none => none
    else none).head?

/-- A key as a package's attributes describe it (R341), with bits cleared by the masks. -/
def packageKey (b : Bytes) (mli clearU clearM : Nat) (scope slice : Nat) (any : Bool) : NewKey :=
  let k := keyOf (sub b 40 (mli - 40)) (b.take 40)
  { scope := scope, slice := slice, cls := k.cls, param := k.param, usage := (k.usage &&& ~~~ BitVec.ofNat 32 clearU).toNat,
    modes := (k.modes &&& ~~~ BitVec.ofNat 16 clearM).toNat, any := any, keyId := k.keyId, origin := 2, material := sub b 40 (mli - 40) }

/-- Parameters of KEY_IMPORT_WRAPPED: KEK, FORMAT, clear masks of USAGE and MODES. -/
def importFlds : List Fld := [.int 4, .int 1, .int 4, .int 2]

/-- KEY_IMPORT_WRAPPED (R341 to R344). -/
def keyImportWrappedRun : Run := fun c p _ s =>
  let f := p.int importFlds
  let w := s.who c
  match s.kek w (f 0) 13 (f 1 == 1) with
  | .inl st => .done st 0 [] 0 s
  | .inr k =>
    match (if f 1 = 1 then openKem k.param k.material p.data else openPackage k.material p.data) with
    | none => .done .authFail 0 [] 0 s
    | some (b, mli) =>
      if mli < 40 || mli != 40 + bits (fieldLe b 0 4) 16 14 then .done .inputRange 0 [] 0 s
      else
        let ((sl, any), t) := s.openScope w.makes w.sliceNo
        t.make (packageKey b mli (f 2) (f 3) w.makes sl any)

/-- KEY_IMPORT_WRAPPED's row of the index. -/
def keyImportWrappedCmd : Cmd :=
  { op := 0x201, auth := fun s w p => makerAuth true s w p && kekAuth (p.int importFlds 0) w, flds := importFlds, data := true, parts := .multi,
    quorum := fun _ w _ => w.makes == 2, paramOk := fun _ p => hScope (p.int importFlds 0) != 3 && p.int importFlds 1 ≤ 1,
    keys := fun p => [p.int importFlds 0],
    alarmBar := true, blankBar := true }

/-- KEY_IMPORT_WRAPPED. -/
def execKeyImportWrapped (c : Caller) (s : State) : Host.Outcome State Fault Refusal :=
  .next (s.command c keyImportWrappedCmd keyImportWrappedRun)

/-- Parameters of KEY_IMPORT_CLEAR: attributes. -/
def clearFlds : List Fld := [.str 40]

/-- The attributes of KEY_IMPORT_CLEAR. -/
def Packet.attrKey (p : Packet) : Key := keyOf [] (p.str clearFlds 0)

/-- KEY_IMPORT_CLEAR (R343, R344): LEN is the length of the material carried. -/
def keyImportClearRun : Run := fun c p _ s =>
  let k := p.attrKey
  if k.len != p.data.length then .done .inputRange 0 [] 0 s
  else
    s.make { scope := k.scope, slice := if k.scope = 2 then k.slice else (s.who c).sliceNo, cls := k.cls, param := k.param,
             usage := k.usage.toNat, modes := k.modes.toNat, any := k.scope == 2 && k.anySlice, keyId := k.keyId, origin := 1,
             material := p.data }

/-- No reserved bit of the attributes is set, and SCOPE is not 3. -/
def attrsOk (a : Bytes) : Bool :=
  bits (fieldLe a 0 4) 30 2 != 3 && !bit (fieldLe a 4 4) 31 && fieldLe a 8 4 < 2 ^ 19 && fieldLe a 0xC 2 < 2 ^ 13 && fieldLe a 0xC 2 % 2 == 0 &&
  fieldLe a 0xF 1 == 0 && fieldLe a 0x20 8 == 0

/-- A secret class imported in clear outside DEVELOPMENT needs a quorum (R344, R389). -/
def State.clearQuorum (s : State) (p : Packet) : Bool :=
  p.attrKey.scope == 2 || (!publicClass p.attrKey.cls && (s.keys.lc == .production || s.keys.lc == .returned))

/-- KEY_IMPORT_CLEAR's row of the index. -/
def keyImportClearCmd : Cmd :=
  { op := 0x202, auth := fun s w p => scopeAuth p.attrKey.scope w.sliceNo true s w p, flds := clearFlds, data := true, parts := .multi,
    quorum := fun s _ p => s.clearQuorum p, paramOk := fun _ p => attrsOk (p.str clearFlds 0), blankBar := true }

/-- KEY_IMPORT_CLEAR. -/
def execKeyImportClear (c : Caller) (s : State) : Host.Outcome State Fault Refusal := .next (s.command c keyImportClearCmd keyImportClearRun)

/-! ### Exports -/

/-- Data bytes of a part (R344). -/
def partBytes : Nat := 3968

/-- The part an export asks for (R344). -/
def exportPart (data : Bytes) (p : Packet) (obj : Nat) (s : State) : Ran :=
  let count := Nat.max 1 ((data.length + partBytes - 1) / partBytes)
  if count ≤ p.part then .done .descMalformed 11 [] obj s
  else .part ((data.drop (partBytes * p.part)).take partBytes) count obj s

/-- Parameters of KEY_EXPORT_WRAPPED: key, KEK. -/
def exportFlds : List Fld := [.int 4, .int 4]

/-- KEY_EXPORT_WRAPPED (R341, R342). -/
def keyExportWrappedRun : Run := fun c p _ s =>
  let h := p.int exportFlds 0
  match s.namedHere h false, s.kek (s.who c) (p.int exportFlds 1) 12 false with
  | .inl st, _ => .done st 0 [] h s
  | _, .inl st => .done st 0 [] h s
  | .inr k, .inr e =>
    if !k.usage.getLsbD 14 then .done .keyPolicy 0 [] h s
    else
      let m := k.attrs ++ k.material
      exportPart (Config.prim .keyWrap [leBytes 1 17, e.material, m] ((m.length + 7) / 8 * 8 + 8)) p h s

/-- KEY_EXPORT_WRAPPED's row of the index. -/
def keyExportWrappedCmd : Cmd :=
  { op := 0x203, auth := fun s w p => handleAuth exportFlds false s w p && kekAuth (p.int exportFlds 1) w, flds := exportFlds, parts := .export_,
    obj := fun p => p.int exportFlds 0, keys := fun p => [p.int exportFlds 0, p.int exportFlds 1], paramOk := fun _ p => hScope (p.int exportFlds 0) != 3 && hScope (p.int exportFlds 1) != 3,
    alarmBar := true, blankBar := true }

/-- KEY_EXPORT_WRAPPED. -/
def execKeyExportWrapped (c : Caller) (s : State) : Host.Outcome State Fault Refusal :=
  .next (s.command c keyExportWrappedCmd keyExportWrappedRun)

/-- Parameters of a command that names a key alone. -/
def keyFlds : List Fld := [.int 4]

/-- The public key of a key, in the encoding of R274; none for a secret key that has none. -/
def Key.public? (k : Key) : Option Bytes :=
  let c := k.param
  match k.cls with
  | 5 => some (k.material.take (rsaBytes 5 k.len + 4))
  | 7 => some (Config.prim (.ecPublic c) [k.material] (curvePub c))
  | 9 => some (Config.prim (.eddsaPublic c) [k.material] (curvePub c))
  | 11 => some (Config.prim (.mlkemPublic c) [k.material] (kemPub c))
  | 13 => some (Config.prim (.mldsaPublic c) [k.material] (dsaPub c))
  | _ => if publicClass k.cls then some k.material else none

/-- KEY_EXPORT_PUBLIC. -/
def keyExportPublicRun : Run := fun _ p _ s =>
  let h := p.int keyFlds 0
  match s.namedHere h false with
  | .inl st => .done st 0 [] h s
  | .inr k => match k.public? with
    | some b => exportPart b p h s
    | none => .done .keyPolicy 0 [] h s

/-- A handle of SCOPE 3 is malformed (R323). -/
def handleOk (l : List Fld) (p : Packet) : Bool := hScope (p.int l 0) != 3

/-- KEY_EXPORT_PUBLIC's row of the index. -/
def keyExportPublicCmd : Cmd :=
  { op := 0x204, auth := handleAuth keyFlds false, flds := keyFlds, parts := .export_, obj := fun p => p.int keyFlds 0,
    keys := fun p => [p.int keyFlds 0],
    paramOk := fun _ p => handleOk keyFlds p, alarmBar := true, blankBar := true }

/-- KEY_EXPORT_PUBLIC. -/
def execKeyExportPublic (c : Caller) (s : State) : Host.Outcome State Fault Refusal := .next (s.command c keyExportPublicCmd keyExportPublicRun)

/-- A blob sealed under a wrapping key (R334, R335). -/
def sealBlob (wk iv : Bytes) (version lc : Nat) (k : Key) : Bytes :=
  let hdr := leBytes 4 1 ++ leBytes 4 k.len ++
    leBytes 4 ((if k.scope = 1 then k.slice else 0) + k.scope * 2 ^ 12 + version * 2 ^ 16 + lc * 2 ^ 24) ++ leBytes 4 (k.len + 40) ++
    padTo 12 iv ++ zeros 36
  let out := Config.prim .gcmSeal [wk, padTo 12 iv, hdr, k.material ++ k.attrs] (k.len + 56)
  putAt hdr 0x20 (out.drop (k.len + 40)) ++ out.take (k.len + 40)

/-- The wrapping key of blobs of a key: the slice's SMK, or the domain blob key; none without a CURRENT DK (R320, R335). -/
def State.wrapKey (s : State) (scope slice : Nat) (v : Nat) : Option Bytes :=
  if scope = 1 then s.smkFor (s.slice slice) v else (s.dkFor v).map s.blobKey

/-- KEY_SAVE_BLOB (R334, R335, R342): the blob is sealed at part 0 and its parts are those of one blob. -/
def keySaveBlobRun : Run := fun c p again s =>
  let h := p.int keyFlds 0
  match s.namedHere h again with
  | .inl st => .done st 0 [] h s
  | .inr k =>
    if !k.usage.getLsbD 15 then .done .keyPolicy 0 [] h s
    else
      match s.wrapKey k.scope k.slice s.dkVersion with
      | none => .done .keyAbsent 0 [] h s
      | some wk =>
        match (if p.part = 0 then none else (s.asmBox c).bind fun m => (s.box m).sealed) with
        | some (g, b) => if g = h then exportPart b p h s else .done .descMalformed 11 [] h s
        | none =>
          match s.cmdDraw c 12 false h with
          | .inr r => r
          | .inl (iv, t) =>
            let b := sealBlob wk iv t.dkVersion t.keys.lc.code k
            let t1 := match s.asmBox c with
              | some m => if partBytes < b.length then t.modBox m fun x => { x with sealed := some (h, b) } else t
              | none => t
            exportPart b p h t1

/-- KEY_SAVE_BLOB's row of the index. -/
def keySaveBlobCmd : Cmd :=
  { op := 0x205, auth := handleAuth keyFlds false, flds := keyFlds, parts := .export_, obj := fun p => p.int keyFlds 0,
    keys := fun p => [p.int keyFlds 0], readsSmk := true,
    paramOk := fun _ p => handleOk keyFlds p, alarmBar := true, blankBar := true }

/-- KEY_SAVE_BLOB. -/
def execKeySaveBlob (c : Caller) (s : State) : Host.Outcome State Fault Refusal := .next (s.command c keySaveBlobCmd keySaveBlobRun)

/-! ### Loading and derivation -/

/-- A blob opens for a caller: its header, its lifecycle state, its scope and slice, and the key it was sealed under (R314, R335). -/
def State.openFor? (s : State) (scope slice : Nat) (b : Bytes) : Option Key :=
  let w := fieldLe b 8 4
  if fieldLe b 0 2 != 1 || bits w 12 2 != scope || bits w 0 12 != (if scope = 1 then slice else 0) || bits w 24 8 != s.keys.lc.code then none
  else
    match (s.wrapKey scope slice (bits w 16 8)).bind fun wk => openBlob wk b with
    | some k => if classLen k.cls k.param k.len && k.len == k.material.length then some k else none
    | none => none

/-- KEY_LOAD_BLOB (R335): its key goes on as it was saved, with ORIGIN 4. -/
def keyLoadBlobRun : Run := fun c p _ s =>
  let w := s.who c
  let len := bits (fieldLe p.data 4 4) 0 14
  if p.data.length != 104 + len || fieldLe p.data 0xC 4 != len + 40 then .done .descMalformed 4 [] 0 s
  else
    match s.openFor? w.makes w.sliceNo p.data with
    | none => .done .keyAbsent 0 [] 0 s
    | some k =>
      let sl := if w.makes = 2 then k.slice else w.sliceNo
      s.install { scope := w.makes, slice := sl, cls := k.cls, param := k.param, usage := k.usage.toNat, modes := k.modes.toNat,
                  any := k.anySlice, keyId := k.keyId, origin := 4, material := k.material }

/-- KEY_LOAD_BLOB's row of the index. -/
def keyLoadBlobCmd : Cmd :=
  { op := 0x206, auth := makerAuth true, data := true, parts := .multi, alarmBar := true, blankBar := true, readsSmk := true }

/-- KEY_LOAD_BLOB. -/
def execKeyLoadBlob (c : Caller) (s : State) : Host.Outcome State Fault Refusal := .next (s.command c keyLoadBlobCmd keyLoadBlobRun)

/-- Parameters of KEY_DERIVE: base key, CLASS, PARAM, LEN, USAGE, MODES, KEY_ID. -/
def deriveFlds : List Fld := [.int 4, .int 1, .int 1, .int 2, .int 4, .int 2, .int 8]

/-- Bytes of the peer point or ciphertext a base takes. -/
def Key.peerLen (k : Key) : Nat := if k.cls = 7 then curvePub k.param else if k.cls = 11 then kemCt k.param else 0

/-- The data of KEY_DERIVE after the peer's bytes: label and context, each with its length before it; none where they do not fill it. -/
def labelled (b : Bytes) : Option (Bytes × Bytes) :=
  let n := fieldLe b 0 1
  let m := fieldLe b (1 + n) 1
  if b.length = n + m + 2 then some (sub b 1 n, sub b (n + 2) m) else none

/-- The secret of a base key (R340): its material, or what it agrees or decapsulates. -/
def Key.baseSecret (k : Key) (peer : Bytes) : Status ⊕ Bytes :=
  let c := k.param
  if k.cls = 7 then
    match (if c ≤ 3 then pointCheck c peer else none) with
    | some st => .inl st
    | none =>
      match ecdhSecret c k.material peer with
      | some z => .inr z
      | none => .inl .inputRange
  else if k.cls = 11 then .inr (Config.prim (.mlkemDecaps c) [k.material, peer] 32)
  else .inr k.material

/-- A base key may serve (R328, R329): DERIVE, with AGREE or DECAPS where it agrees or decapsulates. -/
def Key.isBase (k : Key) : Bool :=
  k.usage.getLsbD 18 && (k.cls == 15 || (k.cls == 7 && k.usage.getLsbD 8) || (k.cls == 11 && k.usage.getLsbD 9))

/-- KEY_DERIVE. -/
def keyDeriveRun : Run := fun _ p _ s =>
  let f := p.int deriveFlds
  let (cls, param, len) := (f 1, f 2, f 3)
  match s.namedHere (f 0) false with
  | .inl st => .done st 0 [] 0 s
  | .inr k =>
    if !k.isBase then .done .keyPolicy 0 [] 0 s
    else if !([1, 2, 3, 4, 15].contains cls && classLen cls param len) then .done .inputRange 0 [] 0 s
    else
      match labelled (p.data.drop k.peerLen), k.baseSecret (sub p.data 0 k.peerLen) with
      | none, _ => .done .descMalformed 4 [] 0 s
      | _, .inl st => .done st 0 [] 0 s
      | some (label, ctx), .inr z =>
        let ((sl, any), t) := s.openScope k.scope k.slice
        t.make { scope := k.scope, slice := sl, cls := cls, param := param, usage := f 4, modes := f 5, any := any, keyId := f 6, origin := 3,
                 material := kdfWith z label ctx (if cls = 4 then funcLen param else len) }

/-- KEY_DERIVE's row of the index. -/
def keyDeriveCmd : Cmd :=
  { op := 0x207, auth := handleAuth deriveFlds true, flds := deriveFlds, data := true, keys := fun p => [p.int deriveFlds 0],
    paramOk := fun _ p => handleOk deriveFlds p && p.int deriveFlds 4 < 2 ^ 19 && p.int deriveFlds 5 < 2 ^ 13 && p.int deriveFlds 5 % 2 == 0,
    alarmBar := true, blankBar := true }

/-- KEY_DERIVE. -/
def execKeyDerive (c : Caller) (s : State) : Host.Outcome State Fault Refusal := .next (s.command c keyDeriveCmd keyDeriveRun)

/-! ### Deletion and policy (R330, R345) -/

/-- The wait for the old copies of a key's slot. -/
def Key.dropJob (k : Key) (delete : Bool) : JobKind := .dropCopies k.scope k.slice k.slot delete

/-- KEY_DELETE (R345): its rows are empty from acceptance, and freed at the reply. -/
def keyDeleteRun : Run := fun _ p _ s =>
  let h := p.int keyFlds 0
  match s.named h true false with
  | .inl st => .done st 0 [] h s
  | .inr k =>
    if k.scope = 2 then s.issueFor (.dkeyDel k.slot) [] h
    else .hold (k.dropJob true) [] h ((s.supersede k).rewriteKey k.scope k.slice k.slot fun x => { x with cls := 0, material := [] })

/-- KEY_DELETE's row of the index. -/
def keyDeleteCmd : Cmd :=
  { op := 0x208, auth := handleAuth keyFlds true, flds := keyFlds, obj := fun p => p.int keyFlds 0, keys := fun p => [p.int keyFlds 0],
    quorum := fun _ _ p => hScope (p.int keyFlds 0) == 2, paramOk := fun _ p => handleOk keyFlds p, blankBar := true }

/-- KEY_DELETE. -/
def execKeyDelete (c : Caller) (s : State) : Host.Outcome State Fault Refusal :=
  .next (s.command c keyDeleteCmd (inTurn 0x208 keyDeleteCmd.obj keyDeleteRun))

/-- Parameters of KEY_SET_POLICY: key, clear masks of USAGE and MODES, SET_FIXED. -/
def policyFlds : List Fld := [.int 4, .int 4, .int 2, .int 1]

/-- KEY_SET_POLICY (R330): bits are cleared, and FIXED_TIME may be set. -/
def keySetPolicyRun : Run := fun _ p _ s =>
  let f := p.int policyFlds
  match s.named (f 0) false false with
  | .inl st => .done st 0 [] (f 0) s
  | .inr k =>
    let u := (k.usage &&& ~~~ BitVec.ofNat 32 (f 1)) ||| BitVec.ofNat 32 (if f 3 = 1 then 2 ^ 16 else 0)
    let m := k.modes &&& ~~~ BitVec.ofNat 16 (f 2)
    if k.scope = 2 then s.issueFor (.dkeyPolicy k.slot u.toNat m.toNat) [] (f 0)
    else .hold (k.dropJob false) [] (f 0) ((s.supersede k).rewriteKey k.scope k.slice k.slot fun x => { x with usage := u, modes := m })

/-- KEY_SET_POLICY's row of the index. -/
def keySetPolicyCmd : Cmd :=
  { op := 0x209, auth := handleAuth policyFlds true, flds := policyFlds, obj := fun p => p.int policyFlds 0,
    keys := fun p => [p.int policyFlds 0],
    paramOk := fun _ p => handleOk policyFlds p && p.int policyFlds 3 ≤ 1, blankBar := true }

/-- KEY_SET_POLICY. -/
def execKeySetPolicy (c : Caller) (s : State) : Host.Outcome State Fault Refusal :=
  .next (s.command c keySetPolicyCmd (inTurn 0x209 keySetPolicyCmd.obj keySetPolicyRun))

/-! ### Query and keysets -/

/-- KEY_QUERY: attributes, BAD, rows. -/
def keyQueryRun : Run := fun _ p _ s =>
  let h := p.int keyFlds 0
  match s.named h true false with
  | .inl st => .done st 0 [] h s
  | .inr k => .done .done 0 (layBytes [(.str 40, k.attrs), (.int 1, leBytes 1 (b2n k.bad)), (.int 1, leBytes 1 k.rows)]) h s

/-- KEY_QUERY's row of the index: a slice its own keys, the manager any key of scope 1 or 2. -/
def keyQueryCmd : Cmd :=
  { op := 0x20A, flds := keyFlds, obj := fun p => p.int keyFlds 0, keys := fun p => [p.int keyFlds 0], paramOk := fun _ p => handleOk keyFlds p, blankBar := true,
    auth := fun s w p => match w with
      | .mgr _ => authMgr s w p && hScope (p.int keyFlds 0) != 0
      | _ => handleAuth keyFlds false s w p }

/-- KEY_QUERY. -/
def execKeyQuery (c : Caller) (s : State) : Host.Outcome State Fault Refusal := .next (s.command c keyQueryCmd keyQueryRun)

/-- KEYSET_GET (R321). -/
def keysetGetRun : Run := fun _ p _ s =>
  let n := p.int sliceFlds 0
  if !(s.slice n).exists_ then refused .sliceBusy n s else .done .done 0 (padTo 32 (s.slice n).keyset) n s

/-- KEYSET_GET's row of the index. -/
def keysetGetCmd : Cmd :=
  { op := 0x20B, auth := authMgr, flds := sliceFlds, obj := fun p => p.int sliceFlds 0, paramOk := fun _ p => sliceOk sliceFlds p, blankBar := true }

/-- KEYSET_GET. -/
def execKeysetGet (c : Caller) (s : State) : Host.Outcome State Fault Refusal := .next (s.command c keysetGetCmd keysetGetRun)

/-- Parameters of KEYSET_SET: slice, keyset. -/
def keysetFlds : List Fld := [.int 2, .str 32]

/-- KEYSET_SET (R320, R321): for a slice with no key and no staged blob; its master key is derived again. -/
def keysetSetRun : Run := fun _ p _ s =>
  let n := p.int keysetFlds 0
  let x := s.slice n
  if !x.exists_ || s.keyUsed n != 0 || s.keys.stage.any (·.slice == n) then refused .sliceBusy n s
  else
    let y : Slice := { x with keyset := p.str keysetFlds 1 }
    .done .done 0 [] n (s.setSlice (s.withSmk y (s.smkNow y)))

/-- KEYSET_SET's row of the index. -/
def keysetSetCmd : Cmd :=
  { op := 0x20C, auth := authMgr, flds := keysetFlds, obj := fun p => p.int keysetFlds 0, paramOk := fun _ p => sliceOk keysetFlds p,
    blankBar := true }

/-- KEYSET_SET. -/
def execKeysetSet (c : Caller) (s : State) : Host.Outcome State Fault Refusal := .next (s.command c keysetSetCmd keysetSetRun)

/-! ### Time -/

/-- IMPORT_ASSEMBLY_TIMEOUT (R344): 1 s without the next part. -/
def execImportAssemblyTimeout (m : Nat) (s : State) : Host.Outcome State Fault Refusal :=
  match (s.box m).assembly with
  | some a =>
    if s.glob.uptimeMs < a.at_ + 1000 then .next s
    else .next (s.modBox m fun b => { b with assembly := none, discarded := true })
  | none => .next s

/-- One failed row of a sweep (R333): kind 0 a slice's key by slice and slot, 1 the master key of a slice, 2 a staged key by its place, 4 a
domain key by slot, which replication rewrites (R541). -/
def State.sweptBad (s : State) (r : Nat × Nat × Nat) : State :=
  let (kind, a, b) := r
  match kind with
  | 0 => match s.lookSlot 1 a b with
    | .key k => s.markBad k
    | _ => s
  | 1 => s.smkFailed a
  | 2 => match s.keys.stage[a]? with
    | some e => s.stagedFailed e
    | none => s
  | 4 => match s.lookSlot 2 0 b with
    | .key k =>
      if k.bad then s
      else if s.hier.state = 3 && !s.hier.activeLead then ((s.markBad k).modHier fun h => { h with snapshotDue := true }).askSync
      else s.markBad k
    | _ => s
  | _ => s

/-- The rows in use whose tags the sweep finds wrong (R331), in the form of `sweptBad`; staged keys from the last place on. -/
def State.failedRows (s : State) : List (Nat × Nat × Nat) :=
  (s.keys.keys.filter fun k => !k.bad && !s.keyPasses k).map (fun k => if k.scope = 1 then (0, k.slice, k.slot) else (4, 0, k.slot)) ++
  (s.slices.filter fun x => !s.smkPasses x).map (fun x => (1, x.num, 0)) ++
  (((s.keys.stage.zipIdx).filter fun e => !s.stagedPasses e.1).map fun e => (2, e.2, 0)).reverse

/-- KEY_SWEEP (R332, R333): every row in use is checked once every SWEEP_S seconds. `bad` names the rows that a bit error has made fail. -/
def execKeySweep (bad : List (Nat × Nat × Nat)) (s : State) : Host.Outcome State Fault Refusal :=
  if !s.tamper.mainPower || s.keys.sik.isNone || s.glob.uptimeMs < s.keys.lastSweep + 1000 * s.keys.sweepS then .next s
  else
    .next (((s.failedRows ++ bad).foldl State.sweptBad s).modKeys fun k =>
      { k with sweeps := (k.sweeps + 1) % 2 ^ 64, lastSweep := s.glob.uptimeMs })

/-- KEY_EPOCH_ADVANCE (R337, R349): a due advance, once KEY_DRAINED reads 1; the derived keys are compared with their rows first, and every
staged key is erased. -/
def execKeyEpochAdvance (s : State) : Host.Outcome State Fault Refusal :=
  if s.keys.epochDue = 0 || !s.keyDrained || !s.worlds.tw.up then .next s
  else .next (s.loadSik.compareSmks.modKeys fun k => { k with epoch := (k.epoch + 1) % 65536, stage := [], badStage := [], epochDue := k.epochDue - 1 })

end Sys2Proof.Machine
end

