-- ==== Sys2Proof/Machine/Lifecycle.lean ====
section
/-! DEFINITION. Lifecycle transitions (R310 to R316, R381, R474): personalisation, transition, and the reset each ends in. -/

namespace Sys2Proof.Machine

/-! ### The reset of a transition (R312, R575) -/

/-- Steps 2 and 3 of R312: the root store, the key rows and the caches are erased and the fuses written; a re-root counts, a transition to
RETURNED or RETIRED erases the enrolment, M, the credential and the recorded signer (R381, R580) and disarms the cells (R462), and an A4 latch clears (R474). -/
def State.fuse (target : Lc) (s : State) : State :=
  let gone := target == .returned || target == .retired
  let s1 := s.eraseKeys
  let s2 := s1.modKeys fun k =>
    { k with lc := target, reRoots := if k.lc = target then k.reRoots + 1 else k.reRoots, lcTarget := none,
             lcPending := if target = .retired then none else some target }
  let s3 : State := { s2 with tamper := { s2.tamper with
    latch := if s2.tamper.latch = 4 then 0 else s2.tamper.latch, cellArmed := if gone then 0 else s2.tamper.cellArmed } }
  if gone then
    { s3 with dual := { s3.dual with m := 0, custodians := List.replicate 16 {} }, mail := { s3.mail with cred := none },
              renewal := { s3.renewal with owSigner := [] } }
  else s3

/-- Step 4 of R312: the LIFECYCLE reset. The reply stands in its mailbox until the start-up, and pins stay as they are. -/
def State.lifecycleReset (s : State) : State :=
  let d := s.dark
  { d with mail := { d.mail with boxes := s.mail.boxes.map fun b => { num := b.num, replyHdr := b.replyHdr, body := b.body, st := b.st } },
           hp := { d.hp with tx := s.hp.tx, perst := s.hp.perst }, gate := { d.gate with espi := s.gate.espi, twoFlash := s.gate.twoFlash },
           power := { d.power with failPin := s.power.failPin }, renewal := { d.renewal with nextKind := 3 } }

/-- A transition accepted in this step carried out behind its reply. -/
def State.lifecycleStep (s : State) : State :=
  match s.keys.lcTarget with
  | some t => (s.fuse t).lifecycleReset
  | none => s

/-! ### LC_PERSONALISE -/

/-- Parameters of LC_PERSONALISE: target state, subsystem vendor ID, subsystem ID, board label. -/
def personaliseLcFlds : List Fld := [.int 1, .int 2, .int 2, .str 64]

/-- The counts that run from personalisation cleared (R415, R484, R500). -/
def State.clearCounts (s : State) : State :=
  { s with gate := { s.gate with bootCount := 0 }, er := { s.er with lost := 0 },
           tamper := { s.tamper with sources := s.tamper.sources.map fun (t : TSource) => { t with events := 0, alarms := 0 } } }

/-- LC_PERSONALISE (R310, R315): to DEVELOPMENT or PRODUCTION alone. -/
def lcPersonaliseRun : Run := fun _ p _ s =>
  match Lc.ofCode (p.int personaliseLcFlds 0) with
  | some t =>
    if t = .development ∨ t = .production then
      .done .done 0 [] 0 (State.clearCounts <| s.modKeys fun k =>
        { k with lcTarget := some t, subsysVendor := p.int personaliseLcFlds 1, subsysId := p.int personaliseLcFlds 2,
                 boardLabel := p.str personaliseLcFlds 3 })
    else .done .descMalformed 0 [] 0 s
  | none => .done .descMalformed 0 [] 0 s

/-- LC_PERSONALISE's row of the index: any manager mailbox, in BLANK. -/
def lcPersonaliseCmd : Cmd :=
  { op := 0x210, auth := fun s w p => s.keys.lc == .blank && authBox s w p, flds := personaliseLcFlds }

/-- LC_PERSONALISE. -/
def execLcPersonalise (c : Caller) (s : State) : Host.Outcome State Fault Refusal :=
  .next (s.command c lcPersonaliseCmd lcPersonaliseRun).lifecycleStep

/-! ### LC_TRANSITION -/

/-- The transitions LC_TRANSITION makes (R310). -/
def Lc.goesTo : Lc → Lc → Bool
  | .development, .development => true
  | .production, .production => true
  | .production, .returned => true
  | .development, .retired => true
  | .production, .retired => true
  | .returned, .retired => true
  | _, _ => false

/-- Parameters of LC_TRANSITION: target state; its data is the return authorisation. -/
def transitionFlds : List Fld := [.int 1]

/-- LC_TRANSITION (R310, R311): RETURNED needs a return authorisation bound to the device identity; a sixteenth re-root is refused. -/
def lcTransitionRun : Run := fun _ p _ s =>
  match Lc.ofCode (p.int transitionFlds 0) with
  | some t =>
    if !s.keys.lc.goesTo t then .done .descMalformed 0 [] 0 s
    else if t = .returned && !Config.primCheck .returnAuth [s.identityDigest, p.data] then .done .descMalformed 0 [] 0 s
    else if t = s.keys.lc && 15 ≤ s.keys.reRoots then .done .quota 0 [] 0 s
    else .done .done 0 [] 0 (s.modKeys fun k => { k with lcTarget := some t })
  | none => .done .descMalformed 0 [] 0 s

/-- LC_TRANSITION's row of the index. -/
def lcTransitionCmd : Cmd :=
  { op := 0x211, auth := authMgr, flds := transitionFlds, data := true, quorum := fun _ _ _ => true, blankBar := true }

/-- LC_TRANSITION. -/
def execLcTransition (c : Caller) (s : State) : Host.Outcome State Fault Refusal :=
  .next (s.command c lcTransitionCmd lcTransitionRun).lifecycleStep

end Sys2Proof.Machine
end

