-- ==== Sys2Proof/Machine/Quorum.lean ====
section
/-! DEFINITION. Dual control (R377 to R398): challenges, approvals, enrolment, the quorum, the cell service window, ZEROISE, and the end of
the A3 cause. -/

namespace Sys2Proof.Machine

/-! ### The challenge -/

/-- f applied to the challenge. -/
def State.modChal (f : Challenge → Challenge) (s : State) : State := { s with dual := { s.dual with chal := f s.dual.chal } }

/-- A custodian card port. -/
def State.card (s : State) (p : Nat) : CardPort := s.dual.cards.getD p {}

/-- f applied to card port p. -/
def State.modCard (p : Nat) (f : CardPort → CardPort) (s : State) : State :=
  { s with dual := { s.dual with cards := s.dual.cards.modify p f } }

/-- Custodians enrolled. -/
def State.enrolled (s : State) : List Nat := (List.range 16).filter fun i => (s.dual.custodians.getD i {}).alg != 0

/-- The live challenge ended, with any proposal it came from (R383, R393). -/
def State.endChallenge (s : State) : State :=
  let s1 := s.modChal fun q => { q with live := false }
  { s1 with dual := { s1.dual with cards := s1.dual.cards.map fun (c : CardPort) => { c with proposal := none } } }

/-- A challenge issued (R382): its CHALLENGE_ID is the number of its record, and it replaces the live one. -/
def State.issueChallenge (mailbox opcode : Nat) (digest nonce : Bytes) (s : State) : State :=
  let id := s.recordSeq
  let s1 := s.endChallenge.record 0x51 1 0 (pack [(2, mailbox), (2, opcode)] ++ padTo 32 digest)
  s1.modChal fun q =>
    { q with id := id, live := true, mailbox := mailbox, opcode := opcode, digest := padTo 48 digest, nonce := nonce, issued := s.glob.uptimeMs,
             approved := 0, m := s.dual.m, enrolled := BitVec.ofNat 16 ((s.enrolled.map (2 ^ ·)).sum) }

/-- The approval message of a custodian index (R385). -/
def State.approvalMessage (s : State) (i : Nat) : Bytes :=
  let q := s.dual.chal
  padTo 16 (ascii "ZV1600-APPROVE") ++ padTo 32 s.identityDigest ++ leBytes 8 q.id ++ padTo 32 q.nonce ++ padTo 48 q.digest ++ leBytes 2 i ++
    leBytes 2 q.opcode

/-- A signature counted as an approval (R386): the status, whether it had counted already, and the state. -/
def State.approve (i alg : Nat) (sig : Bytes) (s : State) : Status × Nat × State :=
  let c := s.dual.custodians.getD i {}
  let q := s.dual.chal
  if 16 ≤ i || c.alg = 0 || alg != c.alg || !q.enrolled.getLsbD i then (.inputRange, 0, s)
  else if !sigVerifies alg c.key (s.approvalMessage i) sig then (.verifyFail, 0, s)
  else if q.approved.getLsbD i then (.done, 1, s)
  else (.done, 0, s.modChal fun q => { q with approved := q.approved ||| BitVec.ofNat 16 (2 ^ i) })

/-! ### Cards asked for an approval (R392) -/

/-- An APDU sent to a card. -/
def State.sendApdu (p : Nat) (step : CardStep) (data : Bytes) (s : State) : State :=
  s.modCard p fun c => { c with step := step, apdu := data, since := s.glob.uptimeMs }

/-- A card that has passed its first steps is asked for its approval of the live challenge, once, CP_0 before CP_1. -/
def State.askCard (p : Nat) (s : State) : State :=
  let c := s.card p
  let q := s.dual.chal
  if q.live && c.active && c.known && c.step == .none && c.askedId != q.id && !(p = 1 && (s.card 0).step == .sign) then
    (s.sendApdu p .sign (s.approvalMessage c.lastIndex)).modCard p fun x => { x with askedId := q.id }
  else s

/-- Both ports asked in their order. -/
def State.askCards (s : State) : State := (s.askCard 0).askCard 1

/-! ### QUORUM_CHALLENGE and QUORUM_APPROVE -/

/-- An opcode some of whose commands need a quorum in this state (R378, R389). -/
def State.opcodeNeedsQuorum (s : State) (op : Nat) : Bool :=
  if op = 5 then s.mail.cred.isSome
  else if [0xA, 0x302, 0x303, 0x304].contains op then s.dual.m != 0
  else [0x305, 0x307, 0x200, 0x201, 0x202, 0x208, 0x211, 0x403, 0x501, 0x601, 0x702, 0x703, 0x900].contains op

/-- Parameters of QUORUM_CHALLENGE: mailbox, opcode, command digest. -/
def challengeFlds : List Fld := [.int 2, .int 2, .str 48]

/-- QUORUM_CHALLENGE (R382). -/
def quorumChallengeRun : Run := fun c p _ s =>
  let f := p.int challengeFlds
  if !s.opcodeNeedsQuorum (f 1) || Config.mailboxes ≤ f 0 then .done .inputRange 0 [] 0 s
  else
    match s.cmdDraw c 32 false 0 with
    | .inr r => r
    | .inl (b, t) =>
      let u := t.issueChallenge (f 0) (f 1) (p.str challengeFlds 2) b
      .done .done 0 (layBytes [(.int 8, leBytes 8 u.dual.chal.id), (.str 32, b)]) 0 u.askCards

/-- QUORUM_CHALLENGE's row of the index. -/
def quorumChallengeCmd : Cmd := { op := 0x300, auth := authMgr, flds := challengeFlds }

/-- QUORUM_CHALLENGE. -/
def execQuorumChallenge (c : Caller) (s : State) : Host.Outcome State Fault Refusal :=
  .next (s.command c quorumChallengeCmd quorumChallengeRun)

/-- Parameters of QUORUM_APPROVE: CHALLENGE_ID, index, algorithm. -/
def approveFlds : List Fld := [.int 8, .int 1, .int 1]

/-- QUORUM_APPROVE (R386). -/
def quorumApproveRun : Run := fun _ p _ s =>
  let f := p.int approveFlds
  if !s.dual.chal.live || f 0 != s.dual.chal.id then .done .challengeStale 0 [] 0 s
  else
    let (st, d, t) := s.approve (f 1) (f 2) p.data
    .done st d [] 0 t

/-- QUORUM_APPROVE's row of the index. -/
def quorumApproveCmd : Cmd := { op := 0x301, auth := authMgr, flds := approveFlds, data := true }

/-! ### Enrolment and M (R377 to R380) -/

/-- A quorum is needed once M is set (R378). -/
def whenSet : State → Who → Packet → Bool := fun s _ _ => s.dual.m != 0

/-- The message a new custodian's proof signs (R379). -/
def State.enrolMessage (s : State) (i : Nat) (digest : Bytes) : Bytes :=
  padTo 16 (ascii "ZV1600-ENROL") ++ padTo 32 s.identityDigest ++ leBytes 2 i ++ padTo 48 digest

/-- Parameters of CUSTODIAN_ENROL: index, algorithm, LABEL. -/
def enrolFlds : List Fld := [.int 1, .int 1, .str 16]

/-- CUSTODIAN_ENROL (R379). -/
def custodianEnrolRun : Run := fun _ p _ s =>
  let i := p.int enrolFlds 0
  let alg := p.int enrolFlds 1
  let key := p.data.take (algKey alg)
  let d := sha384 key
  if alg != 1 && alg != 2 then .done .inputRange 0 [] 0 s
  else if p.data.length != algKey alg + algSig alg then .done .descMalformed 4 [] 0 s
  else if 16 ≤ i || s.enrolled.contains i || s.enrolled.any (fun j => (s.dual.custodians.getD j {}).digest == d) then .done .inputRange 0 [] 0 s
  else
    match algKeyFault alg key with
    | some st => .done st 0 [] 0 s
    | none =>
      if !sigVerifies alg key (s.enrolMessage i d) (p.data.drop (algKey alg)) then .done .verifyFail 0 [] 0 s
      else
        let c : Custodian := { alg := alg, key := key, digest := d, label := p.str enrolFlds 2, seq := s.recordSeq }
        .done .done 0 [] 0 { s with dual := { s.dual with custodians := s.dual.custodians.set i c } }

/-- CUSTODIAN_ENROL's row of the index. -/
def custodianEnrolCmd : Cmd := { op := 0x302, auth := authMgr, flds := enrolFlds, data := true, parts := .multi, quorum := whenSet }

/-- CUSTODIAN_ENROL. -/
def execCustodianEnrol (c : Caller) (s : State) : Host.Outcome State Fault Refusal := .next (s.command c custodianEnrolCmd custodianEnrolRun)

/-- CUSTODIAN_REMOVE (R380). -/
def custodianRemoveRun : Run := fun _ p _ s =>
  let i := p.int [.int 1] 0
  if !s.enrolled.contains i then .done .inputRange 0 [] 0 s
  else if s.enrolled.length ≤ s.dual.m then .done .quota 0 [] 0 s
  else .done .done 0 [] 0 { s with dual := { s.dual with custodians := s.dual.custodians.set i {} } }

/-- CUSTODIAN_REMOVE's row of the index. -/
def custodianRemoveCmd : Cmd := { op := 0x303, auth := authMgr, flds := [.int 1], quorum := whenSet }

/-- CUSTODIAN_REMOVE. -/
def execCustodianRemove (c : Caller) (s : State) : Host.Outcome State Fault Refusal := .next (s.command c custodianRemoveCmd custodianRemoveRun)

/-- QUORUM_SET (R380): M from 2 to 16, and no more than are enrolled. -/
def quorumSetRun : Run := fun _ p _ s =>
  let m := p.int [.int 1] 0
  if m < 2 || 16 < m || s.enrolled.length < m then .done .inputRange 0 [] 0 s
  else .done .done 0 [] 0 { s with dual := { s.dual with m := m } }

/-- QUORUM_SET's row of the index. -/
def quorumSetCmd : Cmd := { op := 0x304, auth := authMgr, flds := [.int 1], quorum := whenSet }

/-- QUORUM_SET. -/
def execQuorumSet (c : Caller) (s : State) : Host.Outcome State Fault Refusal := .next (s.command c quorumSetCmd quorumSetRun)

/-! ### The cell service window (R394 to R396) -/

/-- A cell reads present and in range. -/
def State.cellOk (s : State) (c : Nat) : Bool := s.tamper.cellPresent.getLsbD c && s.tamper.cellRange.getLsbD c

/-- Parameters of CELL_WINDOW_OPEN: cell, duration in seconds. -/
def windowFlds : List Fld := [.int 1, .int 2]

/-- CELL_WINDOW_OPEN (R394). A cell other than CELL_A and CELL_B is out of range (DEDUCED, log entry 31). -/
def cellWindowOpenRun : Run := fun _ p _ s =>
  let c := p.int windowFlds 0
  let d := p.int windowFlds 1
  if 1 < c || d < 60 || 3600 < d || !s.cellOk (1 - c) then .done .inputRange 0 [] 0 s
  else if s.dual.winOpen then .done .sliceBusy 0 [] 0 s
  else
    let t : State := { s with dual := { s.dual with winOpen := true, winCell := c, winLeftS := d, winMs := 0 } }
    .done .done 0 [] 0 (t.record 0x53 2 0 (pack [(1, c), (1, 1), (2, d)]))

/-- CELL_WINDOW_OPEN's row of the index. -/
def cellWindowOpenCmd : Cmd := { op := 0x305, auth := authMgr, flds := windowFlds, quorum := fun _ _ _ => true }

/-- CELL_WINDOW_OPEN. -/
def execCellWindowOpen (c : Caller) (s : State) : Host.Outcome State Fault Refusal := .next (s.command c cellWindowOpenCmd cellWindowOpenRun)

/-- CELL_WINDOW_CLOSE (R396). -/
def cellWindowCloseRun : Run := fun _ _ _ s =>
  if s.dual.winOpen && !s.cellOk s.dual.winCell then .done .inputRange 0 [] 0 s else .done .done 0 [] 0 s.closeWindow

/-- CELL_WINDOW_CLOSE's row of the index: a card-port proposal of it runs under its quorum (R393). -/
def cellWindowCloseCmd : Cmd := { op := 0x306, auth := authMgr, quorum := fun _ w _ => w == .card }

/-- CELL_WINDOW_CLOSE. -/
def execCellWindowClose (c : Caller) (s : State) : Host.Outcome State Fault Refusal := .next (s.command c cellWindowCloseCmd cellWindowCloseRun)

/-- CELL_WINDOW_EXPIRE (R396): the duration has run out; a cell that is not back counts as removed at that moment. On cell power nothing
can be recorded but by Tahr's own entry of that event. -/
def execCellWindowExpire (s : State) : Host.Outcome State Fault Refusal :=
  if !s.dual.winOpen || s.dual.winLeftS != 0 then .next s
  else
    let c := s.dual.winCell
    let s1 := if s.tamper.mainPower then s.closeWindow else { s with dual := { s.dual with winOpen := false, winMs := 0 } }
    .next ((if s.cellOk c then s1 else s1.tamperEvent (5 + c) 36).settle s)

/-! ### ZEROISE, and the end of the A3 cause -/

/-- The A4 response of an accepted ZEROISE, behind its reply (R397). -/
def State.zeroiseStep (s : State) : State :=
  if s.dual.zeroiseDue then
    State.settle (State.tamperEvent 31 36 { s with dual := { s.dual with zeroiseDue := false } }) s
  else s

/-- ZEROISE. -/
def zeroiseRun : Run := fun _ _ _ s => .done .done 0 [] 0 { s with dual := { s.dual with zeroiseDue := true } }

/-- ZEROISE's row of the index. -/
def zeroiseCmd : Cmd := { op := 0x307, auth := authMgr, quorum := fun _ _ _ => true }

/-- ZEROISE (R397). -/
def execZeroise (c : Caller) (s : State) : Host.Outcome State Fault Refusal := .next (s.command c zeroiseCmd zeroiseRun).zeroiseStep

/-- DEV_RESUME_ALARM (R36, R471, R474, R541): the A3 cause and an A3 latch clear, and a member of a domain reconciles. -/
def devResumeAlarmRun : Run := fun _ _ _ s =>
  if s.tamper.sources.any fun t => t.a3Raised && t.alarmed then .done .notReady 0 [] 0 s
  else
    let s1 : State := { s with md := { s.md with alarm := false },
                               tamper := { s.tamper with latch := if s.tamper.latch = 3 then 0 else s.tamper.latch,
                                                         sources := s.tamper.sources.map fun t => { t with a3Raised := false } } }
    .done .done 0 [] 0 (if s.hier.activeLead then s1.commitReady s1.hier.pendings.length
      else if s.hier.role != 0 && 2 ≤ s.hier.state then s1.askSync else s1)

/-- DEV_RESUME_ALARM's row of the index. -/
def devResumeAlarmCmd : Cmd := { op := 0xA, auth := authMgr, quorum := whenSet }

/-- DEV_RESUME_ALARM. -/
def execDevResumeAlarm (c : Caller) (s : State) : Host.Outcome State Fault Refusal := .next (s.command c devResumeAlarmCmd devResumeAlarmRun)

/-- CHALLENGE_EXPIRE (R383): 300 s of uptime from its issue. -/
def execChallengeExpire (s : State) : Host.Outcome State Fault Refusal :=
  if s.dual.chal.live && s.dual.chal.issued + 300000 ≤ s.glob.uptimeMs then .next s.endChallenge else .next s

/-! ### Proposals of the card ports (R393) -/

/-- The checks and the run of a proposal's opcode. -/
def proposalOf : Nat → Option (Cmd × Run)
  | 0x211 => some (lcTransitionCmd, lcTransitionRun)
  | 0x307 => some (zeroiseCmd, zeroiseRun)
  | 0xA => some (devResumeAlarmCmd, devResumeAlarmRun)
  | 0x305 => some (cellWindowOpenCmd, cellWindowOpenRun)
  | 0x306 => some (cellWindowCloseCmd, cellWindowCloseRun)
  | _ => none

/-- The proposal whose challenge has its count runs at once, with authority M+Q, consuming the challenge its packet is given. -/
def State.runProposal (s : State) : State :=
  let q := s.dual.chal
  if !q.live || q.mailbox != 0xFFFE || q.m = 0 || q.count < q.m || !s.worlds.tw.up then s
  else
    match (List.range 2).find? fun p => (s.card p).proposal.isSome with
    | none => s
    | some p =>
      match (s.card p).proposal, proposalOf q.opcode with
      | some (hdr, body), some (k, run) =>
        let pk := mkPacket (putAt hdr 0x10 (leBytes 8 q.id)) body k.data
        ((State.settle (s.checked (.card p) k run pk) s).zeroiseStep).lifecycleStep
      | _, _ => s

/-- QUORUM_APPROVE: a proposal whose count is reached runs at once (R393). -/
def execQuorumApprove (c : Caller) (s : State) : Host.Outcome State Fault Refusal :=
  .next (s.command c quorumApproveCmd quorumApproveRun).runProposal

end Sys2Proof.Machine
end

