-- ==== Sys2Proof/Machine/Cards.lean ====
section
/-! DEFINITION. The custodian card ports (R390 to R393, R608): insertion, the APDU sequence, approvals and proposals at the device. -/

namespace Sys2Proof.Machine

/-- The AID of SELECT (R391). -/
def cardAid : Bytes := [0xF0, 0x5A, 0x56, 0x31, 0x36, 0x30, 0x30]

/-- The port's proposal no longer waits for a nonce. -/
def State.dropAsked (p : Nat) (s : State) : State :=
  ((s.leaveDraws (.card p)).forgetDraw (.card p)).modCard p fun c => { c with asked := none }

/-- The card deactivated. -/
def CardPort.off (c : CardPort) : CardPort := { c with active := false, vcc := false, step := .none, known := false, apdu := [], askedId := 0 }

/-- A card refused (R391): deactivated, LAST_STATUS ROLE_DENIED, and recorded. The index of a card that has not named itself, and the status
word of one that has not answered, are open. -/
def State.refuseCard (p : Nat) (sw : Option Nat) (s : State) : State :=
  let c := s.card p
  let (b, t) := s.freeBytes 3
  let s1 := (t.dropAsked p).modCard p fun x => { x.off with lastStatus := .roleDenied }
  let idx := if c.known then leBytes 1 c.lastIndex else b.take 1
  (s1.record 0x52 (0x2100 + p) 0 (leBytes 1 p ++ idx ++ (match sw with | some w => leBytes 2 w | none => b.drop 1))).askCards

/-- CARD_INSERT (R391): the card is activated and sent SELECT. -/
def execCardInsert (p : Nat) (s : State) : Host.Outcome State Fault Refusal :=
  if 2 ≤ p || !s.tamper.mainPower || (s.card p).present then .next s
  else
    .next ((s.modCard p fun c => { c.off with present := true, active := true, vcc := true }).sendApdu p .select cardAid)

/-- CARD_REMOVE (R608): the supply is switched off. A proposal made stays with its challenge (R383). -/
def execCardRemove (p : Nat) (s : State) : Host.Outcome State Fault Refusal :=
  if 2 ≤ p || !(s.card p).present then .next s else .next ((s.dropAsked p).modCard p fun c => { c.off with present := false }).askCards

/-- CARD_SUPPLY_SHORT (R608): the port is deactivated with LAST_STATUS ROLE_DENIED. -/
def execCardSupplyShort (p : Nat) (s : State) : Host.Outcome State Fault Refusal :=
  if 2 ≤ p || !(s.card p).vcc then .next s else .next ((s.dropAsked p).modCard p fun c => { c.off with lastStatus := .roleDenied }).askCards

/-- CARD_TIMEOUT (R391): 30 s without an answer. -/
def execCardTimeout (p : Nat) (s : State) : Host.Outcome State Fault Refusal :=
  if 2 ≤ p || (s.card p).step == .none || s.glob.uptimeMs ≤ (s.card p).since + 30000 then .next s else .next (s.refuseCard p none)

/-- GET_IDENTITY answered (R391): an enrolled custodian goes on to GET_PROPOSAL, or to its approval while a challenge is live. -/
def State.cardIdentity (p : Nat) (data : Bytes) (s : State) : State :=
  let i := fieldLe data 0 1
  let c := s.dual.custodians.getD i {}
  if data.length != 49 || 16 ≤ i || c.alg = 0 || c.digest != data.drop 1 then s.refuseCard p (some 0x9000)
  else
    let s1 := s.modCard p fun x => { x with known := true, lastIndex := i, step := .none }
    if s.dual.chal.live then s1.askCards else s1.sendApdu p .proposal []

/-- A proposal turned down: its status in LAST_STATUS. -/
def State.rejectProposal (p : Nat) (st : Status) (s : State) : State := s.modCard p fun c => { c with step := .none, lastStatus := st }

/-- GET_PROPOSAL answered with a packet (R393): checked, and a challenge opened for it. While CD_0 cannot draw the nonce the proposal waits
(R305), and is looked at again when it can. -/
def State.cardProposal (p : Nat) (data : Bytes) (s : State) : State :=
  let hdr := data.take 32
  let body := data.drop 32
  let k := mkPacket hdr body false
  if s.dual.chal.live then (s.modCard p fun c => { c with step := .none }).askCards
  else if data.length != 32 + k.bodyLen || 4128 < data.length || (headerFault (padTo 32 hdr) body).isSome then s.rejectProposal p .descMalformed
  else if k.partCount != 0 || (proposalOf k.opcode).isNone || (s.md.zeroised && k.opcode != 0x211) then s.rejectProposal p .roleDenied
  else if s.dual.m = 0 then s.rejectProposal p .quorumMissing
  else
    match s.cmdDraw (.card p) 32 false 0 with
    | .inl (b, t) =>
      let s1 := t.issueChallenge 0xFFFE k.opcode k.digest b
      (s1.modCard p fun c => { c with step := .none, proposal := some (hdr, body) }).askCard p
    | .inr (.done st _ _ _ t) => t.rejectProposal p st
    | .inr (.hold _ _ _ t) => t.modCard p fun c => { c with step := .none, asked := some data }
    | .inr (.part _ _ _ t) => t

/-- A proposal that waited for its nonce, looked at again. -/
def State.proposalAgain (p : Nat) (s : State) : State :=
  match (s.card p).asked with
  | some data => if s.drawWaits (.card p) then s else (((s.modCard p fun c => { c with asked := none }).cardProposal p data).forgetDraw (.card p))
  | none => s

/-- SIGN_APPROVAL answered (R392): counted as a relayed approval is, unless its challenge has ended. -/
def State.cardApproval (p : Nat) (sig : Bytes) (s : State) : State :=
  let c := s.card p
  let s1 := s.modCard p fun x => { x with step := .none }
  if !s.dual.chal.live || c.askedId != s.dual.chal.id then (s1.modCard p fun x => { x with lastStatus := .challengeStale }).askCards
  else
    let (st, _, t) := s1.approve c.lastIndex (s.dual.custodians.getD c.lastIndex {}).alg sig
    ((t.modCard p fun x => { x with lastStatus := st }).askCards).runProposal

/-- CARD_RESPONSE (R391 to R393): the answer to the APDU sent. Trusted-world firmware takes it. -/
def execCardResponse (p sw : Nat) (data : Bytes) (s : State) : Host.Outcome State Fault Refusal :=
  if 2 ≤ p || !s.worlds.tw.up then .next s
  else
    match (s.card p).step with
    | .none => .next s
    | .select => .next (if sw = 0x9000 then s.sendApdu p .identity [] else s.refuseCard p (some sw))
    | .identity => .next (if sw = 0x9000 then s.cardIdentity p data else s.refuseCard p (some sw))
    | .proposal =>
      .next (if sw = 0x9000 then s.cardProposal p data
             else if sw = 0x6A88 then (s.modCard p fun c => { c with step := .none }).askCards else s.refuseCard p (some sw))
    | .sign => .next (if sw = 0x9000 then s.cardApproval p data else s.refuseCard p (some sw))

end Sys2Proof.Machine
end

