-- ==== Sys2Proof/Machine/Gate.lean ====
section
/-! DEFINITION. The boot gate (R402 to R418), the boot record (R419 to R421), the attestation commands (R426) and SPDM (R422 to R425). -/

namespace Sys2Proof.Machine

/-! ### The image policy (R408, R409) -/

/-- n region entries from an offset on. -/
def readRegions (b : Bytes) (off n : Nat) : List Region :=
  (List.range n).map fun i => ⟨fieldLe b (off + 16 * i) 1, fieldLe b (off + 16 * i + 4) 4, fieldLe b (off + 16 * i + 8) 4⟩

/-- n digests of 48 bytes from an offset on. -/
def readDigests (b : Bytes) (off n : Nat) : List Bytes := (List.range n).map fun i => sub b (off + 48 * i) 48

/-- The policy 1,312 bytes spell (R408). -/
def policyOf (b : Bytes) : Policy :=
  { mode := fieldLe b 2 1, failAction := fieldLe b 3 1, accept := fieldLe b 4 1, wp := fieldLe b 5 1 == 1, svnFloor := fieldLe b 8 4,
    regions := readRegions b 0x10 (fieldLe b 6 1), signer := sub b 0x90 48, manifestFlash := fieldLe b 0xC0 1,
    manifestOffset := fieldLe b 0xC4 4, allow := readDigests b 0xD0 (fieldLe b 7 1), recRegions := readRegions b 0x3E0 (fieldLe b 0x3D0 1),
    recAllow := readDigests b 0x460 (fieldLe b 0x3D1 1), raw := b }

/-- Two runs of flash bytes overlap. -/
def Region.meets (a b : Region) : Bool := a.flash == b.flash && a.offset < b.offset + b.length && b.offset < a.offset + a.length

/-- No two regions of a list overlap. -/
def apart : List Region → Bool
  | [] => true
  | r :: l => l.all (fun x => !r.meets x) && apart l

/-- A region keeps to 4 KiB steps (R409). -/
def Region.stepped (r : Region) : Bool := r.offset % 4096 == 0 && r.length % 4096 == 0 && 4096 ≤ r.length

/-- A set of regions the rules of R409 allow: stepped, apart from one another, the device partition and the manifest, 4 MiB in all. -/
def regionsOk (part : Nat) (manifest : Option Region) (l : List Region) : Bool :=
  l.all (fun r => r.stepped && !(r.flash == 0 && part < r.offset + r.length) && (match manifest with | some m => !r.meets m | none => true)) &&
    apart l && (l.map (·.length)).sum ≤ 0x400000

/-- The three zero bytes after FLASH, the four after LENGTH, and the entries beyond the count are zero (R408). -/
def regionBytesOk (b : Bytes) (off n : Nat) : Bool :=
  (List.range 8).all fun i =>
    let e := sub b (off + 16 * i) 16
    if i < n then !anySet (sub e 1 3) && !anySet (sub e 12 4) else !anySet e

/-- The fields match ACCEPT (R409): the manifest fields belong to SIGNED_MANIFEST, the digests to ALLOW_LIST. -/
def Policy.matchesAccept (p : Policy) : Bool :=
  if p.accept = 0 then !anySet p.signer && p.manifestFlash == 0 && p.manifestOffset == 0 && p.svnFloor == 0
  else p.manifestFlash ≤ 1 && p.manifestOffset % 4096 == 0 && p.allow.isEmpty && p.recAllow.isEmpty

/-- The manifest's 4 KiB in a flash. -/
def Policy.manifestAt (p : Policy) (flash : Nat) : Option Region :=
  if p.accept = 1 then some ⟨flash, p.manifestOffset, 4096⟩ else none

/-- A policy that may be installed (R408, R409). MODE NONE installs nothing, and nothing beyond FORMAT and MODE is looked at. -/
def State.policyOk (s : State) (b : Bytes) : Bool :=
  let p := policyOf b
  fieldLe b 0 2 == 1 &&
  (p.mode == 0 ||
    (p.mode ≤ 2 && p.failAction ≤ 1 && p.accept ≤ 1 && fieldLe b 5 1 ≤ 1 && 1 ≤ p.regions.length && p.regions.length ≤ 8 &&
      p.allow.length ≤ 16 && p.recRegions.length ≤ 8 && p.recAllow.length ≤ 4 &&
      !anySet (sub b 0xC 4) && !anySet (sub b 0xC1 3) && !anySet (sub b 0xC8 8) && !anySet (sub b 0x3D2 14) &&
      regionBytesOk b 0x10 p.regions.length && regionBytesOk b 0x3E0 p.recRegions.length &&
      p.regions.all (·.flash ≤ 1) && p.recRegions.all (·.flash == 1) &&
      (p.failAction == 0 || (s.gate.twoFlash && !p.recRegions.isEmpty)) && p.matchesAccept &&
      regionsOk s.gate.partOffset (p.manifestAt p.manifestFlash) p.regions &&
      regionsOk s.gate.partOffset (p.manifestAt 1) p.recRegions))

/-- IMAGE_POLICY_SET (R408, R409, R412): the policy takes effect at the next measurement; a removed policy's regions stay measured (R411). -/
def imagePolicySetRun : Run := fun _ p _ s =>
  if !s.policyOk p.data then .done .inputRange 0 [] 0 s
  else
    let q := policyOf p.data
    .done .done 0 [] 0 { s with gate :=
      if q.mode = 0 then { s.gate with policy := none, removed := match s.gate.policy with | some old => old.regions | none => s.gate.removed }
      else { s.gate with policy := some q } }

/-- IMAGE_POLICY_SET's row of the index. -/
def imagePolicySetCmd : Cmd :=
  { op := 0x403, auth := authMgr, data := true, dataOk := fun _ n => n == 1312, quorum := fun _ _ _ => true }

/-- IMAGE_POLICY_SET. -/
def execImagePolicySet (c : Caller) (s : State) : Host.Outcome State Fault Refusal :=
  .next (s.command c imagePolicySetCmd imagePolicySetRun)

/-! ### The gate's state -/

/-- f applied to the gate. -/
def State.modGate (f : Gate → Gate) (s : State) : State := { s with gate := f s.gate }

/-- STATE changed, with its GATE record. -/
def State.gateTo (st : GateState) (s : State) : State :=
  if s.gate.st = st then s
  else (s.modGate fun g => { g with st := st }).record 0x61 0 0 (pack [(1, s.gate.st.code), (1, st.code), (1, s.gate.lastVerdict)])

/-- A verdict that opens the gate (the verdict table). -/
def opens (v mode : Nat) : Bool := v ≤ 3 || (v == 5 && mode != 1)

/-- The gate opened on a verdict (R406, R414): flash 1 is presented under RECOVERY, and WP arms protection. -/
def State.openGate (v : Nat) (s : State) : State :=
  (s.modGate fun g =>
    { g with recovery := v == 3, wpActive := (g.inForce.map (·.wp)).getD false, verdictIn := none,
             openMs := sat 16 (s.glob.uptimeMs - g.closedAt) }).gateTo .opened

/-- A gate that stays closed whatever is measured (R418): RETIRED, and ZEROISED once a host reset has closed it. -/
def State.gateLocked (s : State) : Bool := s.keys.lc == .retired || s.md.zeroised

/-- The gate closed by a host reset or a start-up: a measurement under the policy now in force begins, protection and recovery end. -/
def State.closeGate (fromPerst : Bool) (s : State) : State :=
  s.modGate fun g =>
    { g with measuring := true, fromPerst := fromPerst, inForce := g.policy, verdictIn := none, recovery := false, wpActive := false,
             closedAt := if g.st == .opened then s.glob.uptimeMs else g.closedAt, wrote := if g.st == .opened then [] else g.wrote }

/-- PERST_ASSERT (R75, R82, R35, R417, R418): the function resets, the host port falls to DEEP, and the gate closes and measures again; a world that waits to read flash may. -/
def execPerstAssert (s : State) : Host.Outcome State Fault Refusal :=
  if s.hp.perst then .next s
  else
    let s1 := s.functionReset.modDom 60 fun d => { d with pstate := .deep }
    let s2 : State := State.noteLink { s1 with hp := { s1.hp.linkDown with perst := true, tx := [] } } s
    let s3 := if !s.tamper.mainPower || s.worlds.tw.image.isNone then s2
      else if s.gateLocked then (s2.modGate fun g => { g with measuring := false, verdictIn := none, recovery := false, wpActive := false }).gateTo .locked
      else (s2.closeGate true).gateTo .hostReset
    let free (w : WorldSt) : WorldSt := { w with waitFlash := false }
    .next { s3 with worlds := { s3.worlds with oldTx := 0, tw := free s3.worlds.tw, ow := free s3.worlds.ow } }

/-- PERST_RELEASE (R417): the gate opens if the verdict is in; otherwise it goes on measuring. -/
def execPerstRelease (s : State) : Host.Outcome State Fault Refusal :=
  if !s.hp.perst then .next s
  else
    let s1 := { s with hp := { s.hp with perst := false } }
    if s.gate.st != .hostReset then .next s1
    else
      match s.gate.verdictIn with
      | some v => .next (s1.openGate v)
      | none => .next (s1.gateTo .measuring)

/-! ### The verdict (R410 to R415) -/

/-- The SHA-384 of each region's contents (R410); none where the region could not be read whole, or lies in a flash that is not strapped. -/
def digests (two : Bool) (l : List Region) (reads : List RegionRead) : List (Option Bytes) :=
  l.zipIdx.map fun (r, i) =>
    (reads.getD i none).bind fun b => if (r.flash = 0 || two) && b.length = r.length then some (padTo 48 (sha384 b)) else none

/-- The composite digest of a set of regions (R410); none where a region could not be read. -/
def composite (two : Bool) (l : List Region) (reads : List RegionRead) : Option Bytes :=
  let items := (l.zip (digests two l reads)).zipIdx.map fun ((r, d), i) =>
    d.map fun d => leBytes 1 i ++ leBytes 1 r.flash ++ leBytes 4 r.offset ++ leBytes 4 r.length ++ d
  if items.all (·.isSome) then some (sha384 ((items.filterMap id).flatten)) else none

/-- A manifest accepts an image (R411). -/
def Policy.manifestAccepts (p : Policy) (two : Bool) (m : Bytes) (l : List Region) (reads : List RegionRead) : Bool :=
  sub m 0 4 == ascii "ZVHM" && fieldLe m 4 2 == 1 && !anySet (sub m 12 4) && sha384 (sub m 400 96) == padTo 48 p.signer &&
  sigVerifies 1 (sub m 400 96) (sub m 0 496) (sub m 496 96) && p.svnFloor ≤ fieldLe m 8 4 && fieldLe m 6 2 == l.length &&
  (digests two l reads).zipIdx.all fun (d, i) => d == some (sub m (16 + 48 * i) 48)

/-- What the measurement of one image came to. -/
inductive Judged where
  | accepted | rejected | flashError
deriving DecidableEq, Repr

/-- An image judged under the policy's ACCEPT kind (R411, R413). -/
def Policy.judge (p : Policy) (two : Bool) (l : List Region) (allow : List Bytes) (reads : List RegionRead) (manifest : Option Bytes) : Judged :=
  match composite two l reads with
  | none => .flashError
  | some d =>
    if p.accept = 0 then (if allow.contains d then .accepted else .rejected)
    else
      match manifest with
      | none => .flashError
      | some m => if p.manifestAccepts two m l reads then .accepted else .rejected

/-- What a measurement decided: the verdict, the composite digest of the deciding image, and its manifest SVN. -/
structure Decision where
  verdict : Nat
  digest : Option Bytes
  svn : Nat
deriving DecidableEq, Repr

/-- The manifest SVN of the boot record: 0 under ALLOW_LIST (R419). -/
def Policy.svnOf (p : Policy) (m : Option Bytes) : Nat :=
  if p.accept = 1 then (m.map fun b => fieldLe b 8 4).getD 0 else 0

/-- The verdict of a measurement under a policy, or under none (the verdict table, R411 to R413). -/
def decide_ (two : Bool) (policy : Option Policy) (removed : List Region) (g : GateRead) : Decision :=
  match policy with
  | none => ⟨1, composite two removed g.regions, 0⟩
  | some p =>
    let main := p.judge two p.regions p.allow g.regions g.manifest
    let d := composite two p.regions g.regions
    let svn := p.svnOf g.manifest
    if main = .accepted then ⟨0, d, svn⟩
    else if p.mode = 2 then ⟨if main = .flashError then 5 else 2, d, svn⟩
    else if p.failAction = 0 then ⟨if main = .flashError then 5 else 4, d, svn⟩
    else
      let r := p.judge two p.recRegions p.recAllow g.recRegions g.recManifest
      ⟨if r = .accepted then 3 else if r = .flashError then 5 else 4, composite two p.recRegions g.recRegions, p.svnOf g.recManifest⟩

/-- FLAGS of the boot record but for the signer (R419). -/
def State.bootFlags (s : State) (v : Nat) (open_ : Bool) : Nat :=
  b2n (open_ && (s.gate.inForce.map (·.wp)).getD false) + 2 * b2n (v == 3) + 4 * b2n s.gate.espi + 16 * b2n s.gate.fromPerst

/-- The boot record's fields (R419), awaiting their signature. The sequence number is unstated where the gate changes no state at the verdict,
and the image digest where a region could not be read: free bytes. -/
def State.bootFields (before : State) (d : Decision) (open_ : Bool) (s : State) : State :=
  let (f, s1) := s.freeBytes 56
  let seq := if s.er.nextSeq = before.er.nextSeq then f.take 8 else leBytes 8 before.recordSeq
  let p := match s.gate.inForce with | some p => sha384 p.raw | none => zeros 48
  let b := leBytes 2 1 ++ leBytes 1 d.verdict ++ leBytes 1 (s.bootFlags d.verdict open_) ++ leBytes 4 s.gate.bootCount ++ seq ++
    padTo 32 s.identityDigest ++ padTo 48 p ++ padTo 48 (d.digest.getD (f.drop 8)) ++ leBytes 4 d.svn ++ leBytes 1 s.keys.lc.code ++ zeros 11
  s1.modGate fun g => { g with unsigned := g.unsigned ++ [b] }

/-- An activated image awaits its flash write (R585): none of the trusted world's during its trial, nor of an open world that has not come
up. -/
def State.writeDue (s : State) (kind : Nat) : Bool :=
  let r := s.renewal
  (kind == 1 && r.twPending && !r.twTrial) || (kind == 2 && r.owPending && s.worlds.ow.prevImage.isNone) || (kind == 3 && r.mcPending)

/-- The flash writes that fall in a host reset come before its measurement (R585). -/
def State.writesFirst (s : State) : Bool := s.gate.fromPerst && [1, 2, 3].any fun k => s.writeDue k && !s.gate.wrote.contains k

/-- GATE_VERDICT (R411 to R419): the verdict is counted, the gate opens or stays closed, and its boot record awaits signature. After a host
reset the gate opens no earlier than PERST# is released (R417). -/
def execGateVerdict (g : GateRead) (s : State) : Host.Outcome State Fault Refusal :=
  if !s.gate.measuring || !s.worlds.tw.up || s.writesFirst then .next s
  else
    let d := decide_ s.gate.twoFlash s.gate.inForce s.gate.removed g
    let open_ := opens d.verdict ((s.gate.inForce.map (·.mode)).getD 0)
    let s1 := s.modGate fun t =>
      { t with measuring := false, lastVerdict := d.verdict, bootCount := (t.bootCount + 1) % 2 ^ 32, measureMs := sat 16 g.measureMs }
    let s2 :=
      if !open_ then s1.gateTo .rejected
      else if s.gate.fromPerst && s.hp.perst then s1.modGate fun t => { t with verdictIn := some d.verdict }
      else s1.openGate d.verdict
    .next (State.bootFields s d open_ s2)

/-! ### The boot record (R419 to R421) -/

/-- The Alias private key (R399, R400). -/
def State.aliasKey (s : State) : Bytes :=
  let (m, v) := match s.worlds.tw.image with | some i => (i.measurement, i.svn) | none => ([], 0)
  kdf (s.keys.root.getD []) "ZV1600 ALIAS" (s.lcByte ++ m ++ leBytes 4 v) 48

/-- A signature by Alias over a message's SHA-384. -/
def State.aliasSign (s : State) (m : Bytes) : Bytes := Config.prim (.ecdsaSign 2) [s.aliasKey, sha384 m] 96

/-- A signature by DeviceID. -/
def deviceIdSign (m : Bytes) : Bytes :=
  Config.prim (.ecdsaSign 2) [kdf Config.uds "ZV1600 DEVICEID" Config.bootRomDigest 48, sha384 m] 96

/-- FLAGS bit 3 of a boot record set. -/
def byDeviceId (b : Bytes) : Bytes := putAt b 3 (leBytes 1 (fieldLe b 3 1 + 8))

/-- A boot record signed (R420): by Alias, or by DeviceID while no root is present. -/
def State.signBoot (s : State) (b : Bytes) : Bytes :=
  if s.aliasExists then b ++ s.aliasSign b else byDeviceId b ++ deviceIdSign (byDeviceId b)

/-- BOOT_RECORD_WRITE (R420): the oldest held fields are signed and written as eight records; the latest is kept. -/
def execBootRecordWrite (s : State) : Host.Outcome State Fault Refusal :=
  match s.gate.unsigned with
  | b :: rest =>
    if !s.worlds.tw.up then .next s
    else
      let r := s.signBoot b
      let s1 := s.each (List.range 8) fun i t => t.record 0x60 1 0 (leBytes 1 i ++ sub r (32 * i) 32)
      .next { s1 with gate := { s1.gate with unsigned := rest, latest := r }, renewal := { s1.renewal with recordDone := true } }
  | [] => .next s

/-- The boot record of a BOOT_COUNT, from its eight records in the event recorder (R421): they are consecutive. -/
def bootRecordOf (n : Nat) : List Record → Option Bytes
  | [] => none
  | x :: l =>
    let run := (x :: l).take 8
    let b := run.flatMap fun r => sub r.body 1 32
    if run.length == 8 && run.all (·.typ == 0x60) && run.zipIdx.all (fun (r, i) => fieldLe r.body 0 1 == i) && fieldLe b 4 4 == n then some b
    else bootRecordOf n l

/-- BOOT_RECORD_GET (R421). -/
def bootRecordGetRun : Run := fun _ p _ s =>
  let n := p.int [.int 4] 0
  if n = 0 then .done .done 0 (padTo 256 s.gate.latest) 0 s
  else
    match bootRecordOf n (s.er.held.filter (·.typ == 0x60)) with
    | some b => .done .done 0 b 0 s
    | none => .done .inputRange 0 [] 0 s

/-- BOOT_RECORD_GET's row of the index. -/
def bootRecordGetCmd : Cmd := { op := 0x402, auth := authAny, zOk := true, flds := [.int 4] }

/-- BOOT_RECORD_GET. -/
def execBootRecordGet (c : Caller) (s : State) : Host.Outcome State Fault Refusal :=
  .next (s.command c bootRecordGetCmd bootRecordGetRun)

/-! ### Host flash accesses (R406, R407, R414) -/

/-- The flash a chip select of the host reaches (R406); in eSPI mode the flash the linear address lies in. -/
def Gate.reaches (g : Gate) (flash : Nat) : Option Nat :=
  if g.espi then some flash
  else if g.recovery then (if flash = 0 then some 1 else none)
  else if flash = 0 || g.twoFlash then some flash else none

/-- The regions R414 protects: the recovery regions under RECOVERY. -/
def Gate.guarded (g : Gate) : List Region :=
  if g.wpActive then (match g.inForce with | some p => if g.recovery then p.recRegions else p.regions | none => []) else []

/-- A host command aimed at a run of flash that the gate drops (R407, R414). A write-status command is aimed at a whole flash. -/
def Gate.drops (g : Gate) (flash addr len : Nat) (op : FlashOp) : Bool :=
  let r : Region := ⟨flash, addr, len⟩
  match op with
  | .read => false
  | .writeStatus => g.guarded.any fun x => x.flash == flash
  | .program | .erase => (flash == 0 && g.partOffset < addr + len) || g.guarded.any r.meets

/-- Bytes of an access that lie in the device partition of flash 0. -/
def Gate.inPartition (g : Gate) (flash addr len : Nat) : Nat := if flash = 0 then Nat.min len (addr + len - g.partOffset) else 0

/-- What an access that is not dropped meets (R407): a read returns 0xFF for the bytes of the device partition. -/
def Gate.answerOf (g : Gate) (flash addr len : Nat) (op : FlashOp) : FlashAnswer :=
  if op = .read ∧ g.inPartition flash addr len ≠ 0 then .blank (g.inPartition flash addr len) else .passed

/-- HOST_FLASH_ACCESS: a dropped command counts in WRITES_BLOCKED; anything else passes through an open gate. -/
def execHostFlashAccess (flash addr len : Nat) (op : FlashOp) (s : State) : Host.Outcome State Fault Refusal :=
  if s.gate.st != .opened then .next s
  else
    match s.gate.reaches flash with
    | some f =>
      .next (s.modGate fun g =>
        if g.drops f addr len op then { g with blocked := sat 32 (g.blocked + 1), answer := if g.espi then .unsuccessful else .deselected }
        else { g with answer := g.answerOf f addr len op })
    | none => .next (s.modGate fun g => { g with answer := .none })

/-! ### IDENTITY_GET and MEASUREMENTS_GET -/

/-- The Alias public key. -/
def State.aliasPublic (s : State) : Bytes := Config.prim (.ecPublic 2) [s.aliasKey] 96

/-- What layer 1 measured (R399): the trusted world's image and SVN, and the lifecycle. -/
def State.aliasLayer (s : State) : List Bytes :=
  let (m, v) := match s.worlds.tw.image with | some i => (i.measurement, i.svn) | none => ([], 0)
  [s.aliasPublic, m, leBytes 4 v, s.lcByte]

/-- The certificate chain of a slot (R422): slot 0 ends in Alias, slot 1 in DeviceID. -/
def State.certChain (s : State) (slot : Nat) : Bytes :=
  Config.certChain slot (deviceIdPublic :: if slot = 0 then s.aliasLayer else [])

/-- Chain bytes of a part: what a body holds after the other items. -/
def chainBytes : Nat := 3960

/-- IDENTITY_GET (R426): PART is the packet's. -/
def identityGetRun : Run := fun _ p _ s =>
  let slot := p.int [.int 1] 0
  if slot = 0 && !s.aliasExists then .done .inputRange 0 [] 0 s
  else
    let chain := s.certChain slot
    let count := Nat.max 1 ((chain.length + chainBytes - 1) / chainBytes)
    if count ≤ p.part then .done .descMalformed 11 [] 0 s
    else
      .part (padTo 40 (layBytes [(.str 32, s.identityDigest), (.int 1, s.lcByte)]) ++ padTo 96 deviceIdPublic ++
        (chain.drop (chainBytes * p.part)).take chainBytes) count 0 s

/-- IDENTITY_GET's row of the index. -/
def identityGetCmd : Cmd :=
  { op := 0x400, auth := authAny, zOk := true, flds := [.int 1], parts := .export_, paramOk := fun _ p => p.int [.int 1] 0 ≤ 1 }

/-- IDENTITY_GET. -/
def execIdentityGet (c : Caller) (s : State) : Host.Outcome State Fault Refusal := .next (s.command c identityGetCmd identityGetRun)

/-- A byte string not below another, byte by byte. -/
def bytesLe (a b : Bytes) : Bool := ofBe a ≤ ofBe b

/-- The distinct microcode digests of ACTIVE channels, sorted (measurement index 4). -/
def State.mcDigests (s : State) : List Bytes :=
  (((s.chs.filter (·.mcState == .active)).map fun c => padTo 48 c.mcDigest).eraseDups).mergeSort bytesLe

/-- The lowest microcode SVN of the ACTIVE channels; 0 without one. -/
def State.lowestMcSvn (s : State) : Nat :=
  match (s.chs.filter (·.mcState == .active)).map (·.mcSvn) with
  | [] => 0
  | x :: l => l.foldl Nat.min x

/-- Debug access to the trusted-world cores exists (R451). -/
def State.debugPresent (s : State) : Bool := s.keys.lc == .blank || s.keys.lc == .development || s.keys.lc == .returned

/-- A measurement's DMTF type, whether it is raw, and its value (the measurement table). `f` stands for the digest of a world that does not run. -/
def State.measurement (s : State) (f : Bytes) (i : Nat) : Nat × Bool × Bytes :=
  let img (x : Option Image) : Bytes := match x with | some m => padTo 48 m.measurement | none => f
  match i with
  | 1 => (0, false, padTo 48 Config.bootRomDigest)
  | 2 => (1, false, img s.worlds.tw.image)
  | 3 => (1, false, img (if s.worlds.ow.up then s.worlds.ow.image else none))
  | 4 => (1, false, sha384 s.mcDigests.flatten)
  | 5 => (3, false, match s.gate.policy with | some p => sha384 p.raw | none => zeros 48)
  | 6 => (2, true, [BitVec.ofNat 8 s.keys.lc.code, BitVec.ofNat 8 (b2n s.debugPresent),
                    BitVec.ofNat 8 (b2n s.gate.twoFlash + 2 * b2n s.gate.espi), BitVec.ofNat 8 s.md.mode.code])
  | 7 => (1, true, padTo 256 s.gate.latest)
  | _ => (7, true, leBytes 4 (imageInfo s.worlds.tw.image).2 ++ leBytes 4 (imageInfo s.worlds.ow.image).2 ++ leBytes 4 s.lowestMcSvn)

/-- A measurement block in the form of DSP0274: index, specification 1, size, DMTF type with its raw bit, size, value. -/
def State.measurementBlock (s : State) (f : Bytes) (i : Nat) : Bytes :=
  let (t, raw, v) := s.measurement f i
  leBytes 1 i ++ leBytes 1 1 ++ leBytes 2 (3 + v.length) ++ leBytes 1 (t + 128 * b2n raw) ++ leBytes 2 v.length ++ v

/-- Parameters of MEASUREMENTS_GET: index mask, nonce, SIGN. -/
def measurementsFlds : List Fld := [.int 2, .str 32, .int 1]

/-- MEASUREMENTS_GET (R425, R426): bit i of the mask asks for index i. -/
def measurementsGetRun : Run := fun _ p _ s =>
  let sign := p.int measurementsFlds 2 == 1
  if sign && !s.aliasExists then .done .inputRange 0 [] 0 s
  else
    let (f, s1) := s.freeBytes 48
    let blocks := ((List.range 9).filter fun i => bit (p.int measurementsFlds 0) i).flatMap (s.measurementBlock f)
    .done .done 0 (blocks ++ if sign then s.aliasSign (p.str measurementsFlds 1 ++ blocks) else []) 0 s1

/-- MEASUREMENTS_GET's row of the index. -/
def measurementsGetCmd : Cmd :=
  { op := 0x401, auth := authAny, zOk := true, flds := measurementsFlds,
    paramOk := fun _ p => p.int measurementsFlds 0 < 512 && p.int measurementsFlds 0 % 2 == 0 && p.int measurementsFlds 2 ≤ 1 }

/-- MEASUREMENTS_GET. -/
def execMeasurementsGet (c : Caller) (s : State) : Host.Outcome State Fault Refusal := .next (s.command c measurementsGetCmd measurementsGetRun)

/-! ### SPDM (R422 to R424) -/

/-- The answer of a request: 1 answered, 2 UnsupportedRequest, 4 an ERROR that the SPDM specification names. -/
def State.spdmAnswer (s : State) (t : Transport) (r : SpdmReq) : Nat :=
  let held := (s.hp.spdmSessions.filter (· == t)).length
  let session := if !s.aliasExists then 2 else if held = 0 then 4 else 1
  match r with
  | .getVersion | .getCapabilities | .negotiateAlgorithms | .getDigests _ | .chunkSend | .chunkGet => 1
  | .getCertificate n => if n = 1 || (n = 0 && s.aliasExists) then 1 else 4
  | .challenge n => if n = 1 || (n = 0 && s.aliasExists) then 1 else 4
  | .getMeasurements i signed => if signed && !s.aliasExists then 2 else if i ≤ 8 || i = 0xFF then 1 else 4
  | .keyExchange => if !s.aliasExists then 2 else if 4 ≤ held then 4 else 1
  | .finish | .heartbeat | .keyUpdate | .endSession => session
  | .unsupported => 2

/-- What an answer says of this device (R422 to R425): the versions, the digests of the provisioned slots behind their mask, the chain of a
slot, the measurement blocks of an index or of all, index 0 asking for their number alone. -/
def State.spdmBody (s : State) (f : Bytes) : SpdmReq → Bytes
  | .getVersion => [0x12, 0x13]
  | .getDigests _ =>
    let slots := if s.aliasExists then [0, 1] else [1]
    leBytes 1 (slots.map (2 ^ ·)).sum ++ slots.flatMap fun n => padTo 48 (sha384 (s.certChain n))
  | .getCertificate n => s.certChain n
  | .getMeasurements i _ =>
    if i = 0 then [8] else ((List.range 9).drop 1).flatMap fun k => if i = 0xFF || i = k then s.measurementBlock f k else []
  | _ => []

/-- SPDM_REQUEST: a KEY_EXCHANGE answered opens a session, END_SESSION ends one; during a trusted-world restart the answer is Busy. -/
def execSpdmRequest (t : Transport) (r : SpdmReq) (s : State) : Host.Outcome State Fault Refusal :=
  if (t != .mctpI3c && !s.hp.dlUp) || s.worlds.tw.image.isNone then .next s
  else if !s.worlds.tw.up then .next { s with hp := { s.hp with spdmReply := 3, spdmData := [] } }
  else
    let a := s.spdmAnswer t r
    let l := s.hp.spdmSessions
    let l1 := if a != 1 then l else match r with
      | .keyExchange => l ++ [t]
      | .endSession => l.erase t
      | _ => l
    let (f, s1) := s.freeBytes 48
    .next { s1 with hp := { s.hp with spdmReply := a, spdmData := if a = 1 then s.spdmBody f r else [], spdmSessions := l1 } }

end Sys2Proof.Machine
end

