-- ==== Sys2Proof/Machine/Reports.lean ====
section
/-! DEFINITION. The recorder's commands (R495 to R498), the tamper commands (R481 to R484) and WORLD_STATUS (R456, R457). -/

namespace Sys2Proof.Machine

/-! ### ER_READ and ER_CLEAR -/

/-- Parameters of ER_READ: START_SEQ, COUNT, SIGN, nonce. -/
def erReadFlds : List Fld := [.int 8, .int 2, .int 1, .str 32]

/-- ER_READ (R495, R496). With nothing returned FIRST_SEQ has no record to name: a free value. -/
def erReadRun : Run := fun _ p _ s =>
  let f := p.int erReadFlds
  let sign := f 2 == 1
  if 62 < f 1 || (sign && !s.aliasExists) then .done .inputRange 0 [] 0 s
  else
    let l := (s.er.held.filter fun r => f 0 ≤ r.seq).take (f 1)
    let (free, s1) := if l.isEmpty then s.freeBytes 8 else ([], s)
    let first := match l with | r :: _ => leBytes 8 r.seq | [] => free
    let block := first ++ leBytes 2 l.length ++ leBytes 1 (b2n (f 0 < s.er.oldestSeq)) ++ zeros 5 ++ leBytes 8 s.er.oldestSeq ++
      leBytes 8 s.er.nextSeq
    let out := block ++ l.flatMap Record.bytes
    .done .done 0 (out ++ if sign then s.aliasSign (p.str erReadFlds 3 ++ out) else []) 0 s1

/-- ER_READ's row of the index. -/
def erReadCmd : Cmd :=
  { op := 0x500, auth := authMgrOw, zOk := true, flds := erReadFlds, paramOk := fun _ p => p.int erReadFlds 2 ≤ 1 }

/-- ER_READ. -/
def execErRead (c : Caller) (s : State) : Host.Outcome State Fault Refusal := .next (s.command c erReadCmd erReadRun)

/-- The three steps of R497: ER_CLEARED written and flushed, OLDEST_SEQ moved, the entries gone. -/
def State.clearLog (upTo challenge mask : Nat) (s : State) : State :=
  let n := (s.er.held.filter fun r => r.seq ≤ upTo).length
  let s1 := (s.record 4 1 0 (pack [(8, upTo), (4, n), (8, challenge), (2, mask)])).flushLog
  State.checkAck { s1 with er := { s1.er with log := s1.er.log.filter fun r => upTo < r.seq } }

/-- ER_CLEAR (R497). -/
def erClearRun : Run := fun _ p _ s =>
  let n := p.int [.int 8] 0
  if n = 0 || s.er.nextSeq ≤ n then .done .inputRange 0 [] 0 s
  else .done .done 0 [] 0 (s.clearLog n p.challenge s.dual.chal.approved.toNat)

/-- ER_CLEAR's row of the index. -/
def erClearCmd : Cmd := { op := 0x501, auth := authMgr, flds := [.int 8], quorum := fun _ _ _ => true }

/-- ER_CLEAR. -/
def execErClear (c : Caller) (s : State) : Host.Outcome State Fault Refusal := .next (s.command c erClearCmd erClearRun)

/-! ### TAMPER_STATUS and TAMPER_CONFIG -/

/-- The block of a tamper source (R484). -/
def State.sourceBlock (s : State) (i : Nat) : Bytes :=
  let t := s.src i
  leBytes 4 (b2n t.asserted + 2 * b2n t.alarmed + t.count * 2 ^ 8 + t.grade * 2 ^ 16 + sourceClass i * 2 ^ 20 + t.loopMode * 2 ^ 24) ++
  leBytes 4 (t.n + t.windowMs * 256) ++ leBytes 4 (t.nCell + t.windowCellMs * 256) ++ leBytes 4 t.events ++ leBytes 4 t.alarms ++ zeros 4 ++
  leBytes 8 t.lastSeq

/-- TAMPER_STATUS (R483). -/
def tamperStatusRun : Run := fun _ _ _ s =>
  .done .done 0 (layBytes ((.str 4, leBytes 4 s.tamperWord) :: (List.range 32).map fun i => (.str 32, s.sourceBlock i))) 0 s

/-- TAMPER_STATUS's row of the index. -/
def tamperStatusCmd : Cmd := { op := 0x600, auth := authMgrOw, zOk := true }

/-- TAMPER_STATUS. -/
def execTamperStatus (c : Caller) (s : State) : Host.Outcome State Fault Refusal := .next (s.command c tamperStatusCmd tamperStatusRun)

/-- The grades R458 allows a source. -/
def gradesOf (i : Nat) : List Nat :=
  if i = 2 ∨ i = 4 ∨ i = 19 ∨ i = 22 ∨ i = 25 ∨ i = 27 then [3, 4]
  else if i = 0 ∨ i = 1 ∨ i = 3 ∨ i = 31 then [4]
  else if i = 5 ∨ i = 6 ∨ i = 7 ∨ i = 18 ∨ i = 26 ∨ i = 29 then [2, 3, 4]
  else if (8 ≤ i ∧ i ≤ 16) ∨ i = 20 ∨ i = 23 then [1, 2, 3, 4]
  else if i = 17 ∨ i = 21 ∨ i = 24 then [1, 2, 3]
  else if i = 28 then [0, 1, 2, 3, 4]
  else if i = 30 then [0, 1, 2, 3]
  else []

/-- The LOOP_PERIOD code of a period in ms (R482). -/
def periodCode (ms : Nat) : Option Nat := (List.range 6).find? fun n => 32 * 2 ^ n == ms

/-- Parameters of TAMPER_CONFIG: source, mask, LOOP_MODE, N, WINDOW_MS, N_CELL, WINDOW_CELL_MS, GRADE, LOOP_PERIOD in ms. -/
def tamperFlds : List Fld := [.int 1, .int 2, .int 1, .int 1, .int 4, .int 1, .int 4, .int 1, .int 2]

/-- A loop's readings fit its window on cell power (R481). -/
def loopFits (periodMs : Nat) (t : TSource) : Bool := (t.nCell - 1) * periodMs < t.windowCellMs

/-- The source as TAMPER_CONFIG leaves it: the selected fields, COUNT at 0. -/
def tamperChanged (f : Nat → Nat) (t : TSource) : TSource :=
  let on (b : Nat) := bit (f 1) b
  { t with loopMode := if on 0 then f 2 else t.loopMode, n := if on 1 then f 3 else t.n, windowMs := if on 2 then f 4 else t.windowMs,
           nCell := if on 3 then f 5 else t.nCell, windowCellMs := if on 4 then f 6 else t.windowCellMs,
           grade := if on 5 then f 7 else t.grade, times := [] }

/-- The refusals of R481. -/
def State.tamperRefused (f : Nat → Nat) (s : State) : Bool :=
  let i := f 0
  let on (b : Nat) := bit (f 1) b
  let k := sourceClass i
  let window (v : Nat) : Bool := v = 0 || 60000 < v
  let ms := if on 6 then f 8 else s.loopMs
  32 ≤ i || (on 0 && (2 < f 2 || (k != 1 && f 2 != 0))) || (on 1 && f 3 = 0) || (on 2 && window (f 4)) || (on 3 && f 5 = 0) ||
    (on 4 && window (f 6)) || ((on 3 || on 4) && 2 ≤ k) || (on 5 && !(gradesOf i).contains (f 7)) ||
    (on 6 && ((periodCode (f 8)).isNone || ((List.range 8).any fun j => 8 + j != i && !loopFits ms (s.src (8 + j))))) ||
    (k == 1 && !loopFits ms (tamperChanged f (s.src i)))

/-- TAMPER_CONFIG (R481). -/
def tamperConfigRun : Run := fun _ p _ s =>
  let f := p.int tamperFlds
  if s.tamperRefused f then .done .inputRange 0 [] 0 s
  else if f 1 = 0 then .done .done 0 [] 0 s
  else
    let s1 := s.modSrc (f 0) (tamperChanged f)
    .done .done 0 [] 0 (if bit (f 1) 6 then
      { s1 with tamper := { s1.tamper with loopPeriod := (periodCode (f 8)).getD s1.tamper.loopPeriod } } else s1)

/-- TAMPER_CONFIG's row of the index. -/
def tamperConfigCmd : Cmd :=
  { op := 0x601, auth := authMgr, flds := tamperFlds, quorum := fun _ _ _ => true, paramOk := fun _ p => p.int tamperFlds 1 < 128 }

/-- TAMPER_CONFIG. -/
def execTamperConfig (c : Caller) (s : State) : Host.Outcome State Fault Refusal := .next (s.command c tamperConfigCmd tamperConfigRun)

/-! ### WORLD_STATUS -/

/-- TW_RESTART and OW_RESTART (R456). -/
def WorldSt.restartWord (x : WorldSt) : Nat := x.restarts + x.lastCause * 2 ^ 16 + b2n x.inProgress * 2 ^ 19

/-- The five registers of R456. -/
def State.worldWords (s : State) : List Nat :=
  let w := s.worlds
  [w.coreOw.toNat + b2n w.session1Ow * 16 + b2n w.lock * 256 + w.twRegions * 2 ^ 16, w.tw.restartWord, w.ow.restartWord,
   w.admEpoch + b2n s.epochDrained * 2 ^ 16, w.serowFaults + w.debugAttempts * 2 ^ 16]

/-- WORLD_STATUS (R457). -/
def worldStatusRun : Run := fun _ _ _ s => .done .done 0 (layBytes (s.worldWords.map fun v => (.str 4, leBytes 4 v))) 0 s

/-- WORLD_STATUS's row of the index. -/
def worldStatusCmd : Cmd := { op := 0xA00, auth := authMgrOw }

/-- WORLD_STATUS. -/
def execWorldStatus (c : Caller) (s : State) : Host.Outcome State Fault Refusal := .next (s.command c worldStatusCmd worldStatusRun)

end Sys2Proof.Machine
end

