-- ==== Sys2Proof/Machine/Power.lean ====
section
/-! DEFINITION. The power controller (R549 to R571): requests, entry and exit of the domains' states, wakes, the group regulators. -/

namespace Sys2Proof.Machine

/-! ### Domains -/

/-- The kinds of domain (R549). -/
inductive DomKind where
  | channel | core | fabric | host | device
deriving DecidableEq, Repr

/-- The kind of a domain number. -/
def domKind (d : Nat) : DomKind :=
  if d < 36 then .channel else if d < 40 then .core else if d < 60 then .fabric else if d = 60 then .host else .device

/-- OWNER of a domain (R549, R571): 0 the trusted world, 1 the open world, 2 shared, 3 the link. -/
def State.ownerOf (s : State) (d : Nat) : Nat :=
  match domKind d with
  | .core => (match s.coreWorld (d - 36) with | .tw => 0 | .ow => 1)
  | .host => 3
  | _ => 2

/-- The allowance in force (R553, R554): the shallower of a shared domain's two. A trusted-world core goes no deeper than IDLE (R551). -/
def State.allowance (s : State) (d : Nat) : PState :=
  let x := s.dom d
  match s.ownerOf d with
  | 0 => if x.allowTw.code < 1 then x.allowTw else .idle
  | 1 => x.allowOw
  | _ => if x.allowTw.code < x.allowOw.code then x.allowTw else x.allowOw

/-- The block of a domain (R571). -/
def State.domBlock (s : State) (d : Nat) : Bytes :=
  let x := s.dom d
  leBytes 4 ((s.pstateNow d).code + x.allowTw.code * 8 + x.allowOw.code * 64 + b2n x.deferred * 512 + s.ownerOf d * 1024 + x.exits * 2 ^ 16) ++
  leBytes 4 (x.op + x.opLoop * 8 + x.opMin * 64 + b2n x.loopEn * 512 + b2n x.pacedHold * 1024 + b2n x.resumed * 2048) ++
  leBytes 4 (x.cap + x.targetNow * 2 ^ 16) ++ leBytes 4 (x.sleepAfter + x.deepAfter * 2 ^ 16)

/-- The block of a group regulator (R571). -/
def State.grpBlock (s : State) (g : Nat) : Bytes :=
  let x := s.grp g
  leBytes 4 (x.setMv + x.readMv * 2 ^ 16 + b2n x.settled * 2 ^ 28 + b2n x.fault * 2 ^ 29) ++ leBytes 4 x.readMa ++
  leBytes 4 (x.writes + x.faults * 2 ^ 16) ++ zeros 4

/-! ### Requests (R553 to R556, R596) -/

/-- Parameters of a request, at the offsets of R596: domain, mask, ALLOW, LOOP_EN, OP, TARGET, SF, SLEEP_AFTER_US, DEEP_AFTER_MS, WAKE_LEVEL. -/
def pwrFlds : List Fld := [.int 2, .int 2, .int 1, .int 1, .int 1, .int 2, .int 1, .int 2, .int 2, .int 1]

/-- The i-th parameter of a request. -/
def pwrInt (b : Bytes) (i : Nat) : Nat := fieldLe b ((offsets 0 pwrFlds).getD i 0) ((pwrFlds.map Fld.size).getD i 0)

/-- The mask bits that belong to a kind of domain (R556, R571). -/
def maskOf : DomKind → List Nat
  | .channel => [0, 1, 2, 3, 5, 6]
  | .core => [0, 4, 5, 6]
  | .fabric => [0, 5, 6]
  | .host => []
  | .device => [0, 7]

/-- What OFF waits for (R555). A command that asks for it is not among the running ones. -/
def State.mayOff (s : State) : Bool :=
  s.md.manager && s.slices.all (fun x => x.state == .free || x.state == .quiesced) && s.mail.running.isEmpty && !s.dual.winOpen &&
    !s.dual.chal.live && (s.hier.role == 0 || s.hier.state == 4)

/-- The power controller runs (R10): a request waits for its set point, or a request port is BUSY. -/
def State.powerRunning (s : State) : Bool :=
  (s.mail.running.any fun j => match j.kind with | .settle _ => true | _ => false) || s.worlds.tw.powerBusy || s.worlds.ow.powerBusy

/-- The refusal of a request of a world (R554, R556). A trusted-world core runs at SF_3 alone (R561); WAKE_LEVEL is Held (R10, R571). -/
def State.pwrFault (w : World) (f : Nat → Nat) (s : State) : Option (Status × Nat) :=
  let d := f 0
  let on (b : Nat) := bit (f 1) b
  if d = 60 || 61 < d then some (.inputRange, 2)
  else if w = .ow && s.ownerOf d = 0 then some (.powerHeld, 0)
  else if (List.range 8).any (fun b => on b && !(maskOf (domKind d)).contains b) || (on 0 && f 2 = 4 && d != 61) then some (.inputRange, 2)
  else if (on 0 && 4 < f 2) || (on 1 && 1 < f 3) || (on 2 && 7 < f 4) || (on 3 && (f 5 < 737 || 1024 < f 5)) ||
      (on 4 && (3 < f 6 || (s.ownerOf d = 0 && f 6 != 3))) || (on 5 && f 7 < 10) || (on 6 && f 8 < 1) || (on 7 && 1 < f 9) then some (.inputRange, 1)
  else if on 7 && s.powerRunning then some (.cfgHeld, 0)
  else none

/-- The fields of a request written into its domain. -/
def pwrWritten (w : World) (f : Nat → Nat) (d : Domain) : Domain :=
  let on (b : Nat) := bit (f 1) b
  let a := (PState.ofCode (f 2)).getD .run
  let loop := if on 1 then f 3 == 1 else d.loopEn
  let op := if on 2 then some (f 4) else d.mgrOp
  { d with allowTw := if on 0 && w = .tw then a else d.allowTw, allowOw := if on 0 && w = .ow then a else d.allowOw,
           loopEn := loop, mgrOp := op, opLoop := if loop then d.opLoop else op.getD d.opLoop, target := if on 3 then f 5 else d.target,
           op := if on 4 then f 6 else d.op, sleepAfter := if on 5 then f 7 else d.sleepAfter, deepAfter := if on 6 then f 8 else d.deepAfter }

/-- The request of the device domain (R555): OFF stands deferred until its conditions hold. -/
def State.requestOff (w : World) (f : Nat → Nat) (s : State) : State :=
  if f 0 = 61 ∧ bit (f 1) 0 ∧ w = .ow then
    (s.modPower fun p => { p with offRequest := f 2 == 4 }).modDom 61 fun d => { d with deferred := f 2 == 4 && !s.mayOff }
  else s

/-- DEFERRED brought up to date (R554). -/
def State.refreshDeferred (d : Nat) (s : State) : State :=
  if d = 61 || s.ownerOf d != 2 then s else s.modDom d fun x => { x with deferred := x.allowTw.code < x.allowOw.code }

/-- A domain in a state its allowance no longer permits comes out of it. -/
def State.wakeShallow (d : Nat) (s : State) : State :=
  if (s.allowance d).code < (s.dom d).pstate.code then s.startWake d .internal else s

/-- A request carried out (R556): a new TARGET takes effect within it, and OP_LOOP follows it (R562). -/
def State.pwrApply (w : World) (f : Nat → Nat) (s : State) : State :=
  let d := f 0
  let s1 := s.modDom d (pwrWritten w f)
  let s2 := if bit (f 1) 3 then (s1.modCh d fun c => { c with targetChanged := true }).followTarget d else s1
  let s3 := if bit (f 1) 7 then s2.modPower fun p => { p with wakeLevel := f 9 == 1 } else s2
  State.settle (((s3.requestOff w f).refreshDeferred d).wakeShallow d) s

/-- The reply of PWR_DOMAIN_SET: the domain's block, and DEFERRED. -/
def State.pwrReply (s : State) (d : Nat) : Bytes := layBytes [(.str 16, s.domBlock d), (.int 1, leBytes 1 (b2n (s.dom d).deferred))]

/-- PWR_DOMAIN_SET (R553, R554, R556): a manager mailbox and the open world set the open world's allowance. A set point that the command moved
is waited for (R556, R565). -/
def pwrDomainSetRun : Run := fun _ p again s =>
  let f := pwrInt p.params
  let d := f 0
  if again then .done .done 0 (s.pwrReply d) d s
  else
    match s.pwrFault .ow f with
    | some (st, n) => .done st n [] d s
    | none =>
      let t := s.pwrApply .ow f
      let g := groupOf d
      if d < 36 && (t.grp g).setMv != (s.grp g).setMv then .hold (.settle d) [] d t else .done .done 0 (t.pwrReply d) d t

/-- PWR_DOMAIN_SET's row of the index. -/
def pwrDomainSetCmd : Cmd :=
  { op := 0x800, auth := authMgrOw, flds := pwrFlds, obj := fun p => pwrInt p.params 0, paramOk := fun _ p => pwrInt p.params 1 < 256 }

/-- PWR_DOMAIN_SET. -/
def execPwrDomainSet (c : Caller) (s : State) : Host.Outcome State Fault Refusal := .next (s.command c pwrDomainSetCmd pwrDomainSetRun)

/-- PWR_STATUS (R556). -/
def pwrStatusRun : Run := fun _ p _ s =>
  let d := p.int [.int 2] 0
  if d != 0xFFFF && (d = 60 || 61 < d) then .done .inputRange 2 [] d s
  else
    let l := if d = 0xFFFF then List.range 62 else [d]
    .done .done 0 (l.flatMap s.domBlock ++ (List.range 4).flatMap s.grpBlock) d s

/-- PWR_STATUS's row of the index. -/
def pwrStatusCmd : Cmd := { op := 0x801, auth := authMgrOw, flds := [.int 2] }

/-- PWR_STATUS. -/
def execPwrStatus (c : Caller) (s : State) : Host.Outcome State Fault Refusal := .next (s.command c pwrStatusCmd pwrStatusRun)

/-- GO of a world's power request port (R596): dropped while BUSY is 1; BUSY lasts until a set point the request moved has settled. Its
parameters' reserved bytes and mask bits are 0, as in a packet (R360, R362). -/
def State.powerGo (w : World) (s : State) : State :=
  let x := s.world w
  if !x.up || x.powerBusy then s
  else
    let f := pwrInt (padTo 32 x.powerReq)
    let fault := if !gapsZero pwrFlds 32 (padTo 32 x.powerReq) || 256 ≤ f 1 then some (.descMalformed, 3) else s.pwrFault w f
    match fault with
    | some (st, _) => (s.modWorld w fun y => { y with powerStatus := st, powerDeferred := false })
    | none =>
      let t := s.pwrApply w f
      let d := f 0
      (t.modWorld w fun y =>
        { y with powerStatus := .done, powerDeferred := (t.dom d).deferred,
                 powerBusy := d < 36 && (t.grp (groupOf d)).setMv != (s.grp (groupOf d)).setMv })

/-- GO. -/
def execGo (w : World) (s : State) : Host.Outcome State Fault Refusal := .next (s.powerGo w)

/-! ### Entry to SLEEP, DEEP and OFF (R551, R552, R555, R568) -/

/-- A channel may leave IDLE for a deeper state: nothing of it is at work, no session, digest context or context-store entry holds it (R222,
R244). -/
def State.channelFree (s : State) (n : Nat) : Bool :=
  let c := s.ch n
  c.inService && s.held n == 0 && c.winEntries == 0 && c.pkRun.isNone && s.pkQueued n == 0 && c.ctxStore.isEmpty && c.digests.isEmpty && !c.session0.isOpen &&
    !c.session1.isOpen

/-- A domain has been idle for SLEEP_AFTER_US, or DEEP_AFTER_MS (R551), in whole milliseconds of uptime. -/
def State.idleFor (s : State) (d : Nat) (p : PState) : Bool :=
  let x := s.dom d
  (x.pstate = .idle || x.pstate = .sleep) && x.idleSince + (if p = .sleep then x.sleepAfter / 1000 else x.deepAfter) ≤ s.glob.uptimeMs

/-- A domain may enter a state: its allowance, and what its kind asks. A core's idleness is its firmware's. -/
def State.mayEnter (s : State) (d : Nat) (p : PState) : Bool :=
  let x := s.dom d
  p.code ≤ (s.allowance d).code && x.waking.isNone && x.pstate.code < p.code &&
  match domKind d with
  | .channel => s.channelFree d && s.idleFor d p
  | .core => s.coreWorld (d - 36) = .ow && s.worlds.ow.up
  | .fabric => (s.port (d - 40)).agreed = some p && !s.working d && s.idleFor d p
  | _ => false

/-- What a channel loses in DEEP: its key cache (R550). -/
def State.deepLoss (d : Nat) (s : State) : State :=
  match domKind d with
  | .channel => s.modCh d fun c => { c with cache := [] }
  | .fabric => s.portDown (d - 40) 0
  | _ => s

/-- The entry of a domain; a core's idle time starts here (R551). -/
def State.enterState (d : Nat) (p : PState) (s : State) : State :=
  let core := domKind d = .core
  s.modDom d fun x => { x with pstate := p, idleSince := if core && !(x.pstate = .sleep) then s.glob.uptimeMs else x.idleSince }

/-- SLEEP_ENTRY. -/
def execSleepEntry (d : Nat) (s : State) : Host.Outcome State Fault Refusal :=
  if s.mayEnter d .sleep then .next ((s.enterState d .sleep).settle s) else .next s

/-- DEEP_ENTRY: a fabric port's link ends with its state. -/
def execDeepEntry (d : Nat) (s : State) : Host.Outcome State Fault Refusal :=
  if s.mayEnter d .deep then .next (((s.deepLoss d).enterState d .deep).settle s) else .next s

/-- OFF_ENTRY (R552, R555): the deferred request is released; what loss of main power loses is lost, and Tahr stays supplied. -/
def execOffEntry (s : State) : Host.Outcome State Fault Refusal :=
  if !s.power.offRequest || !s.mayOff || !s.tamper.mainPower then .next s
  else
    let s1 := s.dark
    let s2 : State := { s1 with
      tamper := { s1.tamper with mainPower := false }
      hp := { s1.hp with perst := s.hp.perst }
      power := { s1.power with failPin := s.power.failPin, wakeLevel := s.power.wakeLevel }
      renewal := { s1.renewal with nextKind := 2 } }
    .next (s2.modDom 61 fun d => { d with pstate := .off })

/-! ### Wake and exit (R567 to R569, R577) -/

/-- A source wakes a kind of domain (R567). -/
def wakesKind : WakeSource → DomKind → Bool
  | .hostLink, k => k = .host
  | .fabric, k => k = .fabric
  | .internal, k => k != .device
  | .wakePin, _ => false

/-- DOMAIN_WAKE: a level-type source wakes a domain in SLEEP or DEEP. -/
def execDomainWake (d : Nat) (src : WakeSource) (s : State) : Host.Outcome State Fault Refusal :=
  if d < 61 && wakesKind src (domKind d) then .next (s.startWake d src) else .next s

/-- LAST_WAKE's SOURCE code. -/
def wakeCode : WakeSource → Nat
  | .hostLink => 1 | .fabric => 2 | .wakePin => 3 | .internal => 4

/-- A core runs again: its watchdog goes on where it stopped, and RESUMED says whether it came from DEEP. -/
def State.coreReturn (d : Nat) (s : State) : State :=
  let x := s.dom d
  let gap := s.glob.uptimeMs - x.idleSince
  let s1 : State := { s with worlds := { s.worlds with serviced := s.worlds.serviced.modify (d - 36) (· + gap) } }
  s1.modDom d fun y => { y with resumed := x.pstate == .deep }

/-- A fabric port comes back: from SLEEP it retrains with its session, from DEEP its bring-up begins again. -/
def State.portReturn (p : Nat) (s : State) : State :=
  if (s.port p).st = .up then s.retrain p
  else if (s.port p).en then s.modPort p fun x => { x with cause := 1 }
  else s

/-- DOMAIN_EXIT_DONE: the domain runs, and LAST_WAKE and EXITS say so. -/
def execDomainExitDone (d : Nat) (s : State) : Host.Outcome State Fault Refusal :=
  if !s.asleep d then .next s
  else
    match (s.dom d).waking with
    | some w =>
      .next (State.settle (match domKind d with
        | .channel => s.channelReturn d (wakeCode w)
        | .core => (s.coreReturn d).wakeNote d (wakeCode w)
        | .fabric => (s.wakeNote d (wakeCode w)).portReturn (d - 40)
        | _ => s.wakeNote d (wakeCode w)) s)
    | none => .next s

/-- WAKE_PIN (R567, R568): out of OFF, or every open-world core and fabric port asleep. An edge in an entry window is lost. -/
def execWakePin (inWindow : Bool) (s : State) : Host.Outcome State Fault Refusal :=
  if inWindow && !s.power.wakeLevel then .next s
  else if (s.dom 61).pstate = .off then .next (s.modDom 61 fun d => { d with waking := some .wakePin })
  else
    let l := ((List.range 4).filter fun c => s.coreWorld c = .ow).map (36 + ·) ++ (List.range 20).map (40 + ·)
    .next (s.each l fun d t => t.startWake d .wakePin)

/-! ### The group regulators (R564 to R566) -/

/-- A reading lies within 10 mV of the set point. -/
def Group.near (x : Group) (mv : Nat) : Bool := x.setMv ≤ mv + 10 && mv ≤ x.setMv + 10

/-- A set point settled: the requests that waited for it are done. -/
def State.groupSettled (g mv : Nat) (s : State) : State :=
  let s1 := s.modGrp g fun x => { x with settled := true, fault := false, readMv := mv % 4096, lastSettled := x.setMv }
  let free (x : WorldSt) : WorldSt :=
    let d := pwrInt (padTo 32 x.powerReq) 0
    if x.powerBusy && groupOf d == g then { x with powerBusy := false } else x
  { s1 with worlds := { s1.worlds with tw := free s1.worlds.tw, ow := free s1.worlds.ow } }

/-- The REGULATOR record (R566): event 1 fault, 2 retry settled. -/
def State.recordRegulator (g event mv : Nat) (s : State) : State :=
  s.record 0x24 6 0 (pack [(1, g), (1, event), (2, (s.grp g).setMv), (2, mv)])

/-- REGULATOR_SETTLED (R565): the read-back after a write lies within 10 mV. -/
def execRegulatorSettled (g mv : Nat) (s : State) : Host.Outcome State Fault Refusal :=
  let x := s.grp g
  if 4 ≤ g || x.settled || x.fault || !x.near mv then .next s else .next ((s.groupSettled g mv).settle s)

/-- REGULATOR_FAULT (R566): no answer, no settling within 50 µs, or an alert. -/
def execRegulatorFault (g mv : Nat) (s : State) : Host.Outcome State Fault Refusal :=
  if 4 ≤ g || (s.grp g).fault then .next s
  else
    let s1 := s.modGrp g fun x => { x with fault := true, settled := false, readMv := mv % 4096, faults := sat 16 (x.faults + 1) }
    .next ((s1.recordRegulator g 1 mv).settle s)

/-- REGULATOR_RETRY (R566): the pending write again; a read-back within 10 mV ends the fault. -/
def execRegulatorRetry (g mv : Nat) (s : State) : Host.Outcome State Fault Refusal :=
  let x := s.grp g
  if 4 ≤ g || !x.fault then .next s
  else if x.near mv then .next (((s.groupSettled g mv).recordRegulator g 2 mv).settle s)
  else .next (s.modGrp g fun x => { x with readMv := mv % 4096 })

/-- REGULATOR_POLL (R565): the readings of every millisecond. -/
def execRegulatorPoll (g mv ma : Nat) (s : State) : Host.Outcome State Fault Refusal :=
  if 4 ≤ g then .next s else .next (s.modGrp g fun x => { x with readMv := mv % 4096, readMa := ma % 2 ^ 20 })

/-! ### The operating conditions and the link's power state -/

/-- ROC_CHANGE (R54, R602): the recommended operating conditions as measured. -/
def execRocChange (junctionOk vhuOk railsOk : Bool) (s : State) : Host.Outcome State Fault Refusal :=
  .next (State.settle { s with md := { s.md with junctionOk := junctionOk, vhuOk := vhuOk, railsOk := railsOk } } s)

/-- The state of the host port domain in a link state (R75). -/
def linkDomain : Nat → PState
  | 0 => .run | 1 => .run | 2 => .idle | 3 => .sleep | 4 => .sleep | _ => .deep

/-- HOST_LINK_PM_CHANGE (R75, R76): LINK_PM, vector 3 and the host port domain; a return to L0 from SLEEP or DEEP is an exit. In D3hot the domain stays in
SLEEP at least. -/
def execHostLinkPmChange (pm : Nat) (s : State) : Host.Outcome State Fault Refusal :=
  if 5 < pm || !s.hp.dlUp then .next s
  else
    let p := if s.hp.d3hot then PState.max .sleep (linkDomain pm) else linkDomain pm
    let s1 := s.setLinkPm pm
    .next (if p = .run && s.asleep 60 then s1.wakeNote 60 1 else s1.modDom 60 fun d => { d with pstate := p })

end Sys2Proof.Machine
end

