-- ==== Sys2Proof/Machine/Renewal.lean ====
section
/-! DEFINITION. Images and updates without a stop (R251 to R255, R578 to R586): the renewal commands, trials, the rolling microcode update,
and the flash write behind them. -/

namespace Sys2Proof.Machine

/-! ### The checks of an update -/

/-- The checks of the last part of a renewal command (R581). -/
def State.updateFault (s : State) (kind : Nat) (b : Bytes) : Option Status :=
  if !headerOk b then some .descMalformed
  else if b.length != 256 + fieldLe b 0x10 4 + 8192 then some .inputRange
  else s.imageFault kind (imageOf b)

/-! ### FW_UPDATE (R582) -/

/-- An accepted trusted-world image: it is kept beside the running one, and the firmware restarts its world. -/
def State.activateTw (i : Image) (setFloor : Bool) (s : State) : State :=
  let s1 := s.modWorld .tw fun x => { x with image := some i, prevImage := x.image }
  State.twFault 2 { s1 with renewal := { s1.renewal with twSetFloor := setFloor } }

/-- FW_UPDATE: the last part replies after the trial. -/
def fwUpdateRun : Run := fun _ p _ s =>
  match s.updateFault 1 p.data with
  | some st => .done st 0 [] 0 s
  | none => .hold .trial [] 0 (s.activateTw (imageOf p.data) (p.int [.int 1] 0 == 1))

/-- FW_UPDATE's row of the index. -/
def fwUpdateCmd : Cmd :=
  { op := 0x900, auth := authMgr, flds := [.int 1], data := true, parts := .multi, quorum := fun _ _ _ => true,
    paramOk := fun _ p => p.int [.int 1] 0 ≤ 1 }

/-- FW_UPDATE. -/
def execFwUpdate (c : Caller) (s : State) : Host.Outcome State Fault Refusal :=
  .next (s.command c fwUpdateCmd (inTurn 0x900 fwUpdateCmd.obj fwUpdateRun))

/-- FW_TRIAL_END (R582): 10 s of service without a fault; the previous image is released. -/
def execFwTrialEnd (s : State) : Host.Outcome State Fault Refusal :=
  if !s.renewal.twTrial || !s.worlds.tw.up || s.glob.uptimeMs < s.renewal.trialSince + 10000 then .next s
  else
    let s1 := s.modWorld .tw fun x => { x with prevImage := none }
    .next (State.endJobs (fun j => j.kind == .trial) .done 0 { s1 with renewal := { s1.renewal with twTrial := false } })

/-! ### OW_UPDATE (R583) -/

/-- An accepted open-world image: it starts by a restart of the open world, or of both worlds where it changes the assignment. -/
def State.activateOw (i : Image) (setFloor : Bool) (s : State) : State :=
  let both := assignment i.worldCfg i.session1Ow i.tRegions != (s.worlds.coreOw, s.worlds.session1Ow, s.worlds.twRegions)
  let s1 := s.modWorld .ow fun x => { x with image := some i, prevImage := x.image }
  let s2 : State := { s1 with renewal := { s1.renewal with owSetFloor := setFloor, owPending := true, owAbsent := false, bothWorlds := both,
                                                           newAssign := if both then some (Image.assign i) else none },
                              mail := { s1.mail with ext := i.extensions } }
  if both then (s2.owFault 2).twFault 2 else s2.owFault 2

/-- OW_UPDATE: the last part replies when the open world runs the image. -/
def owUpdateRun : Run := fun _ p _ s =>
  match s.updateFault 2 p.data with
  | some st => .done st 0 [] 0 s
  | none => .hold .owStart [] 0 (s.activateOw (imageOf p.data) (p.int [.int 1] 0 == 1))

/-- OW_UPDATE's row of the index. -/
def owUpdateCmd : Cmd :=
  { op := 0x902, auth := authMgr, flds := [.int 1], data := true, parts := .multi, paramOk := fun _ p => p.int [.int 1] 0 ≤ 1 }

/-- OW_UPDATE. -/
def execOwUpdate (c : Caller) (s : State) : Host.Outcome State Fault Refusal :=
  .next (s.command c owUpdateCmd (inTurn 0x902 owUpdateCmd.obj owUpdateRun))

/-! ### The rolling microcode update (R253 to R255, R584) -/

/-- Step 1 of R254: the channel is UPDATING, and its PK_OP entries not begun are withdrawn. -/
def State.beginLoad (n : Nat) (s : State) : State :=
  let s1 := s.modCh n fun c => { c with mcState := .updating }
  let ids := ((s1.chCtxs n).filter fun c => c.desc.opcode == 0x10 && c.phase == .issued).map (·.id)
  State.each ids State.withdraw { s1 with renewal := { s1.renewal with bnCh := n } }

/-- The next channel of the update, or its end: the image is then the one the trusted world holds, and awaits its flash write. -/
def State.nextLoad (s : State) : State :=
  match s.renewal.bnLeft.filter fun n => (s.ch n).inService with
  | n :: l => State.beginLoad n { s with renewal := { s.renewal with bnLeft := n :: l } }
  | [] => { s with renewal := { s.renewal with bnActive := false, bnLeft := [], mcImage := s.renewal.bnImage, bnImage := none, mcPending := true } }

/-- The order of an update (R254): held spares first, then rising channel number. -/
def State.loadOrder (s : State) : List Nat :=
  let l := s.serviceList
  (l.filter fun n => (s.ch n).heldSpare) ++ l.filter fun n => !(s.ch n).heldSpare

/-- A rolling update begun. -/
def State.startLoad (i : Image) (s : State) : State :=
  State.nextLoad { s with renewal := { s.renewal with bnActive := true, bnStopped := false, bnDone := 0, bnLeft := s.loadOrder, bnImage := some i } }

/-- MC_UPDATE: the last part replies when the update begins. -/
def mcUpdateRun : Run := fun _ p _ s =>
  match s.updateFault 3 p.data with
  | some st => .done st 0 [] 0 s
  | none => if s.renewal.bnActive then .done .sliceBusy 0 [] 0 s else .done .done 0 [] 0 (s.startLoad (imageOf p.data))

/-- MC_UPDATE's row of the index. -/
def mcUpdateCmd : Cmd := { op := 0x901, auth := authMgr, data := true, parts := .multi }

/-- MC_UPDATE. -/
def execMcUpdate (c : Caller) (s : State) : Host.Outcome State Fault Refusal := .next (s.command c mcUpdateCmd mcUpdateRun)

/-- A channel's store holds the bytes of an image. -/
def Channel.load (i : Image) (b : Bytes) (c : Channel) : Channel :=
  { c with mcState := .active, mcSvn := i.svn, mcVersion := i.version, mcDigest := i.bodyDigest, mcImage := b, mcRecheck := false }

/-- The MC_UPDATE record (R255, R487). -/
def State.recordMc (n old new result : Nat) (s : State) : State :=
  s.record 0x23 (0x100 + n) 0 (pack [(4, old), (4, new), (1, result)])

/-- The bytes written to a channel's store are those of the image: the SHA-384 the store computes is the one supplied (R251). -/
def Image.written (i : Image) (b : Bytes) : Bool := sha384 b == i.bodyDigest

/-- The start-up load of a channel that passed its self-test (step 8, R251, R253): a digest that differs leaves the store EMPTY. -/
def State.firstLoad (n : Nat) (b : Bytes) (katOk : Bool) (s : State) : State :=
  match s.renewal.mcImage with
  | some i =>
    let s1 := s.modCh n fun c => { c with mcTried := true }
    if !Image.written i b then s1
    else if katOk then s1.modCh n (Channel.load i b)
    else s1.modCh n fun c => { c with mcState := .loadFailed }
  | none => s

/-- The whole operand memory wiped (R254). -/
def Channel.bnWiped (c : Channel) : Channel := { c with bnOwner := none, regKey := [], regIn := [], regWork := [], regResult := [] }

/-- MC_CHANNEL_UPDATE_STEP (R254, R255): the engine is idle and wiped, the bytes of the image are written, and its tests run. A failure returns the channel to
the image it had and stops the update, or leaves LOAD_FAILED. With no update running it is the load of start-up. -/
def execMcChannelUpdateStep (ch : Nat) (image : Bytes) (katOk oldKatOk : Bool) (s : State) : Host.Outcome State Fault Refusal :=
  let r := s.renewal
  if !s.worlds.tw.up || 36 ≤ ch then .next s
  else if !r.bnActive then
    if (s.ch ch).mcState == .empty && !(s.ch ch).mcTried && (s.ch ch).inService then .next ((s.firstLoad ch image katOk).settle s) else .next s
  else
  match r.bnImage, r.bnLeft with
  | some i, n :: l =>
    if n != ch || (s.ch ch).pkRun.isSome || (s.ch ch).mcState != .updating then .next s
    else
      let c := s.ch ch
      let s0 := s.modCh ch Channel.bnWiped
      if Image.written i image && katOk then
        let s1 := s0.modCh ch (Channel.load i image)
        .next ((State.nextLoad { s1 with renewal := { r with bnDone := r.bnDone + 1, bnLeft := l } }).settle s)
      else if oldKatOk && !c.mcDigest.isEmpty then
        let s1 := s0.modCh ch fun c => { c with mcState := .active }
        .next (State.settle (State.recordMc ch c.mcVersion i.version 1
          { s1 with renewal := { r with bnActive := false, bnStopped := true, bnLeft := [], bnImage := none } }) s)
      else
        let s1 := s0.modCh ch fun c => { c with mcState := .loadFailed }
        .next (State.settle (State.nextLoad (State.recordMc ch c.mcVersion i.version 2 { s1 with renewal := { r with bnLeft := l } })) s)
  | _, _ => .next s

/-! ### PLDM (R586) -/

/-- An update under way that an activation over PLDM would cut into. -/
def State.renewing (s : State) : Bool :=
  s.renewal.twTrial || s.worlds.tw.inProgress || s.worlds.ow.inProgress || s.mail.running.any fun j => j.kind == .trial || j.kind == .owStart

/-- PLDM_ACTIVATE_FIRMWARE (R586): component 2 or 3, activated as OW_UPDATE or MC_UPDATE would, under the same checks. -/
def execPldmActivateFirmware (b : Bytes) (s : State) : Host.Outcome State Fault Refusal :=
  let img := imageOf b
  let answer (st : Status) (t : State) : Host.Outcome State Fault Refusal := .next { t with hp := { t.hp with mctpReply := some st } }
  if !s.worlds.ow.up || !s.worlds.tw.up then answer .notReady s
  else if img.kind != 2 && img.kind != 3 then answer .inputRange s
  else
    match s.updateFault img.kind b with
    | some st => answer st s
    | none =>
      if img.kind = 3 then (if s.renewal.bnActive then answer .sliceBusy s else answer .done ((s.startLoad img).settle s))
      else if s.renewing then answer .sliceBusy s
      else answer .done ((s.activateOw img false).settle s)

/-! ### The flash write (R585) -/

/-- The floors raised where SET_FLOOR asked for it. -/
def State.raiseFloors (kind : Nat) (s : State) : State :=
  let r := s.renewal
  if kind = 1 ∧ r.twSetFloor then
    let i := s.worlds.tw.image
    { s with renewal := { r with twFloor := Nat.max r.twFloor (imageInfo i).2, twSetFloor := false,
                                 mcFuse := Nat.max r.mcFuse ((i.map (·.mcFloor)).getD 0) } }
  else if kind = 2 ∧ r.owSetFloor then
    { s with renewal := { r with owFloor := Nat.max r.owFloor (imageInfo s.worlds.ow.image).2, owSetFloor := false } }
  else s

/-- The running image of a kind, and the copy that is not its own. -/
def State.runningCopy (s : State) (kind : Nat) : Option Image × Nat :=
  let r := s.renewal
  if kind = 1 then (s.worlds.tw.image, 1 - r.twCopy) else if kind = 2 then (s.worlds.ow.image, 1 - r.owCopy) else (r.mcImage, 1 - r.mcCopy)

/-- The inactive copy's entry marked as being written. -/
def State.beginWrite (kind : Nat) (s : State) : State :=
  { s with gate := { s.gate with wrote := kind :: s.gate.wrote },
           renewal := { s.renewal with dir := s.renewal.dir.map (Directory.rewrite kind (s.runningCopy kind).2 fun e => { e with state := 2 }) } }

/-- The inactive copy's entry marked valid, with what the image written there says of itself. -/
def State.endWrite (kind : Nat) (s : State) : State :=
  let (i, copy) := s.runningCopy kind
  let fill (e : DirEntry) : DirEntry := match i with
    | some x => { e with state := 1, length := 256 + x.bodyLen + 8192, version := x.version, svn := x.svn }
    | none => { e with state := 1 }
  { s with renewal := { s.renewal with dir := s.renewal.dir.map (Directory.rewrite kind copy fill) } }

/-- IMAGE_FLASH_WRITE: while the gate is closed, the activated image is written to the inactive copy of its kind and read back; a read-back that
fails leaves the write pending. -/
def execImageFlashWrite (kind : Nat) (readBackOk : Bool) (s : State) : Host.Outcome State Fault Refusal :=
  if !s.writeDue kind || s.gate.st == .opened || !s.worlds.tw.up then .next s
  else
    let s1 := s.beginWrite kind
    if !readBackOk then .next s1
    else
      let r := (s1.endWrite kind).renewal
      let r1 := if kind = 1 then { r with twPending := false, twCopy := 1 - r.twCopy }
        else if kind = 2 then { r with owPending := false, owCopy := 1 - r.owCopy }
        else { r with mcPending := false, mcCopy := 1 - r.mcCopy }
      .next ((State.raiseFloors kind { s1 with renewal := r1 }).settle s)

end Sys2Proof.Machine
end

