-- ==== Sys2Proof/Machine/CommandReply.lean ====
section
/-! DEFINITION. The mailbox engine's own rows: GO and CALL (R355, R374, R376), refusals that need no opcode's chapter (R362, R363), the replies of
commands that take time (R357, R369, R370), and the open-world extensions (R371 to R374). -/

namespace Sys2Proof.Machine

/-! ### The index -/

/-- Every opcode of the index (R368) below 0x8000, with its checks and its run. -/
def commandIndex : List (Cmd × Run) :=
  [(sliceCreateCmd, atReply sliceCreateRun),
   (sliceModifyCmd, atReply sliceModifyRun),
   (sliceQuiesceCmd, sliceQuiesceRun),
   (sliceResumeCmd, atReply sliceResumeRun),
   (sliceResetCmd, sliceResetRun),
   (sliceRemoveCmd, sliceRemoveRun),
   (sliceQueryCmd, sliceQueryRun),
   (ringArmCmd, atReply ringArmRun),
   (ringDisarmCmd, atReply ringDisarmRun),
   (ringQueryCmd, ringQueryRun),
   (chFenceCmd, inTurn 0x110 chFenceCmd.obj chFenceRun),
   (chReturnCmd, inTurn 0x111 chReturnCmd.obj chReturnRun),
   (rngReseedCmd, rngReseedRun),
   (rngPersonaliseCmd, rngPersonaliseRun),
   (rngRecoverCmd, inTurn 0x11A rngRecoverCmd.obj rngRecoverRun),
   (rngSelftestCmd, inTurn 0x11B rngSelftestCmd.obj rngSelftestRun),
   (rngRawCaptureCmd, inTurn 0x11C rngRawCaptureCmd.obj rngRawCaptureRun)] ++
  [(devInfoCmd, devInfoRun),
   (mgrChallengeCmd, mgrChallengeRun),
   (mgrOpenCmd, mgrOpenRun),
   (mgrCloseCmd, mgrCloseRun),
   (mgrCredSetCmd, mgrCredSetRun),
   (devKeepCmd, devKeepRun),
   (devResumeCmd, devResumeRun),
   (fabStatusCmd, fabStatusRun),
   (fabRoleSetCmd, fabRoleSetRun),
   (dkCreateCmd, inTurn 0x702 dkCreateCmd.obj dkCreateRun),
   (dkRolloverCmd, dkRolloverRun),
   (dkStatusCmd, dkStatusRun),
   (keyGenerateCmd, keyGenerateRun),
   (keyImportWrappedCmd, keyImportWrappedRun),
   (keyImportClearCmd, keyImportClearRun),
   (keyExportWrappedCmd, keyExportWrappedRun),
   (keyExportPublicCmd, keyExportPublicRun)] ++
  [(keySaveBlobCmd, keySaveBlobRun),
   (keyLoadBlobCmd, keyLoadBlobRun),
   (keyDeriveCmd, keyDeriveRun),
   (keyDeleteCmd, inTurn 0x208 keyDeleteCmd.obj keyDeleteRun),
   (keySetPolicyCmd, inTurn 0x209 keySetPolicyCmd.obj keySetPolicyRun),
   (keyQueryCmd, keyQueryRun),
   (keysetGetCmd, keysetGetRun),
   (keysetSetCmd, keysetSetRun),
   (lcPersonaliseCmd, lcPersonaliseRun),
   (lcTransitionCmd, lcTransitionRun),
   (quorumChallengeCmd, quorumChallengeRun),
   (custodianEnrolCmd, custodianEnrolRun),
   (custodianRemoveCmd, custodianRemoveRun),
   (quorumSetCmd, quorumSetRun),
   (cellWindowOpenCmd, cellWindowOpenRun),
   (cellWindowCloseCmd, cellWindowCloseRun),
   (zeroiseCmd, zeroiseRun)] ++
  [(devResumeAlarmCmd, devResumeAlarmRun),
   (quorumApproveCmd, quorumApproveRun),
   (imagePolicySetCmd, imagePolicySetRun),
   (bootRecordGetCmd, bootRecordGetRun),
   (identityGetCmd, identityGetRun),
   (measurementsGetCmd, measurementsGetRun),
   (erReadCmd, erReadRun),
   (erClearCmd, erClearRun),
   (tamperStatusCmd, tamperStatusRun),
   (tamperConfigCmd, tamperConfigRun),
   (worldStatusCmd, worldStatusRun),
   (pwrDomainSetCmd, pwrDomainSetRun),
   (pwrStatusCmd, pwrStatusRun),
   (fwUpdateCmd, inTurn 0x900 fwUpdateCmd.obj fwUpdateRun),
   (owUpdateCmd, inTurn 0x902 owUpdateCmd.obj owUpdateRun),
   (mcUpdateCmd, mcUpdateRun)]

/-- The row of an opcode. -/
def commandRow (op : Nat) : Option (Cmd × Run) := commandIndex.find? fun r => r.1.op == op

/-- The declaration of an extension opcode (R372): its authority and its limit in ms, of at most 10 s. -/
def State.extension (s : State) (op : Nat) : Option (Nat × Nat) :=
  if op < 0x8000 then none else (s.mail.ext.find? fun e => e.1 == op).map fun e => (e.2.1, Nat.min 10000 e.2.2)

/-- An opcode the device knows (R362). -/
def State.knows (s : State) (op : Nat) : Bool := (commandRow op).isSome || (s.extension op).isSome

/-! ### Packets refused before their opcode's chapter -/

/-- A submitted packet that is not a known command, or has no buffer, refused at its acceptance (R362, R363, R376). -/
def State.refuseUnknown (c : Caller) (s : State) : State :=
  if !s.mayAccept c then s
  else
    match s.presented c with
    | none => (s.accept c).reply c .none (mkPacket [] [] false) .dmaFault 0 0 0 0 []
    | some (hdr, area) =>
      match headerFault hdr area with
      | some d => (s.accept c).refuseHeader c hdr area d
      | none =>
        let p := mkPacket hdr area false
        if s.knows p.opcode then s
        else
          let t := (s.accept c).meetAssembly c p
          let (st, d) := if s.boxClosed c then (Status.sliceBusy, 0) else (Status.descMalformed, 1)
          t.reply c (logOf p.opcode) p st d 0 p.part p.partCount []

/-- A packet the caller has submitted waits. -/
def State.isSubmitted (s : State) : Caller → Bool
  | .mbx m => (s.box m).st == .submitted
  | .gate g => (s.mail.slots.getD g {}).st == .submitted
  | .card _ => false

/-- A GO submits the packet; one in SUBMITTED or RUNNING is dropped (R355). -/
def State.submit (c : Caller) (s : State) : State :=
  match c with
  | .mbx m =>
    let b := s.box m
    if b.st == .submitted || b.st == .running then s.modBox m fun b => { b with dropped := true }
    else
      (s.modBox m fun b => { b with st := .submitted }).modMail fun x =>
        { x with goOrder := if Config.mgrMailbox ≤ m then x.goOrder ++ [m] else x.goOrder }
  | .gate g =>
    s.modMail fun x => { x with slots := x.slots.modify g fun (t : GateSlot) =>
      if t.st == .submitted || t.st == .running then { t with dropped := true } else { t with st := .submitted } }
  | .card _ => s

/-- BAR4 offset of a mailbox (R352). -/
def boxOff (m : Nat) : Nat := if m < Config.mgrMailbox then m * 0x2000 else 0x2000000 + (m - Config.mgrMailbox) * 0x10000

/-- A GO (R355, R574): a packet that is no command is refused at once where its turn has come. A slice that does not exist has no mailbox
(R65). -/
def State.goWrite (m : Nat) (s : State) : State :=
  if Config.mailboxes ≤ m || (m < Config.mgrMailbox && !(s.slice m).exists_) then s
  else (((s.submit (.mbx m)).refuseUnknown (.mbx m)).settle s)

/-- MBX_GO: the host's write, admitted or refused (R65). -/
def execMbxGo (m : Nat) (s : State) : Host.Outcome State Fault Refusal := 
  if Config.mailboxes ≤ m then .next s else .next (s.hostReg 4 (boxOff m + 0x40) (State.goWrite m))

/-- CALL (R374, R376). -/
def State.callWrite (g : Nat) (s : State) : State :=
  if 8 ≤ g || !s.worlds.ow.up then s else (((s.submit (.gate g)).refuseUnknown (.gate g)).settle s)

/-- CALL. -/
def execCall (g : Nat) (s : State) : Host.Outcome State Fault Refusal := .next (s.callWrite g)

/-! ### Replies of running commands -/

/-- The commands accepted before a job and still running. -/
def State.earlier (s : State) (j : Job) : List Job := s.mail.running.takeWhile (· != j)

/-- Its turn has come (R369), and no instance owes it a draw (R305). -/
def State.mayRerun (s : State) (j : Job) : Bool :=
  !s.drawWaits j.caller &&
    !((s.earlier j).any fun e => (conflicts j.opcode).contains e.opcode && e.obj == j.obj)

/-- A job put back where it stood. -/
def insertAt (i : Nat) (j : Job) (l : List Job) : List Job := l.take i ++ j :: l.drop i

/-- A waiting command run from its start (R305, R370); an A3 alarm or a zeroisation that bars it ends it instead. -/
def State.rerunJob (j : Job) (s : State) : State :=
  match commandRow j.opcode with
  | none => s.endJob j .internal 0 []
  | some (k, run) =>
    if (s.md.zeroised && !k.zOk) || (s.md.alarm && k.alarmBar) then s.endJob j .aborted 1 []
    else
      let p := j.packet k.data
      let i := (s.earlier j).length
      match run j.caller p true (s.dropJob j) with
      | .done st detail body obj t =>
        (t.forgetDraw j.caller).reply j.caller (logOf j.opcode) p st detail obj p.part p.partCount (if body.isEmpty && st == .done then j.reply else body)
      | .part body count obj t => (t.forgetDraw j.caller).reply j.caller (logOf j.opcode) p .done 0 obj p.part count body
      | .hold kind body obj t =>
        let j' : Job := { j with kind := kind, reply := if body.isEmpty then j.reply else body, obj := obj }
        t.modMail fun m => { m with running := insertAt i j' m.running }

/-- What a running command comes to now; none while what it waits for has not happened. -/
def State.jobStep (j : Job) (s : State) : Option State :=
  let ended (st : Status) : Option State := some (s.endJob j st 0 j.reply)
  match j.kind with
  | .wait =>
    let h := j.obj
    if (j.opcode = 0x208 ∨ j.opcode = 0x209) ∧ !s.copiesGone 2 0 (hSlot h) then none
    else some (s.endJob j j.status j.detail (if j.status == .done || 0x8000 ≤ j.opcode then j.reply else []))
  | .draw => if s.mayRerun j then some (s.rerunJob j) else none
  | .channels _ n ids _ =>
    if ids.all (fun i => (s.ctx? i).isNone) && s.dmaOutstanding n = 0 then some (s.rerunJob j) else none
  | .dropCopies scope slice slot delete =>
    if s.copiesGone scope slice slot then some ((s.freeRows scope slice slot delete).endJob j .done 0 j.reply) else none
  | .quiesce n => if s.flushDone n then ended .done else none
  | .fence _ _ => none
  | .chFence n => if (s.ch n).st = .draining ∨ (s.ch n).st = .scrub then none else ended .done
  | .chReturn n =>
    if (s.ch n).inService then ended .done else if (s.ch n).st = .failed then ended .verifyFail else none
  | .reseed m =>
    if s.rng.source = .failed then ended .rngFailed
    else if (List.range 38).all (fun i => !bit m i || (s.gen i).st = .unseeded || (s.gen i).st = .failed) then ended .done else none
  | .recover =>
    if s.rng.source = .failed then ended .rngFailed
    else if (s.gen 0).st != .unseeded && (s.gen 1).st != .unseeded then ended .done else none
  | .selftest =>
    if s.rng.source = .failed || (s.gen 0).st = .failed || (s.gen 1).st = .failed then ended .rngFailed
    else if s.rng.selftest.isEmpty && s.rng.banks.all (fun b => b.st != .warmup && b.st != .test) then ended .done else none
  | .capture => if s.rng.captureLeft = 0 then ended .done else none
  | .change _ => none
  | .trial => none
  | .owStart => none
  | .settle d =>
    let g := s.grp (groupOf d)
    if g.settled then some (s.rerunJob j) else none
  | .extension => none

/-- COMMAND_REPLY: a running command whose moment has come commits and replies; a submitted packet that is no command is refused; a card port's
proposal that waited for its nonce is opened (R393). The trusted world does all of it (R370). -/
def execCommandReply (c : Caller) (s : State) : Host.Outcome State Fault Refusal :=
  if !s.worlds.tw.up then .next s
  else
    match s.mail.running.find? fun j => j.caller == c with
    | some j =>
      match s.jobStep j with
      | some t => .next (t.settle s)
      | none => .next s
    | none =>
      match c with
      | .card p => .next ((s.proposalAgain p).settle s)
      | _ => .next ((s.refuseUnknown c).settle s)

/-! ### Extensions (R371 to R374) -/

/-- The authority a declaration names: 0 A, 1 S, 2 M. -/
def extAuth (a : Nat) : Auth := fun s w p =>
  match a, w with
  | 0, .slice _ => true
  | 0, .mgr _ => true
  | 1, .slice _ => true
  | 2, .mgr _ => authMgr s w p
  | _, _ => false

/-- The run of an extension: refused while the open world restarts or is absent (R371, R29), and otherwise passed to it. -/
def extensionRun : Run := fun _ _ _ s => if !s.worlds.ow.up then .done .notReady 0 [] 0 s else .hold .extension [] 0 s

/-- EXTENSION_COMMAND (R372): every check of R362, and the packet passed to the open world. Its body is the extension's own. -/
def execExtensionCommand (m : Nat) (s : State) : Host.Outcome State Fault Refusal :=
  match s.presented (.mbx m) with
  | some (hdr, _) =>
    let op := fieldLe hdr 0 2
    match s.extension op with
    | some (a, _) => .next (s.command (.mbx m) { op := op, auth := extAuth a, flds := [.str (bits (fieldLe hdr 8 4) 0 13)] } extensionRun)
    | none => .next s
  | none => .next s

/-- Gate calls still SUBMITTED for a mailbox when its extension replies (R374). -/
def State.abortCalls (m : Nat) (s : State) : State :=
  s.each (List.range 8) fun g t =>
    let x := t.mail.slots.getD g {}
    if x.st == .submitted && x.onBehalf == m then
      match t.presented (.gate g) with
      | some (hdr, area) => t.reply (.gate g) .none (mkPacket hdr area false) .aborted 4 0 0 0 []
      | none => t.deliverReply (.gate g) [] [] .aborted
    else t

/-- The running extension of a mailbox. -/
def State.extJob (s : State) (m : Nat) : Option Job := s.mail.running.find? fun j => j.caller == .mbx m && j.kind == .extension

/-- An extension ended: its reply is written now, or when the trusted world runs again (R370). -/
def State.endExtension (j : Job) (m : Nat) (st : Status) (detail : Nat) (body : Bytes) (s : State) : State :=
  if s.worlds.tw.up then (s.endJob j st detail body).abortCalls m
  else
    s.modMail fun x => { x with running := x.running.map fun y =>
      if y == j then { y with kind := .wait, status := st, detail := detail, reply := body } else y }

/-- EXTENSION_REPLY (R373): the open world's status, where R11 lists it, and its body. -/
def execExtensionReply (m status detail : Nat) (body : Bytes) (s : State) : Host.Outcome State Fault Refusal :=
  match s.extJob m with
  | some j =>
    if !s.worlds.ow.up then .next s
    else .next ((s.endExtension j m ((Status.ofCode status).getD .internal) detail body).settle s)
  | none => .next s

/-- EXTENSION_TIMEOUT (R373): the declared limit has passed. -/
def execExtensionTimeout (m : Nat) (s : State) : Host.Outcome State Fault Refusal :=
  match s.extJob m with
  | some j =>
    match s.extension j.opcode with
    | some (_, limit) =>
      if s.glob.uptimeMs < j.since + limit then .next s else .next ((s.endExtension j m .aborted 4 []).settle s)
    | none => .next s
  | none => .next s

end Sys2Proof.Machine
end

