-- ==== Sys2Proof/Machine/Startup.lean ====
section
/-! DEFINITION. Start-up from main supplies good to READY (R402, R403, R462, R474, R480, R489, R572 to R576, R580), and the row of steps that
brings it there. -/

namespace Sys2Proof.Machine

/-! ### Step 1: Tahr's check -/

/-- One cell as Tahr's check reads it (R54, R462): an unarmed source whose cell is absent writes one A0 record; an armed one raises its event
where the cell has gone. -/
def State.readCell (present : Bool) (c : Nat) (s : State) : State :=
  let t := s.tamper
  let m := BitVec.ofNat 2 (2 ^ c)
  if present then
    if t.cellPresent.getLsbD c && t.cellRange.getLsbD c then s
    else
      { s with tamper := { t with cellPresent := t.cellPresent ||| m, cellRange := t.cellRange ||| m, cellSince := t.cellSince.set c t.tahrMs,
                                  supplyCell := if t.cellPresent = 0 then c else t.supplyCell } }
  else if !t.cellArmed.getLsbD c then (s.cellBad c true).tamperRecord (5 + c) 0
  else if t.cellPresent.getLsbD c then (s.cellBad c true).tamperEvent (5 + c) 36
  else s

/-- The root as the start-up finds it (R573): one that disagrees with its header digest is erased, with an event record whose body the spec
does not give. -/
def State.checkRoot (ok : Bool) (s : State) : State :=
  if ok || s.keys.root.isNone then s
  else
    let (b, s1) := s.freeBytes 40
    State.record 0x90 1 0 b (s1.modKeys fun k => { k with root := none })

/-- The state requires a root and finds none, and is not at its first start-up (R312). -/
def State.rootMissing (s : State) : Bool :=
  s.keys.lc != .blank && s.keys.lc != .retired && s.keys.root.isNone && s.keys.lcPending.isNone

/-- What the latch and the root make of the start-up (R312, R313, R474): KEEP_ALARM, ZEROISED, or the draw of a new state's root. -/
def State.latched (s : State) : State :=
  if s.tamper.latch = 4 || s.keys.lc == .retired || s.rootMissing then { s.eraseKeys with md := { s.md with zeroised := true, alarm := s.tamper.latch = 3 } }
  else
    let s1 := { s with md := { s.md with alarm := s.tamper.latch = 3 } }
    if s.keys.root.isNone && s.keys.lcPending.isSome then s1.modGen 0 fun g => { g with waiting := g.waiting ++ [.root] } else s1

/-! ### Step 3: the recorder -/

/-- Numbering resumes at RESERVED_END, and the block after it is reserved; before the first start-up nothing is reserved, and numbering runs on from 1
(R489). What was never flushed is gone (R493). -/
def Recorder.resume (r : Recorder) : Recorder :=
  { r with buffer := [], flushing := false, powerFlush := false, lostRange := none,
           nextSeq := if r.reservedEnd = 0 then r.nextSeq else r.reservedEnd,
           reservedEnd := if r.reservedEnd = 0 then 65536 else r.reservedEnd + 65536 }

/-- One Tahr entry merged as a TAHR_EVENT record, which carries the entry's grades (R480, R487). -/
def State.mergeEntry (e : TahrEntry) (s : State) : State :=
  let x : Record := ⟨s.er.nextSeq, 0x81, 2, e.grade, e.inForce, true, pack [(1, e.source), (1, e.count), (1, e.cell), (4, e.time)]⟩
  let s1 := { s with er := s.er.takeSeq.put x }
  let s2 := if 1 ≤ e.grade then s1.flushStart else s1
  if s.er.notifyAll || s.er.notifyGrade ≤ e.grade then s2.raiseCause 2 else s2

/-- The merge of Tahr's buffer, in entry order (R480); each entry is cleared once its record has been flushed (R494). -/
def State.mergeTahr (s : State) : State :=
  let l := s.tamper.buf
  let s1 := l.foldl (fun t e => t.mergeEntry e) s
  { s1 with tamper := { s1.tamper with merged := l.length } }

/-- START (R487, R489, R576). -/
def State.writeStart (s : State) : State :=
  s.record 0x01 1 0 (pack [(8, s.er.flushedSeq), (1, b2n s.er.clean), (1, s.renewal.kind), (1, s.keys.lc.code), (1, s.tamper.merged)])

/-- A flash write that power cut short: the old copy starts, and an event record says so (R585). -/
def State.dropPending (s : State) : State :=
  let r := s.renewal
  if r.twPending || r.owPending || r.mcPending then
    let (b, s1) := s.freeBytes 40
    State.record 0x90 1 0 b { s1 with renewal := { r with twPending := false, owPending := false, mcPending := false } }
  else s

/-! ### Step 6: the images -/

/-- The trusted world started, its entries locked and the SIK derived; where no copy qualifies it does not start, and LAST_VERDICT reads 6
(R402, R403, R450). -/
def State.startTw (l : List (Image × Nat)) (s : State) : State :=
  match s.bestImage 1 l with
  | some (i, copy) =>
    let s1 := s.modWorld .tw fun x => { x with image := some i, up := true }
    { s1 with renewal := { s1.renewal with twCopy := copy } }
  | none => s.modGate fun g => { g with lastVerdict := 6 }

/-- The open world started from its measured image, and its signer recorded; or it is absent (R29, R402, R580). -/
def State.startOw (l : List (Image × Nat)) (s : State) : State :=
  match s.bestImage 2 l with
  | some (i, copy) =>
    let s1 := (s.modWorld .ow fun x => { x with image := some i, up := true }).assign (Image.assign i)
    { s1 with renewal := { s1.renewal with owCopy := copy, owAbsent := false, owSigner := signerAfter i s1.renewal.owSigner },
              mail := { s1.mail with ext := i.extensions } }
  | none => { s with renewal := { s.renewal with owAbsent := true } }

/-- The microcode image the trusted world loads (R402, R580). -/
def State.takeMc (l : List (Image × Nat)) (s : State) : State :=
  match s.bestImage 3 l with
  | some (i, copy) => { s with renewal := { s.renewal with mcImage := some i, mcCopy := copy } }
  | none => s

/-- The directory read (R578): its governing slot says where the partition starts. -/
def State.readDirectory (b : Bytes) (s : State) : State :=
  let d := directoryOf b
  { s with renewal := { s.renewal with dir := d }, gate := { s.gate with partOffset := (d.map (·.partOffset)).getD 0 } }

/-- Steps 6, 8 and 9: with no trusted world, neither the open world nor the microcode is handed over. -/
def State.startImages (copies : List Bytes) (s : State) : State :=
  let l := s.flashCopies copies
  let s1 := s.startTw l
  if s1.worlds.tw.up then
    ((((s1.takeMc l).startOw l).lockTable.loadSik).startWatchdogs .tw).startWatchdogs .ow
  else s1

/-! ### The gate's start (R402, R416, R418) -/

/-- The straps are sampled, the partition is known, and the gate begins closed; it is locked in ZEROISED and in RETIRED. -/
def State.startGate (b : BootInfo) (s : State) : State :=
  let s1 := (s.modGate fun g => { g with twoFlash := bit b.gateMode 0, espi := bit b.gateMode 1 }).closeGate false
  if s1.gateLocked then (s1.modGate fun g => { g with measuring := false }).gateTo .locked else s1

/-! ### The two rows -/

/-- The device has not started: main supplies good is awaited, from POWER_ON, a lifecycle reset, or OFF once its WAKE event came (R575). -/
def State.awaitsSupplies (s : State) : Bool :=
  s.renewal.kind = 0 && ((s.dom 61).pstate != .off || (s.dom 61).waking.isSome)

/-- Time 0: the start-up's kind, the clock and the supply (R576, R591). -/
def State.time0 (s : State) : State :=
  let s1 : State := { s with glob := { s.glob with uptimeMs := 0 }, renewal := { s.renewal with kind := s.renewal.nextKind },
                             tamper := { s.tamper with mainPower := true }, rng := { s.rng with source := .startup } }
  if s.renewal.nextKind = 2 then s1.wakeNote 61 3 else s1

/-- MAIN_SUPPLIES_GOOD: steps 1 to 6 of the start-up in their order, and those of steps 7 to 9 that no later command shows. -/
def execMainSuppliesGood (b : BootInfo) (s : State) : Host.Outcome State Fault Refusal :=
  if !s.awaitsSupplies then .next s
  else
    let s0 := s.time0
    let s1 : State := { s0 with er := s0.er.resume, tamper := { s0.tamper with vaultDown := !b.vaultLinkOk, merged := 0 } }
    let s2 := (if b.vaultLinkOk then s1.mergeTahr else s1).writeStart
    let s3 := ((s2.readCell b.cellA 0).readCell b.cellB 1).checkRoot b.rootDigestOk
    let s4 := (if b.vaultLinkOk then s3 else s3.tamperEvent 27 36).latched.nextBank 3
    let s5 := ((s4.dropPending.readDirectory b.dir).startImages b.copies).startGate b
    let s6 : State := { s5.each (List.range 36) State.askTest with renewal := { s5.renewal with initDone := true } }
    .next (s6.settle s)

/-- A channel has reached where READY wants it (R572). -/
def State.channelReady (s : State) (n : Nat) : Bool :=
  let c := s.ch n
  c.st == .failed ||
    (c.inService && (c.mcState == .active || c.mcState == .loadFailed || (c.mcState == .empty && (c.mcTried || s.renewal.mcImage.isNone))))

/-- The conditions of READY (R572). -/
def State.readyHolds (s : State) : Bool :=
  s.renewal.initDone && s.worlds.tw.up && (s.worlds.ow.up || s.renewal.owAbsent) && (List.range 36).all s.channelReady &&
    (s.rng.source == .service || s.rng.source == .failed) && (s.renewal.recordDone || s.gate.st == .locked)

/-- READY: the start-up cause clears and the promise is evaluated from here on (R36, R54, R572). -/
def execReady (s : State) : Host.Outcome State Fault Refusal :=
  if s.renewal.ready || !s.readyHolds then .next s
  else
    .next (State.settle { s with
      md := { s.md with startup := false, promiseOn := true }
      renewal := { s.renewal with ready := true, readyMs := sat 16 s.glob.uptimeMs } } s)

end Sys2Proof.Machine
end

