-- ==== Sys2Proof/Machine/RegRead.lean ====
section
/-! DEFINITION. What the registers read as (R6, R7, R9, R589): each block of BAR0 (R588), BAR2 (R126) and BAR4 (R67, R354), of Serow's own map
(R593), and a read of some bytes of them. A reserved bit or byte reads as zero, a Staged field as the value in force, a write-only
field as zero. -/

namespace Sys2Proof.Machine

/-! ### BAR0 (R588) -/

/-- The registers of a block, as (size, value) pairs at their natural alignment. -/
abbrev Regs := List (Nat × Nat)

/-- The global block (R591). -/
def State.globRegs (s : State) : Regs :=
  [(4, 0x01B01600), (4, 36 + 20 * 2 ^ 8 + 4096 * 2 ^ 16), (8, s.glob.uptimeMs), (4, s.glob.scratch.toNat), (4, s.glob.irqCause.toNat)]

/-- DEV_MODE, CH_SERVICE_LO, CH_SERVICE_HI (R38, R39) and PROMISE_STATUS (R54). -/
def State.modeRegs (s : State) : Regs :=
  [(4, s.modeWord), (4, s.serviceMask % 2 ^ 32), (4, s.serviceMask / 2 ^ 32), (4, s.md.promise.toNat)]

/-- HP_LINK_STATUS, HP_ERR_STATUS and the error log (R59, R71). -/
def State.hostRegs (s : State) : Regs :=
  let h := s.hp
  [(8, s.linkWord), (8, h.errStatus.toNat), (8, h.errAddr),
   (4, h.errCause + h.errCode * 2 ^ 4 + b2n h.errWrite * 2 ^ 12 + h.errBar * 2 ^ 13 + h.errSlice * 2 ^ 16)]

/-- DIST_CTRL, SPILL_PORT_MASK, DIST_STATUS (R183). -/
def State.distRegs (s : State) : Regs :=
  let d := s.dist
  let spilling := d.ctxs.any fun c => c.owner == .slice && !c.offered && match c.phase with | .spilled _ _ => true | _ => false
  [(4, b2n d.spareHold + 2 * b2n d.spillEn + 4 * b2n d.spillAccept + 256 * d.spillHoldUs + b2n d.commitBit * 2 ^ 31), (4, d.ports.toNat),
   (4, d.medianRate + s.sharedList.length * 2 ^ 16 + (s.chs.filter (·.heldSpare)).length * 2 ^ 22 + b2n s.saturated * 2 ^ 25 +
         b2n spilling * 2 ^ 26)]

/-- The distributor block of CH_n (R183). -/
def State.chRegs (s : State) (n : Nat) : Regs :=
  let c := s.ch n
  let excl := s.slices.any fun x => x.exists_ && x.partition && x.exclMask.getLsbD n
  [(4, c.st.code + b2n excl * 2 ^ 3 + b2n c.heldSpare * 2 ^ 4 + (s.dom n).op * 2 ^ 5 +
         (if c.inService then c.creditLimit else 0) * 2 ^ 8 + s.creditFree n * 2 ^ 16 + Nat.min 3 (s.fences24 n) * 2 ^ 24),
   (4, c.svcRate), (4, c.generation), (4, c.ctxStore.length + c.digests.length * 2 ^ 16), (8, c.entriesDone), (4, c.fenceCause),
   (4, c.slowMarks)]

/-- The big-number block of CH_n. -/
def State.bnRegs (s : State) (n : Nat) : Regs :=
  let c := s.ch n
  [(4, c.mcState.code + s.pkQueued n * 4 + b2n c.pkRun.isSome * 2 ^ 5 + c.mcSvn * 2 ^ 16),
   (4, if c.mcState = .empty then 0 else c.mcVersion), (4, c.speed + c.lastExtra * 2 ^ 16), (4, c.overruns), (8, c.pacedOps), (8, c.blindedOps),
   (8, c.measuredOps), (8, c.grewnOps)]

/-- BN_UPDATE_STATUS. -/
def State.bnUpdateWord (s : State) : Nat :=
  let r := s.renewal
  r.bnCh + b2n r.bnActive * 2 ^ 6 + b2n r.bnStopped * 2 ^ 7 + r.bnDone * 2 ^ 8

/-- An instance is instantiated. -/
def Gen.instantiated (g : Gen) : Bool := g.st == .seeded || g.st == .stretched || g.st == .stalled

/-- RNG_CTRL and RNG_STATUS (R309). -/
def State.rngRegs (s : State) : Regs :=
  let r := s.rng
  let banks := ((List.range 4).map fun b => b2n ((s.bank b).st == .service) * 2 ^ b).sum
  [(4, r.reseedLog2),
   (4, r.source.code + banks * 2 ^ 4 + r.buffer.length * 2 ^ 8 + b2n r.cd0.instantiated * 2 ^ 16 + b2n r.cd1.instantiated * 2 ^ 17 +
         r.fatalCount * 2 ^ 24)]

/-- A noise bank's block (R309). -/
def State.bankRegs (s : State) (b : Nat) : Regs :=
  let x := s.bank b
  let recent := (x.fails.filter fun t => s.glob.uptimeMs < t + 1000).length
  [(4, x.st.code + Nat.min 3 recent * 2 ^ 4 + x.restarts * 2 ^ 16), (4, x.rctFails), (4, x.aptFails), (4, x.blocks)]

/-- An instance's block (R309). -/
def Gen.regs (g : Gen) : Regs :=
  [(4, g.st.code + b2n g.prPending * 2 ^ 3 + g.waiting.length * 2 ^ 4), (4, g.calls), (4, g.reseeds), (4, g.refused)]

/-- Rows marked BAD. -/
def State.badRows (s : State) : Nat :=
  ((s.keys.keys.filter (·.bad)).map (·.rows)).sum + ((s.keys.stage.filter (·.key.bad)).map (·.key.rows)).sum + (s.slices.filter (·.smkBad)).length

/-- Key custody (R351). -/
def State.keyRegs (s : State) : Regs :=
  let k := s.keys
  [(4, s.keyLcWord), (4, k.epoch + b2n s.keyDrained * 2 ^ 16), (4, s.sliceRowsFree), (4, (k.stage.map (·.key.rows)).sum), (4, s.badRows),
   (4, k.sweepS), (8, k.sweeps)]

/-- The word of a custodian card port (R398). -/
def State.cardWord (s : State) (p : Nat) : Nat :=
  let c := s.dual.cards.getD p {}
  b2n c.present + b2n c.active * 2 + b2n c.proposal.isSome * 4 + c.lastIndex * 2 ^ 8 + c.lastStatus.code * 2 ^ 16

/-- Dual control (R398). -/
def State.dualRegs (s : State) : Regs :=
  let d := s.dual
  let q := d.chal
  let age := if q.id = 0 then 0 else Nat.min 300 ((s.glob.uptimeMs - q.issued) / 1000)
  [(4, d.m + s.enrolled.length * 2 ^ 5 + b2n q.live * 2 ^ 10 + ((List.range 16).filter fun i => q.approved.getLsbD i).length * 2 ^ 11 +
         (s.enrolled.map (2 ^ ·)).sum * 2 ^ 16),
   (8, q.id), (4, q.mailbox + q.opcode * 2 ^ 16), (4, age), (8, b2n d.winOpen + d.winCell * 2 + d.winLeftS * 2 ^ 16),
   (4, s.cardWord 0), (4, s.cardWord 1), (4, q.approved.toNat)]

/-- The boot gate (R427). -/
def State.gateRegs (s : State) : Regs :=
  let g := s.gate
  [(4, g.st.code + b2n g.espi * 2 ^ 3 + b2n g.twoFlash * 2 ^ 4 + b2n g.recovery * 2 ^ 5 + b2n g.wpActive * 2 ^ 6 + b2n g.policy.isSome * 2 ^ 7 +
         g.lastVerdict * 2 ^ 8),
   (4, g.bootCount), (4, g.blocked), (4, g.openMs + g.measureMs * 2 ^ 16)]

/-- The event recorder (R500). -/
def State.recorderRegs (s : State) : Regs :=
  let r := s.er
  [(8, r.nextSeq), (8, r.oldestSeq), (8, r.flushedSeq), (8, r.ackSeq), (4, r.buffer.length + b2n r.flushing * 2 ^ 14), (4, r.log.length),
   (8, r.notifyGrade + 8 * b2n r.notifyAll + 16 * r.ackWarn), (4, r.lost), (4, r.overwritten)]

/-- The block of FP_p (R523). -/
def State.portRegs (s : State) (p : Nat) : Regs :=
  let x := s.port p
  [(4, b2n x.en + x.iface * 2 + x.maxWidth * 2 ^ 3 + b2n x.commitBit * 2 ^ 31),
   (4, x.st.code + x.width * 2 ^ 3 + x.lanes.toNat * 2 ^ 5 + Nat.min 3 (s.pstateNow (40 + p)).code * 2 ^ 9 + b2n x.keyPhase * 2 ^ 11 +
         x.cause * 2 ^ 12 + x.peerDev * 2 ^ 16),
   (4, ofLe (x.margin.map (BitVec.ofNat 8))), (4, x.linkDowns + x.retrains * 2 ^ 16), (8, x.fecCorrected), (4, x.fecUncorr), (4, x.retries),
   (4, x.tagFails + x.malformed * 2 ^ 16), (4, x.rekeys)]

/-- PWR_WAKE and PWR_ERR (R571). -/
def State.powerRegs (s : State) : Regs :=
  let p := s.power
  [(8, b2n p.wakeLevel + p.wakeSource * 2 ^ 8 + p.wakeDomain * 2 ^ 16 + p.wakes * 2 ^ 22), (4, p.errStatus.code + b2n p.errValid * 2 ^ 31)]

/-- Renewal (R587). -/
def State.renewalRegs (s : State) : Regs :=
  let r := s.renewal
  let tw := s.worlds.tw.image
  let ow := s.worlds.ow.image
  [(4, (tw.map (·.version)).getD 0), (4, (ow.map (·.version)).getD 0),
   (4, (tw.map (·.svn)).getD 0 + r.twFloor * 2 ^ 8 + s.mcFloor * 2 ^ 16), (4, (ow.map (·.svn)).getD 0), (4, r.owFloor),
   (4, b2n r.twTrial + b2n r.twPending * 2 + b2n r.owPending * 4 + b2n r.mcPending * 8 + b2n r.reverted * 16 + r.twCopy * 2 ^ 8 +
         r.owCopy * 2 ^ 9 + r.mcCopy * 2 ^ 10),
   (4, r.readyMs + r.kind * 2 ^ 16 + b2n r.ready * 2 ^ 19)]

/-- The MSI-X table entry of a vector, and the pending bits, 8 vectors a byte. -/
def State.msixBytes (s : State) (v : Nat) : Bytes :=
  let (a, d, m) := assocD s.hp.msix v (0, 0, true)
  layInts [(8, a), (4, d), (4, b2n m)]

/-- Bits of a pending array as bytes: bit i of byte k stands for number 8 k + i. -/
def pendBytes (p : Nat → Bool) (k : Nat) : Bytes := [BitVec.ofNat 8 (((List.range 8).map fun i => b2n (p (8 * k + i)) * 2 ^ i).sum)]

/-- The block of BAR0 that covers an offset: its first offset and its bytes. A reserved offset lies in a block of no bytes (R66). -/
def State.bar0Block (s : State) (o : Nat) : Nat × Bytes :=
  let group (base size : Nat) (f : Nat → Bytes) : Nat × Bytes := (base + (o - base) / size * size, f ((o - base) / size))
  if o < 0x100 then (0, layInts s.globRegs)
  else if o < 0x110 then (0x100, layInts s.modeRegs)
  else if o < 0x20000 then (0x10000, layInts s.hostRegs)
  else if o < 0x21000 then (0x20000, layInts s.distRegs)
  else if o < 0x21900 then group 0x21000 0x40 fun n => layInts (s.chRegs n)
  else if o < 0x30900 then group 0x30000 0x40 fun n => layInts (s.bnRegs n)
  else if o < 0x40000 then (0x31000, leBytes 4 s.bnUpdateWord)
  else if o < 0x40010 then (0x40000, layInts s.rngRegs)
  else if o < 0x40050 then group 0x40010 0x10 fun b => layInts (s.bankRegs b)
  else if o < 0x400A0 then group 0x40080 0x10 fun i => layInts (s.gen i).regs
  else if o < 0x40340 then group 0x40100 0x10 fun n => layInts (s.gen (n + 2)).regs
  else if o < 0x60000 then (0x50000, layInts s.keyRegs)
  else if o < 0x70000 then (0x60000, layInts s.dualRegs)
  else if o < 0x80000 then (0x70000, layInts s.gateRegs)
  else if o < 0x90000 then (0x80000, layInts (s.worldWords.map fun v => (4, v)))
  else if o < 0x90100 then (0x90000, leBytes 4 s.tamperWord)
  else if o < 0x90500 then group 0x90100 0x20 s.sourceBlock
  else if o < 0xB0000 then (0xA0000, layInts s.recorderRegs)
  else if o < 0xB0500 then group 0xB0000 0x40 fun p => layInts (s.portRegs p)
  else if o < 0xD0000 then (0xC0000, layBytes s.hierRegs)
  else if o < 0xD0010 then (0xD0000, layInts s.powerRegs)
  else if o < 0xD0050 then group 0xD0010 0x10 s.grpBlock
  else if o < 0xD04E0 then group 0xD0100 0x10 s.domBlock
  else if o < 0x200000 then (0xE0000, layInts s.renewalRegs)
  else if o < 0x240000 then group 0x200000 0x40 s.sliceEntry
  else if o < 0xF08000 then group 0xF00000 0x10 fun v => if v < 2048 then s.msixBytes v else []
  else if o < 0xF08100 then group 0xF08000 1 (pendBytes s.hp.pba.contains)
  else (o, [])

/-! ### BAR2 (R126, R594) -/

/-- SLICE_INFO. -/
def State.sliceInfo (s : State) (n : Nat) : Bytes :=
  let x := s.slice n
  leBytes 8 (x.state.code + x.inst % 65536 * 2 ^ 16 + x.rpCount * 2 ^ 32)

/-- The block of the compacted BAR2 target that covers an offset. -/
def State.bar2Block (s : State) (o : Nat) : Nat × Bytes :=
  let n := o / 0x2000
  let r := o % 0x2000
  if r < 0x1000 then
    (o / 0x40 * 0x40, match s.ring? n (r / 0x40) with | some x => s.ringBlock (s.slice n) (r / 0x40) x | none => [])
  else (n * 0x2000 + 0x1000, s.sliceInfo n)

/-! ### BAR4 (R67, R354) -/

/-- STATE of a mailbox or gate slot. -/
def MbxState.code : MbxState → Nat
  | .idle => 0 | .submitted => 1 | .running => 2 | .replied => 3

/-- MBX_STATUS. TW_WAIT: the packet waits for a trusted-world restart to end. -/
def State.boxStatus (s : State) (m : Nat) : Nat :=
  let b := s.box m
  b.st.code + b2n b.dropped * 4 + b2n b.session * 8 + b2n (b.st == .submitted && s.worlds.tw.inProgress) * 16 + b2n b.assembly.isSome * 32 +
    b.accepted * 2 ^ 16

/-- The area of a mailbox that covers an offset. -/
def State.boxBlock (s : State) (m r : Nat) : Nat × Bytes :=
  let b := s.box m
  if r < 0x40 then (0, padTo 32 b.hdr)
  else if r < 0x100 then (0x40, layInts [(8, 2 * b2n b.intEn + b.intEntry * 2 ^ 16), (4, s.boxStatus m)])
  else if r < 0x1000 then (0x100, padTo 32 b.replyHdr)
  else (0x1000, padTo 4096 b.body)

/-- A slice interrupt table entry (R67, R68). -/
def State.intBytes (s : State) (e : Nat) : Bytes :=
  let x := s.intE e
  layInts [(8, x.addr), (4, x.msg), (4, b2n x.mask + b2n x.pending * 2 + x.owner * 2 ^ 16 + b2n x.allocated * 2 ^ 31)]

/-- The block of BAR4 that covers an offset. -/
def State.bar4Block (s : State) (o : Nat) : Nat × Bytes :=
  if o < 0x2000000 then
    let n := o / 0x2000
    if (s.slice n).exists_ then let (b, l) := s.boxBlock n (o % 0x2000); (n * 0x2000 + b, l) else (o, [])
  else if o < 0x2100000 then
    let m := (o - 0x2000000) / 0x10000
    if o % 0x10000 < 0x2000 then
      let (b, l) := s.boxBlock (Config.mgrMailbox + m) (o % 0x10000)
      (0x2000000 + m * 0x10000 + b, l)
    else (o, [])
  else if 0x3000000 ≤ o && o < 0x3020000 then (o / 16 * 16, s.intBytes ((o - 0x3000000) / 16))
  else if 0x3020000 ≤ o && o < 0x3020400 then (o, pendBytes (fun e => (s.intE e).pending) (o - 0x3020000))
  else (o, [])

/-! ### Serow's own blocks (R593) -/

/-- A session's registers before CMP (R236). -/
def Session.regs (x : Session) : Regs :=
  [(8, b2n x.isOpen + 32 * b2n x.engineCrc + 256 * x.func + 65536 * x.outLen), (8, x.declLen), (8, x.fed),
   (8, x.status.code + b2n x.busy * 2 ^ 8 + b2n x.resultValid * 2 ^ 9 + b2n x.isMatch * 2 ^ 10 + b2n x.error * 2 ^ 11), (8, 0), (8, x.lastData.toNat),
   (8, 0), (8, 0), (8, x.crcWidth + 128 * b2n x.crcRefin + 256 * b2n x.crcRefout + 512 * b2n x.crcFinalInv), (8, x.crcPoly.toNat),
   (8, x.crcValue.toNat), (8, x.cmpLen)]

/-- A session block (R236); CMP is write-only. -/
def Session.bytes (x : Session) : Bytes :=
  padTo 0x80 (layInts x.regs) ++ padTo 64 x.result ++ zeros 64 ++ padTo 512 x.image

/-- PRIV as ADM_FAULT shows it. -/
def privCode : Priv → Nat
  | .user => 0 | .supervisor => 1 | .machine => 3

/-- An admission window (R593): the entries its world owns, as in force, then its control registers. -/
def State.admBlock (s : State) (w : World) (r : Nat) : Nat × Bytes :=
  let x := s.world w
  if r < 0x1000 then
    let i := r / 16
    let e := assocD s.worlds.regions i {}
    let word := e.sizeLog2 + b2n e.valid * 2 ^ 6 + b2n e.lock * 2 ^ 7 + (match w with | .tw => 0 | .ow => 1) * 2 ^ 8 + e.base
    (i * 16, if s.regionWorld i = w then layInts [(8, word), (8, e.perms.toNat)] else [])
  else
    (0x1000, layInts
      [(4, b2n x.admCommit), (4, x.admErrCause + x.admErrEntry * 2 ^ 8 + b2n x.admErrValid * 2 ^ 31),
       (8, x.admFault.addr + privCode x.admFault.priv * 2 ^ 48 + x.admFault.typ * 2 ^ 50 + b2n x.admFault.valid * 2 ^ 63),
       (4, x.worldErr.code + b2n x.worldErrValid * 2 ^ 31), (4, if w = .ow then b2n s.worlds.dbgOwEn else 0)])

/-- A gate slot (R376). -/
def GateSlot.regs (x : GateSlot) : Regs := [(8, x.bufAddr), (4, 65536 * x.onBehalf), (4, x.st.code + b2n x.dropped * 4)]

/-- A power request port (R596): GO reads as zero. -/
def WorldSt.powerBytes (x : WorldSt) : Bytes :=
  padTo 0x28 (padTo 32 x.powerReq) ++ leBytes 4 (x.powerStatus.code + b2n x.powerDeferred * 2 ^ 8 + b2n x.powerBusy * 2 ^ 9)

/-- A draw port (R595). -/
def WorldSt.drawBytes (x : WorldSt) : Bytes :=
  padTo 0x40 (zeros 8 ++ leBytes 4 (x.drawStatus.code + b2n x.drawBusy * 2 ^ 8 + b2n x.drawValid * 2 ^ 9)) ++ padTo 64 x.drawData

/-- A core's watchdog: SERVICE and FATAL read as zero. -/
def State.watchdogRegs (s : State) (c : Nat) : Regs := [(4, 0), (4, s.watchPeriod c)]

/-- The world of a platform interrupt source (R431), from the resource that raises it. -/
def State.irqWorld (s : State) (i : Nat) : World :=
  match Config.irqResource i with
  | 0 => s.coreWorld 0
  | 1 => s.coreWorld 1
  | 2 => s.coreWorld 2
  | 3 => s.coreWorld 3
  | 4 => s.sessionWorld 1
  | 5 => .tw
  | _ => .ow

/-- A source the interrupt controller of a core may touch (R431): one of its world. Number 0 names none (PLIC specification). -/
def State.irqOpen (s : State) (c i : Nat) : Bool := 0 < i && i < 256 && s.irqWorld i == s.coreWorld c

/-- What a byte of an interrupt controller's window stands for (PLIC specification): the priority of a source, the pending bits or a
context's enable bits of eight sources; any other is reserved. -/
inductive PlicByte where
  | priority (source : Nat)
  | pending (k : Nat)
  | enable (k : Nat)
  | reserved
deriving DecidableEq, Repr

/-- The byte at an offset of an interrupt controller. Its claim and threshold registers lie past the core's interrupt window (log entry 100). -/
def plicByte (o : Nat) : PlicByte :=
  if o < 0x400 then .priority (o / 4)
  else if 0x1000 ≤ o && o < 0x1020 then .pending (o - 0x1000)
  else if 0x2000 ≤ o && o % 0x80 < 0x20 then .enable (o % 0x80)
  else .reserved

/-- The bits of eight sources that a core's controller may touch. -/
def State.irqMask (s : State) (c k : Nat) : Byte := BitVec.ofNat 8 (((List.range 8).map fun i => b2n (s.irqOpen c (8 * k + i)) * 2 ^ i).sum)

/-- The bits of a byte at an offset of a core's interrupt controller that the core may enable, pend or observe (R431). -/
def State.plicMask (s : State) (c o : Nat) : Byte :=
  match plicByte o with
  | .priority i => if s.irqOpen c i then 0xFF else 0
  | .pending k => s.irqMask c k
  | .enable k => s.irqMask c k
  | .reserved => 0

/-- The byte at an address of a core's interrupt controller: pending bits are the resources', FREE at each observation. -/
def State.plicRead (s : State) (c a : Nat) : Byte :=
  let o := a % 0x100000
  let v := match plicByte o with
    | .pending k => BitVec.ofNat 8 (((List.range 8).map fun i => b2n (Config.irqPending (8 * k + i) s.glob.freeCtr) * 2 ^ i).sum)
    | _ => assocD s.worlds.coreRegs a 0
  v &&& s.plicMask c o

/-- mtime of a core now (R434): it runs in both worlds, at a rate the spec does not give. -/
def State.mtime (s : State) (c : Nat) : Nat :=
  let (v, t) := s.worlds.timerSet.getD c (0, 0)
  (v + (Config.timerTicks c s.glob.uptimeMs - Config.timerTicks c t)) % 2 ^ 64

/-- The machine timer of a core (MTIMER layout): mtimecmp of its hart at 0, mtime at 0x7FF8. -/
def State.timerBlock (s : State) (c a : Nat) : Nat × Bytes :=
  let base := 0x10000000 + c * 0x100000 + 0x80000
  if a < base + 8 then (base, (List.range 8).map fun i => assocD s.worlds.coreRegs (base + i) 0)
  else if base + 0x7FF8 ≤ a && a < base + 0x8000 then (base + 0x7FF8, leBytes 8 (s.mtime c))
  else (a, [])

/-! ### A read -/

/-- The block that covers an address of the interconnect, as its first address and its bytes. -/
def State.busBlock (s : State) (b : Blk) (a : Nat) : Nat × Bytes :=
  match b with
  | .bar0 => let (o, l) := s.bar0Block (a - 0x40000000); (0x40000000 + o, l)
  | .bar4 => let (o, l) := s.bar4Block (a - 0x44000000); (0x44000000 + o, l)
  | .bar2 => let (o, l) := s.bar2Block (a - 0x48000000); (0x48000000 + o, l)
  | .interrupts c => (a, [s.plicRead c a])
  | .timer c => s.timerBlock c a
  | .watchdog c => (0x10000000 + c * 0x100000 + 0xF0000, layInts (s.watchdogRegs c))
  | .admission w => let (o, l) := s.admBlock w (a % 0x2000); (a / 0x2000 * 0x2000 + o, l)
  | .sessions n k => (a / 0x400 * 0x400, ((s.ch n).session k).bytes)
  | .gate => (a / 0x20 * 0x20, layInts (s.mail.slots.getD (a % 0x100 / 0x20) {}).regs)
  | .powerPort w => (a / 0x1000 * 0x1000, (s.world w).powerBytes)
  | .drawPort w => (a / 0x1000 * 0x1000, (s.world w).drawBytes)
  | .keySram => (a / 128 * 128, s.rowBytes ((a - keySramBase) / 128))
  | .sram _ => (a, [Mem.read s.worlds.sram a])
  | .bootRom => (a, [Config.bootRom a])
  | .outbound | .management | .trusted => (a, [])

/-- The byte an address reads as. -/
def State.busByte (s : State) (b : Blk) (a : Nat) : Byte := let (o, l) := s.busBlock b a; l.getD (a - o) 0

/-- What a block's registers do not determine and this model does not fix: the layouts at 0x1600_0000 and 0x1700_0000 (R593), and host
memory behind the outbound window. -/
def Blk.unknown : Blk → Bool
  | .outbound | .management | .trusted => true
  | _ => false

/-- A read of n bytes (R589: a naturally aligned read of a field returns one consistent value). Free bytes stand for what the spec leaves out;
each observation of pending interrupts is a new one. -/
def State.busRead (b : Blk) (a n : Nat) (s : State) : Bytes × State :=
  if b.unknown then s.freeBytes n
  else
    ((List.range n).map fun i => s.busByte b (a + i),
     match b with | .interrupts _ => { s with glob := { s.glob with freeCtr := s.glob.freeCtr + 1 } } | _ => s)

/-- What an admitted host read returns (R66): registers through the interconnect, the MSI-X table and PBA at the host port, zero at a
reserved offset. -/
def State.hostRead (s : State) (bar off n : Nat) : Bytes :=
  match hostAddr bar off with
  | some a => match blockAt a with
    | some b => (List.range n).map fun i => s.busByte b (a + i)
    | none => zeros n
  | none => if bar = 0 then (List.range n).map fun i => s.busByte .bar0 (0x40000000 + off + i) else zeros n

end Sys2Proof.Machine
end

