-- ==== Sys2Proof/Machine/Registers.lean ====
section
/-! DEFINITION. Writes of register fields that have no behaviour of their own (R6 to R10, R588 to R596), the application of Staged shadows, the
MSI-X table, and host accesses (R63 to R66). -/

namespace Sys2Proof.Machine

/-! ### Bytes of a write that fall on a register -/

/-- A register's bytes with those of a write at `off` laid over them. -/
def overlay (reg : Nat) (old : Bytes) (off : Nat) (data : Bytes) : Bytes :=
  old.zipIdx.map fun (b, i) => if off ≤ reg + i then data.getD (reg + i - off) b else b

/-- A write falls on a register of n bytes. -/
def touches (reg n off : Nat) (data : Bytes) : Bool := off < reg + n && reg < off + data.length

/-- What a write of a register of n bytes does, given the value that results; `old` stands where the write leaves bytes out. -/
def State.onReg (reg n old off : Nat) (data : Bytes) (f : Nat → State → State) (s : State) : State :=
  if touches reg n off data then f (ofLe (overlay reg (leBytes n old) off data)) s else s

/-- A value kept between two bounds. -/
def clampTo (lo hi v : Nat) : Nat := if v < lo then lo else if hi < v then hi else v

/-! ### BAR0 (R588, R591) -/

/-- DIST_CTRL: Staged shadows, SPILL_HOLD_US, COMMIT. -/
def State.writeDistCtrl (v : Nat) (s : State) : State :=
  s.modDist fun d =>
    { d with spareHoldSh := some (bit v 0), spillEnSh := some (bit v 1), spillAcceptSh := some (bit v 2), spillHoldUs := bits v 8 8,
             commitBit := d.commitBit || bit v 31 }

/-- DIST_CTRL as a write that leaves bytes out finds it: the shadows, and no COMMIT. -/
def Dist.ctrlWord (d : Dist) : Nat :=
  b2n (d.spareHoldSh.getD d.spareHold) + 2 * b2n (d.spillEnSh.getD d.spillEn) + 4 * b2n (d.spillAcceptSh.getD d.spillAccept) + 256 * d.spillHoldUs

/-- The control register of a fabric port: Staged shadows and COMMIT. EN and RETRAIN have their own commands. -/
def State.writePortCtrl (p v : Nat) (s : State) : State :=
  s.modPort p fun x => { x with ifaceSh := some (bits v 1 2), maxWidthSh := some (bits v 3 2), commitBit := x.commitBit || bit v 31 }

/-- The same register as a write that leaves bytes out finds it. -/
def Port.ctrlWord (x : Port) : Nat := 2 * x.ifaceSh.getD x.iface + 8 * x.maxWidthSh.getD x.maxWidth

/-- ER_NOTIFY (R499, R500). -/
def State.writeNotify (v : Nat) (s : State) : State :=
  State.checkAck { s with er := { s.er with notifyGrade := bits v 0 3, notifyAll := bit v 3, ackWarn := bits v 4 2 } }

/-- ER_NOTIFY's value. -/
def Recorder.notifyWord (r : Recorder) : Nat := r.notifyGrade + 8 * b2n r.notifyAll + 16 * r.ackWarn

/-- A write of the BAR0 map. -/
def State.bar0Write (off : Nat) (data : Bytes) (s : State) : State :=
  let p := (off - 0xB0000) / 0x40
  s
  |> State.onReg 0x10 4 s.glob.scratch.toNat off data (fun v t => { t with glob := { t.glob with scratch := BitVec.ofNat 32 v } })
  |> State.onReg 0x14 4 0 off data (fun v t => { t with glob := { t.glob with irqCause := t.glob.irqCause &&& ~~~(BitVec.ofNat 4 v) } })
  |> State.onReg 0x10008 4 0 off data (fun v t => { t with hp := { t.hp with errStatus := t.hp.errStatus &&& ~~~(BitVec.ofNat 6 v) } })
  |> State.onReg 0x20000 4 s.dist.ctrlWord off data State.writeDistCtrl
  |> State.onReg 0x20004 4 (s.dist.portsSh.getD s.dist.ports).toNat off data
      (fun v t => t.modDist fun d => { d with portsSh := some (BitVec.ofNat 20 v) })
  |> State.onReg 0x40000 4 s.rng.reseedLog2 off data (fun v t => t.modRng fun r => { r with reseedLog2 := clampTo 10 24 (bits v 0 5) })
  |> State.onReg 0x50014 4 s.keys.sweepS off data (fun v t => t.modKeys fun k => { k with sweepS := clampTo 10 255 (bits v 0 8) })
  |> State.onReg 0xA0028 4 s.er.notifyWord off data State.writeNotify
  |> (if 0xB0000 ≤ off && off < 0xB0500 then State.onReg (0xB0000 + 0x40 * p) 4 (s.port p).ctrlWord off data (State.writePortCtrl p) else id)
  |> State.onReg 0xD0008 4 0 off data
      (fun v t => { t with power := { t.power with errValid := t.power.errValid && !bit v 31 } })
  |> State.onReg 0xE0014 4 0 off data
      (fun v t => { t with renewal := { t.renewal with reverted := t.renewal.reverted && !bit v 4 } })

/-! ### BAR2: a ring pair's control word (R126) -/

/-- IRQ_EN is set and DB_RANGE cleared by a 1; RESTART has its own command. A disarmed pair drops every write (R122). -/
def State.ringWrite (n rp off : Nat) (data : Bytes) (s : State) : State :=
  match s.ring? n rp with
  | some r =>
    if r.armed then
      s.onReg 0x28 4 (2 * b2n r.irqEn) off data fun v t =>
        t.modRing n rp fun r => { r with irqEn := bit v 1, dbRange := r.dbRange && !bit v 8 }
    else s
  | none => s

/-! ### BAR4: mailboxes and the slice interrupt table (R67, R354, R355) -/

/-- A write of a mailbox: its header and body areas are dropped while a packet is submitted or running. -/
def State.boxWrite (m off : Nat) (data : Bytes) (s : State) : State :=
  let b := s.box m
  let area := touches 0 0x20 off data || touches 0x1000 0x1000 off data
  let held := b.st == .submitted || b.st == .running
  let s1 :=
    if !area then s
    else if held then s.modBox m fun b => { b with dropped := true }
    else s.modBox m fun b => { b with hdr := overlay 0 (padTo 32 b.hdr) off data, body := overlay 0x1000 (padTo 4096 b.body) off data }
  s1
  |> State.onReg 0x40 4 (2 * b2n b.intEn + 65536 * b.intEntry) off data
      (fun v t => t.modBox m fun b => { b with intEn := bit v 1, intEntry := if m < Config.mgrMailbox then bits v 16 13 else b.intEntry })
  |> State.onReg 0x48 4 0 off data (fun v t => t.modBox m fun b => { b with dropped := b.dropped && !bit v 2 })

/-- A write of a slice interrupt entry's address and data; MASK has its own command. -/
def State.intWrite (e off : Nat) (data : Bytes) (s : State) : State :=
  if Config.poolInts ≤ e then s
  else
    let x := s.intE e
    s
    |> State.onReg 0 8 x.addr off data (fun v t => t.modInt e fun x => { x with addr := v / 4 * 4 })
    |> State.onReg 8 4 x.msg off data (fun v t => t.modInt e fun x => { x with msg := v })

/-- A write of the BAR4 map. -/
def State.bar4Write (off : Nat) (data : Bytes) (s : State) : State :=
  if off < 0x2000000 then (if (s.slice (off / 0x2000)).exists_ then s.boxWrite (off / 0x2000) (off % 0x2000) data else s)
  else if off < 0x2100000 then
    (if off % 0x10000 < 0x2000 then s.boxWrite (Config.mgrMailbox + (off - 0x2000000) / 0x10000) (off % 0x10000) data else s)
  else if 0x3000000 ≤ off && off < 0x3020000 then s.intWrite ((off - 0x3000000) / 16) (off % 16) data
  else s

/-! ### Serow's own blocks -/

/-- The control word of a session as a write that leaves bytes out finds it: its fields, and no action. -/
def Session.ctrlWord (x : Session) : Nat := 32 * b2n x.engineCrc + 256 * x.func + 65536 * x.outLen

/-- A write of a session's Held field (R236): refused with CFG_HELD while it is open. -/
def State.sessionHeld (ch k : Nat) (f : Session → Session) (s : State) : State :=
  s.modSession ch k fun x => if x.isOpen then x.ended .cfgHeld else f x

/-- A write of ENGINE, FUNC and OUT_LEN. -/
def State.sessionCtrl (ch k off : Nat) (data : Bytes) (s : State) : State :=
  let s0 := s.sessionWake ch
  s0.onReg 0x000 4 ((s0.ch ch).session k).ctrlWord off data fun v => State.sessionHeld ch k fun x => x.withCtrl (BitVec.ofNat 32 v)

/-- A write of the other fields of a session block (R234, R236): it wakes its channel. The actions, FEED, LAST_CNT and CRC_VALUE have their own
commands. -/
def State.sessionWrite (ch k off : Nat) (data : Bytes) (s : State) : State :=
  let s0 := s.sessionWake ch
  let x := (s0.ch ch).session k
  let held (f : Nat → Session → Session) (v : Nat) : State → State := State.sessionHeld ch k (f v)
  let live (f : Nat → Session → Session) (v : Nat) (t : State) : State := t.modSession ch k (f v)
  s0
  |> State.onReg 0x008 8 x.declLen off data (held fun v x => { x with declLen := v })
  |> State.onReg 0x018 4 0 off data (live fun v x => { x with error := x.error && !bit v 11 })
  |> State.onReg 0x028 8 x.lastData.toNat off data (live fun v x => { x with lastData := BitVec.ofNat 64 v })
  |> State.onReg 0x040 4 (x.crcWidth + 128 * b2n x.crcRefin + 256 * b2n x.crcRefout + 512 * b2n x.crcFinalInv) off data
      (held fun v x => { x with crcWidth := bits v 0 7, crcRefin := bit v 7, crcRefout := bit v 8, crcFinalInv := bit v 9 })
  |> State.onReg 0x048 8 x.crcPoly.toNat off data (held fun v x => { x with crcPoly := BitVec.ofNat 64 v })
  |> State.onReg 0x058 4 x.cmpLen off data (live fun v x => { x with cmpLen := bits v 0 7 })
  |> (if touches 0xC0 64 off data then live (fun _ x => { x with cmp := overlay 0xC0 (padTo 64 x.cmp) off data }) 0 else id)
  |> (if touches 0x100 512 off data then live (fun _ x => { x with image := overlay 0x100 (padTo 512 x.image) off data }) 0 else id)

/-- The value of an admission entry's first word. -/
def Region16.word (e : Region16) : Nat := e.base + 64 * b2n e.valid + e.sizeLog2

/-- A write of an admission entry goes to its shadow (R443): machine mode of the owning world alone; refused with CFG_HELD while the entry is
locked or a commit is awaited (R444). -/
def State.entryWrite (m : Master) (w : World) (i off : Nat) (data : Bytes) (s : State) : State :=
  if m != .core w .machine || s.regionWorld i != w then s
  else if (assocD s.worlds.regions i {}).lock || (s.world w).admCommit then s.admErr w 5 i
  else
    let e := assocD (s.world w).shadows i (assocD s.worlds.regions i {})
    let put (f : Region16 → Region16) (t : State) : State :=
      t.modWorld w fun x => { x with shadows := assocSet x.shadows i (f (assocD x.shadows i e)) }
    s
    |> State.onReg 0 8 e.word off data
        (fun v => put fun e => { e with sizeLog2 := bits v 0 6, valid := bit v 6, base := bits v 12 36 * 4096 })
    |> State.onReg 8 8 e.perms.toNat off data (fun v => put fun e => { e with perms := BitVec.ofNat 24 v })

/-- A write of an admission window (R593): entries below 0x1000, then the world's control registers. -/
def State.admWrite (m : Master) (w : World) (off : Nat) (data : Bytes) (s : State) : State :=
  if off < 0x1000 then s.entryWrite m w (off / 16) (off % 16) data
  else
    s
    |> State.onReg 0x1004 4 0 off data (fun v t => t.modWorld w fun x => { x with admErrValid := x.admErrValid && !bit v 31 })
    |> State.onReg 0x1008 8 0 off data
        (fun v t => t.modWorld w fun x => { x with admFault := { x.admFault with valid := x.admFault.valid && !bit v 63 } })
    |> State.onReg 0x1010 4 0 off data (fun v t => t.modWorld w fun x => { x with worldErrValid := x.worldErrValid && !bit v 31 })
    |> (if w = .ow then
          State.onReg 0x1014 4 (b2n s.worlds.dbgOwEn) off data (fun v t => { t with worlds := { t.worlds with dbgOwEn := bit v 0 } })
        else id)

/-- A write of a gate slot (R376): its Held fields are refused, with DROPPED, while a call is submitted or runs. CALL has its own command. -/
def State.gateSlotWrite (g off : Nat) (data : Bytes) (s : State) : State :=
  let x := s.mail.slots.getD g {}
  let put (f : GateSlot → GateSlot) (t : State) : State := t.modMail fun m => { m with slots := m.slots.modify g f }
  let held (f : Nat → GateSlot → GateSlot) (v : Nat) : State → State :=
    put fun x => if x.st == .submitted || x.st == .running then { x with dropped := true } else f v x
  s
  |> State.onReg 0x00 8 x.bufAddr off data (held fun v x => { x with bufAddr := v })
  |> (if touches 0x0A 2 off data then
        State.onReg 0x08 4 (65536 * x.onBehalf) off data (held fun v x => { x with onBehalf := bits v 16 16 })
      else id)
  |> State.onReg 0x0C 4 0 off data (fun v => put fun x => { x with dropped := x.dropped && !bit v 2 })

/-- A write of a power request port's parameters (R596), dropped while BUSY is 1. -/
def State.powerPortWrite (w : World) (off : Nat) (data : Bytes) (s : State) : State :=
  if (s.world w).powerBusy || !touches 0 0x20 off data then s
  else s.modWorld w fun x => { x with powerReq := overlay 0 (padTo 32 x.powerReq) off data }

/-- PERIOD_MS of a core's watchdog: open-world cores only, clamped (the watchdog block). -/
def State.periodWrite (c off : Nat) (data : Bytes) (s : State) : State :=
  if s.coreWorld c = .tw then s
  else
    s.onReg 4 4 (s.worlds.periods.getD c 10) off data fun v t =>
      { t with worlds := { t.worlds with periods := t.worlds.periods.set c (clampTo 10 1000 (bits v 0 10)) } }

/-- A write of the compacted BAR2 target (R594). -/
def State.bar2Write (off : Nat) (data : Bytes) (s : State) : State :=
  if off % 0x2000 < 0x1000 then s.ringWrite (off / 0x2000) (off % 0x2000 / 0x40) (off % 0x40) data else s

/-- A write of the locked assignment by a core: dropped, with CFG_HELD recorded in its world (R432). -/
def State.assignHeld (m : Master) (off : Nat) (data : Bytes) (s : State) : State :=
  match m with
  | .core w _ =>
    if touches 0x80000 4 off data && s.worlds.lock then s.modWorld w fun x => { x with worldErr := .cfgHeld, worldErrValid := true } else s
  | _ => s

/-- An admitted write of a master inside the device to the fields of a register (R590). -/
def State.fieldWrite (m : Master) (b : Blk) (a : Nat) (data : Bytes) (s : State) : State :=
  match b with
  | .watchdog c => s.periodWrite c (a % 0x100000 - 0xF0000) data
  | .admission h => s.admWrite m h (a % 0x2000) data
  | .sessions ch k => (s.sessionCtrl ch k (a % 0x400) data).sessionWrite ch k (a % 0x400) data
  | .gate => s.gateSlotWrite (a % 0x100 / 0x20) (a % 0x20) data
  | .powerPort h => s.powerPortWrite h (a % 0x1000) data
  | .bar0 => (s.assignHeld m (a - 0x40000000) data).bar0Write (a - 0x40000000) data
  | .bar4 => s.bar4Write (a - 0x44000000) data
  | .bar2 => s.bar2Write (a - 0x48000000) data
  | _ => s

/-! ### Host accesses and their refusal (R63, R65, R66, R594) -/

/-- A host write, refused or carried out. -/
def State.hostWrite (bar off : Nat) (data : Bytes) (s : State) : State :=
  s.hostAccess bar off data.length fun s =>
    if bar = 0 then s.bar0Write off data
    else if bar = 2 then
      match hostAddr 2 off with
      | some a => s.bar2Write (a - 0x48000000) data
      | none => s
    else s.bar4Write off data

/-- REGISTER_WRITE (R6 to R10): a host or Serow write to a register field that has no behaviour of its own. -/
def execRegisterWrite (via : Via) (off : Nat) (data : Bytes) (s : State) : Host.Outcome State Fault Refusal :=
  match via with
  | .bar0 => .next (s.hostWrite 0 off data)
  | .bar2 => .next (s.hostWrite 2 off data)
  | .bar4 => .next (s.hostWrite 4 off data)
  | .serow core priv =>
    let w := s.coreWorld core
    let d := data.take 8
    if 4 ≤ core || !(s.world w).up then .next s
    else if !s.admits (.core w priv) .write off then .next (s.serowFault w priv .write off)
    else
      match blockAt off with
      | some b => .next (s.fieldWrite (.core w priv) b off d)
      | none => .next s

/-- STAGED_COMMIT_APPLY (R9, R183): at the block's first idle moment after COMMIT, every shadow is applied and COMMIT returns to 0. The
distributor is idle between two admissions; a port while it holds no frame and no unit. -/
def execStagedCommitApply (blk : StagedBlk) (s : State) : Host.Outcome State Fault Refusal :=
  match blk with
  | .dist =>
    if !s.dist.commitBit then .next s
    else
      .next (s.modDist fun d =>
        { d with spareHold := d.spareHoldSh.getD d.spareHold, spillEn := d.spillEnSh.getD d.spillEn,
                 spillAccept := d.spillAcceptSh.getD d.spillAccept, ports := d.portsSh.getD d.ports,
                 spareHoldSh := none, spillEnSh := none, spillAcceptSh := none, portsSh := none, commitBit := false })
  | .port p =>
    let x := s.port p
    if !x.commitBit || !x.txq.isEmpty || !x.replay.isEmpty || !x.rx.isEmpty then .next s
    else
      .next (s.modPort p fun x =>
        { x with iface := x.ifaceSh.getD x.iface, maxWidth := x.maxWidthSh.getD x.maxWidth, ifaceSh := none, maxWidthSh := none,
                 commitBit := false })

/-- BAR_ACCESS_REFUSED (R65): the read completes with Completer Abort, the write is dropped, and the access is logged. A read that is not refused
completes with what the registers read as (R66): the model's choice, log entry 103. -/
def execBarAccessRefused (bar off len : Nat) (write : Bool) (s : State) : Host.Outcome State Fault Refusal :=
  if !s.barsUp || barSize bar < off + len then .next s
  else
    match s.refusal bar off len write with
    | some c => .next (s.refuseAccess bar off c write)
    | none => .next (if write then s else s.emit (.completion bar off (some (s.hostRead bar off len))))

/-- A write of a vector's entry of the MSI-X table: unmasked, it sends the message held pending for it. -/
def State.msixWrite (vector addr data : Nat) (masked : Bool) (s : State) : State :=
  let a := addr % 2 ^ 64 / 4 * 4
  let d := data % 2 ^ 32
  let s1 : State := { s with hp := { s.hp with msix := assocSet s.hp.msix vector (a, d, masked) } }
  if !masked && s.hp.pba.contains vector then
    State.emit (.msix vector a d) { s1 with hp := { s1.hp with pba := s1.hp.pba.filter (· != vector) } }
  else s1

/-- MSIX_TABLE_WRITE (R588): the host's write. -/
def execMsixTableWrite (vector addr data : Nat) (masked : Bool) (s : State) : Host.Outcome State Fault Refusal :=
  if 2048 ≤ vector || !s.barsUp then .next s else .next (s.msixWrite vector addr data masked)

end Sys2Proof.Machine
end

