-- ==== Sys2Proof/Machine/Debug.lean ====
section
/-! DEFINITION. Accesses on the interconnect with their effect on the block they reach: Serow accesses (R445 to R447, R570), the debug access
port (R451 to R455), and the JTAG instructions (R453). -/

namespace Sys2Proof.Machine

/-! ### SEROW_ACCESS -/

/-- A write of a register with a behaviour of its own falls on it: f on the value that results. -/
def State.onAct (reg n old off : Nat) (data : Bytes) (f : Nat → State → State) (s : State) : State :=
  if touches reg 1 off data then s.onReg reg n old off data f else s

/-- Actions of the BAR0 registers: ACK_SEQ, EN and RETRAIN, AGG_HEAD, the MSI-X table. -/
def State.bar0Act (off : Nat) (data : Bytes) (s : State) : State :=
  let p := (off - 0xB0000) / 0x40
  let v := (off - 0xF00000) / 16
  s
  |> State.onReg 0xA0018 8 s.er.ackSeq off data State.ackWrite
  |> (if 0xB0000 ≤ off && off < 0xB0500 then
        State.onAct (0xB0000 + 0x40 * p) 4 0 off data fun v t => if bit v 5 then (t.enWrite p (bit v 0)).retrainWrite p else t.enWrite p (bit v 0)
      else id)
  |> State.onReg 0xC0040 4 s.hier.aggHead off data State.aggHeadWrite
  |> (if 0xF00000 ≤ off && off < 0xF08000 then
        State.onReg (0xF00000 + 16 * v) 16 (ofLe (s.msixBytes v)) off data fun x => State.msixWrite v (bits x 0 64) (bits x 64 32) (bit x 96)
      else id)

/-- Actions of a ring pair's registers: SQ_TAIL, CQ_HEAD, RESTART. -/
def State.ringAct (n rp off : Nat) (data : Bytes) (s : State) : State :=
  match s.ring? n rp with
  | some r =>
    s
    |> State.onReg 0x00 2 r.sqTail off data (State.sqTailWrite n rp)
    |> State.onReg 0x10 2 r.cqHead off data (State.cqHeadWrite n rp)
    |> State.onAct 0x28 4 0 off data (fun v t => if bit v 2 then t.restartWrite n rp else t)
  | none => s

/-- Actions of the BAR4 registers: GO of a mailbox, MASK of a slice interrupt entry. -/
def State.bar4Act (off : Nat) (data : Bytes) (s : State) : State :=
  let go (m r : Nat) : State → State := State.onAct 0x40 4 0 r data fun v t => if bit v 0 then t.goWrite m else t
  let e := (off - 0x3000000) / 16
  if off < 0x2000000 then go (off / 0x2000) (off % 0x2000) s
  else if off < 0x2100000 then go (Config.mgrMailbox + (off - 0x2000000) / 0x10000) (off % 0x10000) s
  else if 0x3000000 ≤ off && off < 0x3020000 then
    State.onAct 0xC 4 (b2n (s.intE e).mask) (off % 16) data (fun v t => t.maskWrite e (bit v 0)) s
  else s

/-- A write of a session block with its actions (R236). With an action in the control word the fields beside it are taken while the session is
closed, and the actions follow in the order ABANDON, OPEN, RESTORE, SAVE, COMPARE: DESIGN CHOICE, log entry 103. -/
def State.sessionAct (ch k off : Nat) (data : Bytes) (s : State) : State :=
  let x := ((s.sessionWake ch).ch ch).session k
  let ctrl (v : Nat) (t : State) : State :=
    let run (i : Nat) (f : State → State) (t : State) : State := if bit v i then f t else t
    (if x.isOpen then t else t.modSession ch k fun y => y.withCtrl (BitVec.ofNat 32 v))
    |> run 1 (State.sessionAbandon ch k)
    |> run 0 (State.sessionOpen ch k (BitVec.ofNat 32 v))
    |> run 3 (State.sessionRestore ch k)
    |> run 2 (State.sessionSave ch k)
    |> run 4 (State.sessionCompare ch k)
  let lanes := (data.drop (0x20 - off)).take (0x28 - Nat.max off 0x20)
  (s.sessionWake ch).sessionWrite ch k off data
  |> State.onReg 0x000 4 x.ctrlWord off data
      (fun v t => if bits v 0 5 = 0 then t.sessionHeld ch k fun y => y.withCtrl (BitVec.ofNat 32 v) else ctrl v t)
  |> (if touches 0x20 8 off data then State.feed ch k lanes else id)
  |> State.onAct 0x30 4 0 off data (fun v => State.lastCnt ch k (bits v 0 4))
  |> State.onReg 0x50 8 x.crcValue.toNat off data (fun v => State.crcValueWrite ch k (BitVec.ofNat 64 v))

/-- A write of a core's watchdog: SERVICE, then FATAL, then PERIOD_MS. -/
def State.watchdogAct (c off : Nat) (data : Bytes) (s : State) : State :=
  (State.onAct 0 4 0 off data (fun v t =>
    let t1 := if bit v 0 then t.serviceWrite c else t
    if bit v 1 then t1.fatalWrite c else t1) s).periodWrite c off data

/-- A write of a core's interrupt controller (R431): the bits of sources of another world stay as they are, and pending bits are the
resources'. -/
def State.plicWrite (c a : Nat) (data : Bytes) (s : State) : State :=
  let cell (m : List Host.Cell) (p : Byte × Nat) : List Host.Cell :=
    let x := a + p.2
    let k := s.plicMask c (x % 0x100000)
    match plicByte (x % 0x100000) with
    | .pending _ | .reserved => m
    | _ => Mem.put x ((assocD m x 0 &&& ~~~k) ||| (p.1 &&& k)) m
  { s with worlds := { s.worlds with coreRegs := data.zipIdx.foldl cell s.worlds.coreRegs } }

/-- A write of a core's machine timer (MTIMER layout): mtimecmp, or mtime, which goes on from the value written. -/
def State.timerWrite (c a : Nat) (data : Bytes) (s : State) : State :=
  let base := 0x10000000 + c * 0x100000 + 0x80000
  let cmp := ofLe ((List.range 8).map fun i => assocD s.worlds.coreRegs (base + i) 0)
  s
  |> State.onReg base 8 cmp a data (fun v t => { t with worlds := { t.worlds with coreRegs := Mem.write base (leBytes 8 v) t.worlds.coreRegs } })
  |> State.onReg (base + 0x7FF8) 8 (s.mtime c) a data
      (fun v t => { t with worlds := { t.worlds with timerSet := t.worlds.timerSet.set c (v, t.glob.uptimeMs) } })

/-- Bytes written within one row of the key SRAM (R325): the row keeps the tag it had, so that its next check tells the change (R331, R332). -/
def State.rowWrite (r off : Nat) (data : Bytes) (s : State) : State :=
  let b := (putAt (s.rowBytes r) off data).take 128
  match s.rowUse r with
  | .key k p => s.modKey k.scope k.slice k.slot fun x => x.withRow p b
  | .staged e p => s.modKeys fun k => { k with stage := k.stage.map fun x => if x = e then { x with key := x.key.withRow p b } else x }
  | .smk x => s.modSlice x.num fun y => y.withSmkRow b
  | .spare => s.modKeys fun k => { k with spareRows := Mem.write (keySramBase + 128 * r + off) data k.spareRows }

/-- Bytes written to the key SRAM. -/
def State.keyWrite (a : Nat) (data : Bytes) (s : State) : State :=
  let o := a - keySramBase
  let n := 128 - o % 128
  let s1 := s.rowWrite (o / 128) (o % 128) (data.take n)
  if (data.drop n).isEmpty then s1 else s1.rowWrite (o / 128 + 1) 0 (data.drop n)

/-- An admitted write of a master inside the device, with all it does (R6, R590): memory, fields, actions. A write of the boot ROM is dropped; of
a block whose layout the spec leaves out the effect is unknown, and the debug port's has none here (UNVERIFIED, log entry 103). -/
def State.busWrite (m : Master) (b : Blk) (a : Nat) (data : Bytes) (s : State) : State :=
  match b with
  | .sram _ => s.sramWrite a data
  | .interrupts c => s.plicWrite c a data
  | .timer c => s.timerWrite c a data
  | .watchdog c => s.watchdogAct c (a % 0x100000 - 0xF0000) data
  | .keySram => s.keyWrite a data
  | .outbound => if s.dmaOk then s.emit (.write none (Config.outboundAddr (a - 0x4000000000)) data) else s
  | .admission w => State.onAct 0x1000 4 0 (a % 0x2000) data (fun v t => if bit v 0 then t.commitWrite w else t) (s.fieldWrite m b a data)
  | .sessions ch k => s.sessionAct ch k (a % 0x400) data
  | .gate =>
    State.onAct 0x08 4 0 (a % 0x20) data (fun v t => if bit v 0 then t.callWrite (a % 0x100 / 0x20) else t) (s.fieldWrite m b a data)
  | .powerPort w => State.onAct 0x20 4 0 (a % 0x1000) data (fun v t => if bit v 0 then t.powerGo w else t) (s.fieldWrite m b a data)
  | .drawPort w => State.onAct 0x00 4 0 (a % 0x1000) data (fun v => State.drawPortWrite w (bits v 0 7) (bit v 7)) s
  | .bar0 => (s.fieldWrite m b a data).bar0Act (a - 0x40000000) data
  | .bar2 => (s.fieldWrite m b a data).ringAct ((a - 0x48000000) / 0x2000) (a % 0x2000 / 0x40) (a % 0x40) data
  | .bar4 => (s.fieldWrite m b a data).bar4Act (a - 0x44000000) data
  | .bootRom | .management | .trusted => s

/-- A session block: a write of it is a wake request, not an access to a sleeping block (R570). -/
def Blk.isSession : Blk → Bool
  | .sessions _ _ => true
  | _ => false

/-- What an admitted access of a core does: a write has its effect; a load or fetch returns what the block reads as. -/
def State.accessEffect (w : World) (p : Priv) (t : AccessType) (b : Blk) (a : Nat) (data : Bytes) (s : State) : State :=
  if t = .write then s.busWrite (.core w p) b a data
  else let (d, s1) := s.busRead b a data.length; { s1 with worlds := { s1.worlds with serowData := d } }

/-- SEROW_ACCESS (R445 to R447, R570): the access is admitted and takes effect, or faults and is logged. The model stops on an admitted access to
a block whose layout the spec leaves out (R593). A load or fetch returns as many bytes as `data` holds. -/
def execSerowAccess (core : Nat) (priv : Priv) (t : AccessType) (addr : Nat) (data : Bytes) (s : State) : Host.Outcome State Fault Refusal :=
  let w := s.coreWorld core
  if 4 ≤ core || !(s.world w).up then .next s
  else if !s.admits (.core w priv) t addr then .next (s.serowFault w priv t addr)
  else
    match blockAt addr with
    | some .trusted => .fault (.undocumentedTrustedBlock addr)
    | some .management => .fault (.undocumentedManagementBlock addr)
    | some b =>
      if s.blockOff b && !(t == .write && b.isSession) then
        .next (State.serowFault w priv t addr { s with power := { s.power with errStatus := .poweredDown, errValid := true } })
      else .next ((s.accessEffect w priv t b addr (data.take 8)).settle s)
    | none => .next (s.serowFault w priv t addr)

/-! ### The debug access port -/

/-- The low n bits of v, least significant first. -/
def lsbBits (n v : Nat) : List Bool := (List.range n).map (bit v)

/-- Bits taken as bytes, the first in bit 0, the last byte padded with zeros. -/
def packBits : Nat → List Bool → Bytes
  | 0, _ => []
  | n + 1, l => BitVec.ofNat 8 (((l.take 8).zipIdx.map fun (b, i) => b2n b * 2 ^ i).sum) :: packBits n (l.drop 8)

/-- The bits of a request before CHECK, in transmission order (R454): OP 0 STATUS, 1 READ, 2 WRITE, 3 PORT_RESET. -/
def DbgReq.bitList (op : Nat) (r : DbgReq) : List Bool :=
  false :: lsbBits 2 op ++ lsbBits 2 r.space ++ lsbBits 2 r.size ++ lsbBits 48 r.addr ++ (if op = 2 then lsbBits 64 r.data.toNat else [])

/-- The CHECK of a request's bits (R454): PRESET 11 of R230. -/
def dbgCheck (l : List Bool) : Nat := crcRun ⟨8, 0x07, 0, false, false, false⟩ 0 (packBits ((l.length + 7) / 8) l)

/-- The response (R454): ACK 0 OK, 1 WAIT, 2 DENIED, 3 POWERED_DOWN, 4 CHECK_ERROR. -/
def State.dbgAnswer (ack cause : Nat) (data : Option (BitVec 64)) (s : State) : State :=
  { s with worlds := { s.worlds with dbgAck := ack, dbgCause := cause, dbgData := data } }

/-- A response with no data after a READ carries zeros (R454). -/
def noData (op : Nat) : Option (BitVec 64) := if op = 1 then some 0 else none

/-- A request's SPACE, ADDR and SIZE are malformed (R455). -/
def DbgReq.malformed (r : DbgReq) : Bool :=
  r.space % 4 = 3 || (r.space % 4 = 1 && r.addr % 2 ^ (r.size % 4) != 0) || (r.space % 4 != 1 && r.size % 4 != 2) ||
    (r.space % 4 = 2 && r.addr % 4 != 0)

/-- A debug attempt on a region locked to the trusted world (R452): recorded, counted, one event of source DEBUG. -/
def State.debugAttempt (addr : Nat) (s : State) : State :=
  let s1 : State := { s with worlds := { s.worlds with debugAttempts := sat 16 (s.worlds.debugAttempts + 1) } }
  (s1.record 0x71 0 0 (leBytes 8 addr)).tamperEvent 28 36

/-- The hart a dmcontrol value selects (RISC-V Debug Specification, hartsello). -/
def hartSel (v : Nat) : Nat := bits v 16 10

/-- A debug-module request toward a core that may not be reached (R451, R455): CAUSE 2 or 4. The halt and resume bits of dmcontrol and a
command act on the selected hart. -/
def State.hartDenied (op : Nat) (r : DbgReq) (s : State) : Option Nat :=
  let a := r.addr % 512
  let ctl := if op = 2 ∧ a = 0x10 then r.data.toNat else (assocD s.worlds.dmRegs 0x10 0).toNat
  let acts := op = 2 ∧ ((a = 0x10 ∧ (bit r.data.toNat 31 || bit r.data.toNat 30)) ∨ a = 0x17)
  let h := hartSel ctl
  if !acts || 4 ≤ h then none
  else if s.coreWorld h = .ow then (if s.worlds.dbgOwEn then none else some 4)
  else if s.keys.lc = .production then some 2
  else none

/-- What a register of the Debug Module reads is the RISC-V Debug Specification's to say: free bytes. -/
def State.freeData (n : Nat) (s : State) : BitVec 64 × State :=
  let (b, s1) := s.freeBytes n
  (BitVec.ofNat 64 (ofLe b), s1)

/-- The performance counter a CSR number names (R434): mcycle, minstret, mhpmcounter3 to 31, and their user-mode shadows; not time. -/
def counterOf (csr : Nat) : Option Nat :=
  if ((0xB00 ≤ csr && csr ≤ 0xB1F) || (0xC00 ≤ csr && csr ≤ 0xC1F)) && csr % 0x100 != 1 then some (csr % 0x100) else none

/-- A register of a core as the Debug Module reads it: a counter of a trusted-world core holds its value (R434); the registers of the cores
are no state of this model (FREE, log entry 102). -/
def State.coreReg (h regno : Nat) (s : State) : BitVec 64 × State :=
  match counterOf regno with
  | some i =>
    if s.coreWorld h = .tw then
      let name := s.worlds.ctrHeld.getD h 0
      (if name = 0 then 0 else Config.counterAt h i name, s)
    else s.freeData 8
  | none => s.freeData 8

/-- The Access Register abstract command (RISC-V Debug Specification): a transfer from a register of the selected halted hart into data0 and
data1. A transfer into a counter of a trusted-world core is ignored (R434). -/
def State.abstractCommand (v : Nat) (s : State) : State :=
  let h := hartSel (assocD s.worlds.dmRegs 0x10 0).toNat
  if bits v 24 8 = 0 ∧ bit v 17 ∧ !bit v 16 ∧ s.worlds.halted.getLsbD h then
    let (x, s1) := s.coreReg h (bits v 0 16)
    let regs := assocSet (assocSet s1.worlds.dmRegs 4 (x.setWidth 32)) 5 ((x >>> 32).setWidth 32)
    { s1 with worlds := { s1.worlds with dmRegs := regs } }
  else s

/-- A debug-module read: the data registers, the program buffer and dmcontrol as stored (PRESUMED, log entry 102), any other register free. -/
def State.dmRead (r : DbgReq) (s : State) : BitVec 64 × State :=
  let a := r.addr % 512
  if (4 ≤ a && a ≤ 0x10) || (0x20 ≤ a && a < 0x28) then ((assocD s.worlds.dmRegs a 0).setWidth 64, s) else s.freeData 4

/-- A debug-module write (R455): the register keeps the value, dmcontrol halts or resumes the selected core, and command runs. -/
def State.dmWrite (r : DbgReq) (s : State) : State :=
  let a := r.addr % 512
  let v := r.data.toNat % 2 ^ 32
  let m := BitVec.ofNat 4 (2 ^ hartSel v)
  let halted :=
    if a != 0x10 || 4 ≤ hartSel v then s.worlds.halted
    else if bit v 31 then s.worlds.halted ||| m
    else if bit v 30 then s.worlds.halted &&& ~~~m
    else s.worlds.halted
  let s1 : State := { s with worlds := { s.worlds with dmRegs := assocSet s.worlds.dmRegs a (BitVec.ofNat 32 v), halted := halted } }
  if a = 0x17 then s1.abstractCommand v else s1

/-- A system-bus access issued (R445, R455): denied, powered down, outstanding toward host memory, or done. -/
def State.dbgFresh (op : Nat) (r : DbgReq) (s : State) : State :=
  let t : AccessType := if op = 2 then .write else .read
  let n := 2 ^ (r.size % 4)
  if !s.admits .debug t r.addr then s.dbgAnswer 2 3 (noData op)
  else
    match blockAt r.addr with
    | some b =>
      if s.blockOff b then s.dbgAnswer 3 0 (noData op)
      else if b = Blk.outbound ∧ op = 1 then
        State.dbgAnswer 1 0 (noData op) { s with worlds := { s.worlds with dbgBus := some (op, r.addr) } }
      else if op = 2 then (s.busWrite .debug b r.addr (leBytes n r.data.toNat)).dbgAnswer 0 0 none
      else let (d, s1) := s.busRead b r.addr n; s1.dbgAnswer 0 0 (some (BitVec.ofNat 64 (ofLe d)))
    | none => s.dbgAnswer 2 3 (noData op)

/-- A system-bus request (R451, R455): refused in the port toward the trusted world, answered from the access it repeats, or issued. -/
def State.dbgBusAccess (op : Nat) (r : DbgReq) (s : State) : State :=
  let toTw : Bool := match s.regionAt r.addr with
    | some (i, e) => s.regionWorld i == World.tw && (e.lock || s.keys.lc == Lc.production)
    | none => false
  if toTw then (s.debugAttempt r.addr).dbgAnswer 2 1 (noData op)
  else
    match s.worlds.dbgHeld with
    | some (o, a, ok, d) =>
      let s1 : State := { s with worlds := { s.worlds with dbgHeld := none } }
      if o != op || a != r.addr then s1.dbgFresh op r
      else if ok then s1.dbgAnswer 0 0 (if op = 1 then some d else none)
      else s1.dbgAnswer 2 3 (noData op)
    | none => s.dbgFresh op r

/-- PORT_ID and PORT_STATE (R455); every other offset reads 0. -/
def State.portReg (a : Nat) (s : State) : BitVec 64 :=
  BitVec.ofNat 64 (if a = 0 then 0x160000B0 else if a = 4 then s.keys.lc.code + b2n s.worlds.dbgOwEn * 8 + s.worlds.dbgAck * 16 else 0)

/-- A READ or WRITE request after its checks. -/
def State.dbgAccess (op : Nat) (r : DbgReq) (s : State) : State :=
  if r.space % 4 = 0 then
    match s.hartDenied op r with
    | some c => s.dbgAnswer 2 c (noData op)
    | none => if op = 2 then (s.dmWrite r).dbgAnswer 0 0 none else let (d, s1) := s.dmRead r; s1.dbgAnswer 0 0 (some d)
  else if r.space % 4 = 1 then s.dbgBusAccess op r
  else s.dbgAnswer 0 0 (if op = 1 then some (s.portReg r.addr) else none)

/-- A request checked in the order of R455, then f. -/
def State.dbgRequest (op : Nat) (r : DbgReq) (f : State → State) (s : State) : State :=
  if s.keys.lc = .retired then s.dbgAnswer 2 2 (noData op)
  else if r.check.toNat != dbgCheck (DbgReq.bitList op r) then s.dbgAnswer 4 0 (noData op)
  else if DbgReq.malformed r then s.dbgAnswer 2 5 (noData op)
  else f s

/-- WAIT while an earlier system-bus access is outstanding (R455). -/
def State.dbgWait (op : Nat) (f : State → State) (s : State) : State := if s.worlds.dbgBus.isSome then s.dbgAnswer 1 0 (noData op) else f s

/-- DBG_STATUS. -/
def execDbgStatus (r : DbgReq) (s : State) : Host.Outcome State Fault Refusal :=
  .next (s.dbgRequest 0 r (State.dbgWait 0 fun t => t.dbgAnswer 0 0 none))

/-- DBG_READ (R452, R455). -/
def execDbgRead (r : DbgReq) (s : State) : Host.Outcome State Fault Refusal :=
  .next ((s.dbgRequest 1 r (State.dbgWait 1 (State.dbgAccess 1 r))).settle s)

/-- DBG_WRITE (R452, R455). -/
def execDbgWrite (r : DbgReq) (s : State) : Host.Outcome State Fault Refusal :=
  .next ((s.dbgRequest 2 r (State.dbgWait 2 (State.dbgAccess 2 r))).settle s)

/-- PORT_RESET: the port's outstanding state is cleared; the Debug Module and the cores stay as they are. -/
def execPortReset (r : DbgReq) (s : State) : Host.Outcome State Fault Refusal :=
  .next (s.dbgRequest 3 r fun t => State.dbgAnswer 0 0 none { t with worlds := { t.worlds with dbgBus := none, dbgHeld := none, oldDbg := false } })

/-- DBG_BUS_ACCESS_COMPLETE: the outstanding access ends; its repeated request takes the result, and the port stops answering WAIT. -/
def execDbgBusAccessComplete (ok : Bool) (data : BitVec 64) (s : State) : Host.Outcome State Fault Refusal :=
  match s.worlds.dbgBus with
  | some (op, a) => .next { s with worlds := { s.worlds with dbgBus := none, dbgHeld := some (op, a, ok, data), oldDbg := false } }
  | none => .next s

/-! ### JTAG -/

/-- The JTAG instruction in force. -/
def State.setJtag (i : Nat) (s : State) : State := { s with worlds := { s.worlds with jtag := i } }

/-- EXTEST, CLAMP and HIGHZ decode as BYPASS outside BLANK and DEVELOPMENT (R453). -/
def State.jtagTest (i : Nat) (s : State) : State :=
  s.setJtag (if s.keys.lc = .blank ∨ s.keys.lc = .development then i else 0)

/-- BYPASS (R453). -/
def execBypass (s : State) : Host.Outcome State Fault Refusal := .next (s.setJtag 0)
/-- IDCODE (R453). -/
def execIdcode (s : State) : Host.Outcome State Fault Refusal := .next (s.setJtag 1)
/-- SAMPLE/PRELOAD (R453). -/
def execSamplePreload (s : State) : Host.Outcome State Fault Refusal := .next (s.setJtag 2)
/-- EXTEST (R453). -/
def execExtest (s : State) : Host.Outcome State Fault Refusal := .next (s.jtagTest 3)
/-- CLAMP (R453). -/
def execClamp (s : State) : Host.Outcome State Fault Refusal := .next (s.jtagTest 4)
/-- HIGHZ (R453). -/
def execHighz (s : State) : Host.Outcome State Fault Refusal := .next (s.jtagTest 5)

end Sys2Proof.Machine
end

