-- ==== Sys2Proof/Machine/Dispatch.lean ====
section
/-! DEFINITION. The dispatch: one arm per command, each a direct call of its meaning. -/

namespace Sys2Proof.Machine

def exec (i : Instr) (s : State) : Host.Outcome State Fault Refusal :=
  match i with
  | .registerWrite via off data => Sys2Proof.Machine.execRegisterWrite via off data s
  | .stagedCommitApply blk => Sys2Proof.Machine.execStagedCommitApply blk s
  | .hostLinkTrained speed width flit => Sys2Proof.Machine.execHostLinkTrained speed width flit s
  | .linkLoss kind => Sys2Proof.Machine.execLinkLoss kind s
  | .tlpAck count => Sys2Proof.Machine.execTlpAck count s
  | .atsInvalidate tag pasid page pages => Sys2Proof.Machine.execAtsInvalidate tag pasid page pages s
  | .atsInvalidateComplete tag => Sys2Proof.Machine.execAtsInvalidateComplete tag s
  | .dmaReadCompletion ctx part r => Sys2Proof.Machine.execDmaReadCompletion ctx part r s
  | .dmaCompletionTimeout ctx part addr => Sys2Proof.Machine.execDmaCompletionTimeout ctx part addr s
  | .barAccessRefused bar off len write => Sys2Proof.Machine.execBarAccessRefused bar off len write s
  | .hpErrStatusClear bits => Sys2Proof.Machine.execHpErrStatusClear bits s
  | .mask entry value => Sys2Proof.Machine.execMask entry value s
  | .mctpRequest t m body => Sys2Proof.Machine.execMctpRequest t m body s
  | .pldmActivateFirmware img => Sys2Proof.Machine.execPldmActivateFirmware img s
  | .spdmRequest t r => Sys2Proof.Machine.execSpdmRequest t r s
  | .sqTail slice rp value => Sys2Proof.Machine.execSqTail slice rp value s
  | .cqHead slice rp value => Sys2Proof.Machine.execCqHead slice rp value s
  | .restart slice rp => Sys2Proof.Machine.execRestart slice rp s
  | .descriptorArrival slice rp a => Sys2Proof.Machine.execDescriptorArrival slice rp a s
  | .descriptorAdmit slice rp => Sys2Proof.Machine.execDescriptorAdmit slice rp s
  | .blobUnwrap ctx blob => Sys2Proof.Machine.execBlobUnwrap ctx blob s
  | .entryIssue ctx tagOk => Sys2Proof.Machine.execEntryIssue ctx tagOk s
  | .nop ctx => Sys2Proof.Machine.execNop ctx s
  | .encrypt ctx => Sys2Proof.Machine.execEncrypt ctx s
  | .decrypt ctx => Sys2Proof.Machine.execDecrypt ctx s
  | .wrap ctx => Sys2Proof.Machine.execWrap ctx s
  | .unwrap ctx => Sys2Proof.Machine.execUnwrap ctx s
  | .digest ctx => Sys2Proof.Machine.execDigest ctx s
  | .keyedDigest ctx => Sys2Proof.Machine.execKeyedDigest ctx s
  | .crc ctx => Sys2Proof.Machine.execCrc ctx s
  | .random ctx => Sys2Proof.Machine.execRandom ctx s
  | .rsaPublic ctx => Sys2Proof.Machine.execRsaPublic ctx s
  | .rsaPrivate ctx => Sys2Proof.Machine.execRsaPrivate ctx s
  | .rsaSignPss ctx => Sys2Proof.Machine.execRsaSignPss ctx s
  | .rsaSignPkcs1 ctx => Sys2Proof.Machine.execRsaSignPkcs1 ctx s
  | .rsaVerifyPss ctx => Sys2Proof.Machine.execRsaVerifyPss ctx s
  | .rsaVerifyPkcs1 ctx => Sys2Proof.Machine.execRsaVerifyPkcs1 ctx s
  | .rsaDecryptOaep ctx => Sys2Proof.Machine.execRsaDecryptOaep ctx s
  | .rsaEncryptOaep ctx => Sys2Proof.Machine.execRsaEncryptOaep ctx s
  | .ecdsaSign ctx => Sys2Proof.Machine.execEcdsaSign ctx s
  | .ecdsaVerify ctx => Sys2Proof.Machine.execEcdsaVerify ctx s
  | .ecdh ctx => Sys2Proof.Machine.execEcdh ctx s
  | .eddsaSign ctx => Sys2Proof.Machine.execEddsaSign ctx s
  | .eddsaVerify ctx => Sys2Proof.Machine.execEddsaVerify ctx s
  | .mlkemEncaps ctx => Sys2Proof.Machine.execMlkemEncaps ctx s
  | .mlkemDecaps ctx => Sys2Proof.Machine.execMlkemDecaps ctx s
  | .mldsaSign ctx => Sys2Proof.Machine.execMldsaSign ctx s
  | .mldsaVerify ctx => Sys2Proof.Machine.execMldsaVerify ctx s
  | .modExp ctx => Sys2Proof.Machine.execModExp ctx s
  | .modMul ctx => Sys2Proof.Machine.execModMul ctx s
  | .modInv ctx => Sys2Proof.Machine.execModInv ctx s
  | .modReduce ctx => Sys2Proof.Machine.execModReduce ctx s
  | .pkComputeEnd ch elapsedNs => Sys2Proof.Machine.execPkComputeEnd ch elapsedNs s
  | .pacerRelease ch => Sys2Proof.Machine.execPacerRelease ch s
  | .paceOverrun ch => Sys2Proof.Machine.execPaceOverrun ch s
  | .pkWipeComplete ch => Sys2Proof.Machine.execPkWipeComplete ch s
  | .segmentComplete ctx => Sys2Proof.Machine.execSegmentComplete ctx s
  | .contextMove ctx => Sys2Proof.Machine.execContextMove ctx s
  | .completionRecord ctx cqFault => Sys2Proof.Machine.execCompletionRecord ctx cqFault s
  | .chainAbandonTimeout slice rp => Sys2Proof.Machine.execChainAbandonTimeout slice rp s
  | .serviceWindowEnd meas => Sys2Proof.Machine.execServiceWindowEnd meas s
  | .opMinRaise ch => Sys2Proof.Machine.execOpMinRaise ch s
  | .drainTimeout ch => Sys2Proof.Machine.execDrainTimeout ch s
  | .drainComplete ch => Sys2Proof.Machine.execDrainComplete ch s
  | .laneGroupFail f => Sys2Proof.Machine.execLaneGroupFail f s
  | .channelFence ch cause => Sys2Proof.Machine.execChannelFence ch cause s
  | .scrubComplete ch => Sys2Proof.Machine.execScrubComplete ch s
  | .selftestComplete ch katOk rateOk => Sys2Proof.Machine.execSelftestComplete ch katOk rateOk s
  | .spillHoldExpire slice rp port => Sys2Proof.Machine.execSpillHoldExpire slice rp port s
  | .spillReq port w => Sys2Proof.Machine.execSpillReq port w s
  | .spillResult port w => Sys2Proof.Machine.execSpillResult port w s
  | .spillRefuse port xid => Sys2Proof.Machine.execSpillRefuse port xid s
  | .sessionOpen ch sx ctrl => Sys2Proof.Machine.execSessionOpen ch sx ctrl s
  | .sessionAbandon ch sx => Sys2Proof.Machine.execSessionAbandon ch sx s
  | .sessionSave ch sx => Sys2Proof.Machine.execSessionSave ch sx s
  | .sessionRestore ch sx => Sys2Proof.Machine.execSessionRestore ch sx s
  | .sessionCompare ch sx => Sys2Proof.Machine.execSessionCompare ch sx s
  | .feed ch sx data => Sys2Proof.Machine.execFeed ch sx data s
  | .lastCnt ch sx n => Sys2Proof.Machine.execLastCnt ch sx n s
  | .crcValue ch sx value => Sys2Proof.Machine.execCrcValue ch sx value s
  | .sessionAbsorb ch sx => Sys2Proof.Machine.execSessionAbsorb ch sx s
  | .mbxGo m => Sys2Proof.Machine.execMbxGo m s
  | .commandReply c => Sys2Proof.Machine.execCommandReply c s
  | .devInfo c => Sys2Proof.Machine.execDevInfo c s
  | .mgrChallenge c => Sys2Proof.Machine.execMgrChallenge c s
  | .mgrOpen c => Sys2Proof.Machine.execMgrOpen c s
  | .mgrClose c => Sys2Proof.Machine.execMgrClose c s
  | .mgrCredSet c => Sys2Proof.Machine.execMgrCredSet c s
  | .devKeep c => Sys2Proof.Machine.execDevKeep c s
  | .devResume c => Sys2Proof.Machine.execDevResume c s
  | .devResumeAlarm c => Sys2Proof.Machine.execDevResumeAlarm c s
  | .sliceCreate c => Sys2Proof.Machine.execSliceCreate c s
  | .sliceModify c => Sys2Proof.Machine.execSliceModify c s
  | .sliceQuiesce c => Sys2Proof.Machine.execSliceQuiesce c s
  | .sliceQuiesceDone slice => Sys2Proof.Machine.execSliceQuiesceDone slice s
  | .sliceResume c => Sys2Proof.Machine.execSliceResume c s
  | .sliceReset c => Sys2Proof.Machine.execSliceReset c s
  | .sliceRemove c => Sys2Proof.Machine.execSliceRemove c s
  | .sliceFenceEnd slice => Sys2Proof.Machine.execSliceFenceEnd slice s
  | .sliceQuery c => Sys2Proof.Machine.execSliceQuery c s
  | .ringArm c => Sys2Proof.Machine.execRingArm c s
  | .ringDisarm c => Sys2Proof.Machine.execRingDisarm c s
  | .ringQuery c => Sys2Proof.Machine.execRingQuery c s
  | .chFence c => Sys2Proof.Machine.execChFence c s
  | .chReturn c => Sys2Proof.Machine.execChReturn c s
  | .rngReseed c => Sys2Proof.Machine.execRngReseed c s
  | .rngPersonalise c => Sys2Proof.Machine.execRngPersonalise c s
  | .rngRecover c => Sys2Proof.Machine.execRngRecover c s
  | .rngSelftest c => Sys2Proof.Machine.execRngSelftest c s
  | .rngRawCapture c => Sys2Proof.Machine.execRngRawCapture c s
  | .keyGenerate c => Sys2Proof.Machine.execKeyGenerate c s
  | .keyImportWrapped c => Sys2Proof.Machine.execKeyImportWrapped c s
  | .keyImportClear c => Sys2Proof.Machine.execKeyImportClear c s
  | .keyExportWrapped c => Sys2Proof.Machine.execKeyExportWrapped c s
  | .keyExportPublic c => Sys2Proof.Machine.execKeyExportPublic c s
  | .keySaveBlob c => Sys2Proof.Machine.execKeySaveBlob c s
  | .keyLoadBlob c => Sys2Proof.Machine.execKeyLoadBlob c s
  | .keyDerive c => Sys2Proof.Machine.execKeyDerive c s
  | .keyDelete c => Sys2Proof.Machine.execKeyDelete c s
  | .keySetPolicy c => Sys2Proof.Machine.execKeySetPolicy c s
  | .keyQuery c => Sys2Proof.Machine.execKeyQuery c s
  | .keysetGet c => Sys2Proof.Machine.execKeysetGet c s
  | .keysetSet c => Sys2Proof.Machine.execKeysetSet c s
  | .lcPersonalise c => Sys2Proof.Machine.execLcPersonalise c s
  | .lcTransition c => Sys2Proof.Machine.execLcTransition c s
  | .importAssemblyTimeout m => Sys2Proof.Machine.execImportAssemblyTimeout m s
  | .keySweep bad => Sys2Proof.Machine.execKeySweep bad s
  | .quorumChallenge c => Sys2Proof.Machine.execQuorumChallenge c s
  | .quorumApprove c => Sys2Proof.Machine.execQuorumApprove c s
  | .custodianEnrol c => Sys2Proof.Machine.execCustodianEnrol c s
  | .custodianRemove c => Sys2Proof.Machine.execCustodianRemove c s
  | .quorumSet c => Sys2Proof.Machine.execQuorumSet c s
  | .cellWindowOpen c => Sys2Proof.Machine.execCellWindowOpen c s
  | .cellWindowClose c => Sys2Proof.Machine.execCellWindowClose c s
  | .zeroise c => Sys2Proof.Machine.execZeroise c s
  | .cardInsert p => Sys2Proof.Machine.execCardInsert p s
  | .cardResponse p sw data => Sys2Proof.Machine.execCardResponse p sw data s
  | .cardTimeout p => Sys2Proof.Machine.execCardTimeout p s
  | .cardRemove p => Sys2Proof.Machine.execCardRemove p s
  | .identityGet c => Sys2Proof.Machine.execIdentityGet c s
  | .measurementsGet c => Sys2Proof.Machine.execMeasurementsGet c s
  | .bootRecordGet c => Sys2Proof.Machine.execBootRecordGet c s
  | .imagePolicySet c => Sys2Proof.Machine.execImagePolicySet c s
  | .gateVerdict g => Sys2Proof.Machine.execGateVerdict g s
  | .hostFlashAccess flash addr len op => Sys2Proof.Machine.execHostFlashAccess flash addr len op s
  | .erRead c => Sys2Proof.Machine.execErRead c s
  | .erClear c => Sys2Proof.Machine.execErClear c s
  | .tamperStatus c => Sys2Proof.Machine.execTamperStatus c s
  | .tamperConfig c => Sys2Proof.Machine.execTamperConfig c s
  | .fabStatus c => Sys2Proof.Machine.execFabStatus c s
  | .fabRoleSet c => Sys2Proof.Machine.execFabRoleSet c s
  | .dkCreate c => Sys2Proof.Machine.execDkCreate c s
  | .dkRollover c => Sys2Proof.Machine.execDkRollover c s
  | .dkStatus c => Sys2Proof.Machine.execDkStatus c s
  | .pwrDomainSet c => Sys2Proof.Machine.execPwrDomainSet c s
  | .pwrStatus c => Sys2Proof.Machine.execPwrStatus c s
  | .fwUpdate c => Sys2Proof.Machine.execFwUpdate c s
  | .mcUpdate c => Sys2Proof.Machine.execMcUpdate c s
  | .owUpdate c => Sys2Proof.Machine.execOwUpdate c s
  | .worldStatus c => Sys2Proof.Machine.execWorldStatus c s
  | .extensionCommand m => Sys2Proof.Machine.execExtensionCommand m s
  | .extensionReply m status detail body => Sys2Proof.Machine.execExtensionReply m status detail body s
  | .extensionTimeout m => Sys2Proof.Machine.execExtensionTimeout m s
  | .call g => Sys2Proof.Machine.execCall g s
  | .mcChannelUpdateStep ch image katOk oldKatOk => Sys2Proof.Machine.execMcChannelUpdateStep ch image katOk oldKatOk s
  | .imageFlashWrite kind readBackOk => Sys2Proof.Machine.execImageFlashWrite kind readBackOk s
  | .service core => Sys2Proof.Machine.execService core s
  | .fatal core => Sys2Proof.Machine.execFatal core s
  | .watchdogExpire core => Sys2Proof.Machine.execWatchdogExpire core s
  | .serowMemoryError w => Sys2Proof.Machine.execSerowMemoryError w s
  | .twRestartComplete r => Sys2Proof.Machine.execTwRestartComplete r s
  | .owRestartComplete r => Sys2Proof.Machine.execOwRestartComplete r s
  | .serowAccess core priv t addr data => Sys2Proof.Machine.execSerowAccess core priv t addr data s
  | .admCommit w => Sys2Proof.Machine.execAdmCommit w s
  | .admCommitApply w => Sys2Proof.Machine.execAdmCommitApply w s
  | .dbgStatus r => Sys2Proof.Machine.execDbgStatus r s
  | .dbgRead r => Sys2Proof.Machine.execDbgRead r s
  | .dbgWrite r => Sys2Proof.Machine.execDbgWrite r s
  | .portReset r => Sys2Proof.Machine.execPortReset r s
  | .tamperEvent src scope persists => Sys2Proof.Machine.execTamperEvent src scope persists s
  | .sourceRearm src => Sys2Proof.Machine.execSourceRearm src s
  | .throttleEnd src => Sys2Proof.Machine.execThrottleEnd src s
  | .fenceEnd src => Sys2Proof.Machine.execFenceEnd src s
  | .loopReading clean => Sys2Proof.Machine.execLoopReading clean s
  | .cellArm cell => Sys2Proof.Machine.execCellArm cell s
  | .cellLow cell => Sys2Proof.Machine.execCellLow cell s
  | .integrityFail u => Sys2Proof.Machine.execIntegrityFail u s
  | .fwNoteRequest w body => Sys2Proof.Machine.execFwNoteRequest w body s
  | .erAck value => Sys2Proof.Machine.execErAck value s
  | .pwrFailAssert droop => Sys2Proof.Machine.execPwrFailAssert droop s
  | .mainSuppliesGood b => Sys2Proof.Machine.execMainSuppliesGood b s
  | .bankWarmupEnd d => Sys2Proof.Machine.execBankWarmupEnd d s
  | .bankStartupTestPass d => Sys2Proof.Machine.execBankStartupTestPass d s
  | .bankBlock bank raw => Sys2Proof.Machine.execBankBlock bank raw s
  | .healthTestFail d count => Sys2Proof.Machine.execHealthTestFail d count s
  | .drbgInstantiate inst => Sys2Proof.Machine.execDrbgInstantiate inst s
  | .drbgReseed inst => Sys2Proof.Machine.execDrbgReseed inst s
  | .drawRequest w len pr => Sys2Proof.Machine.execDrawRequest w len pr s
  | .go w => Sys2Proof.Machine.execGo w s
  | .en port value => Sys2Proof.Machine.execEn port value s
  | .retrain port => Sys2Proof.Machine.execRetrain port s
  | .fpSignalDetect port => Sys2Proof.Machine.execFpSignalDetect port s
  | .fpTrainComplete port lanes => Sys2Proof.Machine.execFpTrainComplete port lanes s
  | .linkInit port ix => Sys2Proof.Machine.execLinkInit port ix s
  | .auth port a => Sys2Proof.Machine.execAuth port a s
  | .data port f => Sys2Proof.Machine.execData port f s
  | .ctrl port f => Sys2Proof.Machine.execCtrl port f s
  | .keyUpdate port f => Sys2Proof.Machine.execKeyUpdate port f s
  | .keyUpdateDue port => Sys2Proof.Machine.execKeyUpdateDue port s
  | .retryTimeout port => Sys2Proof.Machine.execRetryTimeout port s
  | .nakTimer port => Sys2Proof.Machine.execNakTimer port s
  | .ackTimer port => Sys2Proof.Machine.execAckTimer port s
  | .fabricWake port => Sys2Proof.Machine.execFabricWake port s
  | .hello port role dev domainId identity term applied level holder => Sys2Proof.Machine.execHello port role dev domainId identity term applied level holder s
  | .route port added withdrawn => Sys2Proof.Machine.execRoute port added withdrawn s
  | .beat port term lead commitSerial => Sys2Proof.Machine.execBeat port term lead commitSerial s
  | .beatAck port dev term => Sys2Proof.Machine.execBeatAck port dev term s
  | .voteReq port term applied => Sys2Proof.Machine.execVoteReq port term applied s
  | .vote port dev term pending => Sys2Proof.Machine.execVote port dev term pending s
  | .change port c => Sys2Proof.Machine.execChange port c s
  | .commit port term serial => Sys2Proof.Machine.execCommit port term serial s
  | .changeAck port serial devs => Sys2Proof.Machine.execChangeAck port serial devs s
  | .syncReq port src serial => Sys2Proof.Machine.execSyncReq port src serial s
  | .sync port b => Sys2Proof.Machine.execSync port b s
  | .remoteReq port w => Sys2Proof.Machine.execRemoteReq port w s
  | .remoteResult port w => Sys2Proof.Machine.execRemoteResult port w s
  | .remoteRefuse port xid => Sys2Proof.Machine.execRemoteRefuse port xid s
  | .remoteTimeout xid => Sys2Proof.Machine.execRemoteTimeout xid s
  | .record port src recs => Sys2Proof.Machine.execRecord port src recs s
  | .recordAck port seq => Sys2Proof.Machine.execRecordAck port seq s
  | .sleepEntry d => Sys2Proof.Machine.execSleepEntry d s
  | .deepEntry d => Sys2Proof.Machine.execDeepEntry d s
  | .domainWake d src => Sys2Proof.Machine.execDomainWake d src s
  | .domainExitDone d => Sys2Proof.Machine.execDomainExitDone d s
  | .wakePin inWindow => Sys2Proof.Machine.execWakePin inWindow s
  | .regulatorSettled g mv => Sys2Proof.Machine.execRegulatorSettled g mv s
  | .regulatorFault g mv => Sys2Proof.Machine.execRegulatorFault g mv s
  | .regulatorPoll g mv ma => Sys2Proof.Machine.execRegulatorPoll g mv ma s
  | .cellInRange cell => Sys2Proof.Machine.execCellInRange cell s
  | .rocChange junctionOk vhuOk railsOk => Sys2Proof.Machine.execRocChange junctionOk vhuOk railsOk s
  | .hostLinkPmChange pm => Sys2Proof.Machine.execHostLinkPmChange pm s
  | .msixTableWrite vector addr data masked => Sys2Proof.Machine.execMsixTableWrite vector addr data masked s
  | .aggHead value => Sys2Proof.Machine.execAggHead value s
  | .dbgBusAccessComplete ok data => Sys2Proof.Machine.execDbgBusAccessComplete ok data s
  | .selftestSettleTimeout ch => Sys2Proof.Machine.execSelftestSettleTimeout ch s
  | .spillPathLoss port => Sys2Proof.Machine.execSpillPathLoss port s
  | .cardSupplyShort p => Sys2Proof.Machine.execCardSupplyShort p s
  | .fpInitRetry port => Sys2Proof.Machine.execFpInitRetry port s
  | .authRetry port => Sys2Proof.Machine.execAuthRetry port s
  | .laneMarginFail port lane => Sys2Proof.Machine.execLaneMarginFail port lane s
  | .fecUncorrectableLimit port => Sys2Proof.Machine.execFecUncorrectableLimit port s
  | .regulatorRetry g mv => Sys2Proof.Machine.execRegulatorRetry g mv s
  | .linkReturn => Sys2Proof.Machine.execLinkReturn s
  | .functionLevelReset => Sys2Proof.Machine.execFunctionLevelReset s
  | .perstAssert => Sys2Proof.Machine.execPerstAssert s
  | .perstRelease => Sys2Proof.Machine.execPerstRelease s
  | .d3hotEntry => Sys2Proof.Machine.execD3hotEntry s
  | .d0Return => Sys2Proof.Machine.execD0Return s
  | .keyEpochAdvance => Sys2Proof.Machine.execKeyEpochAdvance s
  | .challengeExpire => Sys2Proof.Machine.execChallengeExpire s
  | .cellWindowExpire => Sys2Proof.Machine.execCellWindowExpire s
  | .bootRecordWrite => Sys2Proof.Machine.execBootRecordWrite s
  | .fwTrialEnd => Sys2Proof.Machine.execFwTrialEnd s
  | .bypass => Sys2Proof.Machine.execBypass s
  | .idcode => Sys2Proof.Machine.execIdcode s
  | .samplePreload => Sys2Proof.Machine.execSamplePreload s
  | .extest => Sys2Proof.Machine.execExtest s
  | .clamp => Sys2Proof.Machine.execClamp s
  | .highz => Sys2Proof.Machine.execHighz s
  | .vaultLinkFail => Sys2Proof.Machine.execVaultLinkFail s
  | .erFlushTimer => Sys2Proof.Machine.execErFlushTimer s
  | .erFlushDone => Sys2Proof.Machine.execErFlushDone s
  | .erLostRecover => Sys2Proof.Machine.execErLostRecover s
  | .pwrFailRelease => Sys2Proof.Machine.execPwrFailRelease s
  | .sysPwrgdLow => Sys2Proof.Machine.execSysPwrgdLow s
  | .ready => Sys2Proof.Machine.execReady s
  | .beatTimer => Sys2Proof.Machine.execBeatTimer s
  | .leaseExpire => Sys2Proof.Machine.execLeaseExpire s
  | .voteTimeout => Sys2Proof.Machine.execVoteTimeout s
  | .dkActivateIssue => Sys2Proof.Machine.execDkActivateIssue s
  | .partitionTimeout => Sys2Proof.Machine.execPartitionTimeout s
  | .offEntry => Sys2Proof.Machine.execOffEntry s

end Sys2Proof.Machine
end

