-- ==== Sys2Proof/WellFormed.lean ====
section
/-! DEFINITION. Which commands are well formed: every number a command carries lies in the range the spec gives it, and every byte
string has the length the spec gives it. The machine's own meaning does not rest on this: an ill-formed command does not arise and
leaves the state as it is. -/

namespace Sys2Proof

/-- Channel number (36 channels, R549). -/
def chOk (ch : Nat) : Bool := ch < 36

/-- Slice number (R87: the table holds 4,096 entries). -/
def sliceNoOk (n : Nat) : Bool := n < 4096

/-- Ring pair of a slice (R91: 1 to 64). -/
def rpOk (n : Nat) : Bool := n < 64

/-- Fabric port (R501). -/
def portOk (p : Nat) : Bool := p < 20

/-- Noise bank, NB_0 to NB_3 (R286). -/
def bankOk (b : Nat) : Bool := b < 4

/-- Generator instance: 0 for CD_0, 1 for CD_1, 2 + n for CH_n (R296). -/
def instOk (i : Nat) : Bool := i < 38

/-- Serow core, SC_0 to SC_3 (16_worlds.md). -/
def coreOk (c : Nat) : Bool := c < 4

/-- Cell, CELL_A or CELL_B (R462). -/
def cellNoOk (c : Nat) : Bool := c < 2

/-- Tamper source (R458). -/
def srcOk (n : Nat) : Bool := n < 32

/-- Card port, CP_0 or CP_1 (R398). -/
def cardOk (p : Nat) : Bool := p < 2

/-- Slot of the gate (R374). -/
def slotOk (g : Nat) : Bool := g < 8

/-- Channel group, each with its regulator (01_architecture.md). -/
def grpOk (g : Nat) : Bool := g < 4

/-- Host mailbox (R352: 4,112 of them). -/
def boxOk (m : Nat) : Bool := m < 4112

/-- Session of a channel (R234). -/
def sessionOk (n : Nat) : Bool := n < 2

/-- Power domain, one of 62 (R549). -/
def domOk (d : Nat) : Bool := d < 62

/-- Device number in the domain (R524). -/
def devOk (d : Nat) : Bool := d < 16384

/-- A value of sixteen bits. -/
def u16 (n : Nat) : Bool := n < 2 ^ 16

/-- An access of one, two, four or eight bytes (R441, R454). -/
def accessLenOk (data : Bytes) : Bool := [1, 2, 4, 8].contains data.length

/-- A write of at least one byte and at most one page, the longest the mailbox window takes (R63). -/
def writeLenOk (data : Bytes) : Bool := 1 ≤ data.length && data.length ≤ 4096

/-- Where a register write may aim: an offset in its BAR, or an address of the interconnect (the BARs of 03_host_port.md, and the map of R593). -/
def offOk (via : Via) (off : Nat) : Bool :=
  match via with
  | .serow _ _ => off < 2 ^ 48
  | _ => off < 2 ^ 36

/-- The core of a Serow access. -/
def Via.wf : Via → Bool
  | .serow core _ => coreOk core
  | _ => true

/-- A caller that exists. -/
def Caller.wf : Caller → Bool
  | .mbx n => boxOk n
  | .gate g => slotOk g
  | .card p => cardOk p

/-- A block with Staged fields that exists. -/
def StagedBlk.wf : StagedBlk → Bool
  | .dist => true
  | .port p => portOk p

/-- A host link rate, numbered from 2.5 GT/s at 1 to 128 GT/s at 7 (R57). -/
def speedOk (n : Nat) : Bool := 1 ≤ n && n ≤ 7

/-- A host link width (R57). -/
def widthOk (n : Nat) : Bool := [1, 2, 4, 8, 16].contains n

/-- A PASID of twenty bits (03_host_port.md). -/
def pasidOk (p : Option Nat) : Bool := p.all (· < 2 ^ 20)

/-- A BAR of the function (03_host_port.md: BAR0, BAR2 and BAR4). -/
def barOk (b : Nat) : Bool := [0, 2, 4].contains b

/-- A vector of the management MSI-X table (03_host_port.md: 2,048 vectors). -/
def vectorOk (v : Nat) : Bool := v < 2048

/-- An entry of the slice interrupt table (R91: 8,192 entries). -/
def intOk (n : Nat) : Bool := n < 8192

/-- What the reads of one descriptor brought: ring entries of 64 bytes (R120) and at most the 64 bytes of a blob's header (R336). -/
def Arrival.wf (a : Arrival) : Bool := a.entry.length ≤ 64 && a.ext.length ≤ 64 && a.hdr.length ≤ 64

/-- A die-to-die link that exists (R13). -/
def LaneFault.wf : LaneFault → Bool
  | .laneGroup ch => chOk ch
  | _ => true

/-- A unit with an integrity code that exists (R467). -/
def FaultUnit.wf : FaultUnit → Bool
  | .channel ch => chOk ch
  | _ => true

/-- A work unit: a ring entry of 64 bytes (R120) and a transaction number of 32 bits (R527). -/
def WorkReq.wf (w : WorkReq) : Bool := w.entry.length = 64 && w.xid < 2 ^ 32 && devOk w.origin

/-- A result unit: a status and a detail of eight bits (R527, R542). -/
def WorkResult.wf (w : WorkResult) : Bool := w.xid < 2 ^ 32 && w.status < 256 && w.detail < 256

/-- A FEED write (R236). -/
def feedOk (data : Bytes) : Bool := accessLenOk data

/-- LAST_CNT's four bits (R236). -/
def lastOk (n : Nat) : Bool := n < 16

/-- A card's status word, two bytes (R391). -/
def swOk (n : Nat) : Bool := u16 n

/-- A SHA-384 value. -/
def digestOk (d : Bytes) : Bool := d.length = 48

/-- What a measurement read: regions of at most 4 MiB and manifests of one page (R409, R411). -/
def GateRead.wf (g : GateRead) : Bool :=
  g.regions.all (fun r => r.all (·.length ≤ 0x400000)) && g.recRegions.all (fun r => r.all (·.length ≤ 0x400000)) &&
  g.manifest.all (fun m => m.length ≤ 4096) && g.recManifest.all (fun m => m.length ≤ 4096)

/-- A flash of the gate, 0 or 1 (the GATE_MODE pins of 15_boot_attestation.md). -/
def flashOk (n : Nat) : Bool := n < 2

/-- A reply of the open world: status and detail of eight bits, a body of at most one page (R354). -/
def replyOk (status detail : Nat) (body : Bytes) : Bool := status < 256 && detail < 256 && body.length ≤ 4096

/-- An address of the interconnect (R593). -/
def addrOk (a : Nat) : Bool := a < 2 ^ 48

/-- A request of the debug port: two bits of space, two of size, 48 of address (R454). -/
def DbgReq.wf (r : DbgReq) : Bool := r.space < 4 && r.size < 4 && r.addr < 2 ^ 48

/-- The scope operand of a tamper event, the channel or port its sensor sits in (R458). -/
def scopeOk (n : Nat) : Bool := n < 64

/-- A firmware note's body (R488). -/
def noteOk (body : Bytes) : Bool := body.length ≤ 40

/-- Bytes of at most one image: header, body of 4 MiB, signature block (R579). -/
def imageLenOk (b : Bytes) : Bool := b.length ≤ 256 + 0x400000 + 8192

/-- What main supplies good found: a directory of 4 KiB and what its six entries name (R578). -/
def BootInfo.wf (b : BootInfo) : Bool := b.gateMode < 4 && b.dir.length = 4096 && b.copies.length ≤ 6 && b.copies.all imageLenOk

/-- A block of 1,024 raw bits (R287). -/
def rawOk (raw : Bytes) : Bool := raw.length = 128

/-- A length written to a draw port: seven bits (R595). -/
def drawOk (n : Nat) : Bool := n < 128

/-- A LINK_INIT's parameters: a device number, at most four lanes, a credit grant for each of four virtual channels (the bring-up table after R507). -/
def PeerInit.wf (i : PeerInit) : Bool := devOk i.dev && i.width ≤ 4 && i.credits.length ≤ 4 && i.domainId.length = 16

/-- The secrets of an AUTH exchange: ECDH P-384's and two of ML-KEM-768 (R510). -/
def PeerAuth.wf (a : PeerAuth) : Bool := a.ecdh.length = 48 && a.kemOwn.length = 32 && a.kemPeer.length = 32

/-- A frame's header fields (R516). -/
def Frame.wf (f : Frame) : Bool := f.vc < 4 && f.seq < 2 ^ 16 && f.ack < 2 ^ 16 && f.units.all fun u => devOk u.dst && devOk u.src

/-- A domain identifier of sixteen bytes (R524). -/
def idOk (d : Bytes) : Bool := d.length = 16

/-- A domain change (R532): domain keys of 32 bytes, domain slots within the pool, a legal timeout. -/
def Change.wf (c : Change) : Bool :=
  match c.kind with
  | .dkNew dk d => dk.length = 32 && idOk d
  | .dkStage _ dk => dk.length = 32
  | .param l _ => l.all devOk
  | _ => true

/-- What a SYNC carries: well-formed changes, or a snapshot with a domain identifier (R540). -/
def SyncBody.wf : SyncBody → Bool
  | .changes cs => cs.all Change.wf
  | .snapshot _ _ d _ _ l _ => idOk d && l.all devOk

/-- An event record (R485). -/
def recordOk (r : Bytes) : Bool := r.length = 64

/-- A lane of a fabric port (R501). -/
def laneOk (l : Nat) : Bool := l < 4

/-- A power state of the host link, L0 to L2 (the LINK_PM field of HP_LINK_STATUS). -/
def pmOk (pm : Nat) : Bool := pm ≤ 5

/-- The commands whose numbers and byte strings the spec allows. -/
def Instr.wf : Instr → Bool
  | .registerWrite via off bytes => via.wf && writeLenOk bytes && offOk via off
  | .stagedCommitApply blk => blk.wf
  | .hostLinkTrained speed width _ => speedOk speed && widthOk width
  | .linkLoss _ => true
  | .tlpAck _ => true
  | .atsInvalidate _ pasid _ _ => pasidOk pasid
  | .atsInvalidateComplete _ => true
  | .dmaReadCompletion _ _ _ => true
  | .dmaCompletionTimeout _ _ _ => true
  | .barAccessRefused bar _ _ _ => barOk bar
  | .hpErrStatusClear _ => true
  | .mask entry _ => intOk entry
  | .mctpRequest _ _ _ => true
  | .pldmActivateFirmware img => imageLenOk img
  | .spdmRequest _ _ => true
  | .sqTail slice rp value => sliceNoOk slice && rpOk rp && u16 value
  | .cqHead slice rp value => sliceNoOk slice && rpOk rp && u16 value
  | .restart slice rp => sliceNoOk slice && rpOk rp
  | .descriptorArrival slice rp a => sliceNoOk slice && rpOk rp && a.wf
  | .descriptorAdmit slice rp => sliceNoOk slice && rpOk rp
  | .blobUnwrap _ _ => true
  | .entryIssue _ _ => true
  | .nop _ => true
  | .encrypt _ => true
  | .decrypt _ => true
  | .wrap _ => true
  | .unwrap _ => true
  | .digest _ => true
  | .keyedDigest _ => true
  | .crc _ => true
  | .random _ => true
  | .rsaPublic _ => true
  | .rsaPrivate _ => true
  | .rsaSignPss _ => true
  | .rsaSignPkcs1 _ => true
  | .rsaVerifyPss _ => true
  | .rsaVerifyPkcs1 _ => true
  | .rsaDecryptOaep _ => true
  | .rsaEncryptOaep _ => true
  | .ecdsaSign _ => true
  | .ecdsaVerify _ => true
  | .ecdh _ => true
  | .eddsaSign _ => true
  | .eddsaVerify _ => true
  | .mlkemEncaps _ => true
  | .mlkemDecaps _ => true
  | .mldsaSign _ => true
  | .mldsaVerify _ => true
  | .modExp _ => true
  | .modMul _ => true
  | .modInv _ => true
  | .modReduce _ => true
  | .pkComputeEnd ch _ => chOk ch
  | .pacerRelease ch => chOk ch
  | .paceOverrun ch => chOk ch
  | .pkWipeComplete ch => chOk ch
  | .segmentComplete _ => true
  | .contextMove _ => true
  | .completionRecord _ _ => true
  | .chainAbandonTimeout slice rp => sliceNoOk slice && rpOk rp
  | .serviceWindowEnd meas => meas.all fun m => chOk m.ch
  | .opMinRaise ch => chOk ch
  | .drainTimeout ch => chOk ch
  | .drainComplete ch => chOk ch
  | .laneGroupFail f => f.wf
  | .channelFence ch _ => chOk ch
  | .scrubComplete ch => chOk ch
  | .selftestComplete ch _ _ => chOk ch
  | .spillHoldExpire slice rp port => sliceNoOk slice && rpOk rp && portOk port
  | .spillReq port w => portOk port && w.wf
  | .spillResult port w => portOk port && w.wf
  | .spillRefuse port _ => portOk port
  | .sessionOpen ch s _ => chOk ch && sessionOk s
  | .sessionAbandon ch s => chOk ch && sessionOk s
  | .sessionSave ch s => chOk ch && sessionOk s
  | .sessionRestore ch s => chOk ch && sessionOk s
  | .sessionCompare ch s => chOk ch && sessionOk s
  | .feed ch s bytes => chOk ch && sessionOk s && feedOk bytes
  | .lastCnt ch s n => chOk ch && sessionOk s && lastOk n
  | .crcValue ch s _ => chOk ch && sessionOk s
  | .sessionAbsorb ch s => chOk ch && sessionOk s
  | .mbxGo m => boxOk m
  | .commandReply c => c.wf
  | .devInfo c => c.wf
  | .mgrChallenge c => c.wf
  | .mgrOpen c => c.wf
  | .mgrClose c => c.wf
  | .mgrCredSet c => c.wf
  | .devKeep c => c.wf
  | .devResume c => c.wf
  | .devResumeAlarm c => c.wf
  | .sliceCreate c => c.wf
  | .sliceModify c => c.wf
  | .sliceQuiesce c => c.wf
  | .sliceQuiesceDone slice => sliceNoOk slice
  | .sliceResume c => c.wf
  | .sliceReset c => c.wf
  | .sliceRemove c => c.wf
  | .sliceFenceEnd slice => sliceNoOk slice
  | .sliceQuery c => c.wf
  | .ringArm c => c.wf
  | .ringDisarm c => c.wf
  | .ringQuery c => c.wf
  | .chFence c => c.wf
  | .chReturn c => c.wf
  | .rngReseed c => c.wf
  | .rngPersonalise c => c.wf
  | .rngRecover c => c.wf
  | .rngSelftest c => c.wf
  | .rngRawCapture c => c.wf
  | .keyGenerate c => c.wf
  | .keyImportWrapped c => c.wf
  | .keyImportClear c => c.wf
  | .keyExportWrapped c => c.wf
  | .keyExportPublic c => c.wf
  | .keySaveBlob c => c.wf
  | .keyLoadBlob c => c.wf
  | .keyDerive c => c.wf
  | .keyDelete c => c.wf
  | .keySetPolicy c => c.wf
  | .keyQuery c => c.wf
  | .keysetGet c => c.wf
  | .keysetSet c => c.wf
  | .lcPersonalise c => c.wf
  | .lcTransition c => c.wf
  | .importAssemblyTimeout m => boxOk m
  | .keySweep _ => true
  | .quorumChallenge c => c.wf
  | .quorumApprove c => c.wf
  | .custodianEnrol c => c.wf
  | .custodianRemove c => c.wf
  | .quorumSet c => c.wf
  | .cellWindowOpen c => c.wf
  | .cellWindowClose c => c.wf
  | .zeroise c => c.wf
  | .cardInsert p => cardOk p
  | .cardResponse p sw _ => cardOk p && swOk sw
  | .cardTimeout p => cardOk p
  | .cardRemove p => cardOk p
  | .identityGet c => c.wf
  | .measurementsGet c => c.wf
  | .bootRecordGet c => c.wf
  | .imagePolicySet c => c.wf
  | .gateVerdict g => g.wf
  | .hostFlashAccess flash _ _ _ => flashOk flash
  | .erRead c => c.wf
  | .erClear c => c.wf
  | .tamperStatus c => c.wf
  | .tamperConfig c => c.wf
  | .fabStatus c => c.wf
  | .fabRoleSet c => c.wf
  | .dkCreate c => c.wf
  | .dkRollover c => c.wf
  | .dkStatus c => c.wf
  | .pwrDomainSet c => c.wf
  | .pwrStatus c => c.wf
  | .fwUpdate c => c.wf
  | .mcUpdate c => c.wf
  | .owUpdate c => c.wf
  | .worldStatus c => c.wf
  | .extensionCommand m => boxOk m
  | .extensionReply m status detail body => boxOk m && replyOk status detail body
  | .extensionTimeout m => boxOk m
  | .call g => slotOk g
  | .mcChannelUpdateStep ch image _ _ => chOk ch && image.length ≤ 0x8000
  | .imageFlashWrite _ _ => true
  | .service core => coreOk core
  | .fatal core => coreOk core
  | .watchdogExpire core => coreOk core
  | .serowMemoryError _ => true
  | .twRestartComplete r => digestOk r.measured && r.copies.length ≤ 6 && r.copies.all imageLenOk
  | .owRestartComplete r => digestOk r.measured && r.copies.length ≤ 6 && r.copies.all imageLenOk
  | .serowAccess core _ _ addr bytes => coreOk core && addrOk addr && accessLenOk bytes
  | .admCommit _ => true
  | .admCommitApply _ => true
  | .dbgStatus r => r.wf
  | .dbgRead r => r.wf
  | .dbgWrite r => r.wf
  | .portReset r => r.wf
  | .tamperEvent src scope _ => srcOk src && scopeOk scope
  | .sourceRearm src => srcOk src
  | .throttleEnd src => srcOk src
  | .fenceEnd src => srcOk src
  | .loopReading _ => true
  | .cellArm cell => cellNoOk cell
  | .cellLow cell => cellNoOk cell
  | .integrityFail u => u.wf
  | .fwNoteRequest _ body => noteOk body
  | .erAck _ => true
  | .pwrFailAssert _ => true
  | .mainSuppliesGood b => b.wf
  | .bankWarmupEnd d => bankOk d.bank && rawOk d.raw
  | .bankStartupTestPass d => bankOk d.bank && rawOk d.raw
  | .bankBlock bank raw => bankOk bank && rawOk raw
  | .healthTestFail d count => bankOk d.bank && rawOk d.raw && count ≤ 1024
  | .drbgInstantiate inst => instOk inst
  | .drbgReseed inst => instOk inst
  | .drawRequest _ len _ => drawOk len
  | .go _ => true
  | .en port _ => portOk port
  | .retrain port => portOk port
  | .fpSignalDetect port => portOk port
  | .fpTrainComplete port _ => portOk port
  | .linkInit port i => portOk port && i.wf
  | .auth port a => portOk port && a.wf
  | .data port f => portOk port && f.wf
  | .ctrl port f => portOk port && f.wf
  | .keyUpdate port f => portOk port && f.wf
  | .keyUpdateDue port => portOk port
  | .retryTimeout port => portOk port
  | .nakTimer port => portOk port
  | .ackTimer port => portOk port
  | .fabricWake port => portOk port
  | .hello port _ dev domainId _ _ _ _ _ => portOk port && devOk dev && idOk domainId
  | .route port added withdrawn => portOk port && added.all fun e => devOk e.1 && withdrawn.all devOk
  | .beat port _ lead _ => portOk port && devOk lead
  | .beatAck port dev _ => portOk port && devOk dev
  | .voteReq port _ _ => portOk port
  | .vote port dev _ _ => portOk port && devOk dev
  | .change port c => portOk port && c.wf
  | .commit port _ _ => portOk port
  | .changeAck port _ devs => portOk port && devs.all devOk
  | .syncReq port src _ => portOk port && devOk src
  | .sync port b => portOk port && b.wf
  | .remoteReq port w => portOk port && w.wf
  | .remoteResult port w => portOk port && w.wf
  | .remoteRefuse port _ => portOk port
  | .remoteTimeout _ => true
  | .record port src recs => portOk port && devOk src && recs.all recordOk
  | .recordAck port _ => portOk port
  | .sleepEntry d => domOk d
  | .deepEntry d => domOk d
  | .domainWake d _ => domOk d
  | .domainExitDone d => domOk d
  | .wakePin _ => true
  | .regulatorSettled g _ => grpOk g
  | .regulatorFault g _ => grpOk g
  | .regulatorPoll g _ _ => grpOk g
  | .cellInRange cell => cellNoOk cell
  | .rocChange _ _ _ => true
  | .hostLinkPmChange pm => pmOk pm
  | .msixTableWrite vector _ _ _ => vectorOk vector
  | .aggHead _ => true
  | .dbgBusAccessComplete _ _ => true
  | .selftestSettleTimeout ch => chOk ch
  | .spillPathLoss port => portOk port
  | .cardSupplyShort p => cardOk p
  | .fpInitRetry port => portOk port
  | .authRetry port => portOk port
  | .laneMarginFail port lane => portOk port && laneOk lane
  | .fecUncorrectableLimit port => portOk port
  | .regulatorRetry g _ => grpOk g
  | .linkReturn => true
  | .functionLevelReset => true
  | .perstAssert => true
  | .perstRelease => true
  | .d3hotEntry => true
  | .d0Return => true
  | .keyEpochAdvance => true
  | .challengeExpire => true
  | .cellWindowExpire => true
  | .bootRecordWrite => true
  | .fwTrialEnd => true
  | .bypass => true
  | .idcode => true
  | .samplePreload => true
  | .extest => true
  | .clamp => true
  | .highz => true
  | .vaultLinkFail => true
  | .erFlushTimer => true
  | .erFlushDone => true
  | .erLostRecover => true
  | .pwrFailRelease => true
  | .sysPwrgdLow => true
  | .ready => true
  | .beatTimer => true
  | .leaseExpire => true
  | .voteTimeout => true
  | .dkActivateIssue => true
  | .partitionTimeout => true
  | .offEntry => true

end Sys2Proof
end

