-- ==== Sys2Proof/Safety.lean ====
section
/-! DEFINITION. The terms the claims are stated in: when a caller's command packet passes every check and runs, when a descriptor's next segment
runs, and what makes a state and a step sound. -/

namespace Sys2Proof.Machine

/-! ### A command packet that runs -/

/-- The packet's quorum, seen by the checks: whether it needs one, under the parameters that decide it. -/
def State.asksQuorum (u : State) (c : Caller) (k : Cmd) (p : Packet) : Bool := k.quorum u (u.who c) (u.ruling c k p)

/-- The packet is a later part of an import, whose first part has been judged (R344). -/
def State.laterPart (u : State) (c : Caller) (k : Cmd) (p : Packet) : Bool :=
  k.parts == .multi && 0 < p.part && ((u.assembly c).isSome || u.wasDiscarded c p)

/-- The caller's packet passes every check of R362 and is the whole of its command: `q` is the packet the command runs with, `t` the state it
runs in, the rows of the keys it names checked. -/
def Ready (c : Caller) (k : Cmd) (s : State) (q : Packet) (t : State) : Prop :=
  ∃ hdr area, s.presented c = some (hdr, area) ∧ s.mayAccept c = true ∧ headerFault hdr area = none ∧
    let p := mkPacket hdr area k.data
    let u := (s.accept c).meetAssembly c p
    let w := u.who c
    let needs := u.asksQuorum c k p && !u.laterPart c k p
    let v := if needs then u.consume c else u
    p.opcode = k.op ∧ (u.boxClosed c = true → u.md.mode = .zeroised) ∧
    ((u.md.mode == .zeroised && !k.zOk && !(w == .card && k.op == 0x211)) || (u.md.alarm && k.alarmBar)) = false ∧
    k.auth u w (u.ruling c k p) = true ∧ (gateBarred k.op && isGate c) = false ∧
    (needs = true → u.quorumFault c p = none) ∧
    k.bodyFault v (u.asksQuorum c k p) (u.laterPart c k p) p = none ∧
    v.wasDiscarded c p = false ∧ k.partFault v c p = false ∧ (v.keys.lc == .blank && k.blankBar) = false ∧
    (k.parts = .multi → p.part + 1 = Nat.max 1 p.partCount) ∧
    q = (if k.parts = .multi then v.wholePacket c p else p) ∧
    (u.asksQuorum c k p = true → q.digest = v.boundDigest c) ∧
    t = (v.endAssembly c).checkReads k w q

/-- The state after a command whose effect is `u` has been answered DONE with a reply body (R355, R361, R370). -/
def answered (c : Caller) (op : Nat) (q : Packet) (obj : Nat) (body : Bytes) (s u : State) : State :=
  (u.reply c (logOf op) q .done 0 obj q.part q.partCount body).settle s

/-- The state after a command has begun to run with the effect `u` so far; its reply comes with COMMAND_REPLY or an event (R356). -/
def running (c : Caller) (q : Packet) (kind : JobKind) (body : Bytes) (obj : Nat) (s u : State) : State := (u.startJob c q kind body obj).settle s

/-- A running command whose moment has come commits at its reply (R102, R370): `q` is its packet, `t` the state it runs in again. -/
def Resumes (c : Caller) (k : Cmd) (j : Job) (s : State) (q : Packet) (t : State) : Prop :=
  s.worlds.tw.up = true ∧ s.mail.running.find? (fun j => j.caller == c) = some j ∧ j.opcode = k.op ∧
  ((j.kind = .draw ∧ s.mayRerun j = true) ∨
   (∃ m n ids b, j.kind = .channels m n ids b ∧ ids.all (fun i => (s.ctx? i).isNone) = true ∧ s.dmaOutstanding n = 0)) ∧
  (s.md.zeroised = true → k.zOk = true) ∧ (s.md.alarm = true → k.alarmBar = false) ∧
  q = j.packet k.data ∧ t = s.dropJob j

/-- The state after a running command with the effect `u` has been answered DONE. -/
def commitReply (j : Job) (q : Packet) (obj : Nat) (body : Bytes) (s u : State) : State :=
  ((u.forgetDraw j.caller).reply j.caller (logOf j.opcode) q .done 0 obj q.part q.partCount (if body.isEmpty then j.reply else body)).settle s

/-- The state after a running command has run again with the effect `u` so far and runs on, in its place among the commands that run. -/
def runningOn (j : Job) (kind : JobKind) (reply : Bytes) (s u : State) : State :=
  (u.modMail fun m =>
    { m with running := insertAt (s.earlier j).length { j with kind := kind, reply := reply, obj := 0 } m.running }).settle s

/-! ### A descriptor whose next segment runs -/

/-- Context `c` of opcode `op` holds a segment `g` whose input `data` stands in its channel, and the channel runs it. -/
def Runs (s : State) (ctx op : Nat) (c : Ctx) (g : Seg) (data : Bytes) : Prop :=
  s.ctx? ctx = some c ∧ c.desc.opcode = op ∧ s.runnable c = true ∧ c.nextRun = some (g, data)

/-- A PK_OP `op` of context `ctx` begins on channel `n` with source `src`: it is the next in its channel's queue and its inputs stand in an input
region, the public checks pass (R265, R276), the engine is free, and its draws are complete in `t`. -/
def PkBegins (s : State) (op ctx n : Nat) (src : Bytes) (t : State) : Prop :=
  ∃ c g, Runs s ctx 0x10 c g src ∧ c.home = some n ∧ c.desc.pkOp = op ∧ (s.pkHead n).map (·.id) = some c.id ∧
    ((s.ch n).regIn.any fun e => e.1 == c.id) = true ∧
    ((c.desc.shape c.pkBytes).out2In ≠ 0 → c.out2In.isSome = true) ∧ (c.pkIn src).publicCheck = none ∧
    ((s.pkStand n c src).mcChecked n).pkTurn n c = true ∧ ((s.pkStand n c src).mcChecked n).pkDrawAll ctx src 5 = (t, true)

/-! ### A sound state -/

/-- RESERVED_END is 0 before the first start-up, and no number of the second half of block 0 has then been taken; afterwards it is the end of the block
that NEXT_SEQ stands in, and from the middle of that block on the end of the block after it (R489). -/
def Recorder.reserved (r : Recorder) : Prop :=
  (r.reservedEnd = 0 ∧ r.nextSeq < 32768) ∨ r.reservedEnd = ((r.nextSeq + 32768) / 65536 + 1) * 65536

/-- What is fixed of the machine: how many channels, ports, domains, regulators, sources, banks, generators, card ports, custodians and gate
slots it has, the canonical form of its memories, the numbers reserved, and that no lifecycle
command stands half done between two commands (R312). -/
def Sound (s : State) : Prop :=
  s.chs.length = 36 ∧ s.ports.length = 20 ∧ s.power.domains.length = 62 ∧ s.power.groups.length = 4 ∧ s.tamper.sources.length = 32 ∧
  s.rng.banks.length = 4 ∧ s.rng.gens.length = 36 ∧ s.dual.cards.length = 2 ∧ s.dual.custodians.length = 16 ∧ s.mail.slots.length = 8 ∧
  Memory.wf s.worlds.sram = true ∧ Memory.wf s.worlds.coreRegs = true ∧ s.er.reserved ∧ s.keys.lcTarget = none ∧
  (∀ j ∈ s.mail.running, j.opcode ≠ 0x210 ∧ j.opcode ≠ 0x211) ∧ Memory.wf s.keys.spareRows = true

end Sys2Proof.Machine
end

