-- ==== Sys2Proof/Certificates/Slice0/Obligations.lean ====
section
/-! DEFINITION. The statements for the provers. Each `def Obligations.<Name> : Prop` says in its name and docstring which rules of spec/ it
formalises. Where a command's effect is stated, the conclusion is that exec answers a next state, and names that state. -/

open Sys2Proof Sys2Proof.Machine

/-! ### The queue, and the state after reset -/

/-- A step takes the command at the front of the queue and runs it on the state with the queue's rest. -/
def Obligations.StepRunsTheFrontCommand : Prop :=
  ∀ (c : Instr) (rest : List Instr) (s : State), step { s with pending := c :: rest } = exec c { s with pending := rest }

/-- With no command waiting the block idles (the model's choice, log entry 2), and from reset nothing runs. -/
def Obligations.EmptyQueueIdles : Prop :=
  (∀ s : State, s.pending = [] → step s = .next s) ∧ step State.reset = .next State.reset

/-! ### The host port -/

/-- Link loss, return and training, the D-states and the resets of the function (R57, R59, R75, R76, R78 to R82): what each does to the link's
state, and what it keeps.
It says where these commands complete, as conclusions on the state and operands alone: linkLoss, linkReturn, hostLinkTrained, perstAssert,
perstRelease, d3hotEntry, d0Return, functionLevelReset, hostLinkPmChange. -/
def Obligations.HostLinkCommands : Prop :=
  (∀ kind s, s.hp.dlUp = true → ∃ t, exec (.linkLoss kind) s = .next t ∧ t.hp.dlUp = false ∧ t.hp.ready = false ∧ t.hp.d3hot = false ∧
      t.hp.msix = [] ∧ (∀ v ∈ t.hp.pba, v = 3) ∧ t.hp.tx = [] ∧ t.hp.unacked = [] ∧ t.keys = s.keys ∧ t.mail = s.mail ∧ t.ints = s.ints ∧
      t.er = s.er ∧ t.worlds = { s.worlds with oldTx := 0 }) ∧
  (∀ s, s.hp.dlUp = true → s.hp.ready = false → s.hp.perst = false → ∃ t, exec .linkReturn s = .next t ∧ t.hp.ready = true ∧
      t.hp.lostMsgs = [] ∧
      t.keys = s.keys ∧ t.dist = s.dist ∧ t.chs = s.chs ∧ t.mail = s.mail) ∧
  (∀ width flit s, s.renewal.initDone = true → s.hp.perst = false → width = 16 → ∃ t, exec (.hostLinkTrained 7 width flit) s = .next t ∧
      t.hp.dlUp = true ∧ t.hp.speed = 7 ∧ t.hp.width = 16 ∧ t.hp.flit = true ∧ t.er = s.er ∧ t.md = s.md ∧ t.keys = s.keys ∧
      (s.hp.speed ≠ 7 → t.glob.irqCause.getLsbD 3 = true)) ∧
  (∀ speed width flit s, s.renewal.initDone = true → s.hp.perst = false → 1 ≤ speed → speed < 7 → width ∈ [1, 2, 4, 8, 16] →
      ∃ t, exec (.hostLinkTrained speed width flit) s = .next t ∧ t.hp.dlUp = true ∧ t.hp.speed = speed ∧ t.hp.width = width ∧
        t.md = s.md ∧ s.er.nextSeq + 1 ≤ t.er.nextSeq ∧ t.glob.irqCause.getLsbD 3 = true) ∧
  (∀ s, s.hp.perst = false → ∃ t, exec .perstAssert s = .next t ∧ t.hp.perst = true ∧ t.hp.dlUp = false ∧ t.hp.tx = [] ∧
      t.keys = s.keys ∧ (∀ x ∈ t.slices, ∀ r ∈ x.rings, r.armed = false)) ∧
  (∀ s, s.hp.perst = true → s.gate.st ≠ .hostReset → exec .perstRelease s = .next { s with hp := { s.hp with perst := false } }) ∧
  (∀ s v, s.hp.perst = true → s.gate.st = .hostReset → s.gate.verdictIn = some v →
      exec .perstRelease s = .next (State.openGate v { s with hp := { s.hp with perst := false } })) ∧
  (∀ s, s.hp.dlUp = true → s.hp.d3hot = false →
      exec .d3hotEntry s = .next (State.modDom 60 (fun x => { x with pstate := .sleep }) { s with hp := { s.hp with d3hot := true } })) ∧
  (∀ s, s.hp.d3hot = true → exec .d0Return s = .next (State.wakeNote 60 1 { s with hp := { s.hp with d3hot := false } })) ∧
  (∀ s, ∃ t, exec .functionLevelReset s = .next t ∧ (∀ x ∈ t.slices, ∀ r ∈ x.rings, r.armed = false) ∧
      (∀ e ∈ t.ints, e.2.mask = true ∧ e.2.pending = false) ∧ (∀ b ∈ t.mail.boxes, b.session = false) ∧
      (∀ c ∈ t.dist.ctxs, c.owner ≠ .slice) ∧ t.keys = s.keys ∧ t.er = s.er) ∧
  (∀ s pm, pm ≤ 5 → s.hp.dlUp = true → s.hp.d3hot = false → s.asleep 60 = false →
      exec (.hostLinkPmChange pm) s =
        .next ((s.setLinkPm pm).modDom 60 fun d => { d with pstate := linkDomain pm }))

/-- Transactions of the host port (R61, R62, R68, R70, R71, R80, R83): what an Ack covers, invalidations, read completions, the error log's
clearing, an entry's mask and a management message.
It says where these commands complete, as conclusions on the state and operands alone: tlpAck, atsInvalidate, atsInvalidateComplete,
dmaReadCompletion, dmaCompletionTimeout, hpErrStatusClear, mctpRequest. -/
def Obligations.HostTransactionCommands : Prop :=
  (∀ count s, ∃ t, exec (.tlpAck count) s = .next t ∧ t.worlds.oldTx = s.worlds.oldTx - count ∧
      t.hp = { s.hp with tx := s.hp.tx.drop count,
                         unacked := s.hp.unacked.filter fun c => !(ackedCtxs (s.hp.tx.take count)).contains c.id } ∧
      t.dist = s.dist ∧ t.er = s.er ∧ t.slices = s.slices ∧ t.keys = s.keys) ∧
  (∀ tag pasid page pages s, s.hp.dlUp = true → s.hp.atsPend.length < 32 → s.hp.atsPend.any (·.tag == tag) = false →
      ∃ t, exec (.atsInvalidate tag pasid page pages) s = .next t ∧ t.dist = s.dist ∧ t.slices = s.slices ∧
        (∀ e, e ∈ t.hp.ats ↔ e ∈ s.hp.ats ∧ ¬ ((pasid = none ∨ pasid = some e.1) ∧ page ≤ e.2 ∧ e.2 < page + pages)) ∧
        t.hp.atsPend = s.hp.atsPend ++ [⟨tag, pasid, page, pages, s.readsUnder pasid page pages⟩]) ∧
  (∀ tag e s, s.hp.atsPend.find? (·.tag == tag) = some e → e.waits.all s.readGone = true →
      exec (.atsInvalidateComplete tag) s = .next { s with hp := { s.hp with atsPend := s.hp.atsPend.filter (·.tag != tag) } }) ∧
  (∀ ctx part data c s, (s.readDone ctx part).ctx? ctx = some c → c.reads.contains part = true →
      exec (.dmaReadCompletion ctx part (.ok data)) s =
        .next (((s.readDone ctx part).modCtx ctx fun c => c.deposit part data).sendWork ctx)) ∧
  (∀ ctx part addr s, exec (.dmaReadCompletion ctx part (.poisoned addr)) s = .next ((s.readDone ctx part).dmaFail ctx part addr 1) ∧
      exec (.dmaReadCompletion ctx part (.unsupported addr)) s = .next ((s.readDone ctx part).dmaFail ctx part addr 0) ∧
      exec (.dmaReadCompletion ctx part (.aborted addr)) s = .next ((s.readDone ctx part).dmaFail ctx part addr 0) ∧
      (s.retranslates ctx part addr = false →
        exec (.dmaReadCompletion ctx part (.noTranslation addr)) s = .next ((s.readDone ctx part).dmaFail ctx part addr 0)) ∧
      (s.retranslates ctx part addr = true → exec (.dmaReadCompletion ctx part (.noTranslation addr)) s = .next s) ∧
      exec (.dmaReadCompletion ctx part (.notAdmitted addr)) s = .next ((s.readDone ctx part).dmaFail ctx part addr 0) ∧
      exec (.dmaCompletionTimeout ctx part addr) s = .next ((s.readDone ctx part).dmaFail ctx part addr 2)) ∧
  (∀ b s, s.barsUp = true → s.refusal 0 0x10008 4 true = none →
      exec (.hpErrStatusClear b) s = .next { s with hp := { s.hp with errStatus := s.hp.errStatus &&& ~~~b } }) ∧
  (∀ t m body s, t = .mctpI3c ∨ (t = .mctpVdm ∧ s.hp.dlUp = true) → m ≠ .other → s.worlds.ow.up = true →
      ∃ u, exec (.mctpRequest t m body) s = .next u ∧ u.hp.mctpReply = some .done ∧ u.dist = s.dist ∧ u.keys = s.keys ∧ u.slices = s.slices ∧
        (m = .pldmBase ∨ m = .pldmMonitor → u.hp.mctpBody = Config.pldmAnswer body s.sensorBytes)) ∧
  (∀ t eid s, t = .mctpI3c ∨ (t = .mctpVdm ∧ s.hp.dlUp = true) → s.worlds.ow.up = true → 1 ≤ eid → eid < 0xFF →
      ∃ u, exec (.mctpRequest t .control (pack [(1, 0), (1, 1), (1, 0), (1, eid)])) s = .next u ∧ u.hp.eid t = eid) ∧
  (∀ t m body s, t = .mctpI3c ∨ (t = .mctpVdm ∧ s.hp.dlUp = true) → s.worlds.ow.up = false →
      exec (.mctpRequest t m body) s = .next { s with hp := { s.hp with mctpReply := some .notReady, mctpBody := [] } })

/-- Clearing MASK of a slice interrupt entry while PENDING is 1 sends one message and clears PENDING; setting it, or clearing it with nothing
pending, sends none (R68).
It says where this command completes: mask. -/
def Obligations.MaskSendsThePendingMessage : Prop :=
  ∀ entry s, entry < Config.poolInts → s.barsUp = true → s.refusal 4 (0x3000000 + 16 * entry + 0xC) 4 true = none →
    (∀ v, exec (.mask entry v) s = .next (let t := s.modInt entry fun x => { x with mask := v, pending := x.pending && v }
                                         if v = false ∧ (s.intE entry).pending = true then
                                           t.emit (.sliceMsg entry (s.intE entry).addr (s.intE entry).msg)
                                         else t)) ∧
    (s.modInt entry fun x => { x with mask := false, pending := x.pending && false }).intE entry =
      { s.intE entry with mask := false, pending := false }

/-- Registers (R6 to R10, R65, R183, R588): a host write goes to the write path of its BAR, a commit applies every shadow at once and
returns COMMIT to 0, a refused access is logged, a write of a vector's entry sends what is pending.
It says where these commands complete, as conclusions on the state and operands alone: registerWrite, stagedCommitApply, barAccessRefused,
msixTableWrite. -/
def Obligations.RegisterCommands : Prop :=
  (∀ off data s, exec (.registerWrite .bar0 off data) s = .next (s.hostWrite 0 off data) ∧
      exec (.registerWrite .bar2 off data) s = .next (s.hostWrite 2 off data) ∧
      exec (.registerWrite .bar4 off data) s = .next (s.hostWrite 4 off data)) ∧
  (∀ core priv off data b s, core < 4 → (s.world (s.coreWorld core)).up = true → s.admits (.core (s.coreWorld core) priv) .write off = true →
      blockAt off = some b →
      exec (.registerWrite (.serow core priv) off data) s = .next (s.fieldWrite (.core (s.coreWorld core) priv) b off (data.take 8))) ∧
  (∀ s, s.dist.commitBit = true → ∃ t, exec (.stagedCommitApply .dist) s = .next t ∧ t.dist.commitBit = false ∧
      t.dist.spareHold = s.dist.spareHoldSh.getD s.dist.spareHold ∧ t.dist.spillEn = s.dist.spillEnSh.getD s.dist.spillEn ∧
      t.dist.spillAccept = s.dist.spillAcceptSh.getD s.dist.spillAccept ∧ t.dist.ports = s.dist.portsSh.getD s.dist.ports ∧
      t.dist.spareHoldSh = none ∧ t.dist.spillEnSh = none ∧ t.dist.spillAcceptSh = none ∧ t.dist.portsSh = none ∧
      t.dist.ctxs = s.dist.ctxs ∧ t.chs = s.chs ∧ t.slices = s.slices) ∧
  (∀ p s, (s.port p).commitBit = true → (s.port p).txq = [] → (s.port p).replay = [] → (s.port p).rx = [] →
      exec (.stagedCommitApply (.port p)) s = .next (s.modPort p fun x =>
        { x with iface := x.ifaceSh.getD x.iface, maxWidth := x.maxWidthSh.getD x.maxWidth, ifaceSh := none, maxWidthSh := none,
                 commitBit := false })) ∧
  (∀ bar off len write cause s, s.barsUp = true → off + len ≤ barSize bar → s.refusal bar off len write = some cause →
      exec (.barAccessRefused bar off len write) s = .next (s.refuseAccess bar off cause write)) ∧
  (∀ vector addr data masked s, vector < 2048 → s.barsUp = true → ∃ t, exec (.msixTableWrite vector addr data masked) s = .next t ∧
      t.hp.msix = assocSet s.hp.msix vector (addr % 2 ^ 64 / 4 * 4, data % 2 ^ 32, masked) ∧ t.slices = s.slices ∧ t.ints = s.ints ∧
      (masked = false → vector ∈ s.hp.pba → vector ∉ t.hp.pba ∧ (∀ v ∈ t.hp.pba, v ∈ s.hp.pba ∨ v = 3) ∧ ∃ l, (∀ o ∈ l, ∃ a d, o = .msix 3 a d) ∧
        t.hp.tx = s.hp.tx ++ l ++ [.msix vector (addr % 2 ^ 64 / 4 * 4) (data % 2 ^ 32)])) ∧
  (∀ bar off len s, s.barsUp = true → off + len ≤ barSize bar → s.refusal bar off len false = none →
      exec (.barAccessRefused bar off len false) s = .next (s.emit (.completion bar off (some (s.hostRead bar off len)))))

/-! ### Rings, descriptors and completions -/

/-- A write of SQ_TAIL (R127): accepted when the new value is below the ring size and no further ahead of the old tail than the entry before
SQ_HEAD; otherwise dropped with DB_RANGE, the old tail in force. A write equal to the old tail changes nothing but, at most, that.
It says where this command completes: sqTail. -/
def Obligations.SubmissionTailDoorbell : Prop :=
  ∀ slice rp value s r, s.barsUp = true → ringOff slice rp 0 + 4 ≤ barSize 2 → s.refusal 2 (ringOff slice rp 0) 4 true = none →
    s.doorbellOk slice rp = true → s.ring? slice rp = some r →
    ∃ t, exec (.sqTail slice rp value) s = .next t ∧
      (value < r.sqSize ∧ (value + r.sqSize - r.sqTail) % r.sqSize ≤ (r.sqHead + r.sqSize - 1 - r.sqTail + r.sqSize) % r.sqSize →
        t = s.modRing slice rp fun r => { r with sqTail := value }) ∧
      (¬ (value < r.sqSize ∧ (value + r.sqSize - r.sqTail) % r.sqSize ≤ (r.sqHead + r.sqSize - 1 - r.sqTail + r.sqSize) % r.sqSize) →
        t = s.modRing slice rp fun r => { r with dbRange := true })

/-- The other doorbells and the ring pair's own events (R128, R135, R136, R141, R142, R145, R148, R152, R153).
It says where these commands complete, as conclusions on the state and operands alone: cqHead, restart, descriptorArrival, descriptorAdmit, nop,
completionRecord, chainAbandonTimeout. -/
def Obligations.RingCommands : Prop :=
  (∀ slice rp value s r, s.barsUp = true → ringOff slice rp 0x10 + 4 ≤ barSize 2 → s.refusal 2 (ringOff slice rp 0x10) 4 true = none →
      s.doorbellOk slice rp = true → s.ring? slice rp = some r → value < r.cqSize →
      (value + r.cqSize - r.cqHead) % r.cqSize ≤ (r.cqTail + r.cqSize - r.cqHead) % r.cqSize →
      exec (.cqHead slice rp value) s = .next (s.modRing slice rp fun r => { r with cqHead := value })) ∧
  (∀ slice rp s r, s.barsUp = true → ringOff slice rp 0x28 + 4 ≤ barSize 2 → s.refusal 2 (ringOff slice rp 0x28) 4 true = none →
      s.doorbellOk slice rp = true → s.ring? slice rp = some r → r.stopped = true →
      exec (.restart slice rp) s = .next (s.modRing slice rp fun r => { r with stopped := false, stopCause := 0, fetched := none })) ∧
  (∀ slice rp a s r, s.ring? slice rp = some r → s.dmaOk = true → (s.slice slice).state ≠ .fenced → s.pasidFenced slice = false →
      a.entryFault = none → r.canFetch (Arrival.fetched a).desc.ext = true →
      let f := Arrival.fetched a
      let x := s.slice slice
      let s1 := (r.entrySpans f.desc ++ f.desc.listSpans).foldl (fun t p => t.translate x.pasid p.1 p.2) s.linkExit
      let bad := a.listFault <|> s.spansRefused f.desc.listSpans
      let hdr := a.hdrFault <|> (if hBlob f.desc.keyHandle then s.dmaRefused .read f.desc.blobAddr 64 else none)
      (s.spansRefused (r.entrySpans f.desc) = none → bad = none ∨ s.earlyChecks x r f.desc ≠ none → exec (.descriptorArrival slice rp a) s =
        .next (s1.modRing slice rp fun y => { y with fetched := some { f with addr := r.headAddr, pasid := x.pasid, listFault := bad, hdrFault := hdr } })) ∧
      (∀ addr, s.spansRefused (r.entrySpans f.desc) = none → bad = some addr → s.earlyChecks x r f.desc = none →
        exec (.descriptorArrival slice rp a) s = .next (s1.stopRing slice rp 2 addr)) ∧
      (∀ addr, s.spansRefused (r.entrySpans f.desc) = some addr → exec (.descriptorArrival slice rp a) s = .next (s1.stopRing slice rp 1 addr))) ∧
  (∀ slice rp a addr s r, s.ring? slice rp = some r → s.dmaOk = true → (s.slice slice).state ≠ .fenced → s.pasidFenced slice = false →
      a.entryFault = some addr → r.canFetch false = true →
      let d := (Arrival.fetched a).desc
      exec (.descriptorArrival slice rp a) s = .next (((r.entrySpans d ++ d.listSpans).foldl (fun t p => t.translate (s.slice slice).pasid p.1 p.2)
        s.linkExit).stopRing slice rp 1 addr)) ∧
  (∀ slice rp s r f, s.ring? slice rp = some r → r.fetched = some f → s.dmaOk = true → s.mayDecide (s.slice slice) rp r f = true →
      s.admitChecks (s.slice slice) r f = none → f.listFault = none → f.desc.opcode = 0 →
      exec (.descriptorAdmit slice rp) s = .next (s.enter (s.newCtx (s.slice slice) rp r f) f)) ∧
  (∀ slice rp s r f n t, s.ring? slice rp = some r → r.fetched = some f → s.dmaOk = true → s.mayDecide (s.slice slice) rp r f = true →
      s.admitChecks (s.slice slice) r f = none → f.listFault = none → f.desc.opcode ≠ 0 →
      s.pickHome (s.newCtx (s.slice slice) rp r f) ((s.openFor (s.slice slice) f.desc).filter fun n => !s.priorityWaits n) = some n →
      s.drr n slice (f.work rp) = some t →
      exec (.descriptorAdmit slice rp) s = .next (t.handOver n (s.newCtx (s.slice slice) rp r f) f)) ∧
  (∀ slice rp s r f addr, s.ring? slice rp = some r → r.fetched = some f → s.dmaOk = true → s.mayDecide (s.slice slice) rp r f = true →
      s.earlyChecks (s.slice slice) r f.desc = none → f.listFault = some addr →
      exec (.descriptorAdmit slice rp) s = .next (s.stopRing slice rp 2 addr)) ∧
  (∀ slice rp s r f st detail bytes result, s.ring? slice rp = some r → r.fetched = some f → s.dmaOk = true →
      s.mayDecide (s.slice slice) rp r f = true → s.admitChecks (s.slice slice) r f = some (st, detail, bytes, result) → st ≠ .dmaFault →
      f.listFault = none →
      exec (.descriptorAdmit slice rp) s = .next (s.enter { s.newCtx (s.slice slice) rp r f with
        phase := .finished, executed := false, status := st, detail := detail, bytes := bytes, result := BitVec.ofNat 64 result } f)) ∧
  (∀ ctx c s, s.ctx? ctx = some c → c.desc.opcode = 0 → c.phase = .ready → exec (.nop ctx) s = .next (s.finish ctx .done 0 0)) ∧
  (∀ ctx c r s, s.ctx? ctx = some c → c.owner = .slice → s.ring? c.slice c.rp = some r → c.phase = .finished → s.dmaOk = true →
      s.pasidFenced c.slice = false → r.stopped = false ∨ r.stopCause ≠ 3 → s.linkFirst c = true → s.dmaRefused .write (r.cqBase + 32 * r.cqTail) 32 = none →
      exec (.completionRecord ctx none) s = .next (s.writeRecord c r)) ∧
  (∀ ctx c r addr s, s.ctx? ctx = some c → c.owner = .slice → s.ring? c.slice c.rp = some r → c.phase = .finished → s.dmaOk = true →
      s.pasidFenced c.slice = false → r.stopped = false ∨ r.stopCause ≠ 3 → s.linkFirst c = true →
      exec (.completionRecord ctx (some addr)) s = .next (s.stopRing c.slice c.rp 3 addr)) ∧
  (∀ slice rp r h since s, s.ring? slice rp = some r → r.chain = some h → h.openSince = some since → r.chainOpen = true →
      (s.slice slice).state = .active → since + 1000 ≤ s.glob.uptimeMs →
      exec (.chainAbandonTimeout slice rp) s = .next (s.modRing slice rp fun r => { r with chain := r.chain.map Chain.abandon }))

/-- A completion record is written in the slot CQ_TAIL of the completion ring, under the slice's PASID, with the ring's PHASE; CQ_TAIL moves on and
PHASE turns over at the ring's end; the record stands unacknowledged until an Ack covers it (R80, R123, R141). A link in L1 wakes for it first, which
may send a message of vector 3 (R77). -/
def Obligations.CompletionRecordGoesToTheTail : Prop :=
  ∀ (c : Ctx) (r : RingPair) (s : State), ∃ w l, (∀ o ∈ w, ∃ a d, o = .msix 3 a d) ∧
    (s.writeRecord c r).hp.tx = s.hp.tx ++ w ++ .record c.id c.slice c.rp r.cqTail c.pasid (r.cqBase + 32 * r.cqTail) (c.recordBytes r.phase) :: l ∧
    c ∈ (s.writeRecord c r).hp.unacked ∧ (∀ y ∈ (s.writeRecord c r).dist.ctxs, y.id ≠ c.id)

/-! ### Distribution, channels and service -/

/-- A failed lane group fences the one channel that uses it; a failed die bridge fences the 18 channels of its die (R13).
It says where this command completes: laneGroupFail. -/
def Obligations.LaneGroupFailureFences : Prop :=
  (∀ ch s, ch < 36 → exec (.laneGroupFail (.laneGroup ch)) s = .next ((s.fence ch 2).settle s)) ∧
  (∀ s, exec (.laneGroupFail .dieA) s = .next ((s.fenceAll (List.range 18) 3).settle s)) ∧
  (∀ s, exec (.laneGroupFail .dieB) s = .next ((s.fenceAll ((List.range 18).map (· + 18)) 3).settle s)) ∧
  (∀ (n cause : Nat) (s : State), n < s.chs.length → (s.ch n).st ≠ .failed → ((s.fence n cause).ch n).st = .scrub ∧ ((s.ch n).st ≠ .scrub →
      ((s.fence n cause).ch n).creditLimit = 0)) ∧
  (∀ (n cause k : Nat) (s : State), k ≠ n → ((s.fence n cause).ch k).st = (s.ch k).st)

/-- Entries and channels (R97, R157, R160 to R164, R168, R170 to R176, R298): issue, the end of a segment, a move, the slow channel's steps, the drain,
the scrub and the self-test.
It says where these commands complete, as conclusions on the state and operands alone: entryIssue, segmentComplete, contextMove, opMinRaise,
drainTimeout, drainComplete, channelFence, selftestSettleTimeout. -/
def Obligations.ChannelCommands : Prop :=
  (∀ ctx tagOk c n s, s.ctx? ctx = some c → s.dmaOk = true → s.target c = some n → (s.dom n).pstate = .run ∨ (s.dom n).pstate = .idle →
      c.priority = true ∨ c.queued.isSome = true ∨ c.isLocal = false → exec (.entryIssue ctx tagOk) s = .next (s.issue n c tagOk)) ∧
  (∀ ctx tagOk c n t s, s.ctx? ctx = some c → s.dmaOk = true → s.target c = some n → (s.dom n).pstate = .run ∨ (s.dom n).pstate = .idle →
      c.priority = false → c.queued = none → c.isLocal = true → s.drr n c.slice c.work = some t → exec (.entryIssue ctx tagOk) s = .next (t.issue n c tagOk)) ∧
  (∀ ctx c g gs s, s.ctx? ctx = some c → c.segs = g :: gs → g.ran = true → c.phase = .issued →
      exec (.segmentComplete ctx) s = .next ((s.entryDone c g.k).modCtx ctx fun x => { x with segs := gs })) ∧
  (∀ ctx c n s, s.ctx? ctx = some c → c.home = some n → s.barred n c = true → c.desc.cut = true → c.segs = [] → 1 ≤ c.nextSeg →
      c.phase = .issued ∨ c.phase = .ready → c.desc.holdBytes = 0 →
      exec (.contextMove ctx) s = .next ((s.releaseHome c).modCtx ctx fun x => { x with home := none, phase := .ready })) ∧
  (∀ ch s, ch < 36 → (s.ch ch).st = .slow → (s.ch ch).opMinAt + 20 ≤ s.glob.uptimeMs →
      exec (.opMinRaise ch) s = .next (((s.modCh ch fun c => { c with opMinAt := s.glob.uptimeMs }).setOpMin ch
        (Nat.min 7 ((s.dom ch).opMin + 1))).settle s)) ∧
  (∀ ch s, ch < 36 → (s.ch ch).st = .slow → (s.ch ch).deferred = false → (s.ch ch).slowSince + 100 ≤ s.glob.uptimeMs →
      s.drainForbidden ch = false → exec (.drainTimeout ch) s = .next ((s.drain ch 1).settle s)) ∧
  (∀ ch s, ch < 36 → (s.ch ch).st = .slow → (s.ch ch).deferred = false → (s.ch ch).slowSince + 100 ≤ s.glob.uptimeMs →
      s.drainForbidden ch = true →
      exec (.drainTimeout ch) s = .next ((s.modCh ch fun c => { c with deferred := true }).recordChannel ch .slow .slow)) ∧
  (∀ ch s, ch < 36 → (s.ch ch).st = .draining → (∀ x ∈ s.chCtxs ch, x.phase = .finished) → (s.ch ch).pkRun = none →
      exec (.drainComplete ch) s = .next ((((s.modCh ch fun c => { c with st := .scrub }).setOpMin ch 0).recordChannel ch .draining .scrub).settle s)) ∧
  (∀ ch cause s, ch < 36 → exec (.channelFence ch cause) s = .next ((s.fence ch (causeCode cause)).settle s)) ∧
  (∀ ch s, ch < 36 → (s.ch ch).st = .selftest → (s.ch ch).test = .settle → (s.ch ch).testSince + 20 ≤ s.glob.uptimeMs →
      exec (.selftestSettleTimeout ch) s = .next ((s.failChannel ch 9).settle s))

/-- A scrub ends in SELFTEST, or in FAILED at the third fence within 24 hours (R175, R176, R469); a self-test ends in SERVICE with a new generation, SVC_RATE 1,024 and
CREDIT_LIMIT 8, or in FAILED (R175, R577). The end of a service window on main power moves the uptime on by 1 ms (the model's clock, log entry 3) and leaves the keys,
the worlds, the mailboxes, the hierarchy and the fabric ports as they were.
It says where these commands complete, as conclusions on the state and operands alone: scrubComplete, selftestComplete, serviceWindowEnd. -/
def Obligations.RepairAndServiceWindow : Prop :=
  (∀ ch s, ch < 36 → (s.ch ch).st = .scrub → 3 ≤ s.fences24 ch →
      exec (.scrubComplete ch) s = .next ((((s.modCh ch Channel.scrubbed).eraseGen (ch + 2)).failChannel ch 8).settle s)) ∧
  (∀ ch s, ch < 36 → (s.ch ch).st = .scrub → s.fences24 ch < 3 → (s.ch ch).cfHold = false → (s.ch ch).a2Hold = [] →
      exec (.scrubComplete ch) s = .next ((((((s.modCh ch Channel.scrubbed).eraseGen (ch + 2)).modCh ch fun c =>
        { c with st := .selftest, test := .none }).recordChannel ch .scrub .selftest).askTest ch).settle s)) ∧
  (∀ ch s, ch < 36 → (s.ch ch).st = .selftest → (s.ch ch).test = .run → s.genReady ch = true →
      exec (.selftestComplete ch true true) s = .next ((((s.modCh ch fun c =>
        { c with st := .service, test := .none, creditLimit := 8, entered := true, svcRate := 1024, lowWindows := 0, goodWindows := 0,
                 cfHold := false, winNominal := 0, winEntries := 0,
                 generation := if c.powerUp then c.generation else (c.generation + 1) % 2 ^ 32, powerUp := false }).modDom ch fun d =>
        { d with opMin := 0 }).recordChannel ch .selftest .service).settle s)) ∧
  (∀ ch katOk rateOk s, ch < 36 → (s.ch ch).st = .selftest → (s.ch ch).test = .run → katOk = false ∨ rateOk = false →
      exec (.selftestComplete ch katOk rateOk) s = .next ((s.failChannel ch 5).settle s)) ∧
  (∀ meas s, s.tamper.mainPower = true → ∃ t, exec (.serviceWindowEnd meas) s = .next t ∧ t.glob.uptimeMs = s.glob.uptimeMs + 1 ∧ t.keys = s.keys ∧ t.worlds = s.worlds ∧
    t.mail = s.mail ∧ t.hier = s.hier ∧ t.ports = s.ports)

/-- Spilled and remote work (R179 to R182, R542, R543): sent out, refused, taken in, timed out, lost with its path.
It says where these commands complete, as conclusions on the state and operands alone: spillHoldExpire, spillReq, spillResult, spillRefuse,
spillPathLoss, remoteReq, remoteResult, remoteRefuse, remoteTimeout. -/
def Obligations.SpillAndRemoteCommands : Prop :=
  (∀ slice rp port r f s, s.ring? slice rp = some r → r.fetched = some f → s.dist.spillEn = true → s.saturated = true →
      (s.slice slice).spillOk = true → (s.slice slice).partition = false → s.dist.ports.getLsbD port = true → (s.port port).st = .up →
      s.dmaOk = true → s.mayDecide (s.slice slice) rp r f = true → s.admitChecks (s.slice slice) r f = none →
      s.mayTravel (s.slice slice) r f.desc = true →
      exec (.spillHoldExpire slice rp port) s = .next (s.spillOut (s.newCtx (s.slice slice) rp r f) port)) ∧
  (∀ port w k t s, s.takeUnit port 0x20 = some t → t.sameKey w = some k → t.dist.spillAccept = true → t.keepMode = false →
      t.idleShared (WorkReq.toDesc w) = true →
      exec (.spillReq port w) s = .next (t.takeIn (t.foreign w (.spilledIn port w.xid w.origin) k))) ∧
  (∀ port w t s, s.takeUnit port 0x20 = some t → t.sameKey w = none →
      exec (.spillReq port w) s = .next (t.sendUnit port (.spillRefuse w.xid))) ∧
  (∀ port w c t s, s.takeUnit port 0x21 = some t → t.spilledCtx port w.xid = some c → s.dmaOk = true →
      exec (.spillResult port w) s = .next (t.takeResult c w)) ∧
  (∀ port xid c t s, s.takeUnit port 0x22 = some t → t.spilledCtx port xid = some c →
      exec (.spillRefuse port xid) s = .next (t.dropOffered fun y => y.id == c.id)) ∧
  (∀ port s, exec (.spillPathLoss port) s = .next (s.spillLost port)) ∧
  (∀ port w k t s, s.takeUnit port 0x28 = some t → t.sameKey w = some (some k) → t.keepMode = false →
      exec (.remoteReq port w) s = .next (t.takeIn (t.foreign w (.remoteIn port w.xid w.origin) (some k)))) ∧
  (∀ port w r c t s, s.takeUnit port 0x29 = some t → t.remote? w.xid = some r →
      (t.modDist fun d => { d with remotes := d.remotes.filter (·.xid != w.xid) }).ctx? r.ctx = some c → c.phase ≠ .finished → s.dmaOk = true →
      exec (.remoteResult port w) s =
        .next ((t.modDist fun d => { d with remotes := d.remotes.filter (·.xid != w.xid) }).takeResult c w)) ∧
  (∀ port xid r t s, s.takeUnit port 0x2A = some t → t.remote? xid = some r → exec (.remoteRefuse port xid) s = .next (t.remoteNext r.ctx)) ∧
  (∀ xid r s, s.remote? xid = some r → r.since + s.hier.remoteTimeoutMs ≤ s.glob.uptimeMs →
      exec (.remoteTimeout xid) s = .next (s.remoteNext r.ctx))

/-! ### Cipher, digest, check and random operations -/

/-- ENCRYPT, DECRYPT, WRAP and UNWRAP (R187 to R206): a segment is enciphered or deciphered and written, the last one ends the descriptor DONE with the bytes
it processed; one held for its tag writes nothing before the comparison; UNWRAP writes the plaintext only after the check has passed, else zeros and AUTH_FAIL.
It says where these commands complete, as conclusions on the state and operands alone: encrypt, decrypt, wrap, unwrap. -/
def Obligations.CipherOperationsComplete : Prop :=
  (∀ ctx c g data s, Runs s ctx 1 c g data → (c.needsIv && c.imported.isNone) = false → steals c.cipherJob.mode = false →
    let r := cipherRun c.cipherJob (c.sumBefore + Config.segment * g.k) (startImage c c.cipherJob g.k) data (decide (g.k + 1 = c.desc.segCount))
    let t := (s.writeDst c (Config.segment * g.k) r.1).ranSeg ctx g.k r.2
    (g.k + 1 = c.desc.segCount → c.desc.chainNext = false →
      exec (.encrypt ctx) s = .next ((t.writeOut2 c (c.encOut2 c.cipherJob r.2)).endOp c .done 0 c.desc.length 0)) ∧
    (g.k + 1 ≠ c.desc.segCount → exec (.encrypt ctx) s = .next t)) ∧
  (∀ ctx c g data s, Runs s ctx 2 c g data → c.desc.aead = false → c.desc.isHeld = false → steals c.cipherJob.mode = false →
    let r := cipherRun c.cipherJob (c.sumBefore + Config.segment * g.k) (startImage c c.cipherJob g.k) data (decide (g.k + 1 = c.desc.segCount))
    let t := (s.writeDst c (Config.segment * g.k) r.1).ranSeg ctx g.k r.2
    (g.k + 1 = c.desc.segCount → exec (.decrypt ctx) s = .next (t.endOp c .done 0 c.desc.length 0)) ∧
    (g.k + 1 ≠ c.desc.segCount → exec (.decrypt ctx) s = .next t)) ∧
  (∀ ctx c g data s, Runs s ctx 2 c g data → c.desc.aead = true → c.desc.isHeld = true → (c.desc.chainNext = true ∨ c.out2In.isSome = true) →
    g.k + 1 ≠ c.desc.segCount → ∃ t, exec (.decrypt ctx) s = .next t ∧ t.hp = s.hp) ∧
  (∀ ctx c g data s, Runs s ctx 3 c g data → c.desc.mode = 16 →
      exec (.wrap ctx) s = .next ((s.writeDst c 0 (Config.prim .keyWrap [leBytes 1 16, (c.key.map (·.material)).getD [], data.take c.desc.length]
        (c.desc.length + 8))).endOp c .done 0 c.desc.length 0)) ∧
  (∀ ctx c g data plain mli s, Runs s ctx 4 c g data → c.desc.mode = 16 →
      unwrapKey c.desc.mode ((c.key.map (·.material)).getD []) data = some (plain, mli) →
      exec (.unwrap ctx) s = .next ((s.writeDst c 0 plain).endOp c .done 0 c.desc.length 0)) ∧
  (∀ ctx c g data s, Runs s ctx 4 c g data → unwrapKey c.desc.mode ((c.key.map (·.material)).getD []) data = none →
      exec (.unwrap ctx) s = .next ((s.zeroDst c (c.desc.length - 8)).endOp c .authFail 0 c.desc.length 0))

/-- DIGEST, KEYED_DIGEST, CRC and RANDOM at their last segment (R216, R225, R226, R229 to R232, R299, R300).
It says where these commands complete, as conclusions on the state and operands alone: digest, keyedDigest, crc, random. -/
def Obligations.DigestCheckAndRandomComplete : Prop :=
  (∀ ctx c g data s, Runs s ctx 8 c g data → g.k + 1 = c.desc.segCount → c.desc.chainNext = false →
      exec (.digest ctx) s = .next (((s.absorbSeg c g.k data).writeOut2 c ((c.digestAfter g.k data).final c.digestLen)).endOp c .done 0
        c.desc.length 0)) ∧
  (∀ ctx c g data s, Runs s ctx 8 c g data → g.k + 1 ≠ c.desc.segCount → exec (.digest ctx) s = .next (s.absorbSeg c g.k data)) ∧
  (∀ ctx c g data s, Runs s ctx 9 c g data → g.k + 1 = c.desc.segCount → c.desc.chainNext = false → c.desc.verify = false →
      exec (.keyedDigest ctx) s = .next (((s.absorbSeg c g.k data).writeOut2 c
        (hmacFinal c.desc.func ((c.key.map (·.material)).getD []) (c.digestAfter g.k data))).endOp c .done 0 c.desc.length 0)) ∧
  (∀ ctx c g data s, Runs s ctx 9 c g data → g.k + 1 = c.desc.segCount → c.desc.chainNext = false → c.desc.verify = true →
      exec (.keyedDigest ctx) s = .next ((s.absorbSeg c g.k data).endOp c
        (if (hmacFinal c.desc.func ((c.key.map (·.material)).getD []) (c.digestAfter g.k data)).take c.msgAuxLen =
            padTo c.msgAuxLen c.expectedValue then .done else .verifyFail) 0 c.desc.length 0)) ∧
  (∀ ctx c g data s, Runs s ctx 10 c g data → g.k = 0 → c.desc.segCount = 1 → c.imported = none → c.desc.chainNext = false →
      bit c.desc.variant 5 = false →
      let p := crcParams c.desc.func c.desc.variant c.msgAuxLen c.msgInline
      exec (.crc ctx) s = .next (((s.ranSeg ctx 0 []).modCtx ctx fun x => { x with crcRun := BitVec.ofNat 64 (crcRun p p.init data) }).endOp c .done 0
        c.desc.length (BitVec.ofNat 64 (crcFinal p (crcRun p p.init data))))) ∧
  (∀ ctx c g t s, s.ctx? ctx = some c → c.desc.opcode = 0x18 → s.runnable c = true → c.segs.find? (fun g => !g.ran) = some g → c.iv = [] →
      g.k + 1 = c.desc.segCount → s.ctxDraw c (c.desc.segLen g.k) (bit c.desc.variant 0) = (t, true) →
      exec (.random ctx) s = .next ((((t.writeDst c (Config.segment * g.k) (((t.ctx? ctx).map (·.iv)).getD [])).ranSeg ctx g.k []).modCtx ctx fun x =>
        { x with iv := [] }).endOp c .done 0 c.desc.length 0))

/-- BLOB_UNWRAP (R332, R336): a blob that opens under its slice master key is staged and pushed to the channel of the descriptor that waits for
it, which goes on; where the read fails or the blob does not open, the descriptor ends KEY_ABSENT.
It says where this command completes: blobUnwrap. -/
def Obligations.BlobUnwrapCompletes : Prop :=
  (∀ ctx c s, s.ctx? ctx = some c → c.phase = .waitBlob → s.dmaOk = true → s.worlds.tw.up = true →
      exec (.blobUnwrap ctx none) s = .next ((s.blobCheck c 0).finish ctx .keyAbsent 0 0)) ∧
  (∀ ctx c b s, s.ctx? ctx = some c → c.phase = .waitBlob → s.dmaOk = true → s.worlds.tw.up = true →
      let u := s.blobCheck c b.length
      (u.blobRead c (some b)).bind (u.openBlobOf c) = none → exec (.blobUnwrap ctx (some b)) s = .next (u.finish ctx .keyAbsent 0 0)) ∧
  (∀ ctx c b wk k n s, s.ctx? ctx = some c → c.phase = .waitBlob → s.dmaOk = true → s.worlds.tw.up = true → c.home = some n →
      let u := s.blobCheck c b.length
      u.dmaRefused .read c.desc.blobAddr b.length = none → blobFits c.hdr b c.slice = true → fieldLe b 0xB 1 = u.keys.lc.code →
      u.smkFor (u.slice c.slice) (fieldLe b 0xA 1) = some wk → openBlob wk b = some k →
      exec (.blobUnwrap ctx (some b)) s = .next (((u.stageIn (u.stagedKey c k)).fill n c (u.stagedKey c k).key).modCtx ctx fun y =>
        { y with phase := .ready }))

/-! ### Sessions -/

/-- The session block (R228, R234 to R240): opening, feeding, the last bytes, comparison, saving, restoring, abandoning. A write wakes a channel that
sleeps; the clauses are of one awake.
It says where these commands complete, as conclusions on the state and operands alone: sessionOpen, sessionAbandon, sessionSave, sessionRestore,
sessionCompare, feed, lastCnt, crcValue, sessionAbsorb. -/
def Obligations.SessionCommands : Prop :=
  (∀ ch sn ctrl s, sessionNo ch sn = true → s.asleep ch = false → (s.ch ch).inService = true → ((s.ch ch).session sn).isOpen = false →
      (((s.ch ch).session sn).withCtrl ctrl).engineCrc = false → (((s.ch ch).session sn).withCtrl ctrl).funcOk = true →
      ∃ u : State, exec (.sessionOpen ch sn ctrl) s = .next (u.takeDigest ch (.session sn)) ∧
        (ch < s.chs.length → (u.ch ch).session sn =
          (((s.ch ch).session sn).withCtrl ctrl).opened (newDigest (((s.ch ch).session sn).withCtrl ctrl).func).image 0)) ∧
  (∀ ch sn ctrl s, sessionNo ch sn = true → s.asleep ch = false → ((s.ch ch).session sn).isOpen = true →
      exec (.sessionOpen ch sn ctrl) s = .next (s.modSession ch sn fun x => x.ended .cfgHeld)) ∧
  (∀ ch sn ctrl s, sessionNo ch sn = true → s.asleep ch = false → ((s.ch ch).session sn).isOpen = false → (s.ch ch).inService = false →
      exec (.sessionOpen ch sn ctrl) s = .next (s.modSession ch sn fun x => (x.withCtrl ctrl).ended .notReady)) ∧
  (∀ ch sn s, sessionNo ch sn = true →
      exec (.sessionAbandon ch sn) s = .next
        (((s.sessionWake ch).modSession ch sn fun x => { x.abandoned .done with error := x.error, image := x.image }).dropSessionCtx ch sn)) ∧
  (∀ ch sn s, sessionNo ch sn = true → s.asleep ch = false → ((s.ch ch).session sn).isOpen = true → ((s.ch ch).session sn).busy = false →
      exec (.sessionSave ch sn) s = .next (s.modSession ch sn fun x => { x with status := .done, image := x.saved })) ∧
  (∀ ch sn s, sessionNo ch sn = true → s.asleep ch = false → (s.ch ch).inService = true → ((s.ch ch).session sn).isOpen = false →
      ((s.ch ch).session sn).engineCrc = false → ((s.ch ch).session sn).funcOk = true → ((s.ch ch).session sn).imageOk = true →
      ∃ u : State, exec (.sessionRestore ch sn) s = .next (u.takeDigest ch (.session sn)) ∧
        (ch < s.chs.length → (u.ch ch).session sn = ((s.ch ch).session sn).opened
          (((s.ch ch).session sn).image.take (24 + stateLen ((s.ch ch).session sn).func + blockLen ((s.ch ch).session sn).func))
          (fieldLe ((s.ch ch).session sn).image 8 16))) ∧
  (∀ ch sn s, sessionNo ch sn = true → s.asleep ch = false → (s.ch ch).inService = true → ((s.ch ch).session sn).isOpen = false →
      ((s.ch ch).session sn).imageOk = false → exec (.sessionRestore ch sn) s = .next (s.modSession ch sn fun y => y.ended .descMalformed)) ∧
  (∀ ch sn s, sessionNo ch sn = true → s.asleep ch = false → 1 ≤ ((s.ch ch).session sn).cmpLen → ((s.ch ch).session sn).cmpLen ≤ 64 →
      exec (.sessionCompare ch sn) s =
        .next (s.modSession ch sn fun x => { x with status := .done, isMatch := padTo x.cmpLen x.result == padTo x.cmpLen x.cmp })) ∧
  (∀ ch sn data s, sessionNo ch sn = true → s.asleep ch = false → ((s.ch ch).session sn).isOpen = true → data.length ∈ [1, 2, 4, 8] →
      exec (.feed ch sn data) s = .next (s.modSession ch sn fun x =>
        if x.declLen < x.fed + x.waiting.length + data.length then x.ended .lengthMismatch
        else { x with waiting := x.waiting ++ data, busy := true })) ∧
  (∀ ch sn n s, sessionNo ch sn = true → s.asleep ch = false → ((s.ch ch).session sn).isOpen = true → n ≤ 8 →
      ((s.ch ch).session sn).fed + ((s.ch ch).session sn).waiting.length + n = ((s.ch ch).session sn).declLen →
      exec (.lastCnt ch sn n) s = .next ((s.modSession ch sn fun x =>
        { x.drain.absorb ((leBytes 8 x.lastData.toNat).take n) with
            result := (x.drain.absorb ((leBytes 8 x.lastData.toNat).take n)).finalResult, resultValid := true, isOpen := false, status := .done,
            context := [] }).dropSessionCtx ch sn)) ∧
  (∀ ch sn n s, sessionNo ch sn = true → s.asleep ch = false → ((s.ch ch).session sn).isOpen = true → n ≤ 8 →
      ((s.ch ch).session sn).fed + ((s.ch ch).session sn).waiting.length + n ≠ ((s.ch ch).session sn).declLen →
      exec (.lastCnt ch sn n) s = .next (s.modSession ch sn fun x => x.ended .lengthMismatch)) ∧
  (∀ ch sn v s, sessionNo ch sn = true →
      exec (.crcValue ch sn v) s = .next ((s.sessionWake ch).modSession ch sn fun x => { (if x.isOpen then x.drain else x) with crcValue := v })) ∧
  (∀ ch sn s, sessionNo ch sn = true → ((s.ch ch).session sn).isOpen = true → ((s.ch ch).session sn).waiting ≠ [] →
      exec (.sessionAbsorb ch sn) s = .next (s.modSession ch sn Session.drain)) ∧
  (∀ ch (s : State), s.asleep ch = true → s.sessionWake ch = s.channelReturn ch 4)

/-! ### Public-key operations -/

/-- Every PK_OP whose inputs stand in operand memory, pass the public checks and have their draws begins to run on its channel (R247, R257, R265, R276). A measured or
blinded operation is released when its computation ends; a paced one is computed silently and released at its release slot, or at the overrun slot, where one not
computed fences its channel; operand memory is wiped after it (R249, R257, R260, R261).
It says where these commands complete, as conclusions on the state and operands alone: rsaPublic, rsaPrivate, rsaSignPss, rsaSignPkcs1, rsaVerifyPss,
rsaVerifyPkcs1, rsaDecryptOaep, rsaEncryptOaep, ecdsaSign, ecdsaVerify, ecdh, eddsaSign, eddsaVerify, mlkemEncaps, mlkemDecaps, mldsaSign,
mldsaVerify, modExp, modMul, modInv, modReduce, pkComputeEnd, pacerRelease, paceOverrun, pkWipeComplete. -/
def Obligations.PublicKeyOperations : Prop :=
  (∀ ctx n src s t,
    (PkBegins s 0x01 ctx n src t → exec (.rsaPublic ctx) s = .next (t.pkBegin n ctx src)) ∧
    (PkBegins s 0x02 ctx n src t → exec (.rsaPrivate ctx) s = .next (t.pkBegin n ctx src)) ∧
    (PkBegins s 0x03 ctx n src t → exec (.rsaSignPss ctx) s = .next (t.pkBegin n ctx src)) ∧
    (PkBegins s 0x04 ctx n src t → exec (.rsaSignPkcs1 ctx) s = .next (t.pkBegin n ctx src)) ∧
    (PkBegins s 0x05 ctx n src t → exec (.rsaVerifyPss ctx) s = .next (t.pkBegin n ctx src)) ∧
    (PkBegins s 0x06 ctx n src t → exec (.rsaVerifyPkcs1 ctx) s = .next (t.pkBegin n ctx src)) ∧
    (PkBegins s 0x07 ctx n src t → exec (.rsaDecryptOaep ctx) s = .next (t.pkBegin n ctx src)) ∧
    (PkBegins s 0x08 ctx n src t → exec (.rsaEncryptOaep ctx) s = .next (t.pkBegin n ctx src)) ∧
    (PkBegins s 0x10 ctx n src t → exec (.ecdsaSign ctx) s = .next (t.pkBegin n ctx src)) ∧
    (PkBegins s 0x11 ctx n src t → exec (.ecdsaVerify ctx) s = .next (t.pkBegin n ctx src)) ∧
    (PkBegins s 0x12 ctx n src t → exec (.ecdh ctx) s = .next (t.pkBegin n ctx src)) ∧
    (PkBegins s 0x14 ctx n src t → exec (.eddsaSign ctx) s = .next (t.pkBegin n ctx src)) ∧
    (PkBegins s 0x15 ctx n src t → exec (.eddsaVerify ctx) s = .next (t.pkBegin n ctx src)) ∧
    (PkBegins s 0x20 ctx n src t → exec (.mlkemEncaps ctx) s = .next (t.pkBegin n ctx src)) ∧
    (PkBegins s 0x21 ctx n src t → exec (.mlkemDecaps ctx) s = .next (t.pkBegin n ctx src)) ∧
    (PkBegins s 0x22 ctx n src t → exec (.mldsaSign ctx) s = .next (t.pkBegin n ctx src)) ∧
    (PkBegins s 0x23 ctx n src t → exec (.mldsaVerify ctx) s = .next (t.pkBegin n ctx src)) ∧
    (PkBegins s 0x30 ctx n src t → exec (.modExp ctx) s = .next (t.pkBegin n ctx src)) ∧
    (PkBegins s 0x31 ctx n src t → exec (.modMul ctx) s = .next (t.pkBegin n ctx src)) ∧
    (PkBegins s 0x32 ctx n src t → exec (.modInv ctx) s = .next (t.pkBegin n ctx src)) ∧
    (PkBegins s 0x33 ctx n src t → exec (.modReduce ctx) s = .next (t.pkBegin n ctx src))) ∧
  (∀ ch ns r s, (s.ch ch).pkRun = some r → r.wiping = false → r.computed = false → r.paced = false → s.pkWithheld r = false →
      exec (.pkComputeEnd ch ns) s = .next ((s.pkRelease ch r).settle s)) ∧
  (∀ ch ns r s, (s.ch ch).pkRun = some r → r.wiping = false → r.computed = false → r.paced = true →
      exec (.pkComputeEnd ch ns) s =
        .next (s.modCh ch fun c => { c with regResult := r.out ++ r.out2, pkRun := some { r with computed := true, realNs := ns } })) ∧
  (∀ ch r s, (s.ch ch).pkRun = some r → r.wiping = false → r.paced = true → r.overrun = false → r.computed = true → s.pkWithheld r = false →
      (s.ch ch).targetChanged = false → exec (.pacerRelease ch) s = .next (((s.countPaced ch 1 r).partEnd ch r).settle s)) ∧
  (∀ ch r s, (s.ch ch).pkRun = some r → r.wiping = false → r.paced = true → r.overrun = false → r.computed = false → s.pkWithheld r = false →
      exec (.pacerRelease ch) s = .next (s.modCh ch fun c => { c with pkRun := some { r with overrun := true } })) ∧
  (∀ ch r c s, (s.ch ch).pkRun = some r → s.ctx? r.ctx = some c → r.wiping = false → r.paced = true → r.overrun = true → r.computed = true →
      s.pkWithheld r = false →
      let v := overrunSpeed r.b (quantumPs (c.desc.pkClass c.pkBytes)) r.realNs
      exec (.paceOverrun ch) s = .next ((((((s.modCh ch fun x =>
        { x with overruns := sat 16 (x.overruns + 1), speedCap := some (Nat.min v ((x.speedCap).getD v)) }).modCtx r.ctx fun x => { x with paceGrew := true
        }).recordPace ch c.desc.pkOp r.b r.p true).countPaced ch 2 r).partEnd ch r).settle s)) ∧
  (∀ ch r c s, (s.ch ch).pkRun = some r → s.ctx? r.ctx = some c → r.wiping = false → r.paced = true → r.overrun = true → r.computed = false →
      s.pkWithheld r = false → exec (.paceOverrun ch) s = .next ((s.fence ch 4).settle s)) ∧
  (∀ ch r s, (s.ch ch).pkRun = some r → r.wiping = true →
      exec (.pkWipeComplete ch) s = .next ((s.modCh ch fun c => c.pkWiped r.ctx).pkFetch ch))

/-! ### Random number generation -/

/-- Banks and instances (R287, R288, R290 to R297, R302): the start-up test, a block into the buffer, a failed test in service, the seeding of an
instance and its reseed.
It says where these commands complete, as conclusions on the state and operands alone: bankWarmupEnd, bankStartupTestPass, bankBlock, healthTestFail,
drbgInstantiate, drbgReseed. -/
def Obligations.EntropyCommands : Prop :=
  (∀ bank raw s, (s.bank bank).st = .warmup → (s.bank bank).rctFails? ((rawBits raw).take warmupBits) = false →
      exec (.bankWarmupEnd ⟨bank, raw⟩) s = .next (s.modBank bank fun x => { x.sampled ((rawBits raw).take warmupBits) with st := .test })) ∧
  (∀ bank raw s, (s.bank bank).st = .test → (s.bank bank).healthy (rawBits raw) = true →
      exec (.bankStartupTestPass ⟨bank, raw⟩) s =
        .next ((s.modBank bank fun x => { x.sampled (rawBits raw) with st := .service, retried := false }).checkService.nextSelftest)) ∧
  (∀ bank raw s, (s.bank bank).st = .service → (s.bank bank).healthy (rawBits raw) = true → s.rng.buffer.length < Config.entropyBlocks →
      exec (.bankBlock bank raw) s = .next ((s.modBank bank fun x => { x.sampled (rawBits raw) with blocks := (x.blocks + 1) % 2 ^ 32 }).modRng
        fun r => { r with buffer := r.buffer ++ [conditioned raw] })) ∧
  (∀ bank raw s, (s.bank bank).st = .service → (s.bank bank).healthy (rawBits raw) = true → Config.entropyBlocks ≤ s.rng.buffer.length →
      ∃ t, exec (.bankBlock bank raw) s = .next t ∧ t.rng.buffer = s.rng.buffer) ∧
  (∀ bank raw s, (s.bank bank).st = .capture → s.rng.captureLeft ≠ 0 → s.dmaOk = true →
      exec (.bankBlock bank raw) s = .next (s.captureBlock raw)) ∧
  (∀ bank raw count s, (s.bank bank).st = .service → (s.bank bank).healthy ((rawBits raw).take count) = false → s.seeding = false →
      s.rng.selftest = [] → s.mail.running = [] →
      let l := (rawBits raw).take count
      let fails := ((s.bank bank).fails.filter fun t => s.glob.uptimeMs < t + 1000) ++ [s.glob.uptimeMs]
      let t := ((s.modBank bank fun x => x.counted ((s.bank bank).rctFails? l) (aptFails? l)).modBank bank fun x => { x with fails := fails }).recordRng
        bank 1
      (3 ≤ fails.length → exec (.healthTestFail ⟨bank, raw⟩ count) s = .next ((t.fatalRng bank).settle s)) ∧
      (fails.length < 3 → exec (.healthTestFail ⟨bank, raw⟩ count) s = .next ((t.restartBank bank).settle s))) ∧
  (∀ inst b1 b2 rest s, s.rng.buffer = b1 :: b2 :: rest → s.nextSeed = some inst → inst ≠ 0 → s.wantsReseed 0 = false → s.keys.root.isSome = true →
      exec (.drbgInstantiate inst) s = .next (((s.modRng fun r => { r with buffer := rest, due := r.due.filter (· != inst) }).modGen inst fun g =>
        { g with st := .seeded, seed := Config.prim .drbgSeed [b1, b2.take 16, s.personalString inst] 48, calls := 0, reseeds := 0,
                 returned := false, prPending := false, interval := s.rng.reseedLog2 }).serve inst true).ranDry) ∧
  (∀ inst b rest s, s.rng.buffer = b :: rest → s.reseedTurn inst = true → s.keys.root.isSome = true →
      exec (.drbgReseed inst) s = .next (State.reseedWith inst b (s.modRng fun r => { r with buffer := rest })).ranDry)

/-- A draw port (R595): LEN out of 1 to 64 gives DESC_MALFORMED at once; else one generate call's output, or BUSY while it waits. The packet commands of the random
number generation (R291, R293, R297, R303, R307, R308): RNG_PERSONALISE at once, the others run until their reply.
It says where these commands complete, as conclusions on the state and operands alone: drawRequest, rngPersonalise, rngReseed, rngRecover,
rngSelftest, rngRawCapture. -/
def Obligations.DrawPortAndEntropyPackets : Prop :=
  (∀ w len pr s, (s.world w).up = true → (s.world w).drawBusy = false →
    let s0 := s.modWorld w fun x => { x with drawLen := len % 128, drawValid := false, drawData := zeros 64 }
    (len % 128 = 0 ∨ 64 < len % 128 → exec (.drawRequest w len pr) s = .next (s0.portDone w 0 .descMalformed [])) ∧
    (∀ b t, 1 ≤ len % 128 → len % 128 ≤ 64 → s0.draw (portInst w) (len % 128) pr (.port w (len % 128) pr) = (.bytes b, t) →
      exec (.drawRequest w len pr) s = .next (t.portDone w (len % 128) .done b)) ∧
    (∀ t, 1 ≤ len % 128 → len % 128 ≤ 64 → s0.draw (portInst w) (len % 128) pr (.port w (len % 128) pr) = (.waits, t) →
      exec (.drawRequest w len pr) s = .next (t.modWorld w fun x => { x with drawBusy := true }))) ∧
  (∀ c s p t, Ready c rngPersonaliseCmd s p t → exec (.rngPersonalise c) s =
      .next (answered c 0x119 p 0 [] s (t.modRng fun r => { r with personal := p.str personaliseFlds 0 }))) ∧
  (∀ c s p t, Ready c rngReseedCmd s p t → t.rng.source ≠ .failed →
      let l := (List.range 38).filter fun i => bit (p.int reseedFlds 0) i && (t.gen i).st != .unseeded && (t.gen i).st != .failed
      exec (.rngReseed c) s = .next (running c p (.reseed ((l.map (2 ^ ·)).sum)) [] 0 s (t.each l State.makeDue))) ∧
  (∀ c s p t, Ready c rngRecoverCmd s p t → t.jobOn (conflicts 0x11A) 0 = false → exec (.rngRecover c) s =
      .next (running c p .recover [] 0 s (t.modRng fun r =>
        { r with banks := r.banks.map fun b => if b.usable then b else { b with st := .off, retried := false }, selftest := [] }).recovery)) ∧
  (∀ c s p t, Ready c rngSelftestCmd s p t → t.jobOn (conflicts 0x11B) 0 = false → t.rng.source ≠ .failed → exec (.rngSelftest c) s =
      .next (running c p .selftest [] 0 s (t.testGens.modRng fun r =>
        { r with selftest := [0, 1, 2, 3].filter fun b => (t.bank b).st == .service }).nextSelftest)) ∧
  (∀ c s p t, Ready c rngRawCaptureCmd s p t → t.jobOn (conflicts 0x11C) 0 = false → exec (.rngRawCapture c) s =
      .next (running c p .capture [] 0 s ((t.modBank (p.int captureFlds 0) fun x =>
        { x with st := .capture, captured := if x.st = .capture then x.captured else x.st }).modRng fun r =>
        { r with captureBank := p.int captureFlds 0, captureLeft := p.int captureFlds 1, captureAddr := p.int captureFlds 2 })))

/-! ### Key custody -/

/-- Generation, import and derivation of keys (R326 to R346): what the command stores, and the handle it answers.
It says where these commands complete, as conclusions on the state and operands alone: keyGenerate, commandReply, keyImportWrapped, keyImportClear,
keyDerive, keyLoadBlob. -/
def Obligations.KeyMakingCommands : Prop :=
  (∀ c s p t, Ready c keyGenerateCmd s p t →
      let f := p.int generateFlds
      let slice := if f 0 = 2 then f 7 else (t.who c).sliceNo
      publicClass (f 1) = false → classLen (f 1) (f 2) (f 3) = true → usageOk (f 1) (f 0) (f 4) (f 5) = true →
      (t.freeRun (f 0) slice (rowsFor (f 3)) (f 1 = 4 && rowsFor (f 3) = 2)).isSome = true → t.rowsAllowed (f 0) slice (rowsFor (f 3)) = true →
      t.rng.served.find? (·.1 == c) = none → (t.gen 0).st = .seeded ∨ (t.gen 0).st = .stretched → (t.gen 0).waiting.length < Config.waitList →
      exec (.keyGenerate c) s = .next (running c p .draw [] 0 s (t.modGen 0 fun g => { g with prPending := true, waiting := g.waiting ++
        [.cmd c (drawLen (f 1) (f 2) (f 3)) true] }))) ∧
  (∀ c j s p t b u h body v, Resumes c keyGenerateCmd j s p t →
      let f := p.int generateFlds
      let slice := if f 0 = 2 then f 7 else (t.who j.caller).sliceNo
      publicClass (f 1) = false → f 1 ≠ 2 → f 1 ≠ 4 → classLen (f 1) (f 2) (f 3) = true → usageOk (f 1) (f 0) (f 4) (f 5) = true →
      (t.freeRun (f 0) slice (rowsFor (f 3)) false).isSome = true → t.rowsAllowed (f 0) slice (rowsFor (f 3)) = true →
      t.cmdDraw j.caller (drawLen (f 1) (f 2) (f 3)) true 0 = .inl (b, u) →
      (u.rsaEngine (f 1)).install
        { scope := f 0, slice := slice, cls := f 1, param := f 2, usage := f 4, modes := f 5, any := f 6 == 1, keyId := f 8, origin := 0,
          material := generated (f 1) (f 2) (f 3) b } = .done .done 0 body h v →
      exec (.commandReply c) s = .next (commitReply j p h body s v)) ∧
  (∀ c s p t k b mli, Ready c keyImportWrappedCmd s p t → p.int importFlds 1 = 0 → t.kek (t.who c) (p.int importFlds 0) 13 false = .inr k →
      openPackage k.material p.data = some (b, mli) → 40 ≤ mli → mli = 40 + bits (fieldLe b 0 4) 16 14 →
      exec (.keyImportWrapped c) s = .next ((State.conclude c .command p ((t.openScope (t.who c).makes (t.who c).sliceNo).2.make
        (packageKey b mli (p.int importFlds 2) (p.int importFlds 3) (t.who c).makes (t.openScope (t.who c).makes (t.who c).sliceNo).1.1
          (t.openScope (t.who c).makes (t.who c).sliceNo).1.2))).settle s)) ∧
  (∀ c s p t, Ready c keyImportClearCmd s p t → p.attrKey.len = p.data.length →
      exec (.keyImportClear c) s = .next ((State.conclude c .command p (t.make
        { scope := p.attrKey.scope, slice := if p.attrKey.scope = 2 then p.attrKey.slice else (t.who c).sliceNo, cls := p.attrKey.cls,
          param := p.attrKey.param, usage := p.attrKey.usage.toNat, modes := p.attrKey.modes.toNat, any := p.attrKey.scope == 2 && p.attrKey.anySlice,
          keyId := p.attrKey.keyId, origin := 1, material := p.data })).settle s)) ∧
  (∀ c s p t k label info z, Ready c keyDeriveCmd s p t → t.namedHere (p.int deriveFlds 0) false = .inr k → k.isBase = true →
      p.int deriveFlds 1 ∈ [1, 2, 3, 4, 15] → classLen (p.int deriveFlds 1) (p.int deriveFlds 2) (p.int deriveFlds 3) = true →
      labelled (p.data.drop k.peerLen) = some (label, info) → k.baseSecret (sub p.data 0 k.peerLen) = .inr z →
      exec (.keyDerive c) s = .next ((State.conclude c .command p ((t.openScope k.scope k.slice).2.make
        { scope := k.scope, slice := (t.openScope k.scope k.slice).1.1, cls := p.int deriveFlds 1, param := p.int deriveFlds 2,
          usage := p.int deriveFlds 4, modes := p.int deriveFlds 5, any := (t.openScope k.scope k.slice).1.2, keyId := p.int deriveFlds 6, origin := 3,
          material := kdfWith z label info (if p.int deriveFlds 1 = 4 then funcLen (p.int deriveFlds 2) else p.int deriveFlds 3) })).settle s)) ∧
  (∀ c s p t k, Ready c keyLoadBlobCmd s p t → p.data.length = 104 + bits (fieldLe p.data 4 4) 0 14 →
      fieldLe p.data 0xC 4 = bits (fieldLe p.data 4 4) 0 14 + 40 → t.openFor? (t.who c).makes (t.who c).sliceNo p.data = some k →
      exec (.keyLoadBlob c) s = .next ((State.conclude c .command p (t.install
        { scope := (t.who c).makes, slice := if (t.who c).makes = 2 then k.slice else (t.who c).sliceNo, cls := k.cls, param := k.param,
          usage := k.usage.toNat, modes := k.modes.toNat, any := k.anySlice, keyId := k.keyId, origin := 4, material := k.material })).settle s))

/-- Exports and queries of keys answer without changing any key (R341 to R345, R350).
It says where these commands complete, as conclusions on the state and operands alone: keyExportWrapped, keyExportPublic, keySaveBlob, keyQuery,
keysetGet. -/
def Obligations.KeyReadingCommands : Prop :=
  (∀ c s p t k e, Ready c keyExportWrappedCmd s p t → t.namedHere (p.int exportFlds 0) false = .inr k →
      t.kek (t.who c) (p.int exportFlds 1) 12 false = .inr e → k.usage.getLsbD 14 = true →
      exec (.keyExportWrapped c) s = .next ((State.conclude c .none p (exportPart (Config.prim .keyWrap
        [leBytes 1 17, e.material, k.attrs ++ k.material] (((k.attrs ++ k.material).length + 7) / 8 * 8 + 8)) p (p.int exportFlds 0) t)).settle s)) ∧
  (∀ c s p t k b, Ready c keyExportPublicCmd s p t → t.namedHere (p.int keyFlds 0) false = .inr k → k.public? = some b →
      exec (.keyExportPublic c) s = .next ((State.conclude c .none p (exportPart b p (p.int keyFlds 0) t)).settle s)) ∧
  (∀ c s p t k wk iv u, Ready c keySaveBlobCmd s p t → p.part = 0 → t.namedHere (p.int keyFlds 0) false = .inr k → k.usage.getLsbD 15 = true →
      t.wrapKey k.scope k.slice t.dkVersion = some wk → t.cmdDraw c 12 false (p.int keyFlds 0) = .inl (iv, u) →
      (sealBlob wk iv u.dkVersion u.keys.lc.code k).length ≤ partBytes →
      exec (.keySaveBlob c) s = .next ((State.conclude c .none p (exportPart (sealBlob wk iv u.dkVersion u.keys.lc.code k) p (p.int keyFlds 0) u)).settle s)) ∧
  (∀ c s p t k, Ready c keyQueryCmd s p t → t.named (p.int keyFlds 0) true false = .inr k →
      exec (.keyQuery c) s = .next (answered c 0x20A p (p.int keyFlds 0)
        (layBytes [(.str 40, k.attrs), (.int 1, leBytes 1 (b2n k.bad)), (.int 1, leBytes 1 k.rows)]) s t)) ∧
  (∀ c s p t, Ready c keysetGetCmd s p t → (t.slice (p.int sliceFlds 0)).exists_ = true →
      exec (.keysetGet c) s = .next (answered c 0x20B p (p.int sliceFlds 0) (padTo 32 (t.slice (p.int sliceFlds 0)).keyset) s t))

/-- Deletion, policy and key sets (R330, R331, R347 to R349), the assembly's timeout (R344), the sweep (R332, R333) and the key epoch (R337, R349).
It says where these commands complete, as conclusions on the state and operands alone: keyDelete, keySetPolicy, keysetSet, importAssemblyTimeout,
keySweep, keyEpochAdvance. -/
def Obligations.KeyChangingCommands : Prop :=
  (∀ c s p t k, Ready c keyDeleteCmd s p t → t.jobOn (conflicts 0x208) (p.int keyFlds 0) = false → t.named (p.int keyFlds 0) true false = .inr k →
      k.scope ≠ 2 → exec (.keyDelete c) s = .next (running c p (k.dropJob true) [] (p.int keyFlds 0) s
        ((t.supersede k).rewriteKey k.scope k.slice k.slot fun x => { x with cls := 0, material := [] }))) ∧
  (∀ c s p t k, Ready c keySetPolicyCmd s p t → t.jobOn (conflicts 0x209) (p.int policyFlds 0) = false →
      t.named (p.int policyFlds 0) false false = .inr k → k.scope ≠ 2 →
      exec (.keySetPolicy c) s = .next (running c p (k.dropJob false) [] (p.int policyFlds 0) s
        ((t.supersede k).rewriteKey k.scope k.slice k.slot fun x =>
          { x with usage := (k.usage &&& ~~~ BitVec.ofNat 32 (p.int policyFlds 1)) ||| BitVec.ofNat 32 (if p.int policyFlds 3 = 1 then 2 ^ 16 else 0)
                   modes := k.modes &&& ~~~ BitVec.ofNat 16 (p.int policyFlds 2) }))) ∧
  (∀ c s p t, Ready c keysetSetCmd s p t →
      let n := p.int keysetFlds 0
      let y : Slice := { t.slice n with keyset := p.str keysetFlds 1 }
      (t.slice n).exists_ = true → t.keyUsed n = 0 → t.keys.stage.any (·.slice == n) = false →
      exec (.keysetSet c) s = .next (answered c 0x20C p n [] s (t.setSlice (t.withSmk y (t.smkNow y))))) ∧
  (∀ m a s, (s.box m).assembly = some a → a.at_ + 1000 ≤ s.glob.uptimeMs →
      exec (.importAssemblyTimeout m) s = .next (s.modBox m fun b => { b with assembly := none, discarded := true })) ∧
  (∀ bad s, s.tamper.mainPower = true → s.keys.sik.isSome = true → s.keys.lastSweep + 1000 * s.keys.sweepS ≤ s.glob.uptimeMs →
      exec (.keySweep bad) s = .next (((s.failedRows ++ bad).foldl State.sweptBad s).modKeys fun k =>
        { k with sweeps := (k.sweeps + 1) % 2 ^ 64, lastSweep := s.glob.uptimeMs })) ∧
  (∀ s, s.keys.epochDue ≠ 0 → s.keyDrained = true → s.worlds.tw.up = true →
      exec .keyEpochAdvance s = .next (s.loadSik.compareSmks.modKeys fun k =>
        { k with epoch := (k.epoch + 1) % 65536, stage := [], badStage := [], epochDue := k.epochDue - 1 }))

/-- The lifecycle commands (R313 to R318): the target is set down, replied, and taken in the same step.
It says where these commands complete, as conclusions on the state and operands alone: lcPersonalise, lcTransition. -/
def Obligations.LifecycleCommands : Prop :=
  (∀ c s p t lc, Ready c lcPersonaliseCmd s p t → Lc.ofCode (p.int personaliseLcFlds 0) = some lc → lc = .development ∨ lc = .production →
      exec (.lcPersonalise c) s = .next (answered c 0x210 p 0 [] s (State.clearCounts (t.modKeys fun k =>
        { k with lcTarget := some lc, subsysVendor := p.int personaliseLcFlds 1, subsysId := p.int personaliseLcFlds 2,
                 boardLabel := p.str personaliseLcFlds 3 }))).lifecycleStep) ∧
  (∀ c s p t lc, Ready c lcTransitionCmd s p t → Lc.ofCode (p.int transitionFlds 0) = some lc → t.keys.lc.goesTo lc = true → lc ≠ .returned →
      lc ≠ t.keys.lc → exec (.lcTransition c) s = .next (answered c 0x211 p 0 [] s (t.modKeys fun k => { k with lcTarget := some lc })).lifecycleStep)

/-! ### Commands, slices and rings of the manager -/

/-- Device and manager commands (R29, R33, R363 to R367): information, the session's challenge, opening and closing, the credential, the manager's keep.
It says where these commands complete, as conclusions on the state and operands alone: devInfo, mgrChallenge, mgrOpen, mgrClose, mgrCredSet, devKeep,
devResume, devResumeAlarm. -/
def Obligations.ManagerCommands : Prop :=
  (∀ c s p t, Ready c devInfoCmd s p t → exec (.devInfo c) s = .next (answered c 1 p 0 (layInts [(2, 0x1600), (1, 0xB0), (1, t.keys.lc.code),
      (4, t.modeWord), (4, (imageInfo t.worlds.tw.image).1), (4, (imageInfo t.worlds.tw.image).2), (4, (imageInfo t.worlds.ow.image).1),
      (4, (imageInfo t.worlds.ow.image).2)]) s t)) ∧
  (∀ c s p t b u, Ready c mgrChallengeCmd s p t → t.cmdDraw c 32 false 0 = .inl (b, u) →
      exec (.mgrChallenge c) s = .next (answered c 2 p 0 b s (u.modBox (mgrBox c) fun x => { x with nonce := some (b, u.glob.uptimeMs) }))) ∧
  (∀ c s p t alg key at_, Ready c mgrOpenCmd s p t → t.mail.cred = some (alg, key) →
      (t.box (mgrBox c)).nonce = some (p.str mgrOpenFlds 0, at_) → t.glob.uptimeMs < at_ + 60000 → p.int mgrOpenFlds 1 = alg →
      sigVerifies alg key (t.identityDigest ++ leBytes 2 (mgrBox c) ++ p.str mgrOpenFlds 0) p.data = true →
      exec (.mgrOpen c) s = .next (answered c 3 p 0 [] s
        ((t.modBox (mgrBox c) fun x => { x with nonce := none }).modBox (mgrBox c) fun x => { x with session := true }))) ∧
  (∀ c s p t, Ready c mgrCloseCmd s p t →
      exec (.mgrClose c) s = .next (answered c 4 p 0 [] s (t.modBox (mgrBox c) fun x => { x with session := false }))) ∧
  (∀ c s p t, Ready c mgrCredSetCmd s p t → t.mail.cred = none → algKeyFault (p.int [.int 1] 0) p.data = none →
      exec (.mgrCredSet c) s = .next (answered c 5 p 0 [] s (t.modMail fun m => { m with cred := some (p.int [.int 1] 0, p.data) }))) ∧
  (∀ c s p t, Ready c devKeepCmd s p t →
      exec (.devKeep c) s = .next (answered c 8 p 0 [] s (State.refreshMode t.modeWord { t with md := { t.md with manager := true } }))) ∧
  (∀ c s p t, Ready c devResumeCmd s p t →
      exec (.devResume c) s = .next (answered c 9 p 0 [] s ((State.modPower (fun q => { q with offRequest := false })
        { t with md := { t.md with manager := false } }).modDom 61 fun d => { d with deferred := false }))) ∧
  (∀ c s p t, Ready c devResumeAlarmCmd s p t → (∀ x ∈ t.tamper.sources, x.a3Raised = true → x.alarmed = false) → t.hier.role = 0 → t.hier.activeLead = false →
      exec (.devResumeAlarm c) s = .next (answered c 0xA p 0 [] s { t with
        md := { t.md with alarm := false }
        tamper := { t.tamper with latch := if t.tamper.latch = 3 then 0 else t.tamper.latch,
                                  sources := t.tamper.sources.map fun x => { x with a3Raised := false } } }))

/-- Slice commands as they are accepted (R100 to R119): what begins to run, and what is answered at once.
It says where these commands complete, as conclusions on the state and operands alone: sliceCreate, sliceModify, sliceQuiesce, sliceQuiesceDone,
sliceResume, sliceReset, sliceRemove, sliceQuery. -/
def Obligations.SliceCommandsAccepted : Prop :=
  (∀ c s p t b u, Ready c sliceCreateCmd s p t →
      let n := p.int createFlds 0
      let v := p.spec createFlds 1
      (t.slice n).exists_ = false → t.pasidBound n v.pasid = false → t.sliceBusy n = false → t.overQuota n v = false → v.excl = 0 →
      t.cmdDraw c 32 false n = .inl (b, u) → exec (.sliceCreate c) s = .next (running c p .draw [] n s t)) ∧
  (∀ c s p t, Ready c sliceModifyCmd s p t →
      let n := p.int modifyFlds 0
      let x := t.slice n
      let v := x.spec.select (p.int modifyFlds 1) (p.spec modifyFlds 2)
      t.sliceShut n false = false → v.malformed = false → x.spec.ints ≤ v.ints → heldChange x x.spec v = false → v.pasid = x.spec.pasid →
      (∀ r ∈ x.rings.drop v.rp, r.armed = false) → t.overQuota n v = false → (∀ i < 36, bit v.excl i = true → bit x.spec.excl i = true) →
      exec (.sliceModify c) s = .next (running c p .draw [] n s t)) ∧
  (∀ c s p t, Ready c sliceQuiesceCmd s p t →
      let n := p.int quiesceFlds 0
      (t.slice n).state = .active → t.sliceShut n false = false → p.int quiesceFlds 1 = 0 →
      exec (.sliceQuiesce c) s = .next (running c p (.quiesce n) [] n s (t.modSlice n fun y =>
        { (y.chainClock fun u => t.glob.uptimeMs - u) with state := .quiescing }))) ∧
  (∀ slice s, (s.slice slice).state = .quiescing → s.admitted slice = 0 → s.dmaOutstanding slice = 0 → s.cmdRunning slice = 0 →
      s.worlds.tw.up = true → exec (.sliceQuiesceDone slice) s =
        .next (((s.quiesceJobs slice).foldl (fun t j => t.endJob j .done 0 []) (s.modSlice slice fun x => { x with state := .quiesced })).settle s)) ∧
  (∀ c s p t, Ready c sliceResumeCmd s p t → (t.slice (p.int sliceFlds 0)).state = .quiesced → t.sliceBusy (p.int sliceFlds 0) = false →
      exec (.sliceResume c) s = .next (running c p .draw [] (p.int sliceFlds 0) s t)) ∧
  (∀ c s p t, Ready c sliceResetCmd s p t →
      let n := p.int resetFlds 0
      t.sliceShut n false = false → p.int resetFlds 1 = 1 ∨ t.inFlight n = false →
      exec (.sliceReset c) s = .next (running c p (.fence n (p.int resetFlds 2 == 1))
        (layBytes [(.arr 2 (2 * (t.slice n).rings.length), (t.discardedAll n).1)]) n s
        ((((t.discardedAll n).2.abortSlice n).abortCommands n).modSlice n fun x => { x with state := .fenced, flush := false }))) ∧
  (∀ c s p t, Ready c sliceRemoveCmd s p t →
      let n := p.int quiesceFlds 0
      t.sliceShut n false = false → p.int quiesceFlds 1 = 1 ∨ t.inFlight n = false →
      exec (.sliceRemove c) s = .next (running c p (.fence n true)
        (layBytes [(.arr 2 (2 * (t.slice n).rings.length), (t.discardedAll n).1)]) n s
        ((((t.discardedAll n).2.abortSlice n).abortCommands n).modSlice n fun x => { x with state := .fenced, flush := false }))) ∧
  (∀ c s p t, Ready c sliceQueryCmd s p t →
      exec (.sliceQuery c) s = .next (answered c 0x106 p (p.int sliceFlds 0) (t.sliceEntry (p.int sliceFlds 0)) s t))

/-- Ring and channel commands of the manager (R110, R122 to R124, R174, R177, R184): a change of a ring pair waits for its reply, a query answers at once,
a fence or return of a channel runs until the channel has left or joined service.
It says where these commands complete, as conclusions on the state and operands alone: ringArm, ringDisarm, ringQuery, chFence, chReturn. -/
def Obligations.RingAndChannelCommandsAccepted : Prop :=
  (∀ c s p t, Ready c ringArmCmd s p t →
      let f := p.int ringArmFlds
      t.ringShut (f 0) (f 1) (t.sliceBusy (f 0)) = none → (∀ r, t.ring? (f 0) (f 1) = some r → r.armed = false) →
      f 2 % 4096 = 0 → f 4 % 4096 = 0 → ringLog (f 3) = true → ringLog (f 5) = true →
      exec (.ringArm c) s = .next (running c p .draw [] (f 0) s t)) ∧
  (∀ c s p t r, Ready c ringDisarmCmd s p t →
      let n := p.int ringFlds 0
      let i := p.int ringFlds 1
      t.ringShut n i (t.sliceBusy n) = none → t.ring? n i = some r → r.armed = true → r.sqHead = r.sqTail → t.ringCtxs n i = [] →
      r.chainOpen = false → exec (.ringDisarm c) s = .next (running c p .draw [] n s t)) ∧
  (∀ c s p t r, Ready c ringQueryCmd s p t → t.ringShut (p.int ringFlds 0) (p.int ringFlds 1) false = none →
      t.ring? (p.int ringFlds 0) (p.int ringFlds 1) = some r →
      exec (.ringQuery c) s = .next (answered c 0x10A p (p.int ringFlds 0) (t.ringBlock (t.slice (p.int ringFlds 0)) (p.int ringFlds 1) r) s t)) ∧
  (∀ c s p t, Ready c chFenceCmd s p t →
      let n := p.int chFenceFlds 0
      t.jobOn (conflicts 0x110) n = false → (t.ch n).st = .service ∨ (t.ch n).st = .slow →
      exec (.chFence c) s = .next (running c p (.chFence n) [] n s
        ((if p.int chFenceFlds 1 == 1 then t.drain n 6 else t.fence n 6).modCh n fun x => { x with cfHold := true, test := .none }))) ∧
  (∀ c s p t, Ready c chReturnCmd s p t →
      let n := p.int chFlds 0
      t.jobOn (conflicts 0x111) n = false → (t.ch n).a2Hold = [] → (t.ch n).st = .failed →
      exec (.chReturn c) s = .next (running c p (.chReturn n) [] n s ((((t.modCh n fun x => { x with fences := [], cfHold := false }).modCh n fun x =>
        { x with st := .selftest }).recordChannel n .failed .selftest).askTest n)))

/-- A change of a slice or of a ring pair is committed at its reply, all of it in one step (R102, R370): creation under the next INSTANCE with a new keyset, resumption,
removal, arming and disarming. At the end of a slice's fence (R109 to R119) its staged keys are gone, and its own keys where the command says so.
It says where these commands complete, as conclusions on the state and operands alone: commandReply, sliceFenceEnd. -/
def Obligations.SliceCommitsAndFenceEnd : Prop :=
  (∀ c j s p t b u, Resumes c sliceCreateCmd j s p t →
      let n := p.int createFlds 0
      let v := p.spec createFlds 1
      (t.slice n).exists_ = false → t.pasidBound n v.pasid = false → t.overQuota n v = false → t.cmdDraw j.caller 32 false n = .inl (b, u) →
      let x : Slice := { num := n, state := .active, inst := ((u.slice n).inst + 1) % 65536, keyset := b }
      let y := x.shaped v (u.freeInts v.ints)
      exec (.commandReply c) s = .next (commitReply j p n (intsReply (u.freeInts v.ints)) s
        (((u.giveInts n (u.freeInts v.ints)).overwrite [.smk n]).setSlice (u.withSmk y (u.smkNow y))))) ∧
  (∀ c j s p t, Resumes c sliceResumeCmd j s p t → (t.slice (p.int sliceFlds 0)).state = .quiesced →
      exec (.commandReply c) s = .next (commitReply j p (p.int sliceFlds 0) [] s (t.modSlice (p.int sliceFlds 0) fun x =>
        { (x.chainClock fun u => t.glob.uptimeMs - u) with state := .active, flush := false }))) ∧
  (∀ c j s p t, Resumes c sliceRemoveCmd j s p t →
      let n := p.int quiesceFlds 0
      exec (.commandReply c) s = .next (commitReply j p n [] s (((t.takeInts (t.slice n).ints).setSlice
        { num := n, inst := ((t.slice n).inst + 1) % 65536 }).modBox n fun _ => { num := n }))) ∧
  (∀ c j s p t, Resumes c ringArmCmd j s p t →
      let f := p.int ringArmFlds
      t.ringShut (f 0) (f 1) false = none → (∀ r, t.ring? (f 0) (f 1) = some r → r.armed = false) →
      f 2 % 4096 = 0 → f 4 % 4096 = 0 → ringLog (f 3) = true → ringLog (f 5) = true →
      exec (.commandReply c) s = .next (commitReply j p (f 0) [] s (t.modRing (f 0) (f 1) fun _ =>
        { armed := true, sqBase := f 2, sqLog2 := f 3, cqBase := f 4, cqLog2 := f 5, irqEn := f 6 == 1 }))) ∧
  (∀ c j s p t r, Resumes c ringDisarmCmd j s p t →
      let n := p.int ringFlds 0
      let i := p.int ringFlds 1
      t.ringShut n i false = none → t.ring? n i = some r → r.armed = true → r.sqHead = r.sqTail → t.ringCtxs n i = [] → r.chainOpen = false →
      exec (.commandReply c) s = .next (commitReply j p n [] s (State.modRing n i RingPair.disarmed
        { t with hp := { t.hp with unacked := t.hp.unacked.filter fun c => !c.ofRing n i } }))) ∧
  (∀ slice j erase s, s.mail.running.find? (fun j => match j.kind with | .fence n _ => n == slice | _ => false) = some j → j.kind = .fence slice erase →
    (s.slice slice).state = .fenced → s.dmaOutstanding slice = 0 → s.cmdRunning slice = 0 →
    ∃ t, exec (.sliceFenceEnd slice) s = .next t ∧ (∀ e ∈ t.keys.stage, e.slice ≠ slice) ∧
      (erase = true → ∀ k ∈ t.keys.keys, ¬ (k.scope = 1 ∧ k.slice = slice)) ∧ t.er.nextSeq ≥ s.er.nextSeq)

/-- Mailboxes (R355, R357, R369 to R376): GO and a gate call submit the packet, a running command whose moment has come replies, an extension command is
checked and passed to the open world, whose answer or whose timeout ends it.
It says where these commands complete, as conclusions on the state and operands alone: mbxGo, call, commandReply, extensionCommand, extensionReply,
extensionTimeout. -/
def Obligations.MailboxCommands : Prop :=
  (∀ m s, m < Config.mailboxes → s.barsUp = true → s.refusal 4 (boxOff m + 0x40) 4 true = none →
      (m < Config.mgrMailbox → (s.slice m).exists_ = true) →
      exec (.mbxGo m) s = .next (((s.submit (.mbx m)).refuseUnknown (.mbx m)).settle s)) ∧
  (∀ g s, g < 8 → s.worlds.ow.up = true → exec (.call g) s = .next (((s.submit (.gate g)).refuseUnknown (.gate g)).settle s)) ∧
  (∀ c j t s, s.worlds.tw.up = true → s.mail.running.find? (fun j => j.caller == c) = some j → s.jobStep j = some t →
      exec (.commandReply c) s = .next (t.settle s)) ∧
  (∀ m hdr area a limit p t s, s.presented (.mbx m) = some (hdr, area) → s.extension (fieldLe hdr 0 2) = some (a, limit) →
      Ready (.mbx m) { op := fieldLe hdr 0 2, auth := extAuth a, flds := [.str (bits (fieldLe hdr 8 4) 0 13)] } s p t → t.worlds.ow.up = true →
      exec (.extensionCommand m) s = .next (running (.mbx m) p .extension [] 0 s t)) ∧
  (∀ m j st status detail body s, s.extJob m = some j → s.worlds.ow.up = true → Status.ofCode status = some st →
      exec (.extensionReply m status detail body) s = .next ((s.endExtension j m st detail body).settle s)) ∧
  (∀ m j a limit s, s.extJob m = some j → s.extension j.opcode = some (a, limit) → j.since + limit ≤ s.glob.uptimeMs →
      exec (.extensionTimeout m) s = .next ((s.endExtension j m .aborted 4 []).settle s))

/-! ### Dual control -/

/-- The quorum's commands (R378 to R382, R385, R386): a challenge, an approval, a custodian enrolled and removed, M.
It says where these commands complete, as conclusions on the state and operands alone: quorumChallenge, quorumApprove, custodianEnrol,
custodianRemove, quorumSet. -/
def Obligations.QuorumCommands : Prop :=
  (∀ c s p t b u, Ready c quorumChallengeCmd s p t → t.opcodeNeedsQuorum (p.int challengeFlds 1) = true → p.int challengeFlds 0 < Config.mailboxes →
      t.cmdDraw c 32 false 0 = .inl (b, u) →
      let v := u.issueChallenge (p.int challengeFlds 0) (p.int challengeFlds 1) (p.str challengeFlds 2) b
      exec (.quorumChallenge c) s = .next (answered c 0x300 p 0 (layBytes [(.int 8, leBytes 8 v.dual.chal.id), (.str 32, b)]) s v.askCards)) ∧
  (∀ m op d n s, let t := State.issueChallenge m op d n s
      t.dual.chal.id = s.recordSeq ∧ t.dual.chal.live = true ∧ t.dual.chal.approved = 0 ∧ t.dual.chal.opcode = op ∧ t.dual.chal.nonce = n ∧
      t.er.nextSeq = s.recordSeq + 1 ∧ s.er.nextSeq ≤ s.recordSeq ∧ (∀ x ∈ t.dual.cards, x.proposal = none)) ∧
  (∀ c s p t, Ready c quorumApproveCmd s p t → t.dual.chal.live = true → p.int approveFlds 0 = t.dual.chal.id → t.dual.chal.mailbox ≠ 0xFFFE →
      let i := p.int approveFlds 1
      let x := t.dual.custodians.getD i {}
      i < 16 → x.alg ≠ 0 → p.int approveFlds 2 = x.alg → t.dual.chal.enrolled.getLsbD i = true →
      sigVerifies x.alg x.key (t.approvalMessage i) p.data = true → t.dual.chal.approved.getLsbD i = false →
      exec (.quorumApprove c) s = .next (State.runProposal (answered c 0x301 p 0 [] s (t.modChal fun q =>
          { q with approved := q.approved ||| BitVec.ofNat 16 (2 ^ i) })))) ∧
  (∀ c s p t, Ready c custodianEnrolCmd s p t →
      let i := p.int enrolFlds 0
      let alg := p.int enrolFlds 1
      let key := p.data.take (algKey alg)
      let d := sha384 key
      alg = 1 ∨ alg = 2 → p.data.length = algKey alg + algSig alg → i < 16 → t.enrolled.contains i = false →
      t.enrolled.any (fun j => (t.dual.custodians.getD j {}).digest == d) = false → algKeyFault alg key = none →
      sigVerifies alg key (t.enrolMessage i d) (p.data.drop (algKey alg)) = true →
      let x : Custodian := { alg := alg, key := key, digest := d, label := p.str enrolFlds 2, seq := t.recordSeq }
      exec (.custodianEnrol c) s =
        .next (answered c 0x302 p 0 [] s { t with dual := { t.dual with custodians := t.dual.custodians.set i x } })) ∧
  (∀ c s p t, Ready c custodianRemoveCmd s p t → t.enrolled.contains (p.int [.int 1] 0) = true → t.dual.m < t.enrolled.length →
      exec (.custodianRemove c) s = .next (answered c 0x303 p 0 [] s { t with dual :=
        { t.dual with custodians := t.dual.custodians.set (p.int [.int 1] 0) {} } })) ∧
  (∀ c s p t, Ready c quorumSetCmd s p t → 2 ≤ p.int [.int 1] 0 → p.int [.int 1] 0 ≤ 16 → p.int [.int 1] 0 ≤ t.enrolled.length →
      exec (.quorumSet c) s = .next (answered c 0x304 p 0 [] s { t with dual := { t.dual with m := p.int [.int 1] 0 } }))

/-- The cell service window, ZEROISE and a challenge's end (R383, R394 to R397, R472): a window opens on one cell while the other reads present and in
range; ZEROISE leaves no root, no domain key, no slice key and no key slot.
It says where these commands complete, as conclusions on the state and operands alone: cellWindowOpen, cellWindowClose, cellWindowExpire, zeroise,
challengeExpire. -/
def Obligations.WindowAndZeroise : Prop :=
  (∀ c s p t, Ready c cellWindowOpenCmd s p t →
      let d := p.int windowFlds 1
      p.int windowFlds 0 ≤ 1 → 60 ≤ d → d ≤ 3600 → t.cellOk (1 - p.int windowFlds 0) = true → t.dual.winOpen = false →
      exec (.cellWindowOpen c) s = .next (answered c 0x305 p 0 [] s (State.record 0x53 2 0 (pack [(1, p.int windowFlds 0), (1, 1), (2, d)])
        { t with dual := { t.dual with winOpen := true, winCell := p.int windowFlds 0, winLeftS := d, winMs := 0 } }))) ∧
  (∀ c s p t, Ready c cellWindowCloseCmd s p t → (t.dual.winOpen = true → t.cellOk t.dual.winCell = true) →
      exec (.cellWindowClose c) s = .next (answered c 0x306 p 0 [] s t.closeWindow)) ∧
  (∀ s, s.dual.winOpen = true → s.dual.winLeftS = 0 → s.tamper.mainPower = true → s.cellOk s.dual.winCell = true →
      exec .cellWindowExpire s = .next (s.closeWindow.settle s)) ∧
  (∀ s, s.dual.winOpen = true → s.dual.winLeftS = 0 → s.tamper.mainPower = true → s.cellOk s.dual.winCell = false →
      exec .cellWindowExpire s = .next ((s.closeWindow.tamperEvent (5 + s.dual.winCell) 36).settle s)) ∧
  (∀ c s p t, Ready c zeroiseCmd s p t → exec (.zeroise c) s = .next
      (answered c 0x307 p 0 [] s { t with dual := { t.dual with zeroiseDue := true } }).zeroiseStep) ∧
  (∀ s : State, let t := s.zeroiseNow
      t.md.zeroised = true ∧ t.keys.root = none ∧ t.keys.sik = none ∧ t.keys.dks = [] ∧ t.keys.keys = [] ∧ t.keys.stage = [] ∧ t.keys.old = [] ∧
      (∀ x ∈ t.slices, x.smk = none) ∧ (∀ x ∈ t.chs, x.cache = []) ∧ t.dual.chal.live = false ∧ t.dual.winOpen = false ∧ t.tamper.latch = 4) ∧
  (∀ s, s.dual.chal.live = true → s.dual.chal.issued + 300000 ≤ s.glob.uptimeMs → exec .challengeExpire s = .next s.endChallenge) ∧
  (∀ s, s.dual.chal.live = true → s.glob.uptimeMs < s.dual.chal.issued + 300000 → exec .challengeExpire s = .next s)

/-- The custodian card ports (R391 to R393, R608): insertion and removal, an answer to each request, no answer within 30 s, a short of the supply.
It says where these commands complete, as conclusions on the state and operands alone: cardInsert, cardRemove, cardSupplyShort, cardTimeout,
cardResponse. -/
def Obligations.CustodianCards : Prop :=
  (∀ p s, p < 2 → s.tamper.mainPower = true → (s.card p).present = false → exec (.cardInsert p) s =
      .next ((s.modCard p fun c => { c.off with present := true, active := true, vcc := true }).sendApdu p .select cardAid)) ∧
  (∀ p s, p < 2 → (s.card p).present = true →
      exec (.cardRemove p) s = .next ((s.dropAsked p).modCard p fun c => { c.off with present := false }).askCards) ∧
  (∀ p s, p < 2 → (s.card p).vcc = true →
      exec (.cardSupplyShort p) s = .next ((s.dropAsked p).modCard p fun c => { c.off with lastStatus := .roleDenied }).askCards) ∧
  (∀ p s, p < 2 → (s.card p).step ≠ .none → (s.card p).since + 30000 < s.glob.uptimeMs →
      exec (.cardTimeout p) s = .next (s.refuseCard p none)) ∧
  (∀ p data s, p < 2 → s.worlds.tw.up = true → (s.card p).step = .select →
      exec (.cardResponse p 0x9000 data) s = .next (s.sendApdu p .identity [])) ∧
  (∀ p data s, p < 2 → s.worlds.tw.up = true → (s.card p).step = .identity → exec (.cardResponse p 0x9000 data) s = .next (s.cardIdentity p data)) ∧
  (∀ p data s, p < 2 → s.worlds.tw.up = true → (s.card p).step = .proposal → exec (.cardResponse p 0x9000 data) s = .next (s.cardProposal p data)) ∧
  (∀ p data s, p < 2 → s.worlds.tw.up = true → (s.card p).step = .sign → exec (.cardResponse p 0x9000 data) s = .next (s.cardApproval p data)) ∧
  (∀ p sw data s, p < 2 → s.worlds.tw.up = true → (s.card p).step ≠ .none → sw ≠ 0x9000 → ¬ ((s.card p).step = .proposal ∧ sw = 0x6A88) →
      exec (.cardResponse p sw data) s = .next (s.refuseCard p (some sw))) ∧
  (∀ p data (s : State), let i := fieldLe data 0 1
      data.length = 49 → i < 16 → (s.dual.custodians.getD i {}).alg ≠ 0 → (s.dual.custodians.getD i {}).digest = data.drop 1 →
      s.dual.chal.live = false →
      s.cardIdentity p data = (s.modCard p fun x => { x with known := true, lastIndex := i, step := .none }).sendApdu p .proposal [])

/-! ### Boot, attestation and the event recorder -/

/-- A measurement of the host's boot image (R411 to R420): which verdict opens the gate, what a verdict leaves, and the record of it signed and kept. A host flash command
the gate drops is counted and changes nothing else; a read is never dropped (R406, R407, R414).
It says where these commands complete, as conclusions on the state and operands alone: gateVerdict, bootRecordWrite, hostFlashAccess. -/
def Obligations.BootGate : Prop :=
  (∀ g s, s.gate.measuring = true → s.worlds.tw.up = true → s.writesFirst = false →
      let d := decide_ s.gate.twoFlash s.gate.inForce s.gate.removed g
      let mode := (s.gate.inForce.map (·.mode)).getD 0
      let s1 := s.modGate fun t => { t with measuring := false, lastVerdict := d.verdict, bootCount := (t.bootCount + 1) % 2 ^ 32,
                                            measureMs := sat 16 g.measureMs }
      (opens d.verdict mode = false → exec (.gateVerdict g) s = .next (State.bootFields s d false (s1.gateTo .rejected))) ∧
      (opens d.verdict mode = true → s.gate.fromPerst = false ∨ s.hp.perst = false →
        exec (.gateVerdict g) s = .next (State.bootFields s d true (s1.openGate d.verdict))) ∧
      (opens d.verdict mode = true → s.gate.fromPerst = true → s.hp.perst = true → exec (.gateVerdict g) s =
        .next (State.bootFields s d true (s1.modGate fun t => { t with verdictIn := some d.verdict })))) ∧
  (∀ two (p : Policy) rm (g : GateRead), (decide_ two none rm g).verdict = 1 ∧
      (p.judge two p.regions p.allow g.regions g.manifest = .accepted → (decide_ two (some p) rm g).verdict = 0) ∧
      (p.mode = 2 → p.judge two p.regions p.allow g.regions g.manifest = .rejected → (decide_ two (some p) rm g).verdict = 2) ∧
      (p.mode = 2 → p.judge two p.regions p.allow g.regions g.manifest = .flashError → (decide_ two (some p) rm g).verdict = 5) ∧
      (p.mode ≠ 2 → p.failAction = 0 → p.judge two p.regions p.allow g.regions g.manifest = .rejected → (decide_ two (some p) rm g).verdict = 4) ∧
      (p.mode ≠ 2 → p.failAction ≠ 0 → p.judge two p.regions p.allow g.regions g.manifest ≠ .accepted →
        p.judge two p.recRegions p.recAllow g.recRegions g.recManifest = .accepted → (decide_ two (some p) rm g).verdict = 3)) ∧
  (∀ mode, opens 0 mode = true ∧ opens 1 mode = true ∧ opens 2 mode = true ∧ opens 3 mode = true ∧ opens 4 mode = false ∧ opens 5 1 = false ∧
      opens 5 2 = true) ∧
  (∀ v (s : State), s.gate.st ≠ .opened → (s.openGate v).gate.st = .opened ∧ (s.openGate v).gate.recovery = (v == 3) ∧
      s.er.nextSeq + 1 ≤ (s.openGate v).er.nextSeq) ∧
  (∀ b rest s, s.gate.unsigned = b :: rest → s.worlds.tw.up = true → ∃ t, exec .bootRecordWrite s = .next t ∧ t.gate.unsigned = rest ∧
      t.gate.latest = s.signBoot b ∧ s.er.nextSeq + 8 ≤ t.er.nextSeq ∧ t.keys = s.keys ∧ t.renewal.recordDone = true) ∧
  (∀ b (s : State), s.aliasExists = true → s.signBoot b = b ++ s.aliasSign b) ∧
  (∀ flash addr len op s f, s.gate.st = .opened → s.gate.reaches flash = some f → s.gate.drops f addr len op = true →
      exec (.hostFlashAccess flash addr len op) s = .next (s.modGate fun g =>
        { g with blocked := sat 32 (g.blocked + 1), answer := if g.espi then .unsuccessful else .deselected })) ∧
  (∀ flash addr len op s f, s.gate.st = .opened → s.gate.reaches flash = some f → s.gate.drops f addr len op = false →
      exec (.hostFlashAccess flash addr len op) s = .next (s.modGate fun g => { g with answer := g.answerOf f addr len op })) ∧
  (∀ flash addr len op s, s.gate.st = .opened → s.gate.reaches flash = none →
      exec (.hostFlashAccess flash addr len op) s = .next (s.modGate fun g => { g with answer := .none })) ∧
  (∀ (g : Gate) flash addr len, g.inPartition flash addr len ≠ 0 → g.answerOf flash addr len .read = .blank (g.inPartition flash addr len)) ∧
  (∀ (g : Gate) flash addr len, Gate.drops g flash addr len .read = false) ∧
  (∀ (g : Gate) addr len, g.partOffset < addr + len → Gate.drops g 0 addr len .program = true ∧ Gate.drops g 0 addr len .erase = true) ∧
  (∀ g : Gate, g.recovery = true → g.espi = false → g.reaches 0 = some 1 ∧ g.reaches 1 = none)

/-- The attestation commands (R408, R409, R419 to R426): an image policy takes effect, a part of a certificate chain, measurements and boot records
are answered, a requester of SPDM is answered or turned away.
It says where these commands complete, as conclusions on the state and operands alone: imagePolicySet, bootRecordGet, measurementsGet, identityGet,
spdmRequest. -/
def Obligations.AttestationCommands : Prop :=
  (∀ c s p t, Ready c imagePolicySetCmd s p t → t.policyOk p.data = true → (policyOf p.data).mode ≠ 0 → exec (.imagePolicySet c) s =
      .next (answered c 0x403 p 0 [] s { t with gate := { t.gate with policy := some (policyOf p.data) } })) ∧
  (∀ c s p t, Ready c imagePolicySetCmd s p t → t.policyOk p.data = true → (policyOf p.data).mode = 0 →
      exec (.imagePolicySet c) s = .next (answered c 0x403 p 0 [] s { t with gate := { t.gate with
        policy := none, removed := match t.gate.policy with | some old => old.regions | none => t.gate.removed } })) ∧
  (∀ c s p t, Ready c bootRecordGetCmd s p t → p.int [.int 4] 0 = 0 →
      exec (.bootRecordGet c) s = .next (answered c 0x402 p 0 (padTo 256 t.gate.latest) s t)) ∧
  (∀ c s p t b, Ready c bootRecordGetCmd s p t → p.int [.int 4] 0 ≠ 0 →
      bootRecordOf (p.int [.int 4] 0) (t.er.held.filter (·.typ == 0x60)) = some b → exec (.bootRecordGet c) s = .next (answered c 0x402 p 0 b s t)) ∧
  (∀ c s p t, Ready c measurementsGetCmd s p t → (p.int measurementsFlds 2 = 1 → t.aliasExists = true) →
      let (f, u) := t.freeBytes 48
      let blocks := ((List.range 9).filter fun i => bit (p.int measurementsFlds 0) i).flatMap (t.measurementBlock f)
      exec (.measurementsGet c) s = .next (answered c 0x401 p 0
        (blocks ++ if p.int measurementsFlds 2 == 1 then t.aliasSign (p.str measurementsFlds 1 ++ blocks) else []) s u)) ∧
  (∀ c s p t, Ready c identityGetCmd s p t → (p.int [.int 1] 0 = 0 → t.aliasExists = true) →
      let chain := t.certChain (p.int [.int 1] 0)
      let count := Nat.max 1 ((chain.length + chainBytes - 1) / chainBytes)
      p.part < count → exec (.identityGet c) s = .next ((t.reply c (logOf 0x400) p .done 0 0 p.part count
        (padTo 40 (layBytes [(.str 32, t.identityDigest), (.int 1, t.lcByte)]) ++ padTo 96 deviceIdPublic ++
          (chain.drop (chainBytes * p.part)).take chainBytes)).settle s)) ∧
  (∀ tr r s, tr = .mctpI3c ∨ s.hp.dlUp = true → s.worlds.tw.up = false → s.worlds.tw.image.isSome = true →
      exec (.spdmRequest tr r) s = .next { s with hp := { s.hp with spdmReply := 3, spdmData := [] } }) ∧
  (∀ tr r s, tr = .mctpI3c ∨ s.hp.dlUp = true → s.worlds.tw.up = true → s.worlds.tw.image.isSome = true →
      ∃ t, exec (.spdmRequest tr r) s = .next t ∧ t.hp.spdmReply = s.spdmAnswer tr r ∧ t.keys = s.keys ∧ t.er = s.er ∧
        (r ≠ .keyExchange → r ≠ .endSession → t.hp.spdmSessions = s.hp.spdmSessions) ∧
        (s.spdmAnswer tr r ≠ 1 → t.hp.spdmData = []) ∧
        (r = .keyExchange → s.spdmAnswer tr r = 1 → t.hp.spdmSessions = s.hp.spdmSessions ++ [tr]))

/-- The event recorder (R488 to R497, R499): the flush of waiting records, the LOST record, the acknowledgement, the firmware's notes and the log's clearing.
It says where these commands complete, as conclusions on the state and operands alone: erFlushTimer, erFlushDone, erLostRecover, erAck, fwNoteRequest,
erClear, erRead. -/
def Obligations.RecorderCommands : Prop :=
  (∀ s, s.er.flushing = false → s.er.buffer ≠ [] → s.er.lastFlush + 10 ≤ s.glob.uptimeMs → exec .erFlushTimer s = .next s.flushStart) ∧
  (∀ s, s.er.flushing = true → ∃ t, exec .erFlushDone s = .next t ∧ t.er.buffer = [] ∧ t.er.flushing = false ∧ t.er.lastFlush = s.glob.uptimeMs ∧
      t.er.log = (s.er.log ++ s.er.buffer).drop ((s.er.log ++ s.er.buffer).length - Config.logRecords) ∧ t.er.nextSeq = s.er.nextSeq ∧
      t.er.clean = (s.er.powerFlush || (s.er.clean && s.er.buffer.isEmpty))) ∧
  (∀ a b s, s.er.lostRange = some (a, b) → s.er.buffer.length < Config.erBuffer →
      exec .erLostRecover s = .next (State.writeRec 3 1 0 false (pack [(8, a), (8, b)]) { s with er := { s.er with lostRange := none } })) ∧
  (∀ value s, s.barsUp = true → s.refusal 0 0xA0018 8 true = none → ∃ t, exec (.erAck value) s = .next t ∧ t.er.ackSeq = value % 2 ^ 64 ∧ t.er.log = s.er.log ∧ t.er.buffer = s.er.buffer ∧
      t.er.nextSeq = s.er.nextSeq) ∧
  (∀ w body s, (s.world w).up = true → ((s.world w).notesNow s.glob.uptimeMs).length < 1000 → exec (.fwNoteRequest w body) s =
      .next ((s.modWorld w fun y =>
        { y with fwNotes := (s.world w).notesNow s.glob.uptimeMs ++ [s.glob.uptimeMs], noteStatus := .done }).record 0x90
        (match w with | .tw => 3 | .ow => 4) 0 (padTo 40 body))) ∧
  (∀ w body s, (s.world w).up = true → 1000 ≤ ((s.world w).notesNow s.glob.uptimeMs).length →
      exec (.fwNoteRequest w body) s = .next (s.modWorld w fun y => { y with noteStatus := .quota })) ∧
  (∀ c s p t, Ready c erClearCmd s p t → p.int [.int 8] 0 ≠ 0 → p.int [.int 8] 0 < t.er.nextSeq → exec (.erClear c) s =
      .next (answered c 0x501 p 0 [] s (t.clearLog (p.int [.int 8] 0) p.challenge t.dual.chal.approved.toNat))) ∧
  (∀ n ch m s, ∀ r ∈ (State.clearLog n ch m s).er.log, n < r.seq) ∧
  (∀ c s p t, Ready c erReadCmd s p t → p.int erReadFlds 1 ≤ 62 → (p.int erReadFlds 2 = 1 → t.aliasExists = true) →
      let f := p.int erReadFlds
      let l := (t.er.held.filter fun r => f 0 ≤ r.seq).take (f 1)
      ∀ r rest, l = r :: rest →
        let out := leBytes 8 r.seq ++ leBytes 2 l.length ++ leBytes 1 (b2n (f 0 < t.er.oldestSeq)) ++ zeros 5 ++ leBytes 8 t.er.oldestSeq ++
          leBytes 8 t.er.nextSeq ++ l.flatMap Record.bytes
        exec (.erRead c) s = .next (answered c 0x500 p 0 (out ++ if f 2 == 1 then t.aliasSign (p.str erReadFlds 3 ++ out) else []) s t))

/-- The loss of main power (R490, R493, R575, R604, R605): PWR_FAIL# writes POWER_FAIL and starts the flush of the whole buffer and the device goes on;
a droop or SYS_PWRGD low loses everything volatile and keeps the root store, the fuses, the log and Tahr's state.
It says where these commands complete, as conclusions on the state and operands alone: pwrFailAssert, pwrFailRelease, sysPwrgdLow. -/
def Obligations.MainPowerLoss : Prop :=
  (∀ s, s.tamper.mainPower = true → s.power.failPin = false → ∃ t, exec (.pwrFailAssert false) s = .next t ∧ t.er.flushing = true ∧
      t.er.powerFlush = true ∧ t.power.failPin = true ∧ s.er.nextSeq + 1 ≤ t.er.nextSeq ∧ t.keys = s.keys ∧ t.chs = s.chs ∧ t.slices = s.slices) ∧
  (∀ s, exec .pwrFailRelease s = .next { s with power := { s.power with failPin := false } }) ∧
  (∀ s, s.tamper.mainPower = true → ∃ t, exec .sysPwrgdLow s = .next t ∧ t.tamper.mainPower = false ∧ t.keys.root = s.keys.root ∧
      t.keys.lc = s.keys.lc ∧ t.keys.keys = [] ∧ t.dual.custodians = s.dual.custodians ∧ t.dual.m = s.dual.m ∧ t.gate.policy = s.gate.policy ∧
      t.gate.bootCount = s.gate.bootCount ∧ t.tamper.latch = s.tamper.latch ∧ s.er.nextSeq + 1 ≤ t.er.nextSeq ∧ t.slices = State.reset.slices ∧
      t.renewal.twFloor = s.renewal.twFloor) ∧
  (∀ s, s.tamper.mainPower = true → s.tamper.cellPresent ≠ 0 → exec (.pwrFailAssert true) s = .next (s.mainLost 2)) ∧
  (∀ s, s.tamper.mainPower = true → s.tamper.cellPresent = 0 →
      ∃ t, exec (.pwrFailAssert true) s = .next t ∧ t.keys.root = none ∧ t.tamper.latch = 0 ∧ t.tamper.buf = [])

/-! ### Worlds, admission and debug -/

/-- A world's restart begins (R436, R438, R440): FATAL, an expired watchdog, a memory error and an integrity fault hold the world's cores, with their
cause; the other world goes on.
It says where these commands complete, as conclusions on the state and operands alone: service, fatal, watchdogExpire, serowMemoryError,
integrityFail. -/
def Obligations.WorldFaults : Prop :=
  (∀ core s, core < 4 → (s.world (s.coreWorld core)).up = true → exec (.service core) s =
      .next { s with worlds := { s.worlds with serviced := s.worlds.serviced.set core s.glob.uptimeMs } }) ∧
  (∀ core s, core < 4 → (s.world (s.coreWorld core)).up = true → exec (.fatal core) s = .next (s.worldFault (s.coreWorld core) 2)) ∧
  (∀ core s, core < 4 → (s.world (s.coreWorld core)).up = true → s.coreAsleep core = false →
      s.worlds.serviced.getD core 0 + s.watchPeriod core ≤ s.glob.uptimeMs →
      exec (.watchdogExpire core) s = .next (s.worldFault (s.coreWorld core) 1)) ∧
  (∀ core s, core < 4 → s.glob.uptimeMs < s.worlds.serviced.getD core 0 + s.watchPeriod core → exec (.watchdogExpire core) s = .next s) ∧
  (∀ w s, exec (.serowMemoryError w) s = .next (s.worldFault w 3)) ∧
  (∀ n s, exec (.integrityFail (.channel n)) s = .next ((((s.tamperEvent 26 n).fence n 4).flushStart).settle s) ∧
      (∀ w, exec (.integrityFail (.world w)) s = .next ((((s.tamperEvent 26 36).worldFault w 3).flushStart).settle s)) ∧
      exec (.integrityFail .vaultLink) s = .next ((((s.tamperEvent 26 36).tamperEvent 27 36).flushStart).settle s) ∧
      (∀ ctx part addr, exec (.integrityFail (.hostPort ctx part addr)) s =
        .next ((((s.tamperEvent 26 36).dmaFail ctx part addr 0).flushStart).settle s))) ∧
  (∀ w cause (s : State), s.worlds.tw.up = true → s.worlds.ow.up = true →
      ((s.worldFault w cause).world w).up = false ∧ ((s.worldFault w cause).world w).inProgress = true ∧
      ((s.worldFault w cause).world w).lastCause = cause ∧ (w = .ow → (s.worldFault w cause).worlds.tw.up = true) ∧
      (w = .tw → (s.worldFault w cause).worlds.ow.up = true ∧ (s.worldFault w cause).worlds.lock = false))

/-- A world's restart ends (R437, R439, R440): with the measured image the world runs again, its restart counted and recorded; a comparison that fails
holds it, sets LAST_CAUSE 4 and is an event of source MEASURE.
It says where these commands complete, as conclusions on the state and operands alone: twRestartComplete, owRestartComplete, worldStatus. -/
def Obligations.WorldRestartsComplete : Prop :=
  (∀ i copies s, s.worlds.tw.image = some i → s.worlds.tw.inProgress = true → s.worlds.tw.waitFlash = false → s.worlds.tw.reread = false →
      ∃ t, exec (.twRestartComplete ⟨i.measurement, copies⟩) s = .next t ∧ t.worlds.tw.up = true ∧ t.worlds.tw.inProgress = false ∧
        t.worlds.tw.restarts = (s.worlds.tw.restarts + 1) % 65536 ∧ t.worlds.tw.lastCause = s.worlds.tw.lastCause ∧ t.worlds.ow.up = s.worlds.ow.up) ∧
  (∀ i j copy m copies s, s.worlds.tw.image = some i → s.worlds.tw.inProgress = true → s.worlds.tw.waitFlash = false → s.worlds.tw.reread = true →
      s.bestImage 1 (s.flashCopies copies) = some (j, copy) → ∃ t, exec (.twRestartComplete ⟨m, copies⟩) s = .next t ∧ t.worlds.tw.up = true ∧
        t.worlds.tw.image = some j ∧ t.renewal.twCopy = copy ∧ t.worlds.tw.reread = false) ∧
  (∀ i m copies s, s.worlds.tw.image = some i → s.worlds.tw.inProgress = true → s.worlds.tw.waitFlash = false → s.worlds.tw.reread = false →
      m ≠ i.measurement → s.worlds.tw.prevImage = none → exec (.twRestartComplete ⟨m, copies⟩) s = .next ((s.mismatch .tw).settle s)) ∧
  (∀ i copies s, s.worlds.ow.image = some i → s.worlds.ow.inProgress = true → s.worlds.ow.waitFlash = false → s.worlds.ow.reread = false →
      s.renewal.newAssign = none → ∃ t, exec (.owRestartComplete ⟨i.measurement, copies⟩) s = .next t ∧ t.worlds.ow.up = true ∧ t.worlds.ow.inProgress = false ∧
        t.worlds.ow.prevImage = none ∧ t.worlds.ow.restarts = (s.worlds.ow.restarts + 1) % 65536 ∧ t.worlds.tw = s.worlds.tw) ∧
  (∀ i m copies s, s.worlds.ow.image = some i → s.worlds.ow.inProgress = true → s.worlds.ow.waitFlash = false → s.worlds.ow.reread = false →
      s.renewal.newAssign = none → s.worlds.ow.prevImage = none → m ≠ i.measurement → exec (.owRestartComplete ⟨m, copies⟩) s = .next ((s.mismatch .ow).settle s)) ∧
  (∀ c s p t, Ready c worldStatusCmd s p t →
      exec (.worldStatus c) s = .next (answered c 0xA00 p 0 (layBytes (t.worldWords.map fun v => (.str 4, leBytes 4 v))) s t))

/-- Admission of a Serow core's access (R445 to R447, R570): an access the table or the default map grants takes effect; one that is refused, or meets a block that is
powered down, is logged and counted, and changes nothing else. A matching entry decides alone. An admitted access to a block whose layout the spec leaves out (R593)
stops the model, by the block's name.
It says where this command completes: serowAccess. -/
def Obligations.SerowAccess : Prop :=
  (∀ core priv t addr data s b, core < 4 → (s.world (s.coreWorld core)).up = true → s.admits (.core (s.coreWorld core) priv) t addr = true →
      blockAt addr = some b → b ≠ .trusted → b ≠ .management → s.blockOff b = false → exec (.serowAccess core priv t addr data) s =
        .next ((s.accessEffect (s.coreWorld core) priv t b addr (data.take 8)).settle s)) ∧
  (∀ w p b a data (s : State), s.accessEffect w p .write b a data = s.busWrite (.core w p) b a data ∧
      (s.accessEffect w p .read b a data).worlds.serowData = (s.busRead b a data.length).1 ∧
      (∀ h, s.busWrite (.core w p) (.sram h) a data = s.sramWrite a data)) ∧
  (∀ core priv t addr data s, core < 4 → (s.world (s.coreWorld core)).up = true → s.admits (.core (s.coreWorld core) priv) t addr = false →
      exec (.serowAccess core priv t addr data) s = .next (s.serowFault (s.coreWorld core) priv t addr)) ∧
  (∀ core priv t addr data s b, core < 4 → (s.world (s.coreWorld core)).up = true → s.admits (.core (s.coreWorld core) priv) t addr = true →
      blockAt addr = some b → b ≠ .trusted → b ≠ .management → s.blockOff b = true → ¬ (t = .write ∧ b.isSession = true) → exec (.serowAccess core priv t addr data) s =
        .next (State.serowFault (s.coreWorld core) priv t addr { s with power := { s.power with errStatus := .poweredDown, errValid := true } })) ∧
  (∀ w p t a (s : State), let u := State.serowFault w p t a s
      u.worlds.serowFaults = sat 16 (s.worlds.serowFaults + 1) ∧ (u.world w).admFault.valid = true ∧
      ((s.world w).admFault.valid = true → (u.world w).admFault = (s.world w).admFault) ∧
      ((s.world w).admFault.valid = false → (u.world w).admFault.addr = a ∧ (u.world w).admFault.priv = p) ∧
      u.worlds.regions = s.worlds.regions ∧ u.worlds.sram = s.worlds.sram ∧ u.keys = s.keys ∧ u.chs = s.chs) ∧
  (∀ (s : State) m t a b i e, blockAt a = some b → s.regionAt a = some (i, e) → s.admits m t a = e.grants m t) ∧
  (∀ (s : State) t a b w, blockAt a = some b → s.regionAt a = none → s.admits .host t a = false ∧ s.admits .channel t a = false ∧
      s.admits .debug t a = false ∧ s.admits (.core w .user) t a = false) ∧
  (∀ core priv t addr data s, core < 4 → (s.world (s.coreWorld core)).up = true → s.admits (.core (s.coreWorld core) priv) t addr = true →
    (blockAt addr = some .trusted → exec (.serowAccess core priv t addr data) s = .fault (.undocumentedTrustedBlock addr)) ∧
    (blockAt addr = some .management → exec (.serowAccess core priv t addr data) s = .fault (.undocumentedManagementBlock addr)))

/-- The admission table's commit (R443, R448): the whole resulting table is checked; it is applied with an epoch advance, or refused whole with its cause
and entry, the table and the epoch as before.
It says where these commands complete, as conclusions on the state and operands alone: admCommit, admCommitApply. -/
def Obligations.AdmissionCommit : Prop :=
  (∀ w s, (s.world w).up = true → exec (.admCommit w) s = .next (s.modWorld w fun x => { x with admCommit := true })) ∧
  (∀ w s, (s.world w).admCommit = true →
      let shadows := (s.world w).shadows.filter fun p => !(assocD s.worlds.regions p.1 {}).lock
      let table := withShadows s.worlds.regions shadows
      (s.commitBad table shadows = none → ∃ t, exec (.admCommitApply w) s = .next t ∧ t.worlds.regions = table ∧ (t.world w).shadows = [] ∧
        (t.world w).admCommit = false ∧ t.worlds.admEpoch = (s.worlds.admEpoch + 1) % 65536 ∧ t.worlds.oldReads = s.outstandingReads) ∧
      (∀ c i, s.commitBad table shadows = some (c, i) → ∃ t, exec (.admCommitApply w) s = .next t ∧ t.worlds.regions = s.worlds.regions ∧
        t.worlds.admEpoch = s.worlds.admEpoch ∧ (t.world w).admErrValid = true ∧ (t.world w).admErrCause = c ∧ (t.world w).admErrEntry = i ∧
        (t.world w).admCommit = false)) ∧
  (∀ (s : State) table i j, i ≠ j → (assocD table i {}).overlaps (assocD table j {}) = true → j ∈ table.map (·.1) → s.regionBad table i 1 = true)

/-- The debug access port (R451 to R455): no access in RETIRED, a wrong CHECK answered as such, then a malformed request; STATUS, READ and WRITE wait behind an outstanding
access; PORT_RESET clears it; the trusted world is refused, counted and recorded. The JTAG instructions (R453): EXTEST, CLAMP and HIGHZ act as BYPASS outside BLANK and
DEVELOPMENT.
It says where these commands complete, as conclusions on the state and operands alone: dbgStatus, dbgRead, dbgWrite, portReset, dbgBusAccessComplete,
bypass, idcode, samplePreload, extest, clamp, highz. -/
def Obligations.DebugAccess : Prop :=
  (∀ op r f (s : State), s.keys.lc = .retired → s.dbgRequest op r f = s.dbgAnswer 2 2 (noData op)) ∧
  (∀ op r f (s : State), s.keys.lc ≠ .retired → r.check.toNat ≠ dbgCheck (DbgReq.bitList op r) → s.dbgRequest op r f = s.dbgAnswer 4 0 (noData op)) ∧
  (∀ r s, s.keys.lc ≠ .retired → r.check.toNat = dbgCheck (DbgReq.bitList 0 r) → DbgReq.malformed r = false → s.worlds.dbgBus = none →
      exec (.dbgStatus r) s = .next (s.dbgAnswer 0 0 none)) ∧
  (∀ r s, s.keys.lc ≠ .retired → r.check.toNat = dbgCheck (DbgReq.bitList 1 r) → DbgReq.malformed r = false → s.worlds.dbgBus = none →
      exec (.dbgRead r) s = .next ((s.dbgAccess 1 r).settle s)) ∧
  (∀ r s, s.keys.lc ≠ .retired → r.check.toNat = dbgCheck (DbgReq.bitList 2 r) → DbgReq.malformed r = false → s.worlds.dbgBus = none →
      exec (.dbgWrite r) s = .next ((s.dbgAccess 2 r).settle s)) ∧
  (∀ r s, s.keys.lc ≠ .retired → r.check.toNat = dbgCheck (DbgReq.bitList 3 r) → DbgReq.malformed r = false →
      exec (.portReset r) s = .next (State.dbgAnswer 0 0 none { s with worlds := { s.worlds with dbgBus := none, dbgHeld := none, oldDbg := false } })) ∧
  (∀ ok data op a s, s.worlds.dbgBus = some (op, a) → exec (.dbgBusAccessComplete ok data) s =
      .next { s with worlds := { s.worlds with dbgBus := none, dbgHeld := some (op, a, ok, data), oldDbg := false } }) ∧
  (∀ op r (s : State) i e, s.regionAt r.addr = some (i, e) → s.regionWorld i = .tw → e.lock = true → r.space % 4 = 1 →
      s.dbgAccess op r = (s.debugAttempt r.addr).dbgAnswer 2 1 (noData op)) ∧
  (∀ a s, (State.debugAttempt a s).worlds.debugAttempts = sat 16 (s.worlds.debugAttempts + 1)) ∧
  (∀ s, exec .bypass s = .next (s.setJtag 0) ∧ exec .idcode s = .next (s.setJtag 1) ∧ exec .samplePreload s = .next (s.setJtag 2) ∧
    (s.keys.lc = .blank ∨ s.keys.lc = .development → exec .extest s = .next (s.setJtag 3) ∧ exec .clamp s = .next (s.setJtag 4) ∧
      exec .highz s = .next (s.setJtag 5)) ∧
    (s.keys.lc ≠ .blank → s.keys.lc ≠ .development → exec .extest s = .next (s.setJtag 0) ∧ exec .clamp s = .next (s.setJtag 0) ∧
      exec .highz s = .next (s.setJtag 0)))

/-! ### Tamper sensing -/

/-- Tamper events (R458 to R464, R468, R469): an event counts where its source senses; a report of a condition that persisted counts nothing; the source re-arms, and the
responses of A1 and A2 end after their time. The cells, the loops on cell power, and the tamper commands (R54, R459, R461, R462, R479, R481 to R484).
It says where these commands complete, as conclusions on the state and operands alone: tamperEvent, sourceRearm, throttleEnd, fenceEnd, vaultLinkFail,
cellArm, cellLow, cellInRange, loopReading, tamperStatus, tamperConfig. -/
def Obligations.TamperCommands : Prop :=
  (∀ src scope (s : State), src ≠ 5 → src ≠ 6 → sourceClass src ≠ 1 ∨ s.tamper.mainPower = true →
      exec (.tamperEvent src scope false) s = .next ((s.tamperEvent src scope).settle s)) ∧
  (∀ src scope (s : State), src ≠ 5 → src ≠ 6 → (s.src src).asserted = true → exec (.tamperEvent src scope true) s = .next (s.settle s)) ∧
  (∀ i scope (s : State), s.senses i = false → s.tamperEvent i scope = s) ∧
  (∀ i scope (s : State), s.senses i = true → (s.src i).alarmed = true → s.tamperEvent i scope =
      s.modSrc i fun x => { x with asserted := true, events := sat 32 (x.events + 1) }) ∧
  (∀ src (s : State), (s.src src).asserted = true ∨ (s.src src).alarmed = true → exec (.sourceRearm src) s = .next (s.rearm src)) ∧
  (∀ src (s : State), src < s.tamper.sources.length → (s.src src).alarmed = true → ((s.rearm src).src src).times = [] ∧
      ((s.rearm src).src src).alarmed = false ∧ ((s.rearm src).src src).asserted = false) ∧
  (∀ src (s : State), (s.src src).throttle = true → (s.src src).alarmed = false → 1000 ≤ s.sinceMs (s.src src).rearmedAt →
      let s1 := s.modSrc src fun t => { t with throttle := false }
      exec (.throttleEnd src) s =
        .next ((if s1.tamper.sources.any (·.throttle) then s1 else s1.each (List.range 36) (State.clampOne false)).settle s)) ∧
  (∀ src (s : State), (s.src src).fencing = true → (s.src src).alarmed = false → 100 ≤ s.sinceMs (s.src src).rearmedAt →
      exec (.fenceEnd src) s =
        .next (((s.modSrc src fun t => { t with fencing := false }).each (List.range 36) (State.releaseA2 src)).settle s)) ∧
  (∀ (s : State), exec .vaultLinkFail s = .next ((s.tamperEvent 27 36).settle s)) ∧
  (∀ cell (s : State), cell < 2 → s.tamper.cellPresent.getLsbD cell = true → s.tamper.cellRange.getLsbD cell = true → s.tamper.cellArmed.getLsbD cell = false →
      s.keys.lc ≠ .blank → 1000 ≤ s.sinceMs (s.tamper.cellSince.getD cell 0) → exec (.cellArm cell) s = .next (State.tamperRecord (5 + cell) 0
        { s with tamper := { s.tamper with cellArmed := s.tamper.cellArmed ||| BitVec.ofNat 2 (2 ^ cell) } })) ∧
  (∀ cell (s : State), cell < 2 → s.tamper.cellRange.getLsbD cell = true →
      let s1 := s.cellBad cell false
      s1.tamper.cellRange.getLsbD cell = false ∧ exec (.cellLow cell) s =
        .next ((if s.tamper.cellArmed.getLsbD cell then s1.tamperRecord (5 + cell) 0 else s1).settle s)) ∧
  (∀ cell (s : State), cell < 2 → s.tamper.cellRange.getLsbD cell = false → ∃ t, exec (.cellInRange cell) s = .next t ∧
      t.tamper.cellPresent.getLsbD cell = true ∧ t.tamper.cellRange.getLsbD cell = true ∧ t.tamper.cellArmed = s.tamper.cellArmed ∧
      t.keys = s.keys) ∧
  (∀ clean (s : State), s.tamper.mainPower = false → exec (.loopReading clean) s = .next (State.each (List.range 8) (State.readLoop clean)
      { s with tamper := { s.tamper with tahrMs := (s.tamper.tahrMs + s.loopMs) % 2 ^ 32 }, dual := s.dual.tick s.loopMs })) ∧
  (∀ clean (s : State), s.tamper.mainPower = true → exec (.loopReading clean) s = .next s) ∧
  (∀ c s p t, Ready c tamperStatusCmd s p t → exec (.tamperStatus c) s = .next (answered c 0x600 p 0
      (layBytes ((.str 4, leBytes 4 t.tamperWord) :: (List.range 32).map fun i => (.str 32, t.sourceBlock i))) s t)) ∧
  (∀ c s p t, Ready c tamperConfigCmd s p t → t.tamperRefused (p.int tamperFlds) = false → p.int tamperFlds 1 = 0 →
      exec (.tamperConfig c) s = .next (answered c 0x601 p 0 [] s t)) ∧
  (∀ c s p t, Ready c tamperConfigCmd s p t → t.tamperRefused (p.int tamperFlds) = false → p.int tamperFlds 1 ≠ 0 →
      let s1 := t.modSrc (p.int tamperFlds 0) (tamperChanged (p.int tamperFlds))
      exec (.tamperConfig c) s = .next (answered c 0x601 p 0 [] s (if bit (p.int tamperFlds 1) 6 then
        { s1 with tamper := { s1.tamper with loopPeriod := (periodCode (p.int tamperFlds 8)).getD s1.tamper.loopPeriod } } else s1)))

/-- The alarm that the N-th event within the window completes (R463, R473): the source alarms once, its response is taken where its grade is above the
grade in force, and the alarm is written. -/
def Obligations.AlarmCompletes : Prop :=
  ∀ i scope (s : State), s.senses i = true → i < s.tamper.sources.length → (s.src i).alarmed = false →
    let times := ((s.src i).times.filter fun x => s.sinceMs x < s.limitW (s.src i)) ++ [s.tamper.tahrMs]
    let s2 := (s.modSrc i fun x => { x with asserted := true, events := sat 32 (x.events + 1) }).modSrc i fun x => { x with times := times }
    (times.length < s.limitN (s.src i) → ((s.tamperEvent i scope).src i).alarmed = false ∧ (s.tamperEvent i scope).chs = s.chs ∧
      (s.tamperEvent i scope).md = s.md ∧ (s.tamperEvent i scope).keys = s.keys) ∧
    (s.limitN (s.src i) ≤ times.length → s.tamperEvent i scope =
      ((s2.modSrc i fun x => { x with alarmed := true, alarms := sat 32 (x.alarms + 1), a3Raised := x.a3Raised || (s.src i).grade == 3 }).respond
        i (s.src i).grade scope).tamperRecord i (s.src i).grade) ∧
    (∀ g, g ≤ s.gradeInForce → s.respond i g scope = s)

/-! ### Power, renewal and start-up -/

/-- Requests of the power controller (R553 to R556, R596): a valid request is carried out at once; the reply waits where the set point moved; a
refused request writes its status and changes nothing else; GO is dropped while BUSY.
It says where these commands complete, as conclusions on the state and operands alone: pwrDomainSet, pwrStatus, go. -/
def Obligations.PowerRequests : Prop :=
  (∀ c s p t, Ready c pwrDomainSetCmd s p t →
      let f := pwrInt p.params
      let u := t.pwrApply .ow f
      t.pwrFault .ow f = none → ((u.grp (groupOf (f 0))).setMv = (t.grp (groupOf (f 0))).setMv ∨ 36 ≤ f 0) →
      exec (.pwrDomainSet c) s = .next (answered c 0x800 p (f 0) (u.pwrReply (f 0)) s u)) ∧
  (∀ c s p t, Ready c pwrDomainSetCmd s p t →
      let f := pwrInt p.params
      let u := t.pwrApply .ow f
      t.pwrFault .ow f = none → (u.grp (groupOf (f 0))).setMv ≠ (t.grp (groupOf (f 0))).setMv → f 0 < 36 →
      exec (.pwrDomainSet c) s = .next (running c p (.settle (f 0)) [] (f 0) s u)) ∧
  (∀ c s p t, Ready c pwrStatusCmd s p t → p.int [.int 2] 0 = 0xFFFF → exec (.pwrStatus c) s =
      .next (answered c 0x801 p 0xFFFF ((List.range 62).flatMap t.domBlock ++ (List.range 4).flatMap t.grpBlock) s t)) ∧
  (∀ c s p t, Ready c pwrStatusCmd s p t → p.int [.int 2] 0 ≤ 61 → p.int [.int 2] 0 ≠ 60 → exec (.pwrStatus c) s =
      .next (answered c 0x801 p (p.int [.int 2] 0) (t.domBlock (p.int [.int 2] 0) ++ (List.range 4).flatMap t.grpBlock) s t)) ∧
  (∀ w (s : State), (s.world w).up = true → (s.world w).powerBusy = true → exec (.go w) s = .next s) ∧
  (∀ w (s : State) st n, (s.world w).up = true → (s.world w).powerBusy = false → gapsZero pwrFlds 32 (padTo 32 (s.world w).powerReq) = true →
      pwrInt (padTo 32 (s.world w).powerReq) 1 < 256 → s.pwrFault w (pwrInt (padTo 32 (s.world w).powerReq)) = some (st, n) →
      exec (.go w) s = .next (s.modWorld w fun y => { y with powerStatus := st, powerDeferred := false })) ∧
  (∀ w (s : State), (s.world w).up = true → (s.world w).powerBusy = false →
      (gapsZero pwrFlds 32 (padTo 32 (s.world w).powerReq) = false ∨ 256 ≤ pwrInt (padTo 32 (s.world w).powerReq) 1) →
      exec (.go w) s = .next (s.modWorld w fun y => { y with powerStatus := .descMalformed, powerDeferred := false })) ∧
  (∀ w (s : State), (s.world w).up = true → (s.world w).powerBusy = false → gapsZero pwrFlds 32 (padTo 32 (s.world w).powerReq) = true →
      pwrInt (padTo 32 (s.world w).powerReq) 1 < 256 → s.pwrFault w (pwrInt (padTo 32 (s.world w).powerReq)) = none →
      let f := pwrInt (padTo 32 (s.world w).powerReq)
      let u := s.pwrApply w f
      exec (.go w) s = .next (u.modWorld w fun y =>
        { y with powerStatus := .done, powerDeferred := (u.dom (f 0)).deferred,
                 powerBusy := f 0 < 36 && (u.grp (groupOf (f 0))).setMv != (s.grp (groupOf (f 0))).setMv }))

/-- Entry to SLEEP, DEEP and OFF, wakes and exits, and the operating conditions (R54, R550 to R555, R567 to R569, R577): no domain goes deeper than its allowance; a channel
in DEEP holds no cached key; OFF is entered with its request and conditions alone. The group regulators (R565, R566): a read-back within 10 mV settles the set point; a
fault is counted and recorded; a retry ends it; a poll reads.
It says where these commands complete, as conclusions on the state and operands alone: sleepEntry, deepEntry, offEntry, domainWake, domainExitDone,
wakePin, rocChange, regulatorSettled, regulatorFault, regulatorRetry, regulatorPoll. -/
def Obligations.PowerStatesAndRegulators : Prop :=
  (∀ d (s : State), s.mayEnter d .sleep = true → exec (.sleepEntry d) s = .next ((s.enterState d .sleep).settle s)) ∧
  (∀ d (s : State), s.mayEnter d .deep = true → exec (.deepEntry d) s = .next (((s.deepLoss d).enterState d .deep).settle s)) ∧
  (∀ d p (s : State), s.mayEnter d p = true → p.code ≤ (s.allowance d).code) ∧
  (∀ n (s : State), n < 36 → n < s.chs.length → ((s.deepLoss n).ch n).cache = []) ∧
  (∀ (s : State), s.power.offRequest = true → s.mayOff = true → s.tamper.mainPower = true →
      ∃ t, exec .offEntry s = .next t ∧ t.tamper.mainPower = false ∧ (t.dom 61).pstate = .off ∧ t.keys.root = s.keys.root ∧ t.keys.keys = [] ∧
        t.renewal.nextKind = 2 ∧ t.er.nextSeq = s.er.nextSeq) ∧
  (∀ d src (s : State), d < 61 → wakesKind src (domKind d) = true → s.asleep d = true → (s.dom d).waking = none →
      exec (.domainWake d src) s = .next (s.modDom d fun x => { x with waking := some src })) ∧
  (∀ d src (s : State), 61 ≤ d ∨ wakesKind src (domKind d) = false → exec (.domainWake d src) s = .next s) ∧
  (∀ d w (s : State), s.asleep d = true → (s.dom d).waking = some w → domKind d = .channel →
      exec (.domainExitDone d) s = .next ((s.channelReturn d (wakeCode w)).settle s)) ∧
  (∀ d w (s : State), s.asleep d = true → (s.dom d).waking = some w → domKind d = .core →
      exec (.domainExitDone d) s = .next (((s.coreReturn d).wakeNote d (wakeCode w)).settle s)) ∧
  (∀ d w (s : State), s.asleep d = true → (s.dom d).waking = some w → domKind d = .fabric →
      exec (.domainExitDone d) s = .next (((s.wakeNote d (wakeCode w)).portReturn (d - 40)).settle s)) ∧
  (∀ d w (s : State), s.asleep d = true → (s.dom d).waking = some w → domKind d = .host →
      exec (.domainExitDone d) s = .next ((s.wakeNote d (wakeCode w)).settle s)) ∧
  (∀ win (s : State), win = false ∨ s.power.wakeLevel = true → (s.dom 61).pstate = .off →
      exec (.wakePin win) s = .next (s.modDom 61 fun d => { d with waking := some .wakePin })) ∧
  (∀ (s : State), s.power.wakeLevel = false → exec (.wakePin true) s = .next s) ∧
  (∀ j v r (s : State), exec (.rocChange j v r) s = .next (State.settle { s with md := { s.md with junctionOk := j, vhuOk := v, railsOk := r } } s)) ∧
  (∀ g mv (s : State), g < 4 → (s.grp g).settled = false → (s.grp g).fault = false → (s.grp g).setMv ≤ mv + 10 → mv ≤ (s.grp g).setMv + 10 →
      exec (.regulatorSettled g mv) s = .next ((s.groupSettled g mv).settle s)) ∧
  (∀ g mv (s : State), g < 4 → (s.grp g).settled = false → (s.grp g).setMv + 10 < mv → exec (.regulatorSettled g mv) s = .next s) ∧
  (∀ g mv (s : State), g < 4 → (s.grp g).fault = false → exec (.regulatorFault g mv) s = .next (State.settle (State.recordRegulator g 1 mv
      (s.modGrp g fun x => { x with fault := true, settled := false, readMv := mv % 4096, faults := sat 16 (x.faults + 1) })) s)) ∧
  (∀ g mv (s : State), g < 4 → (s.grp g).fault = true → (s.grp g).near mv = true →
      exec (.regulatorRetry g mv) s = .next (((s.groupSettled g mv).recordRegulator g 2 mv).settle s)) ∧
  (∀ g mv (s : State), g < 4 → (s.grp g).fault = true → (s.grp g).near mv = false →
      exec (.regulatorRetry g mv) s = .next (s.modGrp g fun x => { x with readMv := mv % 4096 })) ∧
  (∀ g mv ma (s : State), g < 4 → exec (.regulatorPoll g mv ma) s = .next (s.modGrp g fun x => { x with readMv := mv % 4096, readMa := ma % 2 ^ 20 })) ∧
  (∀ g mv (s : State), g < s.power.groups.length → let u := State.groupSettled g mv s
      (u.grp g).settled = true ∧ (u.grp g).fault = false ∧ (u.grp g).lastSettled = (s.grp g).setMv)

/-- Renewal commands (R581 to R586): an accepted image starts its trial, the open world's restart, or the rolling update; the trial ends after 10 s; the flash write ends
what is pending and floors never fall. Main supplies good starts a device that awaits it, at time 0, and READY is reached when its conditions hold (R572, R575, R576, R591).
It says where these commands complete, as conclusions on the state and operands alone: fwUpdate, owUpdate, mcUpdate, fwTrialEnd, mcChannelUpdateStep,
pldmActivateFirmware, imageFlashWrite, mainSuppliesGood, ready. -/
def Obligations.RenewalAndStartup : Prop :=
  (∀ c s p t, Ready c fwUpdateCmd s p t → t.jobOn (conflicts 0x900) 0 = false → t.updateFault 1 p.data = none →
      exec (.fwUpdate c) s = .next (running c p .trial [] 0 s (t.activateTw (imageOf p.data) (p.int [.int 1] 0 == 1)))) ∧
  (∀ c s p t, Ready c owUpdateCmd s p t → t.jobOn (conflicts 0x902) 0 = false → t.updateFault 2 p.data = none →
      exec (.owUpdate c) s = .next (running c p .owStart [] 0 s (t.activateOw (imageOf p.data) (p.int [.int 1] 0 == 1)))) ∧
  (∀ c s p t, Ready c mcUpdateCmd s p t → t.updateFault 3 p.data = none → t.renewal.bnActive = false →
      exec (.mcUpdate c) s = .next (answered c 0x901 p 0 [] s (t.startLoad (imageOf p.data)))) ∧
  (∀ (s : State), s.renewal.twTrial = true → s.worlds.tw.up = true → s.renewal.trialSince + 10000 ≤ s.glob.uptimeMs → ∃ t, exec .fwTrialEnd s = .next t ∧
      t.renewal.twTrial = false ∧ t.worlds.tw.prevImage = none ∧ t.worlds.tw.image = s.worlds.tw.image ∧ t.worlds.tw.up = true) ∧
  (∀ (s : State), s.glob.uptimeMs < s.renewal.trialSince + 10000 → exec .fwTrialEnd s = .next s) ∧
  (∀ ch image ok (s : State) i l, s.worlds.tw.up = true → ch < 36 → s.renewal.bnActive = true → s.renewal.bnImage = some i → s.renewal.bnLeft = ch :: l →
      (s.ch ch).pkRun = none → (s.ch ch).mcState = .updating →
      Image.written i image = true → exec (.mcChannelUpdateStep ch image true ok) s = .next (State.settle (State.nextLoad
        { ((s.modCh ch Channel.bnWiped).modCh ch (Channel.load i image)) with
            renewal := { s.renewal with bnDone := s.renewal.bnDone + 1, bnLeft := l } }) s)) ∧
  (∀ b (s : State), s.worlds.ow.up = true → s.worlds.tw.up = true → (imageOf b).kind = 3 → s.updateFault 3 b = none → s.renewal.bnActive = false →
      ∃ t, exec (.pldmActivateFirmware b) s = .next t ∧ t.hp.mctpReply = some .done ∧ t.keys = s.keys) ∧
  (∀ b (s : State) st, s.worlds.ow.up = true → s.worlds.tw.up = true → (imageOf b).kind = 2 ∨ (imageOf b).kind = 3 →
      s.updateFault (imageOf b).kind b = some st → exec (.pldmActivateFirmware b) s = .next { s with hp := { s.hp with mctpReply := some st } }) ∧
  (∀ (s : State), s.writeDue 3 = true → s.gate.st ≠ .opened → s.worlds.tw.up = true →
      ∃ t, exec (.imageFlashWrite 3 true) s = .next t ∧ t.renewal.mcPending = false ∧ t.renewal.mcCopy = 1 - s.renewal.mcCopy) ∧
  (∀ kind (s : State), s.writeDue kind = true → s.gate.st ≠ .opened → s.worlds.tw.up = true →
      exec (.imageFlashWrite kind false) s = .next (s.beginWrite kind)) ∧
  (∀ kind ok (s : State), s.gate.st = .opened ∨ s.writeDue kind = false → exec (.imageFlashWrite kind ok) s = .next s) ∧
  (∀ kind (s : State), s.renewal.twFloor ≤ (State.raiseFloors kind s).renewal.twFloor ∧ s.renewal.owFloor ≤ (State.raiseFloors kind s).renewal.owFloor ∧
      s.renewal.mcFuse ≤ (State.raiseFloors kind s).renewal.mcFuse) ∧
  (∀ b (s : State), s.awaitsSupplies = true → ∃ t, exec (.mainSuppliesGood b) s = .next t ∧ t.glob.uptimeMs = 0 ∧ t.tamper.mainPower = true ∧
      t.renewal.initDone = true ∧ t.renewal.kind = s.renewal.nextKind ∧ t.gate.twoFlash = bit b.gateMode 0 ∧ t.gate.espi = bit b.gateMode 1) ∧
  (∀ b (s : State), s.renewal.kind ≠ 0 → exec (.mainSuppliesGood b) s = .next s) ∧
  (∀ (s : State), s.renewal.ready = false → s.readyHolds = true → ∃ t, exec .ready s = .next t ∧ t.renewal.ready = true ∧ t.md.startup = false ∧
      t.md.promiseOn = true ∧ t.keys = s.keys ∧ t.er.log = s.er.log) ∧
  (∀ (s : State), s.readyHolds = false → exec .ready s = .next s)

/-! ### The fabric links -/

/-- A fabric link's bring-up (R502 to R510, R522, R523): enabling, training, the exchange of parameters, a session kept or AUTH, retraining and wake.
It says where these commands complete, as conclusions on the state and operands alone: en, fpSignalDetect, retrain, fpTrainComplete, linkInit,
fpInitRetry, fabricWake. -/
def Obligations.FabricBringUp : Prop :=
  (∀ p (s : State), p < 20 → (s.port p).en = false → s.barsUp = true → s.refusal 0 (0xB0000 + 0x40 * p) 4 true = none →
      exec (.en p true) s = .next (s.modPort p fun x => { x with en := true, cause := 1 })) ∧
  (∀ p (s : State), p < 20 → (s.port p).en = true → s.barsUp = true → s.refusal 0 (0xB0000 + 0x40 * p) 4 true = none →
      exec (.en p false) s = .next (((s.portDown p 0).modPort p fun x => { x with en := false }).settle s)) ∧
  (∀ p (s : State), (s.port p).en = true → (s.port p).st = .down → s.broughtUp p = true → s.portAsleep p = false →
      exec (.fpSignalDetect p) s = .next (s.modPort p fun x => { x with st := .train, cause := 0 })) ∧
  (∀ p (s : State), p < 20 → (s.port p).st = .up → s.barsUp = true → s.refusal 0 (0xB0000 + 0x40 * p) 4 true = none →
      exec (.retrain p) s = .next ((s.retrain p).settle s)) ∧
  (∀ p (s : State), p < 20 → (s.port p).st = .align ∨ (s.port p).st = .auth → s.barsUp = true → s.refusal 0 (0xB0000 + 0x40 * p) 4 true = none →
      exec (.retrain p) s = .next (s.retrain p)) ∧
  (∀ p (s : State), p < s.ports.length → (s.port p).st = .train → (s.port p).fullTrain = true → (s.port p).maxWidth = 2 →
      ∃ t, exec (.fpTrainComplete p 0xF) s = .next t ∧ (t.port p).st = .align ∧ (t.port p).width = 3 ∧ (t.port p).lanes = 0xF ∧
        (t.port p).excluded = 0 ∧ (t.port p).cause = 0 ∧ (∀ i, i < 4 → 8 ≤ (t.port p).margin.getD i 0)) ∧
  (∀ p (s : State), (s.port p).st = .train → exec (.fpTrainComplete p 0) s = .next ((s.portDown p 1).settle s)) ∧
  (∀ p (i : PeerInit) (s : State), (s.port p).st = .align → (s.port p).cause ≠ 2 → i.crcOk = true → s.pairOk p i = false →
      exec (.linkInit p i) s = .next ((s.modPort p fun x => { x with peerDev := i.dev % 16384 }).modPort p fun x =>
        { x with cause := 2, authSince := s.glob.uptimeMs })) ∧
  (∀ p (i : PeerInit) (s : State), (s.port p).st = .align → (s.port p).cause ≠ 2 → i.crcOk = true → s.pairOk p i = true → s.retainable p i = true →
      exec (.linkInit p i) s = .next ((((s.modPort p fun x => { x with peerDev := i.dev % 16384 }).modPort p fun x =>
        { x with peer := some i, txCredits := i.credits, rxCredits := [512, 1024, 8192, 512] }).portUp p).settle s)) ∧
  (∀ p (i : PeerInit) (s : State), (s.port p).st = .align → (s.port p).cause ≠ 2 → i.crcOk = true → s.pairOk p i = true → s.retainable p i = false →
      exec (.linkInit p i) s = .next (((((s.modPort p fun x => { x with peerDev := i.dev % 16384 }).modPort p fun x =>
        { x with peer := some i, txCredits := i.credits, rxCredits := [512, 1024, 8192, 512] }).dropSession p).modPort p fun x =>
          { x with txCredits := i.credits }).toAuth p)) ∧
  (∀ p (s : State), (s.port p).st = .align → (s.port p).cause = 2 → (s.port p).authSince + 1000 ≤ s.glob.uptimeMs →
      exec (.fpInitRetry p) s = .next (s.modPort p fun x => { x with cause := 0 })) ∧
  (∀ p (s : State), p < 20 → s.portAsleep p = true → (s.dom (40 + p)).waking = none →
      exec (.fabricWake p) s = .next (s.modDom (40 + p) fun d => { d with waking := some .fabric }))

/-- A link's session (R509 to R513): authentication brings the link UP with two keys of one secret, or leaves AUTH with CAUSE 3; a key update moves one
direction to its next key.
It says where these commands complete, as conclusions on the state and operands alone: auth, authRetry, keyUpdateDue, keyUpdate. -/
def Obligations.FabricSession : Prop :=
  (∀ p (a : PeerAuth) (s : State), (s.port p).st = .auth → (s.port p).cause ≠ 3 → a.crcOk = true → s.worlds.tw.up = true → s.authFault a = none →
      exec (.auth p a) s = .next (((s.modPort p (Port.establish s.hier.device s.glob.uptimeMs a)).sessionUp p).settle s)) ∧
  (∀ p (a : PeerAuth) (s : State) c, (s.port p).st = .auth → (s.port p).cause ≠ 3 → a.crcOk = true → s.worlds.tw.up = true → s.authFault a = some c →
      exec (.auth p a) s = .next ((s.modPort p fun x => { x with cause := 3, authSince := s.glob.uptimeMs }).record 0xA4 (0x300 + p) 0
        (pack [(1, p), (2, (s.port p).peerDev), (1, c)]))) ∧
  (∀ (a : PeerAuth) own now (x : Port), own ≠ x.peerDev → let y := Port.establish own now a x
      y.session = true ∧ y.txCtr = 0 ∧ y.rxCtr = 0 ∧ y.keyPhase = false ∧
      (own < x.peerDev → y.txKey ++ y.rxKey = kdf (authSecrets a own x.peerDev) "ZV1600 LINK" (leBytes 2 own ++ leBytes 2 x.peerDev ++ sha384 a.exchange) 64) ∧
      (x.peerDev < own → y.rxKey ++ y.txKey = kdf (authSecrets a own x.peerDev) "ZV1600 LINK" (leBytes 2 x.peerDev ++ leBytes 2 own ++ sha384 a.exchange) 64)) ∧
  (∀ p (s : State), (s.port p).st = .auth → (s.port p).cause = 3 → (s.port p).authSince + 1000 ≤ s.glob.uptimeMs →
      exec (.authRetry p) s = .next (s.toAuth p)) ∧
  (∀ p (s : State), p < s.ports.length → (s.port p).st = .up → 2 ^ 32 ≤ (s.port p).txCtr → (s.port p).txCtr < 2 ^ 34 →
      ∃ t, exec (.keyUpdateDue p) s = .next t ∧ (t.port p).txKey = nextKey (s.port p).txKey (!(s.port p).keyPhase) ∧ (t.port p).txCtr = 0 ∧
        (t.port p).rekeys = ((s.port p).rekeys + 1) % 2 ^ 32 ∧ (t.port p).rxKey = (s.port p).rxKey) ∧
  (∀ p (f : Frame) (s s1 : State), (s.port p).st = .up → s.takeFrame p f true = (s1, true) → (s1.port p).st = .up →
      exec (.keyUpdate p f) s = .next (s1.modPort p fun x =>
        { x with rxOldKey := x.rxKey, rxKey := nextKey x.rxKey (!x.rxPhase), rxPhase := !x.rxPhase, rxCtr := 0, rxAny := false }))

/-- Frames received in UP (R512, R514, R516 to R521): a tag that fails discards the frame and counts it; the frame in SEQ order with credits held is taken and moves SEQ and
the credits; a frame ahead of its turn opens a gap. The link's timers and limits (R506, R507, R513, R519).
It says where these commands complete, as conclusions on the state and operands alone: data, ctrl, retryTimeout, nakTimer, ackTimer, laneMarginFail,
fecUncorrectableLimit. -/
def Obligations.FabricFramesAndTimers : Prop :=
  (∀ p (f : Frame) ctl (s : State), f.tagOk = false → s.takeFrame p f ctl = (s.tagFailed p, false)) ∧
  (∀ p (f : Frame) ctl (s : State), f.tagOk = true → (s.port p).phaseOk f = true → f.reserved = false → f.len ≤ 128 → (ctl = true → f.len = 0) →
      f.nak = false → s.takeFrame p f ctl = ((s.modPort p (Port.counted f)).modPort p fun x => (x.acknowledged f).pump, true)) ∧
  (∀ p (f : Frame) (s s1 : State), (s.port p).st = .up → s.takeFrame p f false = (s1, true) → (s1.port p).st = .up → f.seq < 65536 →
      f.seq = (s1.port p).rxSeq → frameCredits f.len ≤ (s1.port p).rxCredits.getD f.vc 0 →
      let s2 := s1.modPort p fun x =>
        { x with gap := false, rxSeq := (x.rxSeq + 1) % 65536, rxCredits := x.rxCredits.modify f.vc fun c => c - frameCredits f.len }
      exec (.data p f) s = .next ((f.units.foldl (fun t h => t.takeUnitIn p f.vc h) (s2.portWork p)).modPort p (Port.freeVc f.vc))) ∧
  (∀ p (f : Frame) (s s1 : State), (s.port p).st = .up → s.takeFrame p f false = (s1, true) → (s1.port p).st = .up → (s1.port p).rxSeq < f.seq →
      f.seq < 32768 → exec (.data p f) s = .next (if (s1.port p).gap = true then s1 else
        s1.modPort p fun x => ({ x with gap := true, naks := x.naks + 1 } : Port).sentCtl 1)) ∧
  (∀ p (f : Frame) (s s1 : State), (s.port p).st = .up → s.takeFrame p f false = (s1, false) → exec (.data p f) s = .next (s1.settle s)) ∧
  (∀ p (f : Frame) (s s1 : State), (s.port p).st = .up → s.takeFrame p f true = (s1, true) → (s1.port p).st = .up → f.pwr = none →
      exec (.ctrl p f) s = .next s1) ∧
  (∀ p (s : State), (s.port p).st = .up → exec (.retryTimeout p) s = .next ((s.resend p).settle s)) ∧
  (∀ p (s : State), (s.port p).st = .up → (s.port p).gap = true →
      exec (.nakTimer p) s = .next (s.modPort p fun x => ({ x with naks := x.naks + 1 } : Port).sentCtl 1)) ∧
  (∀ p (s : State), (s.port p).st = .up → (s.port p).rxAny = true →
      exec (.ackTimer p) s = .next (s.modPort p fun x => ({ x with acks := x.acks + 1, rxOldKey := [] } : Port).sentCtl 1)) ∧
  (∀ p lane (s : State), (s.port p).st = .up → (s.port p).lanes.getLsbD lane = true → exec (.laneMarginFail p lane) s =
      .next (((s.modPort p fun x => { x with margin := x.margin.set lane 0 }).retrain p).settle s)) ∧
  (∀ p (s : State), (s.port p).st = .up → exec (.fecUncorrectableLimit p) s =
      .next (((s.modPort p fun x => { x with fecUncorr := sat 32 (x.fecUncorr + 16), gap := true }).retrain p).settle s)) ∧
  (∀ p (s : State), p < s.ports.length → (s.port p).st = .up → ((s.retrain p).port p).st = .train ∧ ((s.retrain p).port p).session = (s.port p).session ∧
      ((s.retrain p).port p).txKey = (s.port p).txKey ∧ ((s.retrain p).port p).replay = (s.port p).replay)

/-! ### The Etesian hierarchy -/

/-- Neighbours, the Lead's BEAT and its lease, and the vote (R526, R529 to R531, R539). `takeUnit` answers some state where the unit was received.
It says where these commands complete, as conclusions on the state and operands alone: hello, route, beat, beatAck, beatTimer, leaseExpire,
voteTimeout, voteReq, vote, partitionTimeout. -/
def Obligations.HierarchyLeadCommands : Prop :=
  (∀ p role dev dom ident term ap level holder (s s1 : State), s.takeUnit p 0x01 = some s1 → s1.hier.role ≠ 0 → dom = s1.hier.domainId →
      dev = s1.hier.device → ident ≠ s1.identityDigest → exec (.hello p role dev dom ident term ap level holder) s = .next (s1.duplicate p)) ∧
  (∀ p role dev dom ident term ap level holder (s s1 : State), s.takeUnit p 0x01 = some s1 → s1.hier.role ≠ 0 → dom = s1.hier.domainId →
      dev ≠ s1.hier.device → s1.hier.activeLead = false → exec (.hello p role dev dom ident term ap level holder) s =
        .next ((((((s1.modHier fun h => { h with identities := assocSet h.identities dev ident }).modPort p fun x =>
          { x with peerRole := role, peerDev := dev, peerLevel := if portKind p = 1 then level else x.peerLevel,
                   reach := if portKind p = 0 then x.reach else [(dev, holder)] }).formation role dev term).seeTerm term).refreshLevel))) ∧
  (∀ p added (s s1 : State), s.takeUnit p 0x02 = some s1 → portKind p = 0 → exec (.route p added []) s =
      .next (((s1.modPort p fun x => { x with reach := x.reach.filter (fun e => !(added.any fun a => a.1 == e.1)) ++ added }).sendAll upPortList
        (.route added [])).pathsLost)) ∧
  (∀ p term lead serial (s s1 : State), s.takeUnit p 0x03 = some s1 → s1.hier.role = 1 → s1.hier.level ≠ 1 → term = s1.hier.term →
      s1.hier.activeLead = false → exec (.beat p term lead serial) s = .next (s1.takeBeat term lead serial).catchUp.forwardRecords) ∧
  (∀ p term lead serial (s s1 : State), s.takeUnit p 0x03 = some s1 → s1.hier.role ≠ 0 → term < s1.hier.term →
      exec (.beat p term lead serial) s = .next (s1.modHier fun h => { h with lastAnyBeat := s1.glob.uptimeMs })) ∧
  (∀ p dev (s s1 : State), s.takeUnit p 0x04 = some s1 → s1.hier.activeLead = true → s1.hier.level1.contains dev = true →
      exec (.beatAck p dev s1.hier.term) s = .next (s1.modHier fun h => { h with beatAcks := assocSet h.beatAcks dev s1.glob.uptimeMs })) ∧
  (∀ (s : State), s.hier.activeLead = true → s.hier.beatSent + 50 ≤ s.glob.uptimeMs → exec .beatTimer s = .next s.sendBeat) ∧
  (∀ (s : State), s.hier.activeLead = true → s.leaseAcks < s.hier.majority → ∃ t, exec .leaseExpire s = .next t ∧ t.hier.activeLead = false ∧
      t.hier.term = s.hier.term) ∧
  (∀ (s : State), s.hier.majority ≤ s.leaseAcks → exec .leaseExpire s = .next s) ∧
  (∀ (s : State), s.hier.role = 3 → s.hier.activeLead = false → s.hier.lastBeat + 400 ≤ s.glob.uptimeMs →
      let n := (s.hier.candidate.getD s.hier.term) + 1
      exec .voteTimeout s = .next ((s.modHier fun h => { h with candidate := some n, votes := [], votePending := none, lastBeat := s.glob.uptimeMs }).sendAll
        (s.upOf downPorts) (.voteReq n s.hier.applied))) ∧
  (∀ p term ap (s s1 : State), s.takeUnit p 0x05 = some s1 → s1.hier.level = 1 → s1.hier.role ≠ 3 → s1.hier.lastBeat + 300 ≤ s1.glob.uptimeMs →
      s1.hier.votedTerms.contains term = false → s1.hier.term < term → exec (.voteReq p term ap) s =
        .next ((s1.modHier fun h => { h with votedTerms := term :: h.votedTerms }).sendUnit p (.vote term (highest s1.hier.pendings))))  ∧
  (∀ p term ap (s s1 : State), s.takeUnit p 0x05 = some s1 → s1.hier.votedTerms.contains term = true ∨ term ≤ s1.hier.term → exec (.voteReq p term ap) s = .next s1) ∧
  (∀ p dev term pd (s s1 : State), s.takeUnit p 0x06 = some s1 → s1.hier.role = 3 → s1.hier.candidate = some term → s1.hier.level1.contains dev = true →
      s1.hier.votes.contains dev = false → s1.hier.majority ≤ s1.hier.votes.length + 1 → exec (.vote p dev term pd) s =
        .next ((s1.modHier fun h => { h with votes := s1.hier.votes ++ [dev], votePending := highest (h.votePending.toList ++ pd.toList) }).becomeActive
          term (s1.hier.votes.length + 1))) ∧
  (∀ (s : State), s.hier.role ≠ 0 → s.hier.activeLead = false → s.hier.state ≠ 1 → s.hier.lastAnyBeat + 1000 ≤ s.glob.uptimeMs →
      exec .partitionTimeout s = .next (s.setFab 4 0))

/-- Changes of the domain and reconciliation (R532, R535, R540, R541): a change is held and acknowledged before its commit, applied in serial order alone, and a device that
misses one asks for it. Records carried upward (R544, R545): a record goes into the aggregation ring and is acknowledged, AGG_HEAD frees entries, an acknowledgement
moves FWD_SEQ.
It says where these commands complete, as conclusions on the state and operands alone: change, commit, changeAck, dkActivateIssue, syncReq, sync,
record, aggHead, recordAck. -/
def Obligations.HierarchyChangesAndRecords : Prop :=
  (∀ p (c : Change) (s s1 : State), s.takeUnit p 0x10 = some s1 → s1.hier.role ≠ 0 → s1.hier.activeLead = false → s1.hier.term ≤ c.term →
      let s2 := s1.modHier fun h => { h with term := Nat.max h.term c.term }
      (c.committed = true → c.serial ≤ s1.hier.applied + 1 → exec (.change p c) s = .next (s2.applyNext c)) ∧
      (c.committed = true → s1.hier.applied + 1 < c.serial → exec (.change p c) s = .next s2.askSync) ∧
      (c.committed = false → s1.hier.level = 1 ∨ s1.hier.role = 3 → s1.hier.applied < c.serial → s2.heldByAlarm c = false →
        exec (.change p c) s = .next ((s2.modHier fun h => { h with pendings := upsert (·.serial) c h.pendings }).sendTo s2.hier.leadDev
          (.changeAck c.serial [s2.hier.device])))) ∧
  (∀ (c : Change) (s : State), c.serial ≠ s.hier.applied + 1 → s.applyNext c = s) ∧
  (∀ p term serial c (s s1 : State), s.takeUnit p 0x11 = some s1 → s1.hier.role = 1 ∨ s1.hier.role = 2 → s1.hier.activeLead = false → s1.hier.term ≤ term →
      serial = s1.hier.applied + 1 → s1.hier.pendings.find? (fun c => c.serial == serial && c.term == term) = some c →
      exec (.commit p term serial) s = .next (s1.applyNext c)) ∧
  (∀ p serial devs (s s1 : State), s.takeUnit p 0x12 = some s1 → s1.hier.activeLead = true →
      let old := s1.hier.acksOf serial
      let s2 := s1.modHier fun h => { h with acks := assocSet h.acks serial (old ++ devs.filter fun d => !old.contains d) }
      exec (.changeAck p serial devs) s = .next ((s2.commitReady s2.hier.pendings.length).settle s)) ∧
  (∀ (s : State) at_ v dk, s.hier.stageAt = some at_ → s.keys.staged = some (v, dk) → s.hier.activeLead = true → s.hier.pendings = [] →
      1000 * s.hier.stageWaitS ≤ s.glob.uptimeMs - at_ → exec .dkActivateIssue s = .next (s.issueChange (.dkActivate v))) ∧
  (∀ p src serial (s s1 : State), s.takeUnit p 0x13 = some s1 → s1.hier.activeLead = true →
      ((s1.hier.log.head?.map (·.serial)).getD (s1.hier.applied + 1)) ≤ serial + 1 → exec (.syncReq p src serial) s =
        .next (s1.sendTo src (.sync src (.changes (s1.hier.log.filter fun c => serial < c.serial))))) ∧
  (∀ p cs (s s1 : State), s.takeUnit p 0x14 = some s1 → s1.hier.role ≠ 0 → s1.hier.activeLead = false → s1.tamper.latch ≠ 3 →
      let s2 := cs.foldl (fun t (c : Change) => if c.serial ≤ s1.hier.applied then t.refill s1.keys.keys c else t.applyNext c) s1
      exec (.sync p (.changes cs)) s = .next ((s2.synced s1.hier.applied false).settle s)) ∧
  (∀ (k : ChangeKind) (s : State), let t := s.issueChange k
      t.hier.nextSerial = s.hier.nextSerial + 1 ∧
      t.hier.pendings = s.hier.pendings ++ [{ term := s.hier.term, serial := s.hier.nextSerial, kind := k, committed := false }]) ∧
  (∀ p src r (s s1 : State), s.takeUnit p 0x30 = some s1 → s1.hier.activeLead = true → s1.hier.aggFull = false →
      let a := (State.aggregate src (s1, none) r).1
      exec (.record p src [r]) s = .next (if a.hier.aggFull then a.modHier fun h => { h with aggHeldAcks := assocSet h.aggHeldAcks src (fieldLe r 0 8) }
                                         else a.sendTo src (.recordAck src (fieldLe r 0 8)))) ∧
  (∀ p src r (s s1 : State), s.takeUnit p 0x30 = some s1 → s1.hier.activeLead = true → s1.hier.aggFull = true → exec (.record p src [r]) s = .next s1) ∧
  (∀ v (s : State), s.hier.activeLead = false → s.barsUp = true → s.refusal 0 0xC0040 4 true = none →
      exec (.aggHead v) s = .next (s.modHier fun h => { h with aggHead := v % 2 ^ 20 })) ∧
  (∀ p seq (s s1 : State), s.takeUnit p 0x31 = some s1 →
      exec (.recordAck p seq) s = .next (s1.modHier fun h => { h with fwdSeq := Nat.max h.fwdSeq seq }).forwardRecords)

/-- The hierarchy's packet commands (R524, R533 to R535, R547).
It says where these commands complete, as conclusions on the state and operands alone: fabStatus, fabRoleSet, dkCreate, commandReply, dkRollover,
dkStatus. -/
def Obligations.HierarchyPacketCommands : Prop :=
  (∀ c s p t, Ready c fabStatusCmd s p t → exec (.fabStatus c) s = .next (answered c 0x700 p 0
      (layBytes (t.hierRegs ++ t.ports.flatMap fun x => [(.int 1, leBytes 1 x.st.code), (.int 2, leBytes 2 x.peerDev)])) s t)) ∧
  (∀ c s p t, Ready c fabRoleSetCmd s p t → t.ports.any (·.en) = false → t.roleRange p (t.roleReq p) = false → t.hier.activeLead = false →
      (t.hier.holder = false ∨ (t.roleReq p).holder ≠ 0 ∨ (t.roleReq p).role = 3) →
      exec (.fabRoleSet c) s = .next (answered c 0x701 p 0 [] s ((t.setRole (t.roleReq p)).modHier fun x =>
        { x with level1 := (t.roleReq p).level1, remoteTimeoutMs := (t.roleReq p).timeout }))) ∧
  (∀ c s p t, Ready c dkCreateCmd s p t → t.jobOn (conflicts 0x702) 0 = false → t.keys.dks = [] → p.str dkCreateFlds 0 = t.hier.domainId →
      (t.gen 0).st = .seeded ∨ (t.gen 0).st = .stretched → t.rng.served.find? (·.1 == c) = none → (t.gen 0).waiting.length < Config.waitList →
      exec (.dkCreate c) s =
        .next (running c p .draw [] 0 s (t.modGen 0 fun g => { g with prPending := true, waiting := g.waiting ++ [.cmd c 32 true] }))) ∧
  (∀ c j s p t dk u, Resumes c dkCreateCmd j s p t → t.keys.dks = [] → p.str dkCreateFlds 0 = t.hier.domainId →
      t.cmdDraw j.caller 32 true 0 = .inl (dk, u) →
      exec (.commandReply c) s = .next (runningOn j (.change u.hier.nextSerial) j.reply s (u.issueChange (.dkNew dk u.hier.domainId)))) ∧
  (∀ c s p t, Ready c dkRolloverCmd s p t → t.dkVersion ≠ 255 → t.dkVersion ≠ 0 → t.rolling = false →
      (t.gen 0).st = .seeded ∨ (t.gen 0).st = .stretched → t.rng.served.find? (·.1 == c) = none → (t.gen 0).waiting.length < Config.waitList →
      exec (.dkRollover c) s =
        .next (running c p .draw [] 0 s (t.modGen 0 fun g => { g with prPending := true, waiting := g.waiting ++ [.cmd c 32 true] }))) ∧
  (∀ c j s p t dk u, Resumes c dkRolloverCmd j s p t → t.dkVersion ≠ 255 → t.dkVersion ≠ 0 → t.rolling = false →
      t.cmdDraw j.caller 32 true 0 = .inl (dk, u) →
      exec (.commandReply c) s = .next (runningOn j (.change u.hier.nextSerial) (leBytes 1 (t.dkVersion + 1)) s
          ((u.modHier fun h => { h with activateAfterS := p.int rolloverFlds 0, stageWaitS := p.int rolloverFlds 1 }).issueChange
            (.dkStage (t.dkVersion + 1) dk)))) ∧
  (∀ c s p t e, Ready c dkStatusCmd s p t → t.keys.dks = [e] → exec (.dkStatus c) s = .next (answered c 0x704 p 0
      (layBytes ([(.int 1, leBytes 1 e.version), (.int 1, leBytes 1 e.state), (.int 1, leBytes 1 e.lc), (.str 16, e.domainId), (.int 8, leBytes 8 e.createdSeq)] ++
        (List.replicate 3 [(.int 1, [0]), (.int 1, [0]), (.int 1, [0]), (.str 16, zeros 16), (.int 8, zeros 8)]).flatten ++
        [(.int 1, leBytes 1 ((t.keys.staged.map Prod.fst).getD 0)), (.int 2, leBytes 2 t.stagedAcks), (.int 2, leBytes 2 t.reachable)])) s t))

/-! ### Rules of the whole machine -/

/-- The host port's error log (R71): the first error after HP_ERR_STATUS was last all zero is held; a later one sets its bit and LOG_OVERFLOW and leaves
the log; clearing every bit re-arms it.
It says where this command completes: hpErrStatusClear. -/
def Obligations.ErrorLogHoldsTheFirst : Prop :=
  ∀ (b cause code : Nat) (write : Bool) (bar sl addr : Nat) (s : State), b < 5 →
    let t := State.hpError b cause code write bar sl addr s
    (s.hp.errStatus = 0 → t.hp.errStatus = BitVec.ofNat 6 (2 ^ b) ∧ t.hp.errAddr = addr ∧ t.hp.errCause = cause ∧ t.hp.errCode = code ∧
      t.hp.errWrite = write ∧ t.hp.errBar = bar ∧ t.hp.errSlice = sl) ∧
    (s.hp.errStatus ≠ 0 → t.hp.errStatus.getLsbD b = true ∧ t.hp.errStatus.getLsbD 5 = true ∧ t.hp.errStatus &&& s.hp.errStatus = s.hp.errStatus ∧
      t.hp.errAddr = s.hp.errAddr ∧ t.hp.errCause = s.hp.errCause ∧ t.hp.errCode = s.hp.errCode ∧ t.hp.errWrite = s.hp.errWrite ∧
      t.hp.errBar = s.hp.errBar ∧ t.hp.errSlice = s.hp.errSlice) ∧
    (s.barsUp = true → s.refusal 0 0x10008 4 true = none → ∃ u, exec (.hpErrStatusClear 0x3F) s = .next u ∧ u.hp.errStatus = 0)

/-- The default map (R446): a core in machine or supervisor mode reads, writes and executes in its own world's half of Serow SRAM, and reads and writes the
peripherals assigned to its world; every other access faults. -/
def Obligations.DefaultMap : Prop :=
  ∀ (w : World) (p : Priv) (t : AccessType) (a : Nat) (b : Blk) (s : State), blockAt a = some b → s.regionAt a = none →
    (s.admits (.core w p) t a = true ↔ p ≠ .user ∧ (b = .sram w ∨ (t ≠ .execute ∧ (∀ h, b ≠ .sram h) ∧ s.periphWorld b = some w))) ∧
    s.admits .host t a = false ∧ s.admits .channel t a = false ∧ s.admits .debug t a = false ∧
    (∀ core data, core < 4 → s.coreWorld core = w → (s.world w).up = true → s.admits (.core w p) t a = false →
      exec (.serowAccess core p t a data) s = .next (s.serowFault w p t a))

/-- The log when it is full (R491): every flush writes all the waiting records, the oldest give way, OLDEST_SEQ is the oldest still held, and those
replaced above ACK_SEQ are counted.
It says where this command completes: erFlushDone. -/
def Obligations.LogReplacesTheOldest : Prop :=
  ∀ s : State, s.er.flushing = true → ∃ t, exec .erFlushDone s = .next t ∧
    (let all := s.er.log ++ s.er.buffer
     let n := all.length - Config.logRecords
     t.er.log = all.drop n ∧ t.er.buffer = [] ∧ t.er.log.length ≤ Config.logRecords ∧
     t.er.oldestSeq = (((all.drop n).head?).map (·.seq)).getD s.er.nextSeq ∧
     t.er.overwritten = sat 32 (s.er.overwritten + ((all.take n).filter fun x => s.er.ackSeq < x.seq).length))

/-- DEV_MODE after the changes of a command have been brought in line is the most restrictive of the modes the causes present call for, in the order
ZEROISED, KEEP, REDUCED, FULL (R30). -/
def Obligations.ModeIsTheMostRestrictive : Prop :=
  ∀ before s : State, let t := s.settle before
    (t.md.zeroised = true → t.md.mode = .zeroised) ∧
    (t.md.zeroised = false → t.md.startup = true ∨ t.md.manager = true ∨ t.md.noChannel = true ∨ t.md.alarm = true → t.md.mode = .keep) ∧
    (t.md.zeroised = false → t.md.startup = false → t.md.manager = false → t.md.noChannel = false → t.md.alarm = false →
      t.md.mode = if 32 ≤ t.inServiceCount then .full else .reduced)

/-- SLICE_CREATE that names a bound PASID, or a slice number that is not FREE, is refused with SLICE_BUSY (R85): the slice table, the interrupt entries and
the keys stand as they were, and no command begins to run. -/
def Obligations.CreateRefusedWhenBound : Prop :=
  ∀ c s p t, Ready c sliceCreateCmd s p t →
    let n := p.int createFlds 0
    (t.slice n).exists_ = true ∨ t.pasidBound n (p.spec createFlds 1).pasid = true →
    exec (.sliceCreate c) s = .next ((t.reply c (logOf 0x100) p .sliceBusy 0 n p.part p.partCount []).settle s) ∧
    (t.reply c (logOf 0x100) p .sliceBusy 0 n p.part p.partCount []).slices = t.slices ∧
    (t.reply c (logOf 0x100) p .sliceBusy 0 n p.part p.partCount []).ints = t.ints ∧
    (t.reply c (logOf 0x100) p .sliceBusy 0 n p.part p.partCount []).keys = t.keys ∧ t.slices = s.slices ∧ t.ints = s.ints ∧ t.keys = s.keys

/-- The state after reset: what the spec states of a part as shipped (R36, R310, R377, R378, R458, R462, R489, R500, R523, R548, R553, R571, R618, R619). Values
that the model chose (log entry 6) are not named here. -/
def Obligations.ResetState : Prop :=
  let r := State.reset
  r.pending = [] ∧ r.md.mode = .keep ∧ r.md.startup = true ∧ r.md.zeroised = false ∧ r.keys.lc = .blank ∧ r.keys.root = none ∧ r.keys.keys = [] ∧
  r.dual.m = 0 ∧ (∀ c ∈ r.dual.custodians, c.alg = 0) ∧ r.er.nextSeq = 1 ∧ r.er.notifyGrade = 1 ∧ r.er.ackWarn = 2 ∧
  r.chs.length = 36 ∧ (∀ c ∈ r.chs, c.st = .selftest ∧ c.mcState = .empty) ∧ (∀ p ∈ r.ports, p.st = .down ∧ p.en = false ∧ p.maxWidth = 2) ∧
  r.hier.role = 0 ∧ r.hier.level = 7 ∧ (∀ g ∈ r.power.groups, g.setMv = 800) ∧ r.tamper.latch = 0 ∧ r.tamper.cellArmed = 0 ∧
  r.tamper.sources.length = 32 ∧ (r.tamper.sources.map (·.grade)) =
    [4, 4, 4, 4, 4, 3, 3, 3, 3, 3, 3, 3, 3, 3, 3, 3, 2, 1, 3, 4, 2, 1, 4, 2, 1, 4, 3, 3, 3, 3, 0, 4] ∧
  r.worlds.coreOw = 0xC ∧ r.worlds.twRegions = 64 ∧ r.worlds.tw.up = false ∧ r.worlds.ow.up = false ∧ (∀ n, (r.slice n).state = .free) ∧
  (∀ i, (r.intE i).mask = true ∧ (r.intE i).allocated = false) ∧ Sound r

/-- A step keeps what is fixed of the machine (the model's own invariant, after R9, R15, R286, R312, R377, R390, R458, R489, R501, R549): the number of
channels, ports, domains, regulators, sources, banks, generators, card ports, custodians and gate slots, the canonical form of memory, the end of the event
numbers reserved, and that no lifecycle transition stands half done between two commands. -/
def Obligations.StepKeepsSound : Prop :=
  ∀ s t : State, Sound s → step s = .next t → Sound t

/-- In a sound state no step takes back an event number (R489), a fused or recorded image floor (R580) or a count of re-roots (R311), and none moves the
lifecycle state but along the table of R310: BLANK to DEVELOPMENT or PRODUCTION, PRODUCTION to RETURNED, and each of the three but BLANK to RETIRED, which is
never left. A step takes at most the command at the front of the queue. -/
def Obligations.StepNeverTakesBack : Prop :=
  ∀ s t : State, Sound s → step s = .next t →
    s.er.nextSeq ≤ t.er.nextSeq ∧ s.renewal.twFloor ≤ t.renewal.twFloor ∧ s.renewal.owFloor ≤ t.renewal.owFloor ∧ s.renewal.mcFuse ≤ t.renewal.mcFuse ∧
    s.keys.reRoots ≤ t.keys.reRoots ∧
    (t.keys.lc = s.keys.lc ∨ (s.keys.lc = .blank ∧ (t.keys.lc = .development ∨ t.keys.lc = .production)) ∨
     (s.keys.lc = .production ∧ t.keys.lc = .returned) ∨
     ((s.keys.lc = .development ∨ s.keys.lc = .production ∨ s.keys.lc = .returned) ∧ t.keys.lc = .retired)) ∧
    (t.pending = s.pending ∨ ∃ c, s.pending = c :: t.pending)
end

