-- ==== Sys2Proof/Laws/Commands.lean ====
section
/-! SUPPORT. What a command packet that passes every check comes to. -/

namespace Sys2Proof.Machine

/-- Checks that all pass lead to the run. -/
theorem State.checked_ready {c : Caller} {k : Cmd} {run : Run} {u : State} {p : Packet}
    (hb : u.boxClosed c = true → u.md.mode = .zeroised)
    (hz : ((u.md.mode == .zeroised && !k.zOk && !(u.who c == .card && k.op == 0x211)) || (u.md.alarm && k.alarmBar)) = false)
    (hau : k.auth u (u.who c) (u.ruling c k p) = true)
    (hg : (gateBarred k.op && isGate c) = false) (v : State)
    (hv : v = if u.asksQuorum c k p && !u.laterPart c k p then u.consume c else u)
    (hq : (u.asksQuorum c k p && !u.laterPart c k p) = true → u.quorumFault c p = none)
    (hbody : k.bodyFault v (u.asksQuorum c k p) (u.laterPart c k p) p = none)
    (hd : v.wasDiscarded c p = false) (hpart : k.partFault v c p = false) (hbl : (v.keys.lc == .blank && k.blankBar) = false)
    (hl : k.parts = .multi → p.part + 1 = Nat.max 1 p.partCount) (q : Packet) (hqq : q = if k.parts = .multi then v.wholePacket c p else p)
    (hdig : u.asksQuorum c k p = true → q.digest = v.boundDigest c) :
    State.checked c k run p u = State.conclude c (logOf k.op) q (run c q false ((v.endAssembly c).checkReads k (u.who c) q)) := by
  have hlast : (k.parts != .multi || decide (p.part + 1 = Nat.max 1 p.partCount)) = true := by
    by_cases hm : k.parts = .multi
    · simp [hl hm]
    · simp [hm]
  unfold State.asksQuorum State.laterPart at *
  have hb2 : (u.boxClosed c && u.md.mode != .zeroised) = false := by
    cases h1 : u.boxClosed c
    · rfl
    · simp [hb h1]
  unfold State.checked
  simp only [hb2, hz, hau, hg, hlast, Bool.not_true, Bool.or_self, Bool.false_eq_true, if_false]
  generalize k.quorum u (u.who c) (u.ruling c k p) = n at *
  generalize (k.parts == PartKind.multi && decide (0 < p.part) && ((u.assembly c).isSome || u.wasDiscarded c p)) = l at *
  subst hv
  cases n <;> cases l <;> simp_all

/-- A packet that passes every check runs its command, and its outcome is replied or held. -/
theorem State.command_ready {c : Caller} {k : Cmd} {run : Run} {s t : State} {q : Packet} (h : Ready c k s q t) :
    s.command c k run = (State.conclude c (logOf k.op) q (run c q false t)).settle s := by
  obtain ⟨hdr, area, hp, ha, hh, hop, hb, hz, hau, hg, hq, hbody, hd, hpart, hbl, hl, hqq, hdig, rfl⟩ := h
  have hg2 : (!s.mayAccept c || (headerFault hdr area).isSome || (mkPacket hdr area k.data).opcode != k.op) = false := by
    simp [ha, hh, hop]
  simp only [State.command, hp, hg2, Bool.false_eq_true, if_false]
  rw [State.checked_ready hb hz hau hg _ rfl hq hbody hd hpart hbl hl q hqq hdig]

/-- A running command that resumes and comes to DONE is committed and answered. -/
theorem State.commandReply_resumes {c : Caller} {k : Cmd} {j : Job} {s t u : State} {q : Packet} {run : Run} {body : Bytes} {obj : Nat}
    (h : Resumes c k j s q t) (hrow : commandRow k.op = some (k, run)) (hrun : run j.caller q true t = .done .done 0 body obj u) :
    execCommandReply c s = .next (commitReply j q obj body s u) := by
  obtain ⟨htw, hj, hop, hk, hz, ha, rfl, rfl⟩ := h
  have hstep : s.jobStep j = some (s.rerunJob j) := by
    rcases hk with ⟨hk, hm⟩ | ⟨m, n, ids, b, hk, hi, hd⟩
    · simp only [State.jobStep, hk, hm, if_true]
    · simp only [State.jobStep, hk, hi, hd, decide_true, Bool.and_self, if_true]
  have hbar : ((s.md.zeroised && !k.zOk) || (s.md.alarm && k.alarmBar)) = false := by
    cases h1 : s.md.zeroised <;> cases h2 : s.md.alarm <;> simp_all
  have hr : s.rerunJob j = (u.forgetDraw j.caller).reply j.caller (logOf j.opcode) (j.packet k.data) .done 0 obj (j.packet k.data).part (j.packet k.data).partCount
      (if body.isEmpty then j.reply else body) := by
    unfold State.rerunJob
    simp only [hop, hrow, hbar, Bool.false_eq_true, if_false, hrun]
    simp
  unfold execCommandReply
  simp only [htw, hj, hstep, hr, Bool.not_true, Bool.false_eq_true, if_false]
  rfl

/-- A running command that runs again and has still to wait stands in its place among the commands that run. -/
theorem State.commandReply_runs {c : Caller} {k : Cmd} {j : Job} {s t u : State} {q : Packet} {run : Run} {kind : JobKind} {body : Bytes}
    (h : Resumes c k j s q t) (hrow : commandRow k.op = some (k, run)) (hrun : run j.caller q true t = .hold kind body 0 u) :
    execCommandReply c s = .next (runningOn j kind (if body.isEmpty then j.reply else body) s u) := by
  obtain ⟨htw, hj, hop, hk, hz, ha, rfl, rfl⟩ := h
  have hstep : s.jobStep j = some (s.rerunJob j) := by
    rcases hk with ⟨hk, hm⟩ | ⟨m, n, ids, b, hk, hi, hd⟩
    · simp only [State.jobStep, hk, hm, if_true]
    · simp only [State.jobStep, hk, hi, hd, decide_true, Bool.and_self, if_true]
  have hbar : ((s.md.zeroised && !k.zOk) || (s.md.alarm && k.alarmBar)) = false := by
    cases h1 : s.md.zeroised <;> cases h2 : s.md.alarm <;> simp_all
  unfold execCommandReply
  simp only [htw, hj, hstep, Bool.not_true, Bool.false_eq_true, if_false]
  unfold State.rerunJob
  simp only [hop, hrow, hbar, Bool.false_eq_true, if_false, hrun, runningOn]

/-- A command's draw with prediction resistance waits for a reseed (R299). -/
theorem State.cmdDraw_resistant (c : Caller) (n obj : Nat) (t : State) (h1 : (t.gen 0).st = .seeded ∨ (t.gen 0).st = .stretched)
    (h2 : t.rng.served.find? (·.1 == c) = none) (h3 : (t.gen 0).waiting.length < Config.waitList) :
    t.cmdDraw c n true obj =
      .inr (.hold .draw [] obj (t.modGen 0 fun g => { g with prPending := true, waiting := g.waiting ++ [.cmd c n true] })) := by
  unfold State.cmdDraw State.draw
  have h4 : (((t.modGen 0 fun g => { g with prPending := true }).gen 0).waiting.length < Config.waitList) := h3
  rcases h1 with h1 | h1 <;> simp only [h1, h2, State.wait, if_pos h4] <;> simp <;> rfl

end Sys2Proof.Machine
end

