-- ==== Sys2Proof/Laws/Memory.lean ====
section
/-! SUPPORT. Serow SRAM: a byte written reads back, every other byte reads as before, and every operation keeps the canonical form. -/

namespace Sys2Proof.Machine

/-- The head of a rising list lies below every other cell. -/
theorem Mem.rising_lt : ∀ {m : List Host.Cell} {c : Host.Cell}, Mem.rising (c :: m) = true → ∀ x ∈ m, c.1 < x.1
  | [], _, _, _, hx => by simp at hx
  | d :: r, c, h, x, hx => by
    simp only [Mem.rising, Bool.and_eq_true, decide_eq_true_eq] at h
    rcases List.mem_cons.1 hx with rfl | hr
    · exact h.1
    · exact Nat.lt_trans h.1 (Mem.rising_lt h.2 x hr)

/-- A rising list without its head is rising. -/
theorem Mem.rising_tail {m : List Host.Cell} {c : Host.Cell} (h : Mem.rising (c :: m) = true) : Mem.rising m = true := by
  cases m with
  | nil => rfl
  | cons d r => simp only [Mem.rising, Bool.and_eq_true] at h; exact h.2

/-- A rising list stays rising under a lower head. -/
theorem Mem.rising_cons {m : List Host.Cell} {c : Host.Cell} (h : Mem.rising m = true) (hc : ∀ x ∈ m, c.1 < x.1) :
    Mem.rising (c :: m) = true := by
  cases m with
  | nil => rfl
  | cons d r => simp only [Mem.rising, Bool.and_eq_true, decide_eq_true_eq]; exact ⟨hc d (by simp), h⟩

/-- A cell of a written list is the written one or an old one. -/
theorem Mem.mem_put {a : Nat} {v : Byte} : ∀ {m : List Host.Cell} {x : Host.Cell}, x ∈ Mem.put a v m → x = (a, v) ∧ v ≠ 0 ∨ x ∈ m
  | [], x, h => by
    simp only [Mem.put] at h
    split at h
    · simp at h
    · rename_i hv; simp only [List.mem_singleton] at h; exact .inl ⟨h, hv⟩
  | c :: r, x, h => by
    simp only [Mem.put] at h
    split at h
    · split at h
      · exact .inr h
      · rename_i hv
        rcases List.mem_cons.1 h with rfl | h
        · exact .inl ⟨rfl, hv⟩
        · exact .inr h
    · split at h
      · split at h
        · exact .inr (List.mem_cons_of_mem _ h)
        · rename_i hv
          rcases List.mem_cons.1 h with rfl | h
          · exact .inl ⟨rfl, hv⟩
          · exact .inr (List.mem_cons_of_mem _ h)
      · rcases List.mem_cons.1 h with rfl | h
        · exact .inr (by simp)
        · rcases Mem.mem_put h with h | h
          · exact .inl h
          · exact .inr (List.mem_cons_of_mem _ h)

/-- A write of one byte keeps the addresses rising. -/
theorem Mem.rising_put {a : Nat} {v : Byte} : ∀ {m : List Host.Cell}, Mem.rising m = true → Mem.rising (Mem.put a v m) = true
  | [], _ => by simp only [Mem.put]; split <;> rfl
  | c :: r, h => by
    have hr := Mem.rising_tail h
    have hc := Mem.rising_lt h
    simp only [Mem.put]
    split
    · rename_i ha
      split
      · exact h
      · refine Mem.rising_cons h fun x hx => ?_
        rcases List.mem_cons.1 hx with rfl | hx
        · exact ha
        · exact Nat.lt_trans ha (hc x hx)
    · split
      · rename_i _ he
        split
        · exact hr
        · exact Mem.rising_cons hr fun x hx => by simpa [he] using hc x hx
      · rename_i h1 h2
        refine Mem.rising_cons (Mem.rising_put hr) fun x hx => ?_
        rcases Mem.mem_put hx with ⟨rfl, -⟩ | hx
        · show c.1 < a; omega
        · exact hc x hx

/-- A write of one byte keeps the canonical form. -/
theorem Mem.put_wf {a : Nat} {v : Byte} {m : List Host.Cell} (h : Memory.wf m = true) : Memory.wf (Mem.put a v m) = true := by
  simp only [Memory.wf, Bool.and_eq_true, List.all_eq_true] at *
  refine ⟨Mem.rising_put h.1, fun x hx => ?_⟩
  rcases Mem.mem_put hx with ⟨rfl, hv⟩ | hx
  · simpa using hv
  · exact h.2 x hx

/-- A write keeps the canonical form. -/
theorem Mem.write_wf : ∀ {b : Bytes} {a : Nat} {m : List Host.Cell}, Memory.wf m = true → Memory.wf (Mem.write a b m) = true
  | [], _, _, h => h
  | _ :: bs, _, _, h => Mem.write_wf (b := bs) (Mem.put_wf h)

/-- Cells left out keep the canonical form. -/
theorem Mem.rising_filter {p : Host.Cell → Bool} : ∀ {m : List Host.Cell}, Mem.rising m = true → Mem.rising (m.filter p) = true
  | [], _ => rfl
  | c :: r, h => by
    have hr := Mem.rising_filter (p := p) (Mem.rising_tail h)
    simp only [List.filter_cons]
    split
    · exact Mem.rising_cons hr fun x hx => Mem.rising_lt h x (List.mem_filter.1 hx).1
    · exact hr

/-- Cells left out keep the canonical form. -/
theorem Mem.filter_wf {p : Host.Cell → Bool} {m : List Host.Cell} (h : Memory.wf m = true) : Memory.wf (m.filter p) = true := by
  simp only [Memory.wf, Bool.and_eq_true, List.all_eq_true] at *
  exact ⟨Mem.rising_filter h.1, fun x hx => h.2 x (List.mem_filter.1 hx).1⟩

/-- What the first cell of a list gives an address. -/
theorem Mem.read_cons (c : Host.Cell) (m : List Host.Cell) (a : Nat) : Mem.read (c :: m) a = if c.1 = a then c.2 else Mem.read m a := by
  simp only [Mem.read, assocD, List.find?_cons]
  by_cases h : c.1 = a
  · simp [h]
  · have : (c.1 == a) = false := by simpa using h
    simp only [this, if_neg h]

/-- No cell lists an address: it reads zero. -/
theorem Mem.read_none {m : List Host.Cell} {a : Nat} (h : ∀ x ∈ m, x.1 ≠ a) : Mem.read m a = 0 := by
  induction m with
  | nil => rfl
  | cons c r ih =>
    rw [Mem.read_cons, if_neg (h c (by simp))]
    exact ih fun x hx => h x (List.mem_cons_of_mem _ hx)

/-- A byte written reads back, and every other byte reads as before. -/
theorem Mem.read_put {a : Nat} {v : Byte} {m : List Host.Cell} {k : Nat} (h : Mem.rising m = true) :
    Mem.read (Mem.put a v m) k = if k = a then v else Mem.read m k := by
  induction m with
  | nil =>
    simp only [Mem.put]
    by_cases hv : v = 0
    · subst hv; by_cases hk : k = a <;> simp [Mem.read, assocD]
    · rw [if_neg hv, Mem.read_cons]
      by_cases hk : k = a
      · simp [hk]
      · have : a ≠ k := fun e => hk e.symm
        simp [hk, this]
  | cons c r ih =>
    have hc := Mem.rising_lt h
    simp only [Mem.put]
    by_cases h1 : a < c.1
    · have hn : ∀ x ∈ c :: r, x.1 ≠ a := fun x hx => by
        rcases List.mem_cons.1 hx with rfl | hx
        · omega
        · have := hc x hx; omega
      by_cases hv : v = 0
      · simp only [h1, hv, if_true]
        by_cases hk : k = a
        · rw [if_pos hk, hk]; exact Mem.read_none hn
        · rw [if_neg hk]
      · simp only [h1, hv, if_true, if_false]
        rw [Mem.read_cons]
        by_cases hk : k = a
        · simp [hk]
        · have : a ≠ k := fun e => hk e.symm
          simp [hk, this]
    · by_cases h2 : a = c.1
      · have hn : ∀ x ∈ r, x.1 ≠ a := fun x hx => by have := hc x hx; omega
        by_cases hv : v = 0
        · simp only [h1, if_false, if_pos h2, hv, if_true]
          by_cases hk : k = a
          · rw [if_pos hk, hk]; exact Mem.read_none hn
          · have : c.1 ≠ k := fun e => hk (by omega)
            rw [if_neg hk, Mem.read_cons, if_neg this]
        · simp only [h1, if_false, if_pos h2, hv]
          rw [Mem.read_cons]
          by_cases hk : k = a
          · simp [hk]
          · have h3 : a ≠ k := fun e => hk e.symm
            have h4 : c.1 ≠ k := fun e => hk (by omega)
            simp [hk, h3, Mem.read_cons, h4]
      · simp only [h1, if_false, if_neg h2]
        rw [Mem.read_cons, Mem.read_cons, ih (Mem.rising_tail h)]
        by_cases hk : k = a
        · have : c.1 ≠ k := fun e => h2 (by omega)
          simp [hk]; intro e; omega
        · simp [hk]

/-- Bytes below an address written from read as before. -/
theorem Mem.read_write_below {b : Bytes} : ∀ {a : Nat} {m : List Host.Cell} {k : Nat}, Memory.wf m = true → k < a →
    Mem.read (Mem.write a b m) k = Mem.read m k := by
  induction b with
  | nil => intros; rfl
  | cons x xs ih =>
    intro a m k h hk
    have hr : Mem.rising m = true := by simp only [Memory.wf, Bool.and_eq_true] at h; exact h.1
    rw [Mem.write, ih (Mem.put_wf h) (by omega), Mem.read_put hr, if_neg (by omega)]

/-- The bytes written read back; every byte outside them reads as before. -/
theorem Mem.read_write {b : Bytes} : ∀ {a : Nat} {m : List Host.Cell} {k : Nat}, Memory.wf m = true →
    Mem.read (Mem.write a b m) k = if a ≤ k ∧ k < a + b.length then b.getD (k - a) 0 else Mem.read m k := by
  induction b with
  | nil => intro a m k _; simp only [Mem.write, List.length_nil]; rw [if_neg (by omega)]
  | cons x xs ih =>
    intro a m k h
    have hr : Mem.rising m = true := by simp only [Memory.wf, Bool.and_eq_true] at h; exact h.1
    rw [Mem.write, ih (Mem.put_wf h)]
    by_cases h1 : a + 1 ≤ k ∧ k < a + 1 + xs.length
    · rw [if_pos h1, if_pos (by simp only [List.length_cons]; omega)]
      have : k - a = (k - (a + 1)) + 1 := by omega
      rw [this]; simp
    · rw [if_neg h1, Mem.read_put hr]
      by_cases h2 : k = a
      · subst h2; simp
      · rw [if_neg h2, if_neg (by simp only [List.length_cons]; omega)]

/-- A half of SRAM zeroed keeps the canonical form. -/
theorem State.zeroHalf_wf {w : World} {s : State} (h : Memory.wf s.worlds.sram = true) : Memory.wf (s.zeroHalf w).worlds.sram = true :=
  Mem.filter_wf h

/-- A store keeps the canonical form. -/
theorem State.sramWrite_wf {a : Nat} {b : Bytes} {s : State} (h : Memory.wf s.worlds.sram = true) :
    Memory.wf (s.sramWrite a b).worlds.sram = true := Mem.write_wf h

/-- SRAM at reset has the canonical form. -/
theorem State.reset_sram_wf : Memory.wf State.reset.worlds.sram = true := rfl

end Sys2Proof.Machine
end

