-- ==== Sys2Proof/Laws/Evolves.lean ====
section
/-! SUPPORT. What no shared operation does, whatever it does: a soundness of the state lost, the queue touched, an event number, an image floor, a count of
re-roots or a lifecycle state taken back. One lemma per operation says so of it, in a form that chains: from `Evolves s t` to `Evolves s (op t)`. -/

namespace Sys2Proof.Machine

/-- A running command that is no lifecycle command. -/
def Job.quiet (j : Job) : Prop := j.opcode ≠ 0x210 ∧ j.opcode ≠ 0x211

/-- Key custody: the lifecycle state stands, no transition has begun, no re-root is taken back, and the spare rows of key SRAM keep their form. -/
def Custody.Keeps (a b : Custody) : Prop := b.lc = a.lc ∧ (b.lcTarget = a.lcTarget ∨ b.lcTarget = none) ∧ a.reRoots ≤ b.reRoots ∧
  (Memory.wf a.spareRows = true → Memory.wf b.spareRows = true)

/-- The mailbox engine: the gate slots are as many, and no lifecycle command comes to run. -/
def Mail.Keeps (a b : Mail) : Prop :=
  (a.slots.length = 8 → b.slots.length = 8) ∧ ((∀ j ∈ a.running, j.quiet) → ∀ j ∈ b.running, j.quiet)

/-- Dual control: its ports and entries are as many. -/
def Dual.Keeps (a b : Dual) : Prop := (a.cards.length = 2 → b.cards.length = 2) ∧ (a.custodians.length = 16 → b.custodians.length = 16)

/-- The worlds: memory keeps its form. -/
def Worlds.Keeps (a b : Worlds) : Prop :=
  (Memory.wf a.sram = true → Memory.wf b.sram = true) ∧ (Memory.wf a.coreRegs = true → Memory.wf b.coreRegs = true)

/-- Random numbers: banks and generators are as many. -/
def Rng.Keeps (a b : Rng) : Prop := (a.banks.length = 4 → b.banks.length = 4) ∧ (a.gens.length = 36 → b.gens.length = 36)

/-- The recorder: from a recorder whose numbers are reserved, one whose numbers are, and none taken back. -/
def Recorder.Keeps (a b : Recorder) : Prop := a.reserved → b.reserved ∧ a.nextSeq ≤ b.nextSeq

/-- The power controller: domains and regulators are as many. -/
def Power.Keeps (a b : Power) : Prop := (a.domains.length = 62 → b.domains.length = 62) ∧ (a.groups.length = 4 → b.groups.length = 4)

/-- The floors stand or rise. -/
def Renewal.Keeps (a b : Renewal) : Prop := a.twFloor ≤ b.twFloor ∧ a.owFloor ≤ b.owFloor ∧ a.mcFuse ≤ b.mcFuse

/-- One state comes of another by an operation that keeps what is fixed of the machine. -/
structure Evolves (s t : State) : Prop where
  pending : t.pending = s.pending
  chs : s.chs.length = 36 → t.chs.length = 36
  rng : Rng.Keeps s.rng t.rng
  keys : Custody.Keeps s.keys t.keys
  mail : Mail.Keeps s.mail t.mail
  dual : Dual.Keeps s.dual t.dual
  worlds : Worlds.Keeps s.worlds t.worlds
  tamper : s.tamper.sources.length = 32 → t.tamper.sources.length = 32
  er : Recorder.Keeps s.er t.er
  ports : s.ports.length = 20 → t.ports.length = 20
  power : Power.Keeps s.power t.power
  renewal : Renewal.Keeps s.renewal t.renewal

theorem Evolves.refl (s : State) : Evolves s s :=
  ⟨rfl, id, ⟨id, id⟩, ⟨rfl, .inl rfl, Nat.le_refl _, id⟩, ⟨id, id⟩, ⟨id, id⟩, ⟨id, id⟩, id, fun h => ⟨h, Nat.le_refl _⟩, id, ⟨id, id⟩,
    ⟨Nat.le_refl _, Nat.le_refl _, Nat.le_refl _⟩⟩

theorem Evolves.trans {s t u : State} (a : Evolves s t) (b : Evolves t u) : Evolves s u where
  pending := b.pending.trans a.pending
  chs := b.chs ∘ a.chs
  rng := ⟨b.rng.1 ∘ a.rng.1, b.rng.2 ∘ a.rng.2⟩
  keys := ⟨b.keys.1.trans a.keys.1, b.keys.2.1.elim (fun h => a.keys.2.1.imp h.trans h.trans) .inr, Nat.le_trans a.keys.2.2.1 b.keys.2.2.1,
    b.keys.2.2.2 ∘ a.keys.2.2.2⟩
  mail := ⟨b.mail.1 ∘ a.mail.1, b.mail.2 ∘ a.mail.2⟩
  dual := ⟨b.dual.1 ∘ a.dual.1, b.dual.2 ∘ a.dual.2⟩
  worlds := ⟨b.worlds.1 ∘ a.worlds.1, b.worlds.2 ∘ a.worlds.2⟩
  tamper := b.tamper ∘ a.tamper
  er h := ⟨(b.er (a.er h).1).1, Nat.le_trans (a.er h).2 (b.er (a.er h).1).2⟩
  ports := b.ports ∘ a.ports
  power := ⟨b.power.1 ∘ a.power.1, b.power.2 ∘ a.power.2⟩
  renewal := ⟨Nat.le_trans a.renewal.1 b.renewal.1, Nat.le_trans a.renewal.2.1 b.renewal.2.1, Nat.le_trans a.renewal.2.2 b.renewal.2.2⟩

/-- What it is for: soundness is kept. -/
theorem Evolves.sound {s t : State} (e : Evolves s t) (h : Sound s) : Sound t := by
  obtain ⟨h1, h2, h3, h4, h5, h6, h7, h8, h9, h10, h11, h12, h13, h14, h15⟩ := h
  exact ⟨e.chs h1, e.ports h2, e.power.1 h3, e.power.2 h4, e.tamper h5, e.rng.1 h6, e.rng.2 h7, e.dual.1 h8, e.dual.2 h9, e.mail.1 h10,
    e.worlds.1 h11, e.worlds.2 h12, (e.er h13).1, e.keys.2.1.elim (·.trans h14) id, e.mail.2 h15.1, e.keys.2.2.2 h15.2⟩

/-- A state written out field by field from `t`. -/
theorem Evolves.build {s t : State} {p : List Instr} {g : Glob} {m : ModeSt} {h : HostPort} {sl : List Slice} {i : List (Nat × IntEntry)}
    {c : List Channel} {d : Dist} {r : Rng} {k : Custody} {ma : Mail} {du : Dual} {ga : Gate} {w : Worlds} {ta : Tamper} {er : Recorder}
    {po : List Port} {hi : Hier} {pw : Power} {re : Renewal} (hp : p = t.pending) (e : Evolves s t) (hc : t.chs.length = 36 → c.length = 36)
    (hr : Rng.Keeps t.rng r) (hk : Custody.Keeps t.keys k) (hm : Mail.Keeps t.mail ma) (hd : Dual.Keeps t.dual du) (hw : Worlds.Keeps t.worlds w)
    (ht : t.tamper.sources.length = 32 → ta.sources.length = 32) (he : Recorder.Keeps t.er er) (hpo : t.ports.length = 20 → po.length = 20)
    (hpw : Power.Keeps t.power pw) (hre : Renewal.Keeps t.renewal re) :
    Evolves s ⟨p, g, m, h, sl, i, c, d, r, k, ma, du, ga, w, ta, er, po, hi, pw, re⟩ :=
  e.trans ⟨hp, hc, hr, hk, hm, hd, hw, ht, he, hpo, hpw, hre⟩

/-- A change of what no clause speaks of. -/
theorem Evolves.other {s t : State} {g : Glob} {m : ModeSt} {h : HostPort} {sl : List Slice} {i : List (Nat × IntEntry)} {d : Dist} {ga : Gate} {hi : Hier}
    (e : Evolves s t) :
    Evolves s ⟨t.pending, g, m, h, sl, i, t.chs, d, t.rng, t.keys, t.mail, t.dual, ga, t.worlds, t.tamper, t.er, t.ports, hi, t.power, t.renewal⟩ :=
  ⟨e.pending, e.chs, e.rng, e.keys, e.mail, e.dual, e.worlds, e.tamper, e.er, e.ports, e.power, e.renewal⟩

theorem Mail.keeps_refl (a : Mail) : a.Keeps a := ⟨id, id⟩
theorem Custody.keeps_refl (a : Custody) : a.Keeps a := ⟨rfl, .inl rfl, Nat.le_refl _, id⟩
theorem Dual.keeps_refl (a : Dual) : a.Keeps a := ⟨id, id⟩
theorem Worlds.keeps_refl (a : Worlds) : a.Keeps a := ⟨id, id⟩
theorem Rng.keeps_refl (a : Rng) : a.Keeps a := ⟨id, id⟩
theorem Recorder.keeps_refl (a : Recorder) : a.Keeps a := fun h => ⟨h, Nat.le_refl _⟩
theorem Power.keeps_refl (a : Power) : a.Keeps a := ⟨id, id⟩
theorem Renewal.keeps_refl (a : Renewal) : a.Keeps a := ⟨Nat.le_refl _, Nat.le_refl _, Nat.le_refl _⟩

/-- What a run comes to, of the state it comes to. -/
def Ran.Leads (s : State) : Ran → Prop
  | .done _ _ _ _ t => Evolves s t
  | .part _ _ _ t => Evolves s t
  | .hold _ _ _ t => Evolves s t

theorem Ran.leads_done {s t : State} {a : _} {b : _} {c : _} {d : _} (e : Evolves s t) : Ran.Leads s (.done a b c d t) := e
theorem Ran.leads_part {s t : State} {a : _} {b : _} {c : _} (e : Evolves s t) : Ran.Leads s (.part a b c t) := e
theorem Ran.leads_hold {s t : State} {a : _} {b : _} {c : _} (e : Evolves s t) : Ran.Leads s (.hold a b c t) := e

/-- A fold of an operation. -/
theorem evolves_foldl {α : Type} {s : State} (f : State → α → State) (hf : ∀ t a, Evolves s t → Evolves s (f t a)) (l : List α) (t : State)
    (e : Evolves s t) : Evolves s (l.foldl f t) := by
  induction l generalizing t with
  | nil => exact e
  | cons a l ih => exact ih _ (hf t a e)

/-- A number taken and a record placed (R489, R492). -/
theorem Recorder.put_takeSeq_evolves (r : Recorder) (x : Record) : Recorder.Keeps r (r.takeSeq.put x) := by
  intro h
  have h1 : (r.takeSeq.put x).nextSeq = r.nextSeq + 1 := by unfold Recorder.put Recorder.takeSeq; split <;> rfl
  have h2 : (r.takeSeq.put x).reservedEnd =
      if (r.nextSeq + 1) % 65536 = 32768 then ((r.nextSeq + 1) / 65536 + 2) * 65536 else r.reservedEnd := by
    unfold Recorder.put Recorder.takeSeq; split <;> rfl
  refine ⟨?_, by omega⟩
  unfold Recorder.reserved at *
  rw [h1, h2]
  split <;> omega

/-- Start-up numbers on from the end of what was reserved (R489). -/
theorem Recorder.resume_evolves (r : Recorder) : Recorder.Keeps r r.resume := by
  intro h
  unfold Recorder.resume Recorder.reserved at *
  dsimp only
  split <;> omega

/-- Running commands changed in place, their opcodes kept. -/
theorem Mail.Keeps.map (m : Mail) (f : Job → Job) (hf : ∀ j, (f j).opcode = j.opcode) : Mail.Keeps m { m with running := m.running.map f } := by
  refine ⟨id, fun h j hj => ?_⟩
  obtain ⟨i, hi, rfl⟩ := List.mem_map.mp hj
  simpa only [Job.quiet, hf] using h i hi

theorem Tamper.putEntry_sources (t : Tamper) (e : TahrEntry) : (t.putEntry e).sources = t.sources := by
  unfold Tamper.putEntry
  repeat' split
  all_goals rfl

theorem Dual.tick_evolves (d : Dual) (n : Nat) : d.Keeps (d.tick n) := by
  unfold Dual.tick
  split <;> exact ⟨id, id⟩

/-- What a command answers, of the state it answers. -/
def Answers (s : State) (o : Host.Outcome State Fault Refusal) : Prop := ∀ t, o = .next t → Evolves s t
theorem Answers.next {s t : State} (e : Evolves s t) : Answers s (.next t) := by rintro _ ⟨⟩; exact e
theorem Answers.fault {s : State} {f : Fault} : Answers s (.fault f) := by rintro _ ⟨⟩
theorem Answers.refused {s : State} {f : Refusal} : Answers s (.refused f) := by rintro _ ⟨⟩

end Sys2Proof.Machine
end

