-- ==== Sys2Proof/Laws/EvolvesOps.lean ====
section
/-! SUPPORT. The shared operations, file by file up to the worlds: each carries `Evolves s t` on to the state it comes to. -/

namespace Sys2Proof.Machine

/-! ### Ops -/

theorem State.modCh_evolves {s : State} (n : Nat) (f : Channel → Channel) (t : State) (e : Evolves s t) : Evolves s (State.modCh n f t) := by
  unfold State.modCh
  refine Evolves.build rfl ?_ ?_ ?_ ?_ ?_ ?_ ?_ ?_ ?_ ?_ ?_ ?_; exact e; intro _; simpa using ‹_›; exact Rng.keeps_refl _; exact Custody.keeps_refl _
  exact Mail.keeps_refl _; exact Dual.keeps_refl _; exact Worlds.keeps_refl _; intro _; assumption; exact Recorder.keeps_refl _; intro _; assumption
  exact Power.keeps_refl _; exact Renewal.keeps_refl _

theorem State.setSlice_evolves {s : State} (x : Slice) (t : State) (e : Evolves s t) : Evolves s (State.setSlice x t) := by
  unfold State.setSlice
  refine Evolves.other ?_; exact e

theorem State.modSlice_evolves {s : State} (n : Nat) (f : Slice → Slice) (t : State) (e : Evolves s t) : Evolves s (State.modSlice n f t) := by
  unfold State.modSlice
  apply State.setSlice_evolves; exact e

theorem State.modRing_evolves {s : State} (n : Nat) (p : Nat) (f : RingPair → RingPair) (t : State) (e : Evolves s t) : Evolves s
    (State.modRing n p f t) := by
  unfold State.modRing
  apply State.modSlice_evolves; exact e

theorem State.modInt_evolves {s : State} (i : Nat) (f : IntEntry → IntEntry) (t : State) (e : Evolves s t) : Evolves s (State.modInt i f t) := by
  unfold State.modInt
  refine Evolves.other ?_; exact e

theorem State.modDist_evolves {s : State} (f : Dist → Dist) (t : State) (e : Evolves s t) : Evolves s (State.modDist f t) := by
  unfold State.modDist
  refine Evolves.other ?_; exact e

theorem State.modCtx_evolves {s : State} (id : Nat) (f : Ctx → Ctx) (t : State) (e : Evolves s t) : Evolves s (State.modCtx id f t) := by
  unfold State.modCtx
  apply State.modDist_evolves; exact e

theorem State.dropCtx_evolves {s : State} (id : Nat) (t : State) (e : Evolves s t) : Evolves s (State.dropCtx id t) := by
  unfold State.dropCtx
  apply State.modDist_evolves; exact e

theorem State.modRng_evolves {s : State} (f : Rng → Rng) (t : State) (e : Evolves s t) (h0 : ∀ m, Rng.Keeps m (f m)) : Evolves s (State.modRng f t) := by
  unfold State.modRng
  refine Evolves.build rfl ?_ ?_ ?_ ?_ ?_ ?_ ?_ ?_ ?_ ?_ ?_ ?_; exact e; intro _; assumption; apply h0; exact Custody.keeps_refl _; exact Mail.keeps_refl _
  exact Dual.keeps_refl _; exact Worlds.keeps_refl _; intro _; assumption; exact Recorder.keeps_refl _; intro _; assumption; exact Power.keeps_refl _
  exact Renewal.keeps_refl _

theorem State.modBank_evolves {s : State} (b : Nat) (f : Bank → Bank) (t : State) (e : Evolves s t) : Evolves s (State.modBank b f t) := by
  unfold State.modBank
  apply State.modRng_evolves; exact e; intro _; exact ⟨fun h => by simpa using h, id⟩

theorem State.modGen_evolves {s : State} (i : Nat) (f : Gen → Gen) (t : State) (e : Evolves s t) : Evolves s (State.modGen i f t) := by
  unfold State.modGen
  apply State.modRng_evolves; exact e; intro _; split; exact ⟨id, id⟩; split; exact ⟨id, id⟩; exact ⟨id, fun h => by simpa using h⟩

theorem State.modKeys_evolves {s : State} (f : Custody → Custody) (t : State) (e : Evolves s t) (h0 : ∀ m, Custody.Keeps m (f m)) : Evolves s
    (State.modKeys f t) := by
  unfold State.modKeys
  refine Evolves.build rfl ?_ ?_ ?_ ?_ ?_ ?_ ?_ ?_ ?_ ?_ ?_ ?_; exact e; intro _; assumption; exact Rng.keeps_refl _; apply h0; exact Mail.keeps_refl _
  exact Dual.keeps_refl _; exact Worlds.keeps_refl _; intro _; assumption; exact Recorder.keeps_refl _; intro _; assumption; exact Power.keeps_refl _
  exact Renewal.keeps_refl _

theorem State.modMail_evolves {s : State} (f : Mail → Mail) (t : State) (e : Evolves s t) (h0 : ∀ m, Mail.Keeps m (f m)) : Evolves s (State.modMail f t) := by
  unfold State.modMail
  refine Evolves.build rfl ?_ ?_ ?_ ?_ ?_ ?_ ?_ ?_ ?_ ?_ ?_ ?_; exact e; intro _; assumption; exact Rng.keeps_refl _; exact Custody.keeps_refl _; apply h0
  exact Dual.keeps_refl _; exact Worlds.keeps_refl _; intro _; assumption; exact Recorder.keeps_refl _; intro _; assumption; exact Power.keeps_refl _
  exact Renewal.keeps_refl _

theorem State.modBox_evolves {s : State} (m : Nat) (f : Mailbox → Mailbox) (t : State) (e : Evolves s t) : Evolves s (State.modBox m f t) := by
  unfold State.modBox
  apply State.modMail_evolves; exact e; intro _; exact ⟨id, id⟩

theorem State.modSrc_evolves {s : State} (i : Nat) (f : TSource → TSource) (t : State) (e : Evolves s t) : Evolves s (State.modSrc i f t) := by
  unfold State.modSrc
  refine Evolves.build rfl ?_ ?_ ?_ ?_ ?_ ?_ ?_ ?_ ?_ ?_ ?_ ?_; exact e; intro _; assumption; exact Rng.keeps_refl _; exact Custody.keeps_refl _
  exact Mail.keeps_refl _; exact Dual.keeps_refl _; exact Worlds.keeps_refl _; intro _; simpa using ‹_›; exact Recorder.keeps_refl _; intro _; assumption
  exact Power.keeps_refl _; exact Renewal.keeps_refl _

theorem State.modPort_evolves {s : State} (p : Nat) (f : Port → Port) (t : State) (e : Evolves s t) : Evolves s (State.modPort p f t) := by
  unfold State.modPort
  refine Evolves.build rfl ?_ ?_ ?_ ?_ ?_ ?_ ?_ ?_ ?_ ?_ ?_ ?_; exact e; intro _; assumption; exact Rng.keeps_refl _; exact Custody.keeps_refl _
  exact Mail.keeps_refl _; exact Dual.keeps_refl _; exact Worlds.keeps_refl _; intro _; assumption; exact Recorder.keeps_refl _; intro _; simpa using ‹_›
  exact Power.keeps_refl _; exact Renewal.keeps_refl _

theorem State.modHier_evolves {s : State} (f : Hier → Hier) (t : State) (e : Evolves s t) : Evolves s (State.modHier f t) := by
  unfold State.modHier
  refine Evolves.other ?_; exact e

theorem State.modPower_evolves {s : State} (f : Power → Power) (t : State) (e : Evolves s t) (h0 : ∀ m, Power.Keeps m (f m)) : Evolves s
    (State.modPower f t) := by
  unfold State.modPower
  refine Evolves.build rfl ?_ ?_ ?_ ?_ ?_ ?_ ?_ ?_ ?_ ?_ ?_ ?_; exact e; intro _; assumption; exact Rng.keeps_refl _; exact Custody.keeps_refl _
  exact Mail.keeps_refl _; exact Dual.keeps_refl _; exact Worlds.keeps_refl _; intro _; assumption; exact Recorder.keeps_refl _; intro _; assumption; apply h0
  exact Renewal.keeps_refl _

theorem State.modDom_evolves {s : State} (d : Nat) (f : Domain → Domain) (t : State) (e : Evolves s t) : Evolves s (State.modDom d f t) := by
  unfold State.modDom
  apply State.modPower_evolves; exact e; intro _; exact ⟨fun h => by simpa using h, id⟩

theorem State.modGrp_evolves {s : State} (g : Nat) (f : Group → Group) (t : State) (e : Evolves s t) : Evolves s (State.modGrp g f t) := by
  unfold State.modGrp
  apply State.modPower_evolves; exact e; intro _; exact ⟨id, fun h => by simpa using h⟩

theorem State.modWorld_evolves {s : State} (w : World) (f : WorldSt → WorldSt) (t : State) (e : Evolves s t) : Evolves s (State.modWorld w f t) := by
  unfold State.modWorld
  split; refine Evolves.build rfl ?_ ?_ ?_ ?_ ?_ ?_ ?_ ?_ ?_ ?_ ?_ ?_; exact e; intro _; assumption; exact Rng.keeps_refl _; exact Custody.keeps_refl _
  exact Mail.keeps_refl _; exact Dual.keeps_refl _; dsimp only; exact ⟨id, id⟩; intro _; assumption; exact Recorder.keeps_refl _; intro _; assumption
  exact Power.keeps_refl _; exact Renewal.keeps_refl _; refine Evolves.build rfl ?_ ?_ ?_ ?_ ?_ ?_ ?_ ?_ ?_ ?_ ?_ ?_; exact e; intro _; assumption
  exact Rng.keeps_refl _; exact Custody.keeps_refl _; exact Mail.keeps_refl _; exact Dual.keeps_refl _; dsimp only; exact ⟨id, id⟩; intro _; assumption
  exact Recorder.keeps_refl _; intro _; assumption; exact Power.keeps_refl _; exact Renewal.keeps_refl _

theorem State.each_evolves {s : State} (l : List Nat) (f : Nat → State → State) (t : State) (e : Evolves s t) (h0 : ∀ n t, Evolves s t → Evolves s
    (f n t)) : Evolves s (State.each l f t) := by
  unfold State.each
  refine evolves_foldl _ ?_ _ _ ?_; intro _ _ _; apply h0; assumption; exact e

theorem State.freeBytes_evolves_snd {s : State} (n : Nat) (t : State) (e : Evolves s t) : Evolves s (State.freeBytes n t).2 := by
  unfold State.freeBytes
  dsimp only; refine Evolves.other ?_; exact e

theorem State.freeBytes_evolves {s t : State} {n : Nat} {ra : _} {ru : State} (h : State.freeBytes n t = (ra, ru)) (e : Evolves s t) : Evolves s ru := by
  have := State.freeBytes_evolves_snd n t e
  rwa [h] at this

theorem State.wakeNote_evolves {s : State} (d : Nat) (source : Nat) (t : State) (e : Evolves s t) : Evolves s (State.wakeNote d source t) := by
  unfold State.wakeNote
  apply State.modPower_evolves; apply State.modDom_evolves; exact e; intro _; exact ⟨id, id⟩

theorem State.startWake_evolves {s : State} (d : Nat) (w : WakeSource) (t : State) (e : Evolves s t) : Evolves s (State.startWake d w t) := by
  unfold State.startWake
  split; apply State.modDom_evolves; exact e; exact e

theorem State.push_evolves {s : State} (o : Out) (t : State) (e : Evolves s t) : Evolves s (State.push o t) := by
  unfold State.push
  refine Evolves.other ?_; exact e

theorem State.postVec_evolves {s : State} (v : Nat) (t : State) (e : Evolves s t) : Evolves s (State.postVec v t) := by
  unfold State.postVec
  split; apply State.push_evolves; exact e; refine Evolves.other ?_; exact e

theorem State.noteCause_evolves {s : State} (b : Nat) (t : State) (e : Evolves s t) : Evolves s (State.noteCause b t) := by
  unfold State.noteCause
  refine Evolves.other ?_; exact e

theorem State.setLinkPm_evolves {s : State} (pm : Nat) (t : State) (e : Evolves s t) : Evolves s (State.setLinkPm pm t) := by
  unfold State.setLinkPm
  split; exact e; apply State.postVec_evolves; apply State.noteCause_evolves; refine Evolves.other ?_; exact e

theorem State.linkExit_evolves {s : State} (t : State) (e : Evolves s t) : Evolves s (State.linkExit t) := by
  unfold State.linkExit
  split; dsimp only; split; apply State.modDom_evolves; apply State.setLinkPm_evolves; exact e; split; apply State.setLinkPm_evolves; exact e
  apply State.wakeNote_evolves; apply State.setLinkPm_evolves; exact e; exact e

theorem State.translate_evolves {s : State} (pasid : Nat) (addr : Nat) (len : Nat) (t : State) (e : Evolves s t) : Evolves s
    (State.translate pasid addr len t) := by
  unfold State.translate
  dsimp only; refine Evolves.other ?_; exact e

theorem State.emit_evolves {s : State} (o : Out) (t : State) (e : Evolves s t) : Evolves s (State.emit o t) := by
  unfold State.emit
  dsimp only; split; apply State.translate_evolves; apply State.push_evolves; apply State.linkExit_evolves; exact e; apply State.translate_evolves; apply State.push_evolves
  apply State.linkExit_evolves; exact e; apply State.push_evolves; apply State.linkExit_evolves; exact e

theorem State.raiseVec_evolves {s : State} (v : Nat) (t : State) (e : Evolves s t) : Evolves s (State.raiseVec v t) := by
  unfold State.raiseVec
  apply State.postVec_evolves; split; apply State.linkExit_evolves; exact e; exact e

theorem State.raiseCause_evolves {s : State} (b : Nat) (t : State) (e : Evolves s t) : Evolves s (State.raiseCause b t) := by
  unfold State.raiseCause
  apply State.raiseVec_evolves; apply State.noteCause_evolves; exact e

theorem State.sliceInt_evolves {s : State} (entry : Nat) (n : Nat) (t : State) (e : Evolves s t) : Evolves s (State.sliceInt entry n t) := by
  unfold State.sliceInt
  dsimp only; split; split; apply State.modInt_evolves; exact e; apply State.emit_evolves; exact e; exact e

theorem State.flushStart_evolves {s : State} (t : State) (e : Evolves s t) : Evolves s (State.flushStart t) := by
  unfold State.flushStart
  refine Evolves.build rfl ?_ ?_ ?_ ?_ ?_ ?_ ?_ ?_ ?_ ?_ ?_ ?_; exact e; intro _; assumption; exact Rng.keeps_refl _; exact Custody.keeps_refl _
  exact Mail.keeps_refl _; exact Dual.keeps_refl _; exact Worlds.keeps_refl _; intro _; assumption; dsimp only; exact fun h => ⟨h, Nat.le_refl _⟩; intro _
  assumption; exact Power.keeps_refl _; exact Renewal.keeps_refl _

theorem State.writeRec_evolves {s : State} (typ : Nat) (src : Nat) (grade : Nat) (merged : Bool) (body : Bytes) (t : State) (e : Evolves s t)
    : Evolves s (State.writeRec typ src grade merged body t) := by
  unfold State.writeRec
  dsimp only; split; apply State.raiseCause_evolves; split; apply State.flushStart_evolves; refine Evolves.build rfl ?_ ?_ ?_ ?_ ?_ ?_ ?_ ?_ ?_ ?_ ?_ ?_
  exact e; intro _; assumption; exact Rng.keeps_refl _; exact Custody.keeps_refl _; exact Mail.keeps_refl _; exact Dual.keeps_refl _; exact Worlds.keeps_refl _
  intro _; assumption; exact Recorder.put_takeSeq_evolves _ _; intro _; assumption; exact Power.keeps_refl _; exact Renewal.keeps_refl _
  refine Evolves.build rfl ?_ ?_ ?_ ?_ ?_ ?_ ?_ ?_ ?_ ?_ ?_ ?_; exact e; intro _; assumption; exact Rng.keeps_refl _; exact Custody.keeps_refl _
  exact Mail.keeps_refl _; exact Dual.keeps_refl _; exact Worlds.keeps_refl _; intro _; assumption; exact Recorder.put_takeSeq_evolves _ _; intro _; assumption
  exact Power.keeps_refl _; exact Renewal.keeps_refl _; split; apply State.flushStart_evolves; refine Evolves.build rfl ?_ ?_ ?_ ?_ ?_ ?_ ?_ ?_ ?_ ?_ ?_ ?_
  exact e; intro _; assumption; exact Rng.keeps_refl _; exact Custody.keeps_refl _; exact Mail.keeps_refl _; exact Dual.keeps_refl _; exact Worlds.keeps_refl _
  intro _; assumption; exact Recorder.put_takeSeq_evolves _ _; intro _; assumption; exact Power.keeps_refl _; exact Renewal.keeps_refl _
  refine Evolves.build rfl ?_ ?_ ?_ ?_ ?_ ?_ ?_ ?_ ?_ ?_ ?_ ?_; exact e; intro _; assumption; exact Rng.keeps_refl _; exact Custody.keeps_refl _
  exact Mail.keeps_refl _; exact Dual.keeps_refl _; exact Worlds.keeps_refl _; intro _; assumption; exact Recorder.put_takeSeq_evolves _ _; intro _; assumption
  exact Power.keeps_refl _; exact Renewal.keeps_refl _

theorem State.writeLost_evolves {s : State} (t : State) (e : Evolves s t) : Evolves s (State.writeLost t) := by
  unfold State.writeLost
  split; split; apply State.writeRec_evolves; refine Evolves.build rfl ?_ ?_ ?_ ?_ ?_ ?_ ?_ ?_ ?_ ?_ ?_ ?_; exact e; intro _; assumption
  exact Rng.keeps_refl _; exact Custody.keeps_refl _; exact Mail.keeps_refl _; exact Dual.keeps_refl _; exact Worlds.keeps_refl _; intro _; assumption; dsimp only
  exact fun h => ⟨h, Nat.le_refl _⟩; intro _; assumption; exact Power.keeps_refl _; exact Renewal.keeps_refl _; exact e; exact e

theorem State.recordM_evolves {s : State} (typ : Nat) (src : Nat) (grade : Nat) (merged : Bool) (body : Bytes) (t : State) (e : Evolves s t)
    : Evolves s (State.recordM typ src grade merged body t) := by
  unfold State.recordM
  apply State.writeRec_evolves; apply State.writeLost_evolves; exact e

theorem State.record_evolves {s : State} (typ : Nat) (src : Nat) (grade : Nat) (body : Bytes) (t : State) (e : Evolves s t) : Evolves s
    (State.record typ src grade body t) := by
  unfold State.record
  apply State.recordM_evolves; exact e

theorem State.recordChannel_evolves {s : State} (n : Nat) (old : ChState) (new : ChState) (t : State) (e : Evolves s t) : Evolves s
    (State.recordChannel n old new t) := by
  unfold State.recordChannel
  apply State.record_evolves; exact e

theorem State.recordRng_evolves {s : State} (who : Nat) (event : Nat) (t : State) (e : Evolves s t) : Evolves s (State.recordRng who event t) := by
  unfold State.recordRng
  apply State.record_evolves; exact e

theorem State.hpError_evolves {s : State} (b : Nat) (cause : Nat) (code : Nat) (write : Bool) (bar : Nat) (sl : Nat) (addr : Nat) (t : State) (e
    : Evolves s t) : Evolves s (State.hpError b cause code write bar sl addr t) := by
  unfold State.hpError
  dsimp only; apply State.raiseVec_evolves; refine Evolves.other ?_; exact e

theorem State.refreshMode_evolves {s : State} (oldWord : Nat) (t : State) (e : Evolves s t) : Evolves s (State.refreshMode oldWord t) := by
  unfold State.refreshMode
  dsimp only; split; split; exact e; apply State.raiseCause_evolves; apply State.record_evolves; refine Evolves.other ?_; exact e; split
  refine Evolves.other ?_; exact e; apply State.raiseCause_evolves; apply State.record_evolves; refine Evolves.other ?_; exact e

theorem State.refreshPromise_evolves {s : State} (t : State) (e : Evolves s t) : Evolves s (State.refreshPromise t) := by
  unfold State.refreshPromise
  split; dsimp only; split; refine Evolves.other ?_; exact e; apply State.raiseCause_evolves; apply State.record_evolves; refine Evolves.other ?_; exact e
  exact e

theorem State.refreshPartition_evolves {s : State} (n : Nat) (t : State) (e : Evolves s t) : Evolves s (State.refreshPartition n t) := by
  unfold State.refreshPartition
  dsimp only; split; exact e; apply State.record_evolves; apply State.modSlice_evolves; exact e

theorem State.refreshPartitions_evolves {s : State} (t : State) (e : Evolves s t) : Evolves s (State.refreshPartitions t) := by
  unfold State.refreshPartitions
  apply State.each_evolves; exact e; intro _ _ _; apply State.refreshPartition_evolves; assumption

theorem State.lowerPoint_evolves {s : State} (n : Nat) (t : State) (e : Evolves s t) : Evolves s (State.lowerPoint n t) := by
  unfold State.lowerPoint
  split; dsimp only; split; split; apply State.modDom_evolves; exact e; apply State.modDom_evolves; exact e; split; exact e; apply State.modDom_evolves; exact e
  apply State.modDom_evolves; exact e

theorem State.writeGroup_evolves {s : State} (g : Nat) (t : State) (e : Evolves s t) : Evolves s (State.writeGroup g t) := by
  unfold State.writeGroup
  dsimp only; split; exact e; apply State.modGrp_evolves; exact e

theorem State.raisePoint_evolves {s : State} (n : Nat) (t : State) (e : Evolves s t) : Evolves s (State.raisePoint n t) := by
  unfold State.raisePoint
  split; dsimp only; split; apply State.modDom_evolves; exact e; exact e; exact e

theorem State.startTest_evolves {s : State} (n : Nat) (t : State) (e : Evolves s t) : Evolves s (State.startTest n t) := by
  unfold State.startTest
  dsimp only; split; apply State.modCh_evolves; exact e; exact e

theorem State.refreshPower_evolves {s : State} (t : State) (e : Evolves s t) : Evolves s (State.refreshPower t) := by
  unfold State.refreshPower
  dsimp only; apply State.each_evolves; apply State.each_evolves; apply State.each_evolves; apply State.each_evolves; exact e; intro _ _ _; apply State.lowerPoint_evolves
  assumption; intro _ _ _; apply State.writeGroup_evolves; assumption; intro _ _ _; apply State.raisePoint_evolves; assumption; intro _ _ _
  apply State.startTest_evolves; assumption

theorem State.settle_evolves {s : State} (before : State) (t : State) (e : Evolves s t) : Evolves s (State.settle t before) := by
  unfold State.settle
  apply State.refreshPower_evolves; apply State.refreshPromise_evolves; apply State.refreshMode_evolves; apply State.refreshPartitions_evolves; exact e

theorem State.admitOffered_evolves {s : State} (c : Ctx) (t : State) (e : Evolves s t) : Evolves s (State.admitOffered c t) := by
  unfold State.admitOffered
  split; apply State.modCtx_evolves; apply State.modRing_evolves; exact e; exact e

theorem State.dropOffered_evolves {s : State} (which : Ctx → Bool) (t : State) (e : Evolves s t) : Evolves s (State.dropOffered which t) := by
  unfold State.dropOffered
  apply State.modDist_evolves; exact e

theorem State.finish_evolves {s : State} (id : Nat) (st : Status) (detail : Nat) (result : BitVec 64) (t : State) (e : Evolves s t) : Evolves s
    (State.finish id st detail result t) := by
  unfold State.finish
  split; split; exact e; dsimp only; split; apply State.hpError_evolves; apply State.modDist_evolves; apply State.modCtx_evolves; apply State.admitOffered_evolves
  exact e; apply State.modDist_evolves; apply State.modCtx_evolves; apply State.admitOffered_evolves; exact e; exact e

theorem State.issueReads_evolves {s : State} (id : Nat) (parts : List DmaPart) (t : State) (e : Evolves s t) : Evolves s (State.issueReads id parts t) := by
  unfold State.issueReads
  split; split; exact e; split; apply State.finish_evolves; exact e; apply State.modCtx_evolves; refine evolves_foldl _ ?_ _ _ ?_; intro _ _ _
  apply State.translate_evolves; assumption; apply State.linkExit_evolves; exact e; exact e

theorem State.emitPieces_evolves {s : State} (c : Ctx) (detail : Nat) (l : List (Nat × Bytes)) (t : State) (e : Evolves s t) : Evolves s
    (State.emitPieces c detail l t) := by
  induction l generalizing t with
  | nil => exact e
  | cons p ps ih =>
    unfold State.emitPieces
    split
    · exact State.finish_evolves _ _ _ _ _ e
    · exact ih _ (State.emit_evolves _ _ e)

theorem State.writeDst_evolves {s : State} (c : Ctx) (off : Nat) (data : Bytes) (t : State) (e : Evolves s t) : Evolves s (State.writeDst c off data t) := by
  unfold State.writeDst
  split; apply State.modCtx_evolves; exact e; apply State.emitPieces_evolves; exact e

theorem State.writeOut2_evolves {s : State} (c : Ctx) (data : Bytes) (t : State) (e : Evolves s t) : Evolves s (State.writeOut2 c data t) := by
  unfold State.writeOut2
  split; exact e; split; apply State.modCtx_evolves; exact e; split; exact e; apply State.emitPieces_evolves; exact e

theorem State.rerunCtx_evolves {s : State} (id : Nat) (t : State) (e : Evolves s t) : Evolves s (State.rerunCtx id t) := by
  unfold State.rerunCtx
  split; apply State.modDist_evolves; apply State.modCtx_evolves; exact e; exact e

theorem State.rerunOrFail_evolves {s : State} (id : Nat) (t : State) (e : Evolves s t) : Evolves s (State.rerunOrFail id t) := by
  unfold State.rerunOrFail
  split; split; exact e; split; apply State.finish_evolves; exact e; apply State.modCtx_evolves; apply State.rerunCtx_evolves; exact e; exact e

theorem State.eraseGen_evolves {s : State} (i : Nat) (t : State) (e : Evolves s t) : Evolves s (State.eraseGen i t) := by
  unfold State.eraseGen
  apply State.modRng_evolves; apply State.modGen_evolves; exact e; intro _; exact ⟨id, id⟩

theorem State.releaseSpare_evolves {s : State} (t : State) (e : Evolves s t) : Evolves s (State.releaseSpare t) := by
  unfold State.releaseSpare
  split; apply State.modCh_evolves; exact e; exact e

theorem State.fenceOut_evolves {s : State} (cause : Nat) (n : Nat) (t : State) (e : Evolves s t) : Evolves s (State.fenceOut cause n t) := by
  unfold State.fenceOut
  dsimp only; split; exact e; split; apply State.modCh_evolves; exact e; apply State.recordChannel_evolves; split; apply State.releaseSpare_evolves
  apply State.startWake_evolves; apply State.modDom_evolves; apply State.modGen_evolves; apply State.modCh_evolves; split; apply State.modCh_evolves; apply State.modCh_evolves
  exact e; apply State.modCh_evolves; exact e; apply State.startWake_evolves; apply State.modDom_evolves; apply State.modGen_evolves; apply State.modCh_evolves; split
  apply State.modCh_evolves; apply State.modCh_evolves; exact e; apply State.modCh_evolves; exact e

theorem State.failStranded_evolves {s : State} (t : State) (e : Evolves s t) : Evolves s (State.failStranded t) := by
  unfold State.failStranded
  apply State.each_evolves; exact e; intro _ _ _; apply State.finish_evolves; assumption

theorem State.fenceAll_evolves {s : State} (l : List Nat) (cause : Nat) (t : State) (e : Evolves s t) : Evolves s (State.fenceAll l cause t) := by
  unfold State.fenceAll
  dsimp only; apply State.failStranded_evolves; apply State.each_evolves; apply State.each_evolves; exact e; intro _ _ _; apply State.fenceOut_evolves; assumption
  intro _ _ _; apply State.rerunOrFail_evolves; assumption

theorem State.fence_evolves {s : State} (n : Nat) (cause : Nat) (t : State) (e : Evolves s t) : Evolves s (State.fence n cause t) := by
  unfold State.fence
  apply State.fenceAll_evolves; exact e

theorem State.releaseHome_evolves {s : State} (c : Ctx) (t : State) (e : Evolves s t) : Evolves s (State.releaseHome c t) := by
  unfold State.releaseHome
  split; apply State.modCh_evolves; exact e; exact e

theorem State.withdraw_evolves {s : State} (id : Nat) (t : State) (e : Evolves s t) : Evolves s (State.withdraw id t) := by
  unfold State.withdraw
  split; apply State.modDist_evolves; apply State.modCtx_evolves; apply State.releaseHome_evolves; exact e; exact e

theorem State.withdrawSegs_evolves {s : State} (id : Nat) (t : State) (e : Evolves s t) : Evolves s (State.withdrawSegs id t) := by
  unfold State.withdrawSegs
  split; dsimp only; apply State.modDist_evolves; apply State.modCtx_evolves; exact e; exact e

theorem State.drain_evolves {s : State} (n : Nat) (cause : Nat) (t : State) (e : Evolves s t) : Evolves s (State.drain n cause t) := by
  unfold State.drain
  dsimp only; split; apply State.recordChannel_evolves; apply State.each_evolves; apply State.each_evolves; apply State.releaseSpare_evolves; apply State.modCh_evolves; split
  apply State.modCh_evolves; apply State.modCh_evolves; exact e; apply State.modCh_evolves; exact e; intro _ _ _; apply State.withdraw_evolves; assumption; intro _ _ _
  apply State.withdrawSegs_evolves; assumption; exact e

theorem State.abortAdmitted_evolves {s : State} (t : State) (e : Evolves s t) : Evolves s (State.abortAdmitted t) := by
  unfold State.abortAdmitted
  dsimp only; refine Evolves.build rfl ?_ ?_ ?_ ?_ ?_ ?_ ?_ ?_ ?_ ?_ ?_ ?_; apply State.each_evolves; apply State.dropOffered_evolves; exact e; intro _ _ _
  apply State.finish_evolves; assumption; intro _; simpa using ‹_›; exact Rng.keeps_refl _; exact Custody.keeps_refl _; exact Mail.keeps_refl _
  exact Dual.keeps_refl _; exact Worlds.keeps_refl _; intro _; assumption; exact Recorder.keeps_refl _; intro _; assumption; exact Power.keeps_refl _
  exact Renewal.keeps_refl _

/-! ### Links -/

theorem State.portWork_evolves {s : State} (p : Nat) (t : State) (e : Evolves s t) : Evolves s (State.portWork p t) := by
  unfold State.portWork
  apply State.modDom_evolves; exact e

theorem State.sendUnit_evolves {s : State} (p : Nat) (u0 : UnitOut) (t : State) (e : Evolves s t) : Evolves s (State.sendUnit p u0 t) := by
  unfold State.sendUnit
  split; exact e; dsimp only; split; apply State.startWake_evolves; apply State.modPort_evolves; exact e; apply State.modPort_evolves; apply State.portWork_evolves
  apply State.modPort_evolves; exact e

theorem State.sendAll_evolves {s : State} (ps : List Nat) (u0 : UnitOut) (t : State) (e : Evolves s t) : Evolves s (State.sendAll ps u0 t) := by
  unfold State.sendAll
  apply State.each_evolves; exact e; intro _ _ _; apply State.sendUnit_evolves; assumption

theorem State.sendTo_evolves {s : State} (dst : Nat) (u0 : UnitOut) (t : State) (e : Evolves s t) : Evolves s (State.sendTo dst u0 t) := by
  unfold State.sendTo
  split; apply State.sendUnit_evolves; exact e; exact e

theorem State.setFab_evolves {s : State} (st : Nat) (cause : Nat) (t : State) (e : Evolves s t) : Evolves s (State.setFab st cause t) := by
  unfold State.setFab
  split; exact e; apply State.record_evolves; apply State.modHier_evolves; exact e

theorem State.refreshLevel_evolves {s : State} (t : State) (e : Evolves s t) : Evolves s (State.refreshLevel t) := by
  unfold State.refreshLevel
  dsimp only; split; apply State.modHier_evolves; exact e; split; apply State.setFab_evolves; apply State.modHier_evolves; exact e; split; apply State.setFab_evolves
  apply State.modHier_evolves; exact e; apply State.modHier_evolves; exact e

theorem State.withdrawRoutes_evolves {s : State} (p : Nat) (t : State) (e : Evolves s t) : Evolves s (State.withdrawRoutes p t) := by
  unfold State.withdrawRoutes
  dsimp only; apply State.refreshLevel_evolves; split; apply State.sendAll_evolves; apply State.modPort_evolves; exact e; apply State.modPort_evolves; exact e

theorem State.takeUnit_evolves {s t : State} {p u : Nat} {ru : State} (h : State.takeUnit t p u = some ru) (e : Evolves s t) : Evolves s ru := by
  unfold State.takeUnit at h
  split at h <;> cases h
  exact State.modPort_evolves _ _ _ e

theorem State.sendWork_evolves {s : State} (id : Nat) (t : State) (e : Evolves s t) : Evolves s (State.sendWork id t) := by
  unfold State.sendWork
  split; split; exact e; split; apply State.sendUnit_evolves; exact e; split; apply State.sendTo_evolves; exact e; exact e; exact e; exact e

theorem State.remoteFailed_evolves {s : State} (c : Ctx) (tried : List Nat) (t : State) (e : Evolves s t) : Evolves s (State.remoteFailed c tried t) := by
  unfold State.remoteFailed
  dsimp only; apply State.finish_evolves; apply State.record_evolves; refine Evolves.other ?_; exact e

theorem State.remoteNext_evolves {s : State} (id : Nat) (t : State) (e : Evolves s t) : Evolves s (State.remoteNext id t) := by
  unfold State.remoteNext
  split; dsimp only; split; apply State.sendWork_evolves; apply State.modCtx_evolves; apply State.modDist_evolves; exact e; apply State.remoteFailed_evolves; exact e
  apply State.modDist_evolves; exact e

theorem State.spillLost_evolves {s : State} (p : Nat) (t : State) (e : Evolves s t) : Evolves s (State.spillLost p t) := by
  unfold State.spillLost
  dsimp only; refine evolves_foldl _ ?_ _ _ ?_; intro _ _ _; apply State.rerunCtx_evolves; apply State.admitOffered_evolves; assumption
  apply State.dropOffered_evolves; exact e

theorem State.pathsLost_evolves {s : State} (t : State) (e : Evolves s t) : Evolves s (State.pathsLost t) := by
  unfold State.pathsLost
  dsimp only; apply State.each_evolves; exact e; intro _ _ _; apply State.remoteNext_evolves; assumption

theorem State.leaveUp_evolves {s : State} (p : Nat) (st : PortState) (t : State) (e : Evolves s t) : Evolves s (State.leaveUp p st t) := by
  unfold State.leaveUp
  split; apply State.withdrawRoutes_evolves; apply State.modPort_evolves; exact e; apply State.modPort_evolves; exact e

theorem State.dropSession_evolves {s : State} (p : Nat) (t : State) (e : Evolves s t) : Evolves s (State.dropSession p t) := by
  unfold State.dropSession
  apply State.pathsLost_evolves; apply State.spillLost_evolves; apply State.modHier_evolves; apply State.modPort_evolves; exact e

theorem State.portDown_evolves {s : State} (p : Nat) (cause : Nat) (t : State) (e : Evolves s t) : Evolves s (State.portDown p cause t) := by
  unfold State.portDown
  apply State.dropSession_evolves; apply State.modPort_evolves; apply State.leaveUp_evolves; exact e

theorem State.retrain_evolves {s : State} (p : Nat) (t : State) (e : Evolves s t) : Evolves s (State.retrain p t) := by
  unfold State.retrain
  apply State.modPort_evolves; apply State.leaveUp_evolves; exact e

theorem State.restartPort_evolves {s : State} (p : Nat) (t : State) (e : Evolves s t) : Evolves s (State.restartPort p t) := by
  unfold State.restartPort
  apply State.dropSession_evolves; apply State.modPort_evolves; apply State.leaveUp_evolves; exact e

/-! ### HostPort -/

theorem State.refuseAccess_evolves {s : State} (bar : Nat) (off : Nat) (cause : Nat) (write : Bool) (t : State) (e : Evolves s t) : Evolves s
    (State.refuseAccess bar off cause write t) := by
  unfold State.refuseAccess
  dsimp only; split; apply State.hpError_evolves; split; refine Evolves.build rfl ?_ ?_ ?_ ?_ ?_ ?_ ?_ ?_ ?_ ?_ ?_ ?_; exact e; intro _; assumption
  exact Rng.keeps_refl _; exact Custody.keeps_refl _; exact Mail.keeps_refl _; exact Dual.keeps_refl _; exact Worlds.keeps_refl _; intro _; assumption
  exact Recorder.keeps_refl _; intro _; assumption; exact ⟨id, id⟩; exact Renewal.keeps_refl _; exact e; apply State.emit_evolves; apply State.hpError_evolves; split
  refine Evolves.build rfl ?_ ?_ ?_ ?_ ?_ ?_ ?_ ?_ ?_ ?_ ?_ ?_; exact e; intro _; assumption; exact Rng.keeps_refl _; exact Custody.keeps_refl _
  exact Mail.keeps_refl _; exact Dual.keeps_refl _; exact Worlds.keeps_refl _; intro _; assumption; exact Recorder.keeps_refl _; intro _; assumption
  exact ⟨id, id⟩; exact Renewal.keeps_refl _; exact e

theorem State.hostAccess_evolves {s : State} (bar : Nat) (off : Nat) (len : Nat) (f : State → State) (t : State) (e : Evolves s t) (h0
    : ∀ t, Evolves s t → Evolves s (f t)) : Evolves s (State.hostAccess bar off len f t) := by
  unfold State.hostAccess
  split; exact e; split; apply State.refuseAccess_evolves; exact e; apply h0; exact e

theorem State.hostReg_evolves {s : State} (bar : Nat) (off : Nat) (f : State → State) (t : State) (e : Evolves s t) (h0
    : ∀ t, Evolves s t → Evolves s (f t)) : Evolves s (State.hostReg bar off f t) := by
  unfold State.hostReg
  apply State.hostAccess_evolves; exact e; assumption

theorem State.noteLink_evolves {s : State} (before : State) (t : State) (e : Evolves s t) : Evolves s (State.noteLink t before) := by
  unfold State.noteLink
  split; exact e; apply State.raiseCause_evolves; exact e

theorem State.takeBack_evolves {s : State} (c : Ctx) (t : State) (e : Evolves s t) : Evolves s (State.takeBack c t) := by
  unfold State.takeBack
  apply State.modDist_evolves; apply State.modRing_evolves; apply State.modRing_evolves; exact e

theorem State.abandonAll_evolves {s : State} (t : State) (e : Evolves s t) : Evolves s (State.abandonAll t) := by
  unfold State.abandonAll
  dsimp only; refine Evolves.build rfl ?_ ?_ ?_ ?_ ?_ ?_ ?_ ?_ ?_ ?_ ?_ ?_; apply State.modDist_evolves; apply State.dropOffered_evolves; exact e; intro _
  simpa using ‹_›; exact Rng.keeps_refl _; exact Custody.keeps_refl _; exact Mail.keeps_refl _; exact Dual.keeps_refl _; exact Worlds.keeps_refl _; intro _
  assumption; exact Recorder.keeps_refl _; intro _; assumption; exact Power.keeps_refl _; exact Renewal.keeps_refl _

theorem State.dropFetched_evolves {s : State} (t : State) (e : Evolves s t) : Evolves s (State.dropFetched t) := by
  unfold State.dropFetched
  refine Evolves.other ?_; exact e

theorem State.functionReset_evolves {s : State} (t : State) (e : Evolves s t) : Evolves s (State.functionReset t) := by
  unfold State.functionReset
  dsimp only; refine Evolves.build rfl ?_ ?_ ?_ ?_ ?_ ?_ ?_ ?_ ?_ ?_ ?_ ?_; apply State.modDist_evolves; exact e; intro _; simpa using ‹_›
  exact Rng.keeps_refl _; exact Custody.keeps_refl _; exact ⟨id, id⟩; exact Dual.keeps_refl _; exact Worlds.keeps_refl _; intro _; assumption
  exact Recorder.keeps_refl _; intro _; assumption; exact Power.keeps_refl _; exact Renewal.keeps_refl _

theorem State.wakeHost_evolves {s : State} (t : State) (e : Evolves s t) : Evolves s (State.wakeHost t) := by
  unfold State.wakeHost
  split; exact e; apply State.wakeNote_evolves; exact e

theorem State.readDone_evolves {s : State} (id : Nat) (part : DmaPart) (t : State) (e : Evolves s t) : Evolves s (State.readDone id part t) := by
  unfold State.readDone
  refine Evolves.build rfl ?_ ?_ ?_ ?_ ?_ ?_ ?_ ?_ ?_ ?_ ?_ ?_; exact e; intro _; assumption; exact Rng.keeps_refl _; exact Custody.keeps_refl _
  exact Mail.keeps_refl _; exact Dual.keeps_refl _; dsimp only; exact ⟨fun h => by simpa using h, fun h => by simpa using h⟩; intro _; assumption
  exact Recorder.keeps_refl _; intro _; assumption; exact Power.keeps_refl _; exact Renewal.keeps_refl _

theorem State.orphanDone_evolves {s : State} (id : Nat) (part : DmaPart) (t : State) (e : Evolves s t) : Evolves s (State.orphanDone id part t) := by
  unfold State.orphanDone
  split; apply State.modDist_evolves; exact e; exact e

theorem State.stopZeros_evolves {s : State} (c : Ctx) (addr : Nat) (t : State) (e : Evolves s t) : Evolves s (State.stopZeros c addr t) := by
  unfold State.stopZeros
  dsimp only; split; refine Evolves.build rfl ?_ ?_ ?_ ?_ ?_ ?_ ?_ ?_ ?_ ?_ ?_ ?_; exact e; intro _; assumption; exact Rng.keeps_refl _
  exact Custody.keeps_refl _; exact Mail.keeps_refl _; exact Dual.keeps_refl _; exact ⟨id, id⟩; intro _; assumption; exact Recorder.keeps_refl _; intro _
  assumption; exact Power.keeps_refl _; exact Renewal.keeps_refl _; exact e

theorem State.dmaFail_evolves {s : State} (id : Nat) (part : DmaPart) (addr : Nat) (aerBit : Nat) (t : State) (e : Evolves s t) : Evolves s
    (State.dmaFail id part addr aerBit t) := by
  unfold State.dmaFail
  split; split; apply State.finish_evolves; dsimp only; refine Evolves.other ?_; apply State.modCtx_evolves; exact e; split; apply State.finish_evolves; split
  apply State.stopZeros_evolves; exact e; exact e; apply State.orphanDone_evolves; refine Evolves.other ?_; exact e; apply State.orphanDone_evolves
  refine Evolves.other ?_; exact e

theorem State.clearErr_evolves {s : State} (bits : BitVec 6) (t : State) (e : Evolves s t) : Evolves s (State.clearErr bits t) := by
  unfold State.clearErr
  refine Evolves.other ?_; exact e

theorem State.maskWrite_evolves {s : State} (entry : Nat) (value : Bool) (t : State) (e : Evolves s t) : Evolves s (State.maskWrite entry value t) := by
  unfold State.maskWrite
  split; exact e; dsimp only; split; apply State.emit_evolves; apply State.modInt_evolves; exact e; apply State.modInt_evolves; exact e

theorem State.mctpControl_evolves {s : State} (t0 : Transport) (body : Bytes) (t : State) (e : Evolves s t) : Evolves s (State.mctpControl t0 body t) := by
  unfold State.mctpControl
  dsimp only; split; split; refine Evolves.other ?_; exact e; refine Evolves.other ?_; exact e; refine Evolves.other ?_; exact e
  refine Evolves.other ?_; exact e; refine Evolves.other ?_; exact e; refine Evolves.other ?_; exact e; refine Evolves.other ?_; exact e

/-! ### KeyPush -/

theorem State.modKey_evolves {s : State} (scope : Nat) (slice : Nat) (slot : Nat) (f : Key → Key) (t : State) (e : Evolves s t) : Evolves s
    (State.modKey scope slice slot f t) := by
  unfold State.modKey
  apply State.modKeys_evolves; exact e; intro _; exact ⟨rfl, .inl rfl, Nat.le_refl _, id⟩

theorem State.fill_evolves {s : State} (n : Nat) (c : Ctx) (k : Key) (t : State) (e : Evolves s t) : Evolves s (State.fill n c k t) := by
  unfold State.fill
  split; apply State.modCh_evolves; exact e; exact e

theorem State.dropCopies_evolves {s : State} (r : KeyRef) (t : State) (e : Evolves s t) : Evolves s (State.dropCopies r t) := by
  unfold State.dropCopies
  refine Evolves.build rfl ?_ ?_ ?_ ?_ ?_ ?_ ?_ ?_ ?_ ?_ ?_ ?_; exact e; intro _; simpa using ‹_›; exact Rng.keeps_refl _; exact Custody.keeps_refl _
  exact Mail.keeps_refl _; exact Dual.keeps_refl _; exact Worlds.keeps_refl _; intro _; assumption; exact Recorder.keeps_refl _; intro _; assumption
  exact Power.keeps_refl _; exact Renewal.keeps_refl _

theorem State.invalidateCopies_evolves {s : State} (r : KeyRef) (t : State) (e : Evolves s t) : Evolves s (State.invalidateCopies r t) := by
  unfold State.invalidateCopies
  refine Evolves.build rfl ?_ ?_ ?_ ?_ ?_ ?_ ?_ ?_ ?_ ?_ ?_ ?_; exact e; intro _; simpa using ‹_›; exact Rng.keeps_refl _; exact Custody.keeps_refl _
  exact Mail.keeps_refl _; exact Dual.keeps_refl _; exact Worlds.keeps_refl _; intro _; assumption; exact Recorder.keeps_refl _; intro _; assumption
  exact Power.keeps_refl _; exact Renewal.keeps_refl _

theorem State.supersede_evolves {s : State} (k : Key) (t : State) (e : Evolves s t) : Evolves s (State.supersede k t) := by
  unfold State.supersede
  apply State.modKeys_evolves; apply State.invalidateCopies_evolves; exact e; intro _; exact ⟨rfl, .inl rfl, Nat.le_refl _, id⟩

theorem State.freeRows_evolves {s : State} (scope : Nat) (slice : Nat) (slot : Nat) (delete : Bool) (t : State) (e : Evolves s t) : Evolves s
    (State.freeRows scope slice slot delete t) := by
  unfold State.freeRows
  dsimp only; apply State.modKeys_evolves; exact e; intro _; exact ⟨rfl, .inl rfl, Nat.le_refl _, id⟩

theorem State.recordKeyBad_evolves {s : State} (k : Key) (t : State) (e : Evolves s t) : Evolves s (State.recordKeyBad k t) := by
  unfold State.recordKeyBad
  apply State.record_evolves; exact e

theorem State.markBad_evolves {s : State} (k : Key) (t : State) (e : Evolves s t) : Evolves s (State.markBad k t) := by
  unfold State.markBad
  split; exact e; apply State.recordKeyBad_evolves; apply State.dropCopies_evolves; apply State.modKey_evolves; exact e

/-! ### KeyRows -/

theorem State.rewriteKey_evolves {s : State} (scope : Nat) (slice : Nat) (slot : Nat) (f : Key → Key) (t : State) (e : Evolves s t) : Evolves s
    (State.rewriteKey scope slice slot f t) := by
  unfold State.rewriteKey
  apply State.modKey_evolves; exact e

theorem State.stagedFailed_evolves {s : State} (e0 : Staged) (t : State) (e : Evolves s t) : Evolves s (State.stagedFailed e0 t) := by
  unfold State.stagedFailed
  apply State.recordKeyBad_evolves; apply State.modKeys_evolves; exact e; intro _; exact ⟨rfl, .inl rfl, Nat.le_refl _, id⟩

theorem State.usedStaged_evolves {s : State} (e0 : Staged) (t : State) (e : Evolves s t) : Evolves s (State.usedStaged e0 t) := by
  unfold State.usedStaged
  apply State.modKeys_evolves; exact e; intro _; exact ⟨rfl, .inl rfl, Nat.le_refl _, id⟩

theorem State.checkRows_evolves {s : State} (h0 : Nat) (t : State) (e : Evolves s t) : Evolves s (State.checkRows h0 t) := by
  unfold State.checkRows
  split; split; exact e; apply State.markBad_evolves; exact e; exact e

theorem State.rewritten_evolves {s : State} (kind : Nat) (p : RowPlace) (t : State) (e : Evolves s t) : Evolves s (State.rewritten kind p t) := by
  unfold State.rewritten
  apply State.record_evolves; exact e

theorem State.overwrite_evolves {s : State} (l : List RowPlace) (t : State) (e : Evolves s t) : Evolves s (State.overwrite l t) := by
  unfold State.overwrite
  apply State.modKeys_evolves; exact e; intro _; exact ⟨rfl, .inl rfl, Nat.le_refl _, fun h => Mem.filter_wf h⟩

/-! ### Draws -/

theorem State.stretch_evolves {s : State} (i : Nat) (t : State) (e : Evolves s t) : Evolves s (State.stretch i t) := by
  unfold State.stretch
  split; apply State.recordRng_evolves; apply State.modGen_evolves; exact e; exact e

theorem State.makeDue_evolves {s : State} (i : Nat) (t : State) (e : Evolves s t) : Evolves s (State.makeDue i t) := by
  unfold State.makeDue
  apply State.stretch_evolves; split; exact e; apply State.modRng_evolves; exact e; intro _; exact ⟨id, id⟩

theorem State.refuse_evolves_snd {s : State} (i : Nat) (st : Status) (t : State) (e : Evolves s t) : Evolves s (State.refuse i st t).2 := by
  unfold State.refuse
  dsimp only; apply State.modGen_evolves; exact e

theorem State.refuse_evolves {s t : State} {i : Nat} {st : Status} {ra : _} {ru : State} (h : State.refuse i st t = (ra, ru)) (e : Evolves s t)
    : Evolves s ru := by
  have := State.refuse_evolves_snd i st t e
  rwa [h] at this

theorem State.wait_evolves_snd {s : State} (i : Nat) (w : Waiter) (t : State) (e : Evolves s t) : Evolves s (State.wait i w t).2 := by
  unfold State.wait
  split; dsimp only; apply State.modGen_evolves; exact e; exact e

theorem State.wait_evolves {s t : State} {i : Nat} {w : Waiter} {ra : _} {ru : State} (h : State.wait i w t = (ra, ru)) (e : Evolves s t) : Evolves s ru := by
  have := State.wait_evolves_snd i w t e
  rwa [h] at this

theorem State.portDone_evolves {s : State} (w : World) (n : Nat) (st : Status) (b : Bytes) (t : State) (e : Evolves s t) : Evolves s
    (State.portDone w n st b t) := by
  unfold State.portDone
  apply State.modWorld_evolves; exact e

theorem State.failDraw_evolves {s : State} (w : Waiter) (t : State) (e : Evolves s t) : Evolves s (State.failDraw w t) := by
  unfold State.failDraw
  split; apply State.finish_evolves; exact e; apply State.portDone_evolves; exact e; apply State.modMail_evolves; exact e; intro _
  (exact Mail.Keeps.map _ _ fun j => by split <;> rfl); exact e

theorem State.failWaiting_evolves {s : State} (i : Nat) (t : State) (e : Evolves s t) : Evolves s (State.failWaiting i t) := by
  unfold State.failWaiting
  dsimp only; refine evolves_foldl _ ?_ _ _ ?_; intro _ _ _; apply State.failDraw_evolves; assumption; apply State.modGen_evolves; exact e

theorem State.stall_evolves {s : State} (i : Nat) (t : State) (e : Evolves s t) : Evolves s (State.stall i t) := by
  unfold State.stall
  dsimp only; split; apply State.failWaiting_evolves; apply State.recordRng_evolves; apply State.modGen_evolves; exact e; apply State.recordRng_evolves
  apply State.modGen_evolves; exact e

theorem State.call_evolves_snd {s : State} (i : Nat) (n : Nat) (w : Waiter) (t : State) (e : Evolves s t) : Evolves s (State.call i n w t).2 := by
  unfold State.call
  dsimp only; split; apply State.stall_evolves; split; apply State.makeDue_evolves; apply State.modGen_evolves; exact e; apply State.modGen_evolves; exact e; split
  apply State.makeDue_evolves; apply State.modGen_evolves; exact e; apply State.modGen_evolves; exact e

theorem State.call_evolves {s t : State} {i : Nat} {n : Nat} {w : Waiter} {ra : _} {ru : State} (h : State.call i n w t = (ra, ru)) (e
    : Evolves s t) : Evolves s ru := by
  have := State.call_evolves_snd i n w t e
  rwa [h] at this

theorem State.draw_evolves_snd {s : State} (i : Nat) (n : Nat) (pr : Bool) (w : Waiter) (t : State) (e : Evolves s t) : Evolves s
    (State.draw i n pr w t).2 := by
  unfold State.draw
  dsimp only; split; apply State.refuse_evolves_snd; exact e; split; apply State.refuse_evolves_snd; exact e; split; apply State.wait_evolves_snd; exact e
  apply State.refuse_evolves_snd; exact e; split; apply State.refuse_evolves_snd; exact e; apply State.wait_evolves_snd; exact e; split; apply State.wait_evolves_snd
  apply State.modGen_evolves; exact e; split; apply State.wait_evolves_snd; exact e; split; split; dsimp only; apply State.call_evolves_snd; apply State.stretch_evolves
  exact e; apply State.wait_evolves_snd; exact e; dsimp only; apply State.call_evolves_snd; exact e

theorem State.draw_evolves {s t : State} {i : Nat} {n : Nat} {pr : Bool} {w : Waiter} {ra : _} {ru : State} (h : State.draw i n pr w t = (ra, ru))
    (e : Evolves s t) : Evolves s ru := by
  have := State.draw_evolves_snd i n pr w t e
  rwa [h] at this

theorem State.deliver_evolves {s : State} (i : Nat) (w : Waiter) (t : State) (e : Evolves s t) : Evolves s (State.deliver i w t) := by
  unfold State.deliver
  split; split; split; apply State.modCtx_evolves; refine State.call_evolves (by assumption) ?_; exact e; exact e; split; apply State.portDone_evolves
  refine State.call_evolves (by assumption) ?_; exact e; split; apply State.modRng_evolves; refine State.call_evolves (by assumption) ?_; exact e; intro _
  exact ⟨id, id⟩; split; apply State.modKeys_evolves; refine State.call_evolves (by assumption) ?_; exact e; intro _; exact ⟨rfl, .inl rfl, Nat.le_refl _, id⟩

theorem State.serveList_evolves {s : State} (i : Nat) (a : Bool) (n : Nat) (b : Bool) (t : State) (e : Evolves s t) : Evolves s
    (State.serveList i a n b t) := by
  induction n generalizing b t with
  | zero => exact e
  | succ n ih =>
    unfold State.serveList
    split
    · exact e
    · dsimp only
      split
      · exact State.modGen_evolves _ _ _ e
      · split
        · exact e
        · exact ih _ _ (State.deliver_evolves _ _ _ (State.modGen_evolves _ _ _ e))

theorem State.serve_evolves {s : State} (i : Nat) (arrival : Bool) (t : State) (e : Evolves s t) : Evolves s (State.serve i arrival t) := by
  unfold State.serve
  apply State.serveList_evolves; exact e

theorem State.ranDry_evolves {s : State} (t : State) (e : Evolves s t) : Evolves s (State.ranDry t) := by
  unfold State.ranDry
  split; exact e; apply State.each_evolves; exact e; intro _ _ _; dsimp only; apply State.serveList_evolves; apply State.stretch_evolves; assumption

theorem State.dropWaiter_evolves {s : State} (id : Nat) (t : State) (e : Evolves s t) : Evolves s (State.dropWaiter id t) := by
  unfold State.dropWaiter
  dsimp only; apply State.modRng_evolves; exact e; intro _; exact ⟨fun h => by simpa using h, fun h => by simpa using h⟩

/-! ### Rings -/

theorem State.sqTailWrite_evolves {s : State} (n : Nat) (p : Nat) (value : Nat) (t : State) (e : Evolves s t) : Evolves s
    (State.sqTailWrite n p value t) := by
  unfold State.sqTailWrite
  split; exact e; apply State.modRing_evolves; exact e

theorem State.cqHeadWrite_evolves {s : State} (n : Nat) (p : Nat) (value : Nat) (t : State) (e : Evolves s t) : Evolves s
    (State.cqHeadWrite n p value t) := by
  unfold State.cqHeadWrite
  split; exact e; apply State.modRing_evolves; exact e

theorem State.restartWrite_evolves {s : State} (n : Nat) (p : Nat) (t : State) (e : Evolves s t) : Evolves s (State.restartWrite n p t) := by
  unfold State.restartWrite
  split; exact e; apply State.modRing_evolves; exact e

theorem State.stopRing_evolves {s : State} (n : Nat) (p : Nat) (cause : Nat) (addr : Nat) (t : State) (e : Evolves s t) : Evolves s
    (State.stopRing n p cause addr t) := by
  unfold State.stopRing
  apply State.hpError_evolves; apply State.modRing_evolves; exact e

theorem State.enter_evolves {s : State} (c : Ctx) (f : Fetched) (t : State) (e : Evolves s t) : Evolves s (State.enter c f t) := by
  unfold State.enter
  apply State.modDist_evolves; apply State.modRing_evolves; exact e

theorem State.chainStep_evolves {s : State} (c : Ctx) (t : State) (e : Evolves s t) : Evolves s (State.chainStep c t) := by
  unfold State.chainStep
  split; exact e; dsimp only; split; apply State.modCtx_evolves; exact e; apply State.modRing_evolves; exact e

theorem State.writeRecord_evolves {s : State} (c : Ctx) (r : RingPair) (t : State) (e : Evolves s t) : Evolves s (State.writeRecord c r t) := by
  unfold State.writeRecord
  dsimp only; split; split; apply State.sliceInt_evolves; apply State.chainStep_evolves; apply State.releaseHome_evolves; refine Evolves.other ?_
  apply State.dropCtx_evolves; apply State.modSlice_evolves; apply State.modRing_evolves; apply State.emit_evolves; exact e; apply State.chainStep_evolves
  apply State.releaseHome_evolves; refine Evolves.other ?_; apply State.dropCtx_evolves; apply State.modSlice_evolves; apply State.modRing_evolves; apply State.emit_evolves
  exact e; apply State.chainStep_evolves; apply State.releaseHome_evolves; refine Evolves.other ?_; apply State.dropCtx_evolves; apply State.modSlice_evolves
  apply State.modRing_evolves; apply State.emit_evolves; exact e

theorem State.sendResult_evolves {s : State} (c : Ctx) (t : State) (e : Evolves s t) : Evolves s (State.sendResult c t) := by
  unfold State.sendResult
  dsimp only; split; exact e; apply State.sendUnit_evolves; apply State.dropCtx_evolves; apply State.releaseHome_evolves; exact e; apply State.sendTo_evolves
  apply State.dropCtx_evolves; apply State.releaseHome_evolves; exact e

/-! ### Rates -/

theorem State.entryDone_evolves {s : State} (c : Ctx) (k : Nat) (t : State) (e : Evolves s t) : Evolves s (State.entryDone c k t) := by
  unfold State.entryDone
  split; apply State.modCh_evolves; exact e; exact e

theorem State.entriesDone_evolves {s : State} (c : Ctx) (t : State) (e : Evolves s t) : Evolves s (State.entriesDone c t) := by
  unfold State.entriesDone
  refine evolves_foldl _ ?_ _ _ ?_; intro _ _ _; apply State.entryDone_evolves; assumption; exact e

theorem State.endOp_evolves {s : State} (c : Ctx) (st : Status) (detail : Nat) (bytes : Nat) (result : BitVec 64) (t : State) (e : Evolves s t)
    : Evolves s (State.endOp c st detail bytes result t) := by
  unfold State.endOp
  apply State.modCtx_evolves; apply State.finish_evolves; apply State.entriesDone_evolves; exact e

/-! ### Distribution -/

theorem State.drr_evolves {s t : State} {n sl : Nat} {w : Work} {ru : State} (h : State.drr n sl w t = some ru) (e : Evolves s t) : Evolves s ru := by
  unfold State.drr at h
  dsimp only at h
  split at h
  · split at h
    · cases h
    · cases h
      refine State.modSlice_evolves _ _ _ ?_
      exact evolves_foldl _ (fun t a e => State.modSlice_evolves _ _ _ e) _ _ e
  · cases h

theorem State.creditWake_evolves {s : State} (n : Nat) (t : State) (e : Evolves s t) : Evolves s (State.creditWake n t) := by
  unfold State.creditWake
  apply State.startWake_evolves; exact e

theorem State.storeEntry_evolves {s : State} (n : Nat) (c : Ctx) (t : State) (e : Evolves s t) : Evolves s (State.storeEntry n c t) := by
  unfold State.storeEntry
  apply State.modCh_evolves; exact e

theorem State.bumpTurn_evolves {s : State} (t : State) (e : Evolves s t) : Evolves s (State.bumpTurn t) := by
  unfold State.bumpTurn
  apply State.modDist_evolves; exact e

theorem State.handOver_evolves {s : State} (n : Nat) (c : Ctx) (f : Fetched) (t : State) (e : Evolves s t) : Evolves s (State.handOver n c f t) := by
  unfold State.handOver
  dsimp only; apply State.creditWake_evolves; apply State.storeEntry_evolves; apply State.bumpTurn_evolves; apply State.enter_evolves; exact e

theorem State.startReads_evolves {s : State} (id : Nat) (k : Nat) (t : State) (e : Evolves s t) : Evolves s (State.startReads id k t) := by
  unfold State.startReads
  split; split; apply State.issueReads_evolves; exact e; exact e; exact e

theorem State.pkFetch_evolves {s : State} (n : Nat) (t : State) (e : Evolves s t) : Evolves s (State.pkFetch n t) := by
  unfold State.pkFetch
  split; dsimp only; split; exact e; apply State.startReads_evolves; apply State.modCh_evolves; exact e; exact e

theorem State.take_evolves {s : State} (n : Nat) (c : Ctx) (t : State) (e : Evolves s t) : Evolves s (State.take n c t) := by
  unfold State.take
  dsimp only; split; split; apply State.modDom_evolves; apply State.storeEntry_evolves; split; apply State.bumpTurn_evolves; apply State.modDist_evolves; exact e
  apply State.modDist_evolves; exact e; split; apply State.pkFetch_evolves; apply State.modDom_evolves; apply State.storeEntry_evolves; split; apply State.bumpTurn_evolves
  apply State.modDist_evolves; exact e; apply State.modDist_evolves; exact e; apply State.startReads_evolves; apply State.modDom_evolves; apply State.storeEntry_evolves; split
  apply State.bumpTurn_evolves; apply State.modDist_evolves; exact e; apply State.modDist_evolves; exact e; split; apply State.modDom_evolves; apply State.storeEntry_evolves
  split; apply State.bumpTurn_evolves; apply State.modDist_evolves; exact e; apply State.modDist_evolves; exact e; split; apply State.pkFetch_evolves
  apply State.modDom_evolves; apply State.storeEntry_evolves; split; apply State.bumpTurn_evolves; apply State.modDist_evolves; exact e; apply State.modDist_evolves; exact e
  apply State.startReads_evolves; apply State.modDom_evolves; apply State.storeEntry_evolves; split; apply State.bumpTurn_evolves; apply State.modDist_evolves; exact e
  apply State.modDist_evolves; exact e

theorem State.goRemote_evolves {s : State} (c : Ctx) (k : Key) (t : State) (e : Evolves s t) : Evolves s (State.goRemote c k t) := by
  unfold State.goRemote
  split; apply State.finish_evolves; exact e; split; apply State.modCtx_evolves; apply State.finish_evolves; exact e; dsimp only; apply State.remoteNext_evolves
  apply State.modCtx_evolves; apply State.issueReads_evolves; apply State.modCtx_evolves; apply State.releaseHome_evolves; exact e

theorem State.firstEntry_evolves {s : State} (n : Nat) (c : Ctx) (tagOk : Bool) (t : State) (e : Evolves s t) : Evolves s (State.firstEntry n c tagOk t) := by
  unfold State.firstEntry
  dsimp only; split; apply State.finish_evolves; exact e; split; split; apply State.modCtx_evolves; apply State.finish_evolves; exact e; apply State.take_evolves; exact e
  split; apply State.modCtx_evolves; apply State.finish_evolves; apply State.modCh_evolves; exact e; apply State.take_evolves; apply State.modCh_evolves; exact e; split; split
  apply State.modCtx_evolves; apply State.finish_evolves; split; apply State.usedStaged_evolves; apply State.fill_evolves; exact e; apply State.fill_evolves; exact e
  apply State.take_evolves; split; apply State.usedStaged_evolves; apply State.fill_evolves; exact e; apply State.fill_evolves; exact e; apply State.finish_evolves; split
  apply State.stagedFailed_evolves; exact e; apply State.markBad_evolves; exact e; apply State.goRemote_evolves; exact e; apply State.storeEntry_evolves
  apply State.bumpTurn_evolves; apply State.modCtx_evolves; exact e; apply State.finish_evolves; exact e

theorem State.issue_evolves {s : State} (n : Nat) (c : Ctx) (tagOk : Bool) (t : State) (e : Evolves s t) : Evolves s (State.issue n c tagOk t) := by
  unfold State.issue
  dsimp only; split; apply State.firstEntry_evolves; exact e; split; apply State.take_evolves; exact e; split; apply State.take_evolves; apply State.fill_evolves; exact e
  apply State.take_evolves; exact e

theorem State.zeroDst_evolves {s : State} (c : Ctx) (n : Nat) (t : State) (e : Evolves s t) : Evolves s (State.zeroDst c n t) := by
  unfold State.zeroDst
  split; apply State.writeDst_evolves; exact e; exact e

theorem State.setOpMin_evolves {s : State} (n : Nat) (p : Nat) (t : State) (e : Evolves s t) : Evolves s (State.setOpMin n p t) := by
  unfold State.setOpMin
  apply State.modDom_evolves; exact e

theorem State.judge_evolves {s : State} (n : Nat) (med : Nat) (t : State) (e : Evolves s t) : Evolves s (State.judge n med t) := by
  unfold State.judge
  dsimp only; split; split; split; apply State.modCh_evolves; exact e; apply State.recordChannel_evolves; apply State.setOpMin_evolves; apply State.modCh_evolves; exact e
  split; apply State.modCh_evolves; exact e; apply State.recordChannel_evolves; apply State.setOpMin_evolves; apply State.modCh_evolves; exact e; split; split
  apply State.modCh_evolves; exact e; apply State.recordChannel_evolves; apply State.setOpMin_evolves; apply State.modCh_evolves; exact e; split; apply State.modCh_evolves
  exact e; apply State.recordChannel_evolves; apply State.setOpMin_evolves; apply State.modCh_evolves; exact e; exact e

theorem State.followTarget_evolves {s : State} (n : Nat) (t : State) (e : Evolves s t) : Evolves s (State.followTarget n t) := by
  unfold State.followTarget
  split; apply State.modDom_evolves; exact e; exact e

theorem State.voltageLoop_evolves {s : State} (n : Nat) (entries : Nat) (t : State) (e : Evolves s t) : Evolves s (State.voltageLoop n entries t) := by
  unfold State.voltageLoop
  dsimp only; split; apply State.modCh_evolves; exact e; split; apply State.modDom_evolves; apply State.modCh_evolves; exact e; split; apply State.modCh_evolves; exact e
  split; apply State.modDom_evolves; apply State.modCh_evolves; exact e; split; split; apply State.modDom_evolves; apply State.modCh_evolves; exact e
  apply State.modCh_evolves; exact e; split; apply State.modDom_evolves; apply State.modCh_evolves; exact e; apply State.modCh_evolves; exact e

theorem State.deferredDrain_evolves {s : State} (n : Nat) (t : State) (e : Evolves s t) : Evolves s (State.deferredDrain n t) := by
  unfold State.deferredDrain
  split; apply State.drain_evolves; exact e; exact e

theorem State.refreshIdle_evolves {s : State} (n : Nat) (busy : Bool) (t : State) (e : Evolves s t) : Evolves s (State.refreshIdle n busy t) := by
  unfold State.refreshIdle
  dsimp only; split; apply State.modDom_evolves; exact e; split; apply State.modDom_evolves; exact e; exact e

theorem State.askTest_evolves {s : State} (n : Nat) (t : State) (e : Evolves s t) : Evolves s (State.askTest n t) := by
  unfold State.askTest
  apply State.modCh_evolves; exact e

theorem State.failChannel_evolves {s : State} (n : Nat) (cause : Nat) (t : State) (e : Evolves s t) : Evolves s (State.failChannel n cause t) := by
  unfold State.failChannel
  dsimp only; apply State.recordChannel_evolves; apply State.modCh_evolves; exact e

/-! ### Cipher -/

theorem State.ranSeg_evolves {s : State} (id : Nat) (k : Nat) (image : Bytes) (t : State) (e : Evolves s t) : Evolves s (State.ranSeg id k image t) := by
  unfold State.ranSeg
  apply State.modCtx_evolves; exact e

theorem State.ctxDraw_evolves_snd {s : State} (c : Ctx) (n : Nat) (pr : Bool) (t : State) (e : Evolves s t) : Evolves s (State.ctxDraw c n pr t).1 := by
  unfold State.ctxDraw
  split; split; dsimp only; apply State.modCtx_evolves; refine State.draw_evolves (by assumption) ?_; exact e; dsimp only; apply State.modCtx_evolves; split
  apply State.releaseHome_evolves; refine evolves_foldl _ ?_ _ _ ?_; intro _ _ _; apply State.entryDone_evolves; assumption
  refine State.draw_evolves (by assumption) ?_; exact e; refine evolves_foldl _ ?_ _ _ ?_; intro _ _ _; apply State.entryDone_evolves; assumption
  refine State.draw_evolves (by assumption) ?_; exact e; dsimp only; apply State.endOp_evolves; refine State.draw_evolves
    (by assumption) ?_; exact e; dsimp only
  split; apply State.withdraw_evolves; refine State.draw_evolves (by assumption) ?_; exact e; refine State.draw_evolves (by assumption) ?_; exact e; exact e

theorem State.ctxDraw_evolves {s t : State} {c : Ctx} {n : Nat} {pr : Bool} {ru : State} {ra : _} (h : State.ctxDraw c n pr t = (ru, ra)) (e
    : Evolves s t) : Evolves s ru := by
  have := State.ctxDraw_evolves_snd c n pr t e
  rwa [h] at this

theorem State.decEnd_evolves {s : State} (c : Ctx) (j : CipherJob) (image : Bytes) (plain : Bytes) (held : Bool) (t : State) (e : Evolves s t)
    : Evolves s (State.decEnd c j image plain held t) := by
  unfold State.decEnd
  dsimp only; split; apply State.endOp_evolves; exact e; split; split; apply State.endOp_evolves; apply State.writeDst_evolves; exact e; apply State.endOp_evolves
  exact e; apply State.endOp_evolves; apply State.zeroDst_evolves; exact e

/-! ### Digest -/

theorem State.takeDigest_evolves {s : State} (n : Nat) (o : DigestOwner) (t : State) (e : Evolves s t) : Evolves s (State.takeDigest n o t) := by
  unfold State.takeDigest
  dsimp only; apply State.modCh_evolves; exact e

theorem State.dropSessionCtx_evolves {s : State} (n : Nat) (k : Nat) (t : State) (e : Evolves s t) : Evolves s (State.dropSessionCtx n k t) := by
  unfold State.dropSessionCtx
  apply State.modCh_evolves; exact e

theorem State.absorbSeg_evolves {s : State} (c : Ctx) (k : Nat) (data : Bytes) (t : State) (e : Evolves s t) : Evolves s (State.absorbSeg c k data t) := by
  unfold State.absorbSeg
  split; apply State.ranSeg_evolves; apply State.takeDigest_evolves; exact e; exact e

theorem State.modSession_evolves {s : State} (n : Nat) (k : Nat) (f : Session → Session) (t : State) (e : Evolves s t) : Evolves s
    (State.modSession n k f t) := by
  unfold State.modSession
  apply State.modCh_evolves; exact e

theorem State.channelReturn_evolves {s : State} (n : Nat) (source : Nat) (t : State) (e : Evolves s t) : Evolves s (State.channelReturn n source t) := by
  unfold State.channelReturn
  dsimp only; apply State.wakeNote_evolves; apply State.modGen_evolves; apply State.modCh_evolves; exact e

theorem State.sessionWake_evolves {s : State} (n : Nat) (t : State) (e : Evolves s t) : Evolves s (State.sessionWake n t) := by
  unfold State.sessionWake
  split; apply State.channelReturn_evolves; exact e; exact e

theorem State.sessionOpen_evolves {s : State} (ch : Nat) (sn : Nat) (ctrl : BitVec 32) (t : State) (e : Evolves s t) : Evolves s
    (State.sessionOpen ch sn ctrl t) := by
  unfold State.sessionOpen
  split; exact e; dsimp only; split; apply State.modSession_evolves; apply State.sessionWake_evolves; exact e; split; apply State.modSession_evolves
  apply State.sessionWake_evolves; exact e; split; apply State.modSession_evolves; apply State.sessionWake_evolves; exact e; split; apply State.modSession_evolves
  apply State.sessionWake_evolves; exact e; apply State.takeDigest_evolves; apply State.modSession_evolves; apply State.sessionWake_evolves; exact e

theorem State.sessionAbandon_evolves {s : State} (ch : Nat) (sn : Nat) (t : State) (e : Evolves s t) : Evolves s (State.sessionAbandon ch sn t) := by
  unfold State.sessionAbandon
  split; exact e; apply State.dropSessionCtx_evolves; apply State.modSession_evolves; apply State.sessionWake_evolves; exact e

theorem State.sessionSave_evolves {s : State} (ch : Nat) (sn : Nat) (t : State) (e : Evolves s t) : Evolves s (State.sessionSave ch sn t) := by
  unfold State.sessionSave
  split; exact e; dsimp only; split; apply State.sessionWake_evolves; exact e; apply State.modSession_evolves; apply State.sessionWake_evolves; exact e

theorem State.sessionRestore_evolves {s : State} (ch : Nat) (sn : Nat) (t : State) (e : Evolves s t) : Evolves s (State.sessionRestore ch sn t) := by
  unfold State.sessionRestore
  split; exact e; dsimp only; split; apply State.modSession_evolves; apply State.sessionWake_evolves; exact e; split; apply State.modSession_evolves
  apply State.sessionWake_evolves; exact e; split; apply State.modSession_evolves; apply State.sessionWake_evolves; exact e; split; apply State.modSession_evolves
  apply State.sessionWake_evolves; exact e; apply State.takeDigest_evolves; apply State.modSession_evolves; apply State.sessionWake_evolves; exact e

theorem State.sessionCompare_evolves {s : State} (ch : Nat) (sn : Nat) (t : State) (e : Evolves s t) : Evolves s (State.sessionCompare ch sn t) := by
  unfold State.sessionCompare
  split; exact e; dsimp only; split; apply State.modSession_evolves; apply State.sessionWake_evolves; exact e; apply State.modSession_evolves
  apply State.freeBytes_evolves_snd; apply State.sessionWake_evolves; exact e

theorem State.feed_evolves {s : State} (ch : Nat) (sn : Nat) (data : Bytes) (t : State) (e : Evolves s t) : Evolves s (State.feed ch sn data t) := by
  unfold State.feed
  split; exact e; dsimp only; split; apply State.sessionWake_evolves; exact e; apply State.modSession_evolves; apply State.sessionWake_evolves; exact e

theorem State.lastCnt_evolves {s : State} (ch : Nat) (sn : Nat) (n : Nat) (t : State) (e : Evolves s t) : Evolves s (State.lastCnt ch sn n t) := by
  unfold State.lastCnt
  split; exact e; dsimp only; split; apply State.sessionWake_evolves; exact e; split; apply State.modSession_evolves; apply State.sessionWake_evolves; exact e; split
  apply State.modSession_evolves; apply State.sessionWake_evolves; exact e; apply State.dropSessionCtx_evolves; apply State.modSession_evolves; apply State.sessionWake_evolves
  exact e

theorem State.crcValueWrite_evolves {s : State} (ch : Nat) (sn : Nat) (value : BitVec 64) (t : State) (e : Evolves s t) : Evolves s
    (State.crcValueWrite ch sn value t) := by
  unfold State.crcValueWrite
  split; exact e; apply State.modSession_evolves; apply State.sessionWake_evolves; exact e

/-! ### PkOps -/

theorem State.recordPace_evolves {s : State} (n : Nat) (op : Nat) (b : Nat) (p : Nat) (late : Bool) (t : State) (e : Evolves s t) : Evolves s
    (State.recordPace n op b p late t) := by
  unfold State.recordPace
  apply State.record_evolves; exact e

theorem State.startPart_evolves {s : State} (n : Nat) (c : Ctx) (r : PkRun) (part : Nat) (t : State) (e : Evolves s t) : Evolves s
    (State.startPart n c r part t) := by
  unfold State.startPart
  dsimp only; split; split; apply State.modCtx_evolves; apply State.modCh_evolves; exact e; apply State.modCh_evolves; exact e; apply State.recordPace_evolves; split
  apply State.modCtx_evolves; apply State.modCh_evolves; exact e; apply State.modCh_evolves; exact e

theorem State.pkDrawAll_evolves_snd {s : State} {ctx : Nat} {src : Bytes} {n : Nat} (t : State) (e : Evolves s t) : Evolves s
    (State.pkDrawAll ctx src n t).1 := by
  induction n generalizing t with
  | zero => exact e
  | succ n ih =>
    unfold State.pkDrawAll
    split
    · split
      · split
        · exact ih _ (State.ctxDraw_evolves (by assumption) e)
        · exact State.ctxDraw_evolves (by assumption) e
      · exact e
    · exact e

theorem State.pkDrawAll_evolves {s t : State} {ctx : Nat} {src : Bytes} {n : Nat} {ru : State} {ra : _} (h : State.pkDrawAll ctx src n t = (ru, ra))
    (e : Evolves s t) : Evolves s ru := by
  have := State.pkDrawAll_evolves_snd (ctx := ctx) (src := src) (n := n) t e
  rwa [h] at this

theorem State.substitute_evolves {s : State} (n : Nat) (c : Ctx) (t : State) (e : Evolves s t) : Evolves s (State.substitute n c t) := by
  unfold State.substitute
  split; dsimp only; apply State.call_evolves_snd; exact e; exact e

theorem State.pkBegin_evolves {s : State} (n : Nat) (ctx : Nat) (src : Bytes) (t : State) (e : Evolves s t) : Evolves s (State.pkBegin n ctx src t) := by
  unfold State.pkBegin
  split; dsimp only; apply State.pkFetch_evolves; split; apply State.startPart_evolves; split; apply State.substitute_evolves; apply State.modCh_evolves
  apply State.modCtx_evolves; exact e; apply State.modCh_evolves; apply State.modCtx_evolves; exact e; split; apply State.substitute_evolves; apply State.modCh_evolves
  apply State.modCtx_evolves; exact e; apply State.modCh_evolves; apply State.modCtx_evolves; exact e; exact e

theorem State.pkPublicFail_evolves {s : State} (n : Nat) (c : Ctx) (st : Status) (t : State) (e : Evolves s t) : Evolves s (State.pkPublicFail n c st t) := by
  unfold State.pkPublicFail
  apply State.pkFetch_evolves; apply State.modCh_evolves; apply State.endOp_evolves; exact e

theorem State.pkStand_evolves {s : State} (n : Nat) (c : Ctx) (src : Bytes) (t : State) (e : Evolves s t) : Evolves s (State.pkStand n c src t) := by
  unfold State.pkStand
  apply State.modCh_evolves; exact e

theorem State.mcChecked_evolves {s : State} (n : Nat) (t : State) (e : Evolves s t) : Evolves s (State.mcChecked n t) := by
  unfold State.mcChecked
  split; apply State.modCh_evolves; exact e; exact e

theorem State.pkStart_evolves {s : State} (op : Nat) (ctx : Nat) (t : State) (e : Evolves s t) : Evolves s (State.pkStart op ctx t) := by
  unfold State.pkStart
  split; split; split; exact e; split; apply State.pkFetch_evolves; exact e; split; apply State.pkFetch_evolves; exact e; split; exact e; dsimp only; split
  apply State.pkPublicFail_evolves; apply State.pkStand_evolves; exact e; split; apply State.mcChecked_evolves; apply State.pkStand_evolves; exact e; split
  apply State.pkBegin_evolves; refine State.pkDrawAll_evolves (by assumption) ?_; apply State.mcChecked_evolves; apply State.pkStand_evolves; exact e
  refine State.pkDrawAll_evolves (by assumption) ?_; apply State.mcChecked_evolves; apply State.pkStand_evolves; exact e; exact e; exact e

theorem State.pkWrite_evolves {s : State} (c : Ctx) (r : PkRun) (t : State) (e : Evolves s t) : Evolves s (State.pkWrite c r t) := by
  unfold State.pkWrite
  dsimp only; split; apply State.writeOut2_evolves; apply State.writeDst_evolves; exact e; apply State.writeOut2_evolves; apply State.writeDst_evolves; exact e; exact e

theorem State.pkRelease_evolves {s : State} (n : Nat) (r : PkRun) (t : State) (e : Evolves s t) : Evolves s (State.pkRelease n r t) := by
  unfold State.pkRelease
  split; split; apply State.fence_evolves; exact e; dsimp only; apply State.modCh_evolves; apply State.endOp_evolves; apply State.pkWrite_evolves; exact e
  apply State.modCh_evolves; exact e

theorem State.partEnd_evolves {s : State} (n : Nat) (r : PkRun) (t : State) (e : Evolves s t) : Evolves s (State.partEnd n r t) := by
  unfold State.partEnd
  split; split; dsimp only; split; apply State.pkRelease_evolves; exact e; apply State.startPart_evolves; exact e; apply State.pkRelease_evolves; exact e
  apply State.pkRelease_evolves; exact e

theorem State.countPaced_evolves {s : State} (n : Nat) (slots : Nat) (r : PkRun) (t : State) (e : Evolves s t) : Evolves s
    (State.countPaced n slots r t) := by
  unfold State.countPaced
  split; apply State.modCh_evolves; exact e; exact e

/-! ### Spill -/

theorem State.spillOut_evolves {s : State} (c : Ctx) (port : Nat) (t : State) (e : Evolves s t) : Evolves s (State.spillOut c port t) := by
  unfold State.spillOut
  dsimp only; apply State.sendWork_evolves; apply State.modCtx_evolves; apply State.issueReads_evolves; apply State.modDist_evolves; exact e

theorem State.takeResult_evolves {s : State} (c : Ctx) (w : WorkResult) (t : State) (e : Evolves s t) : Evolves s (State.takeResult c w t) := by
  unfold State.takeResult
  dsimp only; apply State.modCtx_evolves; apply State.finish_evolves; split; apply State.zeroDst_evolves; apply State.writeOut2_evolves; apply State.writeDst_evolves; exact e
  apply State.writeOut2_evolves; apply State.writeDst_evolves; exact e

theorem State.takeIn_evolves {s : State} (c : Ctx) (t : State) (e : Evolves s t) : Evolves s (State.takeIn c t) := by
  unfold State.takeIn
  apply State.modDist_evolves; exact e

/-! ### Tamper -/

theorem State.tamperRecord_evolves {s : State} (i : Nat) (grade : Nat) (t : State) (e : Evolves s t) : Evolves s (State.tamperRecord i grade t) := by
  unfold State.tamperRecord
  dsimp only; split; apply State.record_evolves; apply State.modSrc_evolves; exact e; refine Evolves.build rfl ?_ ?_ ?_ ?_ ?_ ?_ ?_ ?_ ?_ ?_ ?_ ?_; exact e
  intro _; assumption; exact Rng.keeps_refl _; exact Custody.keeps_refl _; exact Mail.keeps_refl _; exact Dual.keeps_refl _; exact Worlds.keeps_refl _; intro _
  (rw [Tamper.putEntry_sources]; assumption); exact Recorder.keeps_refl _; intro _; assumption; exact Power.keeps_refl _; exact Renewal.keeps_refl _

theorem State.clampOne_evolves {s : State} (on : Bool) (n : Nat) (t : State) (e : Evolves s t) : Evolves s (State.clampOne on n t) := by
  unfold State.clampOne
  dsimp only; split; apply State.modCh_evolves; apply State.modDom_evolves; exact e; apply State.followTarget_evolves; apply State.modCh_evolves; apply State.modDom_evolves
  exact e

theorem State.takeA1_evolves {s : State} (i : Nat) (t : State) (e : Evolves s t) : Evolves s (State.takeA1 i t) := by
  unfold State.takeA1
  apply State.modSrc_evolves; split; exact e; apply State.each_evolves; exact e; intro _ _ _; apply State.clampOne_evolves; assumption

theorem State.fenceA2_evolves {s : State} (i : Nat) (n : Nat) (t : State) (e : Evolves s t) : Evolves s (State.fenceA2 i n t) := by
  unfold State.fenceA2
  dsimp only; apply State.modCh_evolves; apply State.fence_evolves; exact e

theorem State.takeA2_evolves {s : State} (i : Nat) (scope : Nat) (t : State) (e : Evolves s t) : Evolves s (State.takeA2 i scope t) := by
  unfold State.takeA2
  apply State.modSrc_evolves; apply State.each_evolves; exact e; intro _ _ _; apply State.fenceA2_evolves; assumption

theorem State.abortAll_evolves {s : State} (t : State) (e : Evolves s t) : Evolves s (State.abortAll t) := by
  unfold State.abortAll
  dsimp only; apply State.modDist_evolves; apply State.each_evolves; apply State.abortAdmitted_evolves; exact e; intro _ _ _; apply State.dropWaiter_evolves; assumption

theorem State.dropCaches_evolves {s : State} (t : State) (e : Evolves s t) : Evolves s (State.dropCaches t) := by
  unfold State.dropCaches
  refine Evolves.build rfl ?_ ?_ ?_ ?_ ?_ ?_ ?_ ?_ ?_ ?_ ?_ ?_; exact e; intro _; simpa using ‹_›; exact Rng.keeps_refl _; dsimp only
  exact ⟨rfl, .inl rfl, Nat.le_refl _, id⟩; exact Mail.keeps_refl _; exact Dual.keeps_refl _; exact Worlds.keeps_refl _; intro _; assumption
  exact Recorder.keeps_refl _; intro _; assumption; exact Power.keeps_refl _; exact Renewal.keeps_refl _

theorem State.takeA3_evolves {s : State} (t : State) (e : Evolves s t) : Evolves s (State.takeA3 t) := by
  unfold State.takeA3
  dsimp only; split; apply State.dropCaches_evolves; apply State.abortAll_evolves; refine Evolves.build rfl ?_ ?_ ?_ ?_ ?_ ?_ ?_ ?_ ?_ ?_ ?_ ?_; exact e
  intro _; assumption; exact Rng.keeps_refl _; exact Custody.keeps_refl _; exact Mail.keeps_refl _; exact Dual.keeps_refl _; exact Worlds.keeps_refl _; intro _
  assumption; exact Recorder.keeps_refl _; intro _; assumption; exact Power.keeps_refl _; exact Renewal.keeps_refl _
  refine Evolves.build rfl ?_ ?_ ?_ ?_ ?_ ?_ ?_ ?_ ?_ ?_ ?_ ?_; exact e; intro _; assumption; exact Rng.keeps_refl _; exact Custody.keeps_refl _
  exact Mail.keeps_refl _; exact Dual.keeps_refl _; exact Worlds.keeps_refl _; intro _; assumption; exact Recorder.keeps_refl _; intro _; assumption
  exact Power.keeps_refl _; exact Renewal.keeps_refl _

theorem State.eraseKeys_evolves {s : State} (t : State) (e : Evolves s t) : Evolves s (State.eraseKeys t) := by
  unfold State.eraseKeys
  dsimp only; refine Evolves.build rfl ?_ ?_ ?_ ?_ ?_ ?_ ?_ ?_ ?_ ?_ ?_ ?_; apply State.dropCaches_evolves; exact e; intro _; assumption
  exact Rng.keeps_refl _; exact ⟨rfl, .inl rfl, Nat.le_refl _, fun _ => rfl⟩; exact Mail.keeps_refl _; exact Dual.keeps_refl _; exact Worlds.keeps_refl _; intro _
  assumption; exact Recorder.keeps_refl _; intro _; assumption; exact Power.keeps_refl _; exact Renewal.keeps_refl _

theorem State.closeWindow_evolves {s : State} (t : State) (e : Evolves s t) : Evolves s (State.closeWindow t) := by
  unfold State.closeWindow
  split; dsimp only; apply State.record_evolves; refine Evolves.build rfl ?_ ?_ ?_ ?_ ?_ ?_ ?_ ?_ ?_ ?_ ?_ ?_; exact e; intro _; assumption
  exact Rng.keeps_refl _; exact Custody.keeps_refl _; exact Mail.keeps_refl _; exact ⟨id, id⟩; exact Worlds.keeps_refl _; intro _; assumption
  exact Recorder.keeps_refl _; intro _; assumption; exact Power.keeps_refl _; exact Renewal.keeps_refl _; exact e

theorem State.zeroiseNow_evolves {s : State} (t : State) (e : Evolves s t) : Evolves s (State.zeroiseNow t) := by
  have h := State.eraseKeys_evolves _ (State.abortAll_evolves _ e)
  have h1 : Evolves s { t.abortAll.eraseKeys with md := { t.md with zeroised := true }, tamper := { t.tamper with latch := 4 } } :=
    { h with tamper := e.tamper }
  unfold State.zeroiseNow
  refine State.each_evolves _ _ _ ?_ (fun n t e => State.portDown_evolves _ _ _ e)
  refine Evolves.build rfl (State.closeWindow_evolves _ (State.each_evolves _ _ _ h1
    (fun n t e => State.eraseGen_evolves _ _ e))) id ?_ ?_ ?_ ?_ ?_ id ?_ id ?_ ?_
  · exact Rng.keeps_refl _
  · exact Custody.keeps_refl _
  · exact Mail.keeps_refl _
  · exact ⟨fun h => by simpa using h, id⟩
  · exact Worlds.keeps_refl _
  · exact Recorder.keeps_refl _
  · exact Power.keeps_refl _
  · exact Renewal.keeps_refl _

theorem State.takeA4_evolves {s : State} (t : State) (e : Evolves s t) : Evolves s (State.takeA4 t) := by
  unfold State.takeA4
  split; apply State.zeroiseNow_evolves; exact e; refine Evolves.build rfl ?_ ?_ ?_ ?_ ?_ ?_ ?_ ?_ ?_ ?_ ?_ ?_; exact e; intro _; assumption
  exact Rng.keeps_refl _; dsimp only; exact ⟨rfl, .inl rfl, Nat.le_refl _, id⟩; exact Mail.keeps_refl _; dsimp only; exact ⟨id, id⟩; exact Worlds.keeps_refl _
  intro _; assumption; exact Recorder.keeps_refl _; intro _; assumption; exact Power.keeps_refl _; exact Renewal.keeps_refl _

theorem State.respond_evolves {s : State} (i : Nat) (grade : Nat) (scope : Nat) (t : State) (e : Evolves s t) : Evolves s
    (State.respond i grade scope t) := by
  unfold State.respond
  split; exact e; split; apply State.takeA4_evolves; exact e; split; apply State.takeA3_evolves; exact e; split; exact e; split; apply State.takeA2_evolves; exact e
  split; apply State.takeA1_evolves; exact e; exact e

theorem State.countEvent_evolves {s : State} (i : Nat) (scope : Nat) (t : State) (e : Evolves s t) : Evolves s (State.countEvent i scope t) := by
  unfold State.countEvent
  dsimp only; split; apply State.modSrc_evolves; exact e; split; split; apply State.modSrc_evolves; apply State.modSrc_evolves; exact e; apply State.tamperRecord_evolves
  apply State.modSrc_evolves; apply State.modSrc_evolves; apply State.modSrc_evolves; exact e; apply State.tamperRecord_evolves; apply State.respond_evolves
  apply State.modSrc_evolves; apply State.modSrc_evolves; apply State.modSrc_evolves; exact e

theorem State.tamperEvent_evolves {s : State} (i : Nat) (scope : Nat) (t : State) (e : Evolves s t) : Evolves s (State.tamperEvent i scope t) := by
  unfold State.tamperEvent
  split; apply State.countEvent_evolves; exact e; exact e

theorem State.cellBad_evolves {s : State} (c : Nat) (absent : Bool) (t : State) (e : Evolves s t) : Evolves s (State.cellBad c absent t) := by
  unfold State.cellBad
  dsimp only; refine Evolves.build rfl ?_ ?_ ?_ ?_ ?_ ?_ ?_ ?_ ?_ ?_ ?_ ?_; exact e; intro _; assumption; exact Rng.keeps_refl _; exact Custody.keeps_refl _
  exact Mail.keeps_refl _; exact Dual.keeps_refl _; exact Worlds.keeps_refl _; intro _; assumption; exact Recorder.keeps_refl _; intro _; assumption
  exact Power.keeps_refl _; exact Renewal.keeps_refl _

theorem State.rearm_evolves {s : State} (i : Nat) (t : State) (e : Evolves s t) : Evolves s (State.rearm i t) := by
  unfold State.rearm
  apply State.modSrc_evolves; exact e

theorem State.releaseA2_evolves {s : State} (i : Nat) (n : Nat) (t : State) (e : Evolves s t) : Evolves s (State.releaseA2 i n t) := by
  unfold State.releaseA2
  dsimp only; split; split; apply State.askTest_evolves; apply State.modCh_evolves; exact e; apply State.modCh_evolves; exact e; exact e

theorem State.readLoop_evolves {s : State} (clean : BitVec 8) (k : Nat) (t : State) (e : Evolves s t) : Evolves s (State.readLoop clean k t) := by
  unfold State.readLoop
  dsimp only; split; exact e; split; split; apply State.rearm_evolves; exact e; exact e; apply State.tamperEvent_evolves; exact e

/-! ### Recorder -/

theorem State.checkAck_evolves {s : State} (t : State) (e : Evolves s t) : Evolves s (State.checkAck t) := by
  unfold State.checkAck
  dsimp only; split; apply State.raiseCause_evolves; refine Evolves.build rfl ?_ ?_ ?_ ?_ ?_ ?_ ?_ ?_ ?_ ?_ ?_ ?_; exact e; intro _; assumption
  exact Rng.keeps_refl _; exact Custody.keeps_refl _; exact Mail.keeps_refl _; exact Dual.keeps_refl _; exact Worlds.keeps_refl _; intro _; assumption
  exact fun h => ⟨h, Nat.le_refl _⟩; intro _; assumption; exact Power.keeps_refl _; exact Renewal.keeps_refl _
  refine Evolves.build rfl ?_ ?_ ?_ ?_ ?_ ?_ ?_ ?_ ?_ ?_ ?_ ?_; exact e; intro _; assumption; exact Rng.keeps_refl _; exact Custody.keeps_refl _
  exact Mail.keeps_refl _; exact Dual.keeps_refl _; exact Worlds.keeps_refl _; intro _; assumption; exact fun h => ⟨h, Nat.le_refl _⟩; intro _; assumption
  exact Power.keeps_refl _; exact Renewal.keeps_refl _

theorem State.flushLog_evolves {s : State} (t : State) (e : Evolves s t) : Evolves s (State.flushLog t) := by
  unfold State.flushLog
  dsimp only; split; apply State.raiseCause_evolves; apply State.checkAck_evolves; refine Evolves.build rfl ?_ ?_ ?_ ?_ ?_ ?_ ?_ ?_ ?_ ?_ ?_ ?_; exact e
  intro _; assumption; exact Rng.keeps_refl _; exact Custody.keeps_refl _; exact Mail.keeps_refl _; exact Dual.keeps_refl _; exact Worlds.keeps_refl _; intro _
  assumption; exact fun h => ⟨h, Nat.le_refl _⟩; intro _; assumption; exact Power.keeps_refl _; exact Renewal.keeps_refl _; apply State.checkAck_evolves
  refine Evolves.build rfl ?_ ?_ ?_ ?_ ?_ ?_ ?_ ?_ ?_ ?_ ?_ ?_; exact e; intro _; assumption; exact Rng.keeps_refl _; exact Custody.keeps_refl _
  exact Mail.keeps_refl _; exact Dual.keeps_refl _; exact Worlds.keeps_refl _; intro _; assumption; exact fun h => ⟨h, Nat.le_refl _⟩; intro _; assumption
  exact Power.keeps_refl _; exact Renewal.keeps_refl _

theorem State.ackWrite_evolves {s : State} (value : Nat) (t : State) (e : Evolves s t) : Evolves s (State.ackWrite value t) := by
  unfold State.ackWrite
  apply State.checkAck_evolves; refine Evolves.build rfl ?_ ?_ ?_ ?_ ?_ ?_ ?_ ?_ ?_ ?_ ?_ ?_; exact e; intro _; assumption; exact Rng.keeps_refl _
  exact Custody.keeps_refl _; exact Mail.keeps_refl _; exact Dual.keeps_refl _; exact Worlds.keeps_refl _; intro _; assumption; dsimp only
  exact fun h => ⟨h, Nat.le_refl _⟩; intro _; assumption; exact Power.keeps_refl _; exact Renewal.keeps_refl _

theorem State.powerFlush_evolves {s : State} (cause : Nat) (t : State) (e : Evolves s t) : Evolves s (State.powerFlush cause t) := by
  unfold State.powerFlush
  dsimp only; refine Evolves.build rfl ?_ ?_ ?_ ?_ ?_ ?_ ?_ ?_ ?_ ?_ ?_ ?_; apply State.record_evolves; exact e; intro _; assumption; exact Rng.keeps_refl _
  exact Custody.keeps_refl _; exact Mail.keeps_refl _; exact Dual.keeps_refl _; exact Worlds.keeps_refl _; intro _; assumption; exact fun h => ⟨h, Nat.le_refl _⟩
  intro _; assumption; exact Power.keeps_refl _; exact Renewal.keeps_refl _

theorem State.dark_evolves {s : State} (t : State) (e : Evolves s t) : Evolves s (State.dark t) := by
  unfold State.dark
  dsimp only; refine Evolves.build rfl ?_ ?_ ?_ ?_ ?_ ?_ ?_ ?_ ?_ ?_ ?_ ?_; exact e; intro _; exact rfl; exact ⟨fun _ => rfl, fun _ => rfl⟩
  exact ⟨rfl, .inr rfl, Nat.le_refl _, fun _ => rfl⟩; exact ⟨fun _ => rfl, fun _ j hj => (List.not_mem_nil hj).elim⟩; exact ⟨fun _ => rfl, id⟩
  exact ⟨fun _ => rfl, fun _ => rfl⟩; intro _; simpa using ‹_›; exact fun h => ⟨h, Nat.le_refl _⟩; intro _; exact rfl
  exact ⟨fun _ => rfl, fun _ => rfl⟩; exact ⟨Nat.le_refl _, Nat.le_refl _, Nat.le_refl _⟩

theorem State.tahrLost_evolves {s : State} (t : State) (e : Evolves s t) : Evolves s (State.tahrLost t) := by
  unfold State.tahrLost
  split; refine Evolves.build rfl ?_ ?_ ?_ ?_ ?_ ?_ ?_ ?_ ?_ ?_ ?_ ?_; exact e; intro _; assumption; exact Rng.keeps_refl _; dsimp only
  exact ⟨rfl, .inl rfl, Nat.le_refl _, id⟩; exact Mail.keeps_refl _; dsimp only; exact ⟨id, id⟩; exact Worlds.keeps_refl _; intro _; exact rfl
  exact Recorder.keeps_refl _; intro _; assumption; exact Power.keeps_refl _; exact Renewal.keeps_refl _; exact e

theorem State.mainLost_evolves {s : State} (cause : Nat) (t : State) (e : Evolves s t) : Evolves s (State.mainLost cause t) := by
  unfold State.mainLost
  dsimp only; refine Evolves.build rfl ?_ ?_ ?_ ?_ ?_ ?_ ?_ ?_ ?_ ?_ ?_ ?_; apply State.dark_evolves; apply State.powerFlush_evolves; exact e; intro _
  assumption; exact Rng.keeps_refl _; exact Custody.keeps_refl _; exact Mail.keeps_refl _; exact Dual.keeps_refl _; exact Worlds.keeps_refl _; intro _; assumption
  exact Recorder.keeps_refl _; intro _; assumption; exact ⟨id, id⟩; exact ⟨Nat.le_refl _, Nat.le_refl _, Nat.le_refl _⟩

/-! ### Derive -/

theorem State.deriveSmks_evolves {s : State} (t : State) (e : Evolves s t) : Evolves s (State.deriveSmks t) := by
  unfold State.deriveSmks
  refine evolves_foldl _ ?_ _ _ ?_; intro _ _ _; apply State.rewritten_evolves; assumption; refine Evolves.other ?_; exact e

theorem State.smkFailed_evolves {s : State} (n : Nat) (t : State) (e : Evolves s t) : Evolves s (State.smkFailed n t) := by
  unfold State.smkFailed
  split; exact e; split; dsimp only; split; apply State.rewritten_evolves; apply State.modSlice_evolves; apply State.record_evolves
  refine State.freeBytes_evolves (by assumption) ?_; exact e; apply State.modSlice_evolves; apply State.record_evolves; refine State.freeBytes_evolves (by assumption) ?_
  exact e

theorem State.checkSmk_evolves {s : State} (n : Nat) (t : State) (e : Evolves s t) : Evolves s (State.checkSmk n t) := by
  unfold State.checkSmk
  split; exact e; apply State.smkFailed_evolves; exact e

theorem State.compareSmks_evolves {s : State} (t : State) (e : Evolves s t) : Evolves s (State.compareSmks t) := by
  unfold State.compareSmks
  apply State.each_evolves; exact e; intro _ _ _; apply State.smkFailed_evolves; assumption

theorem State.loadSik_evolves {s : State} (t : State) (e : Evolves s t) : Evolves s (State.loadSik t) := by
  unfold State.loadSik
  apply State.modKeys_evolves; exact e; intro _; exact ⟨rfl, .inl rfl, Nat.le_refl _, id⟩

/-! ### Blobs -/

theorem State.stageIn_evolves {s : State} (e0 : Staged) (t : State) (e : Evolves s t) : Evolves s (State.stageIn e0 t) := by
  unfold State.stageIn
  dsimp only; apply State.modKeys_evolves; apply State.overwrite_evolves; split; apply State.rewritten_evolves; exact e; exact e; intro _
  exact ⟨rfl, .inl rfl, Nat.le_refl _, id⟩

theorem State.blobCheck_evolves {s : State} (c : Ctx) (n : Nat) (t : State) (e : Evolves s t) : Evolves s (State.blobCheck c n t) := by
  unfold State.blobCheck
  apply State.checkSmk_evolves; apply State.translate_evolves; apply State.linkExit_evolves; exact e

/-! ### Entropy -/

theorem State.startBank_evolves {s : State} (b : Nat) (t : State) (e : Evolves s t) : Evolves s (State.startBank b t) := by
  unfold State.startBank
  apply State.modBank_evolves; exact e

theorem State.restartBank_evolves {s : State} (b : Nat) (t : State) (e : Evolves s t) : Evolves s (State.restartBank b t) := by
  unfold State.restartBank
  apply State.modBank_evolves; exact e

theorem State.checkFailed_evolves {s : State} (t : State) (e : Evolves s t) : Evolves s (State.checkFailed t) := by
  unfold State.checkFailed
  split; dsimp only; apply State.each_evolves; apply State.modRng_evolves; exact e; intro _; exact ⟨id, id⟩; intro _ _ _; apply State.failWaiting_evolves; assumption
  exact e

theorem State.nextBank_evolves {s : State} (b : Nat) (t : State) (e : Evolves s t) : Evolves s (State.nextBank b t) := by
  unfold State.nextBank
  split; exact e; split; apply State.startBank_evolves; exact e; exact e

theorem State.allBanks_evolves {s : State} (t : State) (e : Evolves s t) : Evolves s (State.allBanks t) := by
  unfold State.allBanks
  apply State.each_evolves; exact e; intro _ _ _; split; apply State.restartBank_evolves; apply State.modBank_evolves; assumption; split; apply State.startBank_evolves
  assumption; assumption

theorem State.checkService_evolves {s : State} (t : State) (e : Evolves s t) : Evolves s (State.checkService t) := by
  unfold State.checkService
  split; apply State.modRng_evolves; exact e; intro _; exact ⟨id, id⟩; exact e

theorem State.nextSelftest_evolves {s : State} (t : State) (e : Evolves s t) : Evolves s (State.nextSelftest t) := by
  unfold State.nextSelftest
  split; split; exact e; split; apply State.restartBank_evolves; apply State.modRng_evolves; exact e; intro _; exact ⟨id, id⟩; apply State.modRng_evolves; exact e
  intro _; exact ⟨id, id⟩; exact e

theorem State.captureBlock_evolves {s : State} (raw : Bytes) (t : State) (e : Evolves s t) : Evolves s (State.captureBlock raw t) := by
  unfold State.captureBlock
  dsimp only; split; apply State.modRng_evolves; apply State.emit_evolves; exact e; intro _; exact ⟨id, id⟩; split; apply State.restartBank_evolves
  apply State.modRng_evolves; apply State.emit_evolves; exact e; intro _; exact ⟨id, id⟩; apply State.modBank_evolves; apply State.modRng_evolves; apply State.emit_evolves
  exact e; intro _; exact ⟨id, id⟩

theorem State.recovery_evolves {s : State} (t : State) (e : Evolves s t) : Evolves s (State.recovery t) := by
  unfold State.recovery
  dsimp only; apply State.nextBank_evolves; apply State.modRng_evolves; exact e; intro _; exact ⟨id, fun h => by simpa using h⟩

theorem State.fatalRng_evolves {s : State} (b : Nat) (t : State) (e : Evolves s t) : Evolves s (State.fatalRng b t) := by
  unfold State.fatalRng
  dsimp only; apply State.tamperEvent_evolves; apply State.checkFailed_evolves; apply State.recordRng_evolves; apply State.recovery_evolves; apply State.modRng_evolves
  apply State.modBank_evolves; exact e; intro _; exact ⟨id, id⟩

theorem State.setAside_evolves {s : State} (b : Nat) (t : State) (e : Evolves s t) : Evolves s (State.setAside b t) := by
  unfold State.setAside
  split; apply State.recordRng_evolves; apply State.modBank_evolves; exact e; dsimp only; split; apply State.nextBank_evolves; apply State.recordRng_evolves
  apply State.modBank_evolves; exact e; apply State.restartBank_evolves; apply State.modBank_evolves; apply State.recordRng_evolves; apply State.modBank_evolves; exact e

theorem State.reseedWith_evolves {s : State} (i : Nat) (block : Bytes) (t : State) (e : Evolves s t) : Evolves s (State.reseedWith i block t) := by
  unfold State.reseedWith
  dsimp only; apply State.serve_evolves; apply State.modMail_evolves; apply State.modGen_evolves; apply State.modRng_evolves; exact e; intro _; exact ⟨id, id⟩; intro _
  (exact Mail.Keeps.map _ _ fun j => by unfold reseedJob; split <;> rfl)

theorem State.drawPortWrite_evolves {s : State} (w : World) (len : Nat) (pr : Bool) (t : State) (e : Evolves s t) : Evolves s
    (State.drawPortWrite w len pr t) := by
  unfold State.drawPortWrite
  dsimp only; split; exact e; split; apply State.portDone_evolves; apply State.modWorld_evolves; exact e; split; apply State.portDone_evolves
  refine State.draw_evolves (by assumption) ?_; apply State.modWorld_evolves; exact e; apply State.portDone_evolves; refine State.draw_evolves
    (by assumption) ?_
  apply State.modWorld_evolves; exact e; apply State.modWorld_evolves; refine State.draw_evolves (by assumption) ?_; apply State.modWorld_evolves; exact e
  apply State.modWorld_evolves; refine State.draw_evolves (by assumption) ?_; apply State.modWorld_evolves; exact e

/-! ### Sram -/

theorem State.zeroHalf_evolves {s : State} (w : World) (t : State) (e : Evolves s t) : Evolves s (State.zeroHalf w t) := by
  unfold State.zeroHalf
  dsimp only; refine Evolves.build rfl ?_ ?_ ?_ ?_ ?_ ?_ ?_ ?_ ?_ ?_ ?_ ?_; exact e; intro _; assumption; exact Rng.keeps_refl _; exact Custody.keeps_refl _
  exact Mail.keeps_refl _; exact Dual.keeps_refl _; exact ⟨Mem.filter_wf, id⟩; intro _; assumption; exact Recorder.keeps_refl _; intro _; assumption
  exact Power.keeps_refl _; exact Renewal.keeps_refl _

theorem State.sramWrite_evolves {s : State} (a : Nat) (b : Bytes) (t : State) (e : Evolves s t) : Evolves s (State.sramWrite a b t) := by
  unfold State.sramWrite
  refine Evolves.build rfl ?_ ?_ ?_ ?_ ?_ ?_ ?_ ?_ ?_ ?_ ?_ ?_; exact e; intro _; assumption; exact Rng.keeps_refl _; exact Custody.keeps_refl _
  exact Mail.keeps_refl _; exact Dual.keeps_refl _; dsimp only; exact ⟨Mem.write_wf, id⟩; intro _; assumption; exact Recorder.keeps_refl _; intro _; assumption
  exact Power.keeps_refl _; exact Renewal.keeps_refl _

theorem State.serowFault_evolves {s : State} (w : World) (p : Priv) (t0 : AccessType) (a : Nat) (t : State) (e : Evolves s t) : Evolves s
    (State.serowFault w p t0 a t) := by
  unfold State.serowFault
  dsimp only; refine Evolves.build rfl ?_ ?_ ?_ ?_ ?_ ?_ ?_ ?_ ?_ ?_ ?_ ?_; apply State.modWorld_evolves; exact e; intro _; assumption; exact Rng.keeps_refl _
  exact Custody.keeps_refl _; exact Mail.keeps_refl _; exact Dual.keeps_refl _; exact ⟨id, id⟩; intro _; assumption; exact Recorder.keeps_refl _; intro _
  assumption; exact Power.keeps_refl _; exact Renewal.keeps_refl _

theorem State.admAdvance_evolves {s : State} (t : State) (e : Evolves s t) : Evolves s (State.admAdvance t) := by
  unfold State.admAdvance
  refine Evolves.build rfl ?_ ?_ ?_ ?_ ?_ ?_ ?_ ?_ ?_ ?_ ?_ ?_; exact e; intro _; assumption; exact Rng.keeps_refl _; exact Custody.keeps_refl _
  exact Mail.keeps_refl _; exact Dual.keeps_refl _; dsimp only; exact ⟨id, id⟩; intro _; assumption; exact Recorder.keeps_refl _; intro _; assumption
  exact Power.keeps_refl _; exact Renewal.keeps_refl _

theorem State.admErr_evolves {s : State} (w : World) (cause : Nat) (entry : Nat) (t : State) (e : Evolves s t) : Evolves s
    (State.admErr w cause entry t) := by
  unfold State.admErr
  apply State.modWorld_evolves; exact e

theorem State.commitWrite_evolves {s : State} (w : World) (t : State) (e : Evolves s t) : Evolves s (State.commitWrite w t) := by
  unfold State.commitWrite
  split; exact e; apply State.modWorld_evolves; exact e

theorem State.lockTable_evolves {s : State} (t : State) (e : Evolves s t) : Evolves s (State.lockTable t) := by
  unfold State.lockTable
  dsimp only; refine Evolves.build rfl ?_ ?_ ?_ ?_ ?_ ?_ ?_ ?_ ?_ ?_ ?_ ?_; exact e; intro _; assumption; exact Rng.keeps_refl _; exact Custody.keeps_refl _
  exact Mail.keeps_refl _; exact Dual.keeps_refl _; exact ⟨id, id⟩; intro _; assumption; exact Recorder.keeps_refl _; intro _; assumption
  exact Power.keeps_refl _; exact Renewal.keeps_refl _

theorem State.unlockTable_evolves {s : State} (t : State) (e : Evolves s t) : Evolves s (State.unlockTable t) := by
  unfold State.unlockTable
  refine Evolves.build rfl ?_ ?_ ?_ ?_ ?_ ?_ ?_ ?_ ?_ ?_ ?_ ?_; exact e; intro _; assumption; exact Rng.keeps_refl _; exact Custody.keeps_refl _
  exact Mail.keeps_refl _; exact Dual.keeps_refl _; dsimp only; exact ⟨id, id⟩; intro _; assumption; exact Recorder.keeps_refl _; intro _; assumption
  exact Power.keeps_refl _; exact Renewal.keeps_refl _

/-! ### Worlds -/

theorem State.endJobs_evolves {s : State} (p : Job → Bool) (st : Status) (detail : Nat) (t : State) (e : Evolves s t) : Evolves s
    (State.endJobs p st detail t) := by
  unfold State.endJobs
  apply State.modMail_evolves; exact e; intro _; (exact Mail.Keeps.map _ _ fun j => by split <;> rfl)

theorem State.discardAssemblies_evolves {s : State} (t : State) (e : Evolves s t) : Evolves s (State.discardAssemblies t) := by
  unfold State.discardAssemblies
  apply State.modMail_evolves; exact e; intro _; exact ⟨id, id⟩

theorem State.loseWorldSessions_evolves {s : State} (w : World) (t : State) (e : Evolves s t) : Evolves s (State.loseWorldSessions w t) := by
  unfold State.loseWorldSessions
  dsimp only; refine Evolves.build rfl ?_ ?_ ?_ ?_ ?_ ?_ ?_ ?_ ?_ ?_ ?_ ?_; exact e; intro _; simpa using ‹_›; exact Rng.keeps_refl _
  exact Custody.keeps_refl _; exact Mail.keeps_refl _; exact Dual.keeps_refl _; exact Worlds.keeps_refl _; intro _; assumption; exact Recorder.keeps_refl _; intro _
  assumption; exact Power.keeps_refl _; exact Renewal.keeps_refl _

theorem State.dropCd_evolves {s : State} (i : Nat) (t : State) (e : Evolves s t) : Evolves s (State.dropCd i t) := by
  unfold State.dropCd
  dsimp only; apply State.modGen_evolves; apply State.eraseGen_evolves; exact e

theorem State.holdWorld_evolves {s : State} (w : World) (cause : Nat) (t : State) (e : Evolves s t) : Evolves s (State.holdWorld w cause t) := by
  unfold State.holdWorld
  dsimp only; apply State.zeroHalf_evolves; apply State.dropCd_evolves; apply State.loseWorldSessions_evolves; apply State.modWorld_evolves; exact e

theorem State.recordRestart_evolves {s : State} (w : World) (cause : Nat) (t : State) (e : Evolves s t) : Evolves s (State.recordRestart w cause t) := by
  unfold State.recordRestart
  apply State.record_evolves; exact e

theorem State.countRestart_evolves {s : State} (w : World) (t : State) (e : Evolves s t) : Evolves s (State.countRestart w t) := by
  unfold State.countRestart
  dsimp only; apply State.recordRestart_evolves; apply State.modWorld_evolves; exact e

theorem State.discardNew_evolves {s : State} (t : State) (e : Evolves s t) : Evolves s (State.discardNew t) := by
  unfold State.discardNew
  dsimp only; apply State.endJobs_evolves; refine Evolves.build rfl ?_ ?_ ?_ ?_ ?_ ?_ ?_ ?_ ?_ ?_ ?_ ?_; apply State.modWorld_evolves; exact e; intro _
  assumption; exact Rng.keeps_refl _; exact Custody.keeps_refl _; exact Mail.keeps_refl _; exact Dual.keeps_refl _; exact Worlds.keeps_refl _; intro _; assumption
  exact Recorder.keeps_refl _; intro _; assumption; exact Power.keeps_refl _; exact ⟨Nat.le_refl _, Nat.le_refl _, Nat.le_refl _⟩

theorem State.revertTrial_evolves {s : State} (t : State) (e : Evolves s t) : Evolves s (State.revertTrial t) := by
  unfold State.revertTrial
  split; apply State.discardNew_evolves; exact e; exact e

theorem State.maskSources_evolves {s : State} (t : State) (e : Evolves s t) : Evolves s (State.maskSources t) := by
  unfold State.maskSources
  dsimp only; refine Evolves.build rfl ?_ ?_ ?_ ?_ ?_ ?_ ?_ ?_ ?_ ?_ ?_ ?_; exact e; intro _; assumption; exact Rng.keeps_refl _; exact Custody.keeps_refl _
  exact Mail.keeps_refl _; exact Dual.keeps_refl _; exact ⟨id, Mem.filter_wf⟩; intro _; assumption; exact Recorder.keeps_refl _; intro _; assumption
  exact Power.keeps_refl _; exact Renewal.keeps_refl _

theorem State.twFault_evolves {s : State} (cause : Nat) (t : State) (e : Evolves s t) : Evolves s (State.twFault cause t) := by
  unfold State.twFault
  dsimp only; refine Evolves.other ?_; apply State.unlockTable_evolves; apply State.discardAssemblies_evolves; apply State.maskSources_evolves
  apply State.holdWorld_evolves; apply State.revertTrial_evolves; split; apply State.countRestart_evolves; exact e; exact e

theorem State.dropOwRegions_evolves {s : State} (t : State) (e : Evolves s t) : Evolves s (State.dropOwRegions t) := by
  unfold State.dropOwRegions
  dsimp only; apply State.admAdvance_evolves; refine Evolves.build rfl ?_ ?_ ?_ ?_ ?_ ?_ ?_ ?_ ?_ ?_ ?_ ?_; exact e; intro _; assumption
  exact Rng.keeps_refl _; exact Custody.keeps_refl _; exact Mail.keeps_refl _; exact Dual.keeps_refl _; exact ⟨id, id⟩; intro _; assumption
  exact Recorder.keeps_refl _; intro _; assumption; exact Power.keeps_refl _; exact Renewal.keeps_refl _

theorem State.owFault_evolves {s : State} (cause : Nat) (t : State) (e : Evolves s t) : Evolves s (State.owFault cause t) := by
  unfold State.owFault
  dsimp only; apply State.endJobs_evolves; apply State.dropOwRegions_evolves; apply State.holdWorld_evolves; split; apply State.countRestart_evolves; exact e; exact e

theorem State.worldFault_evolves {s : State} (w : World) (cause : Nat) (t : State) (e : Evolves s t) : Evolves s (State.worldFault w cause t) := by
  unfold State.worldFault
  split; split; apply State.twFault_evolves; exact e; apply State.owFault_evolves; exact e; exact e

theorem State.startWatchdogs_evolves {s : State} (w : World) (t : State) (e : Evolves s t) : Evolves s (State.startWatchdogs w t) := by
  unfold State.startWatchdogs
  refine Evolves.build rfl ?_ ?_ ?_ ?_ ?_ ?_ ?_ ?_ ?_ ?_ ?_ ?_; exact e; intro _; assumption; exact Rng.keeps_refl _; exact Custody.keeps_refl _
  exact Mail.keeps_refl _; exact Dual.keeps_refl _; dsimp only; exact ⟨id, id⟩; intro _; assumption; exact Recorder.keeps_refl _; intro _; assumption
  exact Power.keeps_refl _; exact Renewal.keeps_refl _

theorem State.serviceWrite_evolves {s : State} (core : Nat) (t : State) (e : Evolves s t) : Evolves s (State.serviceWrite core t) := by
  unfold State.serviceWrite
  split; exact e; refine Evolves.build rfl ?_ ?_ ?_ ?_ ?_ ?_ ?_ ?_ ?_ ?_ ?_ ?_; exact e; intro _; assumption; exact Rng.keeps_refl _
  exact Custody.keeps_refl _; exact Mail.keeps_refl _; exact Dual.keeps_refl _; dsimp only; exact ⟨id, id⟩; intro _; assumption; exact Recorder.keeps_refl _
  intro _; assumption; exact Power.keeps_refl _; exact Renewal.keeps_refl _

theorem State.fatalWrite_evolves {s : State} (core : Nat) (t : State) (e : Evolves s t) : Evolves s (State.fatalWrite core t) := by
  unfold State.fatalWrite
  split; exact e; apply State.worldFault_evolves; exact e

theorem State.advanceEpoch_evolves {s : State} (t : State) (e : Evolves s t) : Evolves s (State.advanceEpoch t) := by
  unfold State.advanceEpoch
  split; apply State.modKeys_evolves; exact e; intro _; exact ⟨rfl, .inl rfl, Nat.le_refl _, id⟩; apply State.modKeys_evolves; exact e; intro _
  exact ⟨rfl, .inl rfl, Nat.le_refl _, id⟩

theorem State.assign_evolves {s : State} (a : Nat × Bool × Nat) (t : State) (e : Evolves s t) : Evolves s (State.assign a t) := by
  unfold State.assign
  split; dsimp only; apply State.each_evolves; refine Evolves.build rfl ?_ ?_ ?_ ?_ ?_ ?_ ?_ ?_ ?_ ?_ ?_ ?_; exact e; intro _; assumption
  exact Rng.keeps_refl _; exact Custody.keeps_refl _; exact Mail.keeps_refl _; exact Dual.keeps_refl _; exact ⟨id, id⟩; intro _; assumption
  exact Recorder.keeps_refl _; intro _; assumption; exact Power.keeps_refl _; exact Renewal.keeps_refl _; intro _ _ _; split; apply State.modDom_evolves; assumption
  assumption

theorem State.mismatch_evolves {s : State} (w : World) (t : State) (e : Evolves s t) : Evolves s (State.mismatch w t) := by
  unfold State.mismatch
  dsimp only; apply State.tamperEvent_evolves; apply State.recordRestart_evolves; apply State.modWorld_evolves; exact e

theorem State.remeasure_evolves {s : State} (t : State) (e : Evolves s t) : Evolves s (State.remeasure t) := by
  unfold State.remeasure
  split; refine Evolves.other ?_; exact e; exact e

theorem State.revertOw_evolves {s : State} (t : State) (e : Evolves s t) : Evolves s (State.revertOw t) := by
  unfold State.revertOw
  split; dsimp only; split; apply State.worldFault_evolves; refine Evolves.build rfl ?_ ?_ ?_ ?_ ?_ ?_ ?_ ?_ ?_ ?_ ?_ ?_; apply State.endJobs_evolves
  refine Evolves.build rfl ?_ ?_ ?_ ?_ ?_ ?_ ?_ ?_ ?_ ?_ ?_ ?_; apply State.modWorld_evolves; exact e; intro _; assumption; exact Rng.keeps_refl _
  exact Custody.keeps_refl _; exact ⟨id, id⟩; exact Dual.keeps_refl _; exact Worlds.keeps_refl _; intro _; assumption; exact Recorder.keeps_refl _; intro _
  assumption; exact Power.keeps_refl _; exact ⟨Nat.le_refl _, Nat.le_refl _, Nat.le_refl _⟩; intro _; assumption; exact Rng.keeps_refl _
  exact Custody.keeps_refl _; exact Mail.keeps_refl _; exact Dual.keeps_refl _; exact Worlds.keeps_refl _; intro _; assumption; exact Recorder.keeps_refl _; intro _
  assumption; exact Power.keeps_refl _; exact ⟨Nat.le_refl _, Nat.le_refl _, Nat.le_refl _⟩; apply State.endJobs_evolves
  refine Evolves.build rfl ?_ ?_ ?_ ?_ ?_ ?_ ?_ ?_ ?_ ?_ ?_ ?_; apply State.modWorld_evolves; exact e; intro _; assumption; exact Rng.keeps_refl _
  exact Custody.keeps_refl _; exact ⟨id, id⟩; exact Dual.keeps_refl _; exact Worlds.keeps_refl _; intro _; assumption; exact Recorder.keeps_refl _; intro _
  assumption; exact Power.keeps_refl _; exact ⟨Nat.le_refl _, Nat.le_refl _, Nat.le_refl _⟩; exact e

end Sys2Proof.Machine
end

