-- ==== Sys2Proof/Laws/EvolvesRuns.lean ====
section
/-! SUPPORT. The packet engine, the runs of its commands and the fabric: each carries `Evolves s t` on. The two lifecycle runs do not, and have no lemma here. -/

namespace Sys2Proof.Machine

/-! ### Packet -/

theorem State.consume_evolves {s : State} (c : Caller) (t : State) (e : Evolves s t) : Evolves s (State.consume c t) := by
  unfold State.consume
  refine Evolves.build rfl ?_ ?_ ?_ ?_ ?_ ?_ ?_ ?_ ?_ ?_ ?_ ?_; exact e; intro _; assumption; exact Rng.keeps_refl _; exact Custody.keeps_refl _
  exact Mail.keeps_refl _; dsimp only; exact ⟨id, id⟩; exact Worlds.keeps_refl _; intro _; assumption; exact Recorder.keeps_refl _; intro _; assumption
  exact Power.keeps_refl _; exact Renewal.keeps_refl _

theorem State.recordCommand_evolves {s : State} (src : Nat) (p : Packet) (st : Status) (obj : Nat) (t : State) (e : Evolves s t) : Evolves s
    (State.recordCommand src p st obj t) := by
  unfold State.recordCommand
  apply State.record_evolves; exact e

theorem State.notify_evolves {s : State} (m : Nat) (t : State) (e : Evolves s t) : Evolves s (State.notify m t) := by
  unfold State.notify
  dsimp only; split; exact e; split; apply State.raiseVec_evolves; exact e; apply State.sliceInt_evolves; exact e

theorem State.deliverReply_evolves {s : State} (c : Caller) (h0 : Bytes) (body : Bytes) (st : Status) (t : State) (e : Evolves s t) : Evolves s
    (State.deliverReply c h0 body st t) := by
  unfold State.deliverReply
  split; apply State.notify_evolves; apply State.modBox_evolves; exact e; dsimp only; apply State.modMail_evolves; split; apply State.sramWrite_evolves
  apply State.sramWrite_evolves; exact e; exact e; intro _; exact ⟨fun h => by simpa using h, id⟩
  refine Evolves.build rfl ?_ ?_ ?_ ?_ ?_ ?_ ?_ ?_ ?_ ?_ ?_ ?_; exact e; intro _; assumption; exact Rng.keeps_refl _; exact Custody.keeps_refl _
  exact Mail.keeps_refl _; dsimp only; exact ⟨fun h => by simpa using h, id⟩; exact Worlds.keeps_refl _; intro _; assumption; exact Recorder.keeps_refl _
  intro _; assumption; exact Power.keeps_refl _; exact Renewal.keeps_refl _

theorem State.reply_evolves {s : State} (c : Caller) (log : RecKind) (p : Packet) (st : Status) (detail : Nat) (obj : Nat) (part : Nat) (count
    : Nat) (body : Bytes) (t : State) (e : Evolves s t) : Evolves s (State.reply c log p st detail obj part count body t) := by
  unfold State.reply
  dsimp only; split; split; split; refine Evolves.build rfl ?_ ?_ ?_ ?_ ?_ ?_ ?_ ?_ ?_ ?_ ?_ ?_; apply State.deliverReply_evolves
  apply State.recordCommand_evolves; exact e; intro _; assumption; exact Rng.keeps_refl _; exact Custody.keeps_refl _; exact Mail.keeps_refl _; exact ⟨id, id⟩
  exact Worlds.keeps_refl _; intro _; assumption; exact Recorder.keeps_refl _; intro _; assumption; exact Power.keeps_refl _; exact Renewal.keeps_refl _
  apply State.deliverReply_evolves; apply State.recordCommand_evolves; exact e; split; refine Evolves.build rfl ?_ ?_ ?_ ?_ ?_ ?_ ?_ ?_ ?_ ?_ ?_ ?_
  apply State.deliverReply_evolves; exact e; intro _; assumption; exact Rng.keeps_refl _; exact Custody.keeps_refl _; exact Mail.keeps_refl _; exact ⟨id, id⟩
  exact Worlds.keeps_refl _; intro _; assumption; exact Recorder.keeps_refl _; intro _; assumption; exact Power.keeps_refl _; exact Renewal.keeps_refl _
  apply State.deliverReply_evolves; exact e; split; split; refine Evolves.build rfl ?_ ?_ ?_ ?_ ?_ ?_ ?_ ?_ ?_ ?_ ?_ ?_; apply State.deliverReply_evolves
  apply State.recordCommand_evolves; exact e; intro _; assumption; exact Rng.keeps_refl _; exact Custody.keeps_refl _; exact Mail.keeps_refl _; exact ⟨id, id⟩
  exact Worlds.keeps_refl _; intro _; assumption; exact Recorder.keeps_refl _; intro _; assumption; exact Power.keeps_refl _; exact Renewal.keeps_refl _
  apply State.deliverReply_evolves; apply State.recordCommand_evolves; exact e; split; refine Evolves.build rfl ?_ ?_ ?_ ?_ ?_ ?_ ?_ ?_ ?_ ?_ ?_ ?_
  apply State.deliverReply_evolves; exact e; intro _; assumption; exact Rng.keeps_refl _; exact Custody.keeps_refl _; exact Mail.keeps_refl _; exact ⟨id, id⟩
  exact Worlds.keeps_refl _; intro _; assumption; exact Recorder.keeps_refl _; intro _; assumption; exact Power.keeps_refl _; exact Renewal.keeps_refl _
  apply State.deliverReply_evolves; exact e; split; split; split; refine Evolves.build rfl ?_ ?_ ?_ ?_ ?_ ?_ ?_ ?_ ?_ ?_ ?_ ?_; apply State.deliverReply_evolves
  apply State.recordCommand_evolves; exact e; intro _; assumption; exact Rng.keeps_refl _; exact Custody.keeps_refl _; exact Mail.keeps_refl _; exact ⟨id, id⟩
  exact Worlds.keeps_refl _; intro _; assumption; exact Recorder.keeps_refl _; intro _; assumption; exact Power.keeps_refl _; exact Renewal.keeps_refl _
  apply State.deliverReply_evolves; apply State.recordCommand_evolves; exact e; split; refine Evolves.build rfl ?_ ?_ ?_ ?_ ?_ ?_ ?_ ?_ ?_ ?_ ?_ ?_
  apply State.deliverReply_evolves; exact e; intro _; assumption; exact Rng.keeps_refl _; exact Custody.keeps_refl _; exact Mail.keeps_refl _; exact ⟨id, id⟩
  exact Worlds.keeps_refl _; intro _; assumption; exact Recorder.keeps_refl _; intro _; assumption; exact Power.keeps_refl _; exact Renewal.keeps_refl _
  apply State.deliverReply_evolves; exact e; split; split; refine Evolves.build rfl ?_ ?_ ?_ ?_ ?_ ?_ ?_ ?_ ?_ ?_ ?_ ?_; apply State.deliverReply_evolves
  apply State.recordCommand_evolves; exact e; intro _; assumption; exact Rng.keeps_refl _; exact Custody.keeps_refl _; exact Mail.keeps_refl _; exact ⟨id, id⟩
  exact Worlds.keeps_refl _; intro _; assumption; exact Recorder.keeps_refl _; intro _; assumption; exact Power.keeps_refl _; exact Renewal.keeps_refl _
  apply State.deliverReply_evolves; apply State.recordCommand_evolves; exact e; split; refine Evolves.build rfl ?_ ?_ ?_ ?_ ?_ ?_ ?_ ?_ ?_ ?_ ?_ ?_
  apply State.deliverReply_evolves; exact e; intro _; assumption; exact Rng.keeps_refl _; exact Custody.keeps_refl _; exact Mail.keeps_refl _; exact ⟨id, id⟩
  exact Worlds.keeps_refl _; intro _; assumption; exact Recorder.keeps_refl _; intro _; assumption; exact Power.keeps_refl _; exact Renewal.keeps_refl _
  apply State.deliverReply_evolves; exact e

theorem State.refuseHeader_evolves {s : State} (c : Caller) (hdr : Bytes) (body : Bytes) (detail : Nat) (t : State) (e : Evolves s t) : Evolves s
    (State.refuseHeader c hdr body detail t) := by
  unfold State.refuseHeader
  dsimp only; apply State.reply_evolves; exact e

theorem State.accept_evolves {s : State} (c : Caller) (t : State) (e : Evolves s t) : Evolves s (State.accept c t) := by
  unfold State.accept
  split; apply State.modMail_evolves; apply State.modBox_evolves; exact e; intro _; exact ⟨id, id⟩; exact e

theorem State.meetAssembly_evolves {s : State} (c : Caller) (p : Packet) (t : State) (e : Evolves s t) : Evolves s (State.meetAssembly c p t) := by
  unfold State.meetAssembly
  split; dsimp only; split; split; exact e; apply State.modBox_evolves; exact e; exact e; exact e

theorem State.clearDiscarded_evolves {s : State} (c : Caller) (t : State) (e : Evolves s t) : Evolves s (State.clearDiscarded c t) := by
  unfold State.clearDiscarded
  split; split; apply State.modBox_evolves; exact e; exact e; exact e

theorem State.startJob_evolves {s : State} (c : Caller) (p : Packet) (kind : JobKind) (body : Bytes) (obj : Nat) (t : State) (e : Evolves s t)
    (hq : p.opcode ≠ 0x210 ∧ p.opcode ≠ 0x211) : Evolves s (State.startJob c p kind body obj t) := by
  have h1 : Evolves s (t.modMail fun m => { m with running := m.running ++
      [{ caller := c, opcode := p.opcode, hdr := p.hdr, body := p.params ++ p.data, digest := p.digest, kind := kind, since := t.glob.uptimeMs,
         challenge := p.challenge, status := .done, detail := 0, reply := body, obj := obj }] }) := by
    refine State.modMail_evolves _ _ e fun m => ⟨id, fun h j hj => ?_⟩
    rcases List.mem_append.mp hj with hj | hj
    · exact h j hj
    · rw [List.mem_singleton] at hj; subst hj; exact hq
  unfold State.startJob
  dsimp only
  split
  · exact State.modBox_evolves _ _ _ h1
  · exact State.modMail_evolves _ _ h1 fun m => ⟨fun h => by simpa using h, id⟩
  · exact h1

theorem State.leaveDraws_evolves {s : State} (c : Caller) (t : State) (e : Evolves s t) : Evolves s (State.leaveDraws c t) := by
  unfold State.leaveDraws
  apply State.modRng_evolves; exact e; intro _; exact ⟨id, id⟩

theorem State.dropJob_evolves {s : State} (j : Job) (t : State) (e : Evolves s t) : Evolves s (State.dropJob j t) := by
  unfold State.dropJob
  exact State.modRng_evolves _ _ (State.modMail_evolves _ _ e fun m => ⟨id, fun h i hi => h i (List.mem_of_mem_erase hi)⟩) fun m => ⟨id, id⟩

theorem State.forgetDraw_evolves {s : State} (c : Caller) (t : State) (e : Evolves s t) : Evolves s (State.forgetDraw c t) := by
  unfold State.forgetDraw
  apply State.modRng_evolves; exact e; intro _; exact ⟨id, id⟩

theorem State.endJob_evolves {s : State} (j : Job) (st : Status) (detail : Nat) (body : Bytes) (t : State) (e : Evolves s t) : Evolves s
    (State.endJob j st detail body t) := by
  unfold State.endJob
  dsimp only; apply State.reply_evolves; apply State.forgetDraw_evolves; apply State.dropJob_evolves; exact e

theorem State.keepPart_evolves {s : State} (c : Caller) (p : Packet) (t : State) (e : Evolves s t) : Evolves s (State.keepPart c p t) := by
  unfold State.keepPart
  split; apply State.modBox_evolves; exact e; exact e

theorem State.endAssembly_evolves {s : State} (c : Caller) (t : State) (e : Evolves s t) : Evolves s (State.endAssembly c t) := by
  unfold State.endAssembly
  split; split; apply State.modBox_evolves; exact e; exact e; exact e

theorem State.checkReads_evolves {s : State} (k : Cmd) (w : Who) (p : Packet) (t : State) (e : Evolves s t) : Evolves s (State.checkReads k w p t) := by
  unfold State.checkReads
  dsimp only; split; split; apply State.checkSmk_evolves; refine evolves_foldl _ ?_ _ _ ?_; intro _ _ _; apply State.checkRows_evolves; assumption; exact e
  refine evolves_foldl _ ?_ _ _ ?_; intro _ _ _; apply State.checkRows_evolves; assumption; exact e; refine evolves_foldl _ ?_ _ _ ?_; intro _ _ _
  apply State.checkRows_evolves; assumption; exact e

/-- A run that never leaves its command running. -/
def Ran.ends : Ran → Prop
  | .hold .. => False
  | _ => True

theorem State.conclude_evolves {s : State} (c : Caller) (log : RecKind) (p : Packet) (r : Ran) (e : Ran.Leads s r)
    (hq : (p.opcode ≠ 0x210 ∧ p.opcode ≠ 0x211) ∨ r.ends) : Evolves s (State.conclude c log p r) := by
  cases r with
  | done => exact State.reply_evolves _ _ _ _ _ _ _ _ _ _ e
  | part => exact State.reply_evolves _ _ _ _ _ _ _ _ _ _ e
  | hold => exact State.startJob_evolves _ _ _ _ _ _ e (hq.resolve_right id)

theorem State.checked_cases {s : State} (c : Caller) (k : Cmd) (run : Run) (p : Packet) (t : State) (e : Evolves s t) :
    Evolves s (State.checked c k run p t) ∨ ∃ log q v, Evolves t v ∧ State.checked c k run p t = State.conclude c log q (run c q false v) ∧
      q.opcode = p.opcode ∧ k.auth t (t.who c) (t.ruling c k p) = true := by
  unfold State.checked
  extract_lets w r last log refuse needsQ later s1 q s2
  have href : ∀ st d u, Evolves t u → Evolves s (refuse st d u) := fun st d u e1 => State.reply_evolves _ _ _ _ _ _ _ _ _ _ (e.trans e1)
  have h1 : Evolves t s1 := by
    show Evolves t (if _ then _ else _)
    split
    · exact State.consume_evolves _ _ (Evolves.refl _)
    · exact Evolves.refl _
  have h2 : Evolves t s2 := State.endAssembly_evolves _ _ h1
  have hqo : q.opcode = p.opcode := by
    show (if _ then _ else _ : Packet).opcode = _
    split <;> rfl
  clear_value s2 q s1 refuse
  split
  · exact .inl (href _ _ _ (Evolves.refl _))
  split
  · exact .inl (href _ _ _ (Evolves.refl _))
  split
  · exact .inl (href _ _ _ (Evolves.refl _))
  rename_i ha
  have ha : k.auth t w r = true := by
    simp only [Bool.or_eq_true, Bool.not_eq_true', not_or, Bool.not_eq_false] at ha
    exact ha.1
  split
  · exact .inl (href _ _ _ (Evolves.refl _))
  split
  · exact .inl (href _ _ _ h1)
  split
  · exact .inl (href _ _ _ (State.clearDiscarded_evolves _ _ h1))
  split
  · exact .inl (href _ _ _ h1)
  split
  · exact .inl (href _ _ _ h1)
  split
  · exact .inl (State.reply_evolves _ _ _ _ _ _ _ _ _ _ (State.keepPart_evolves _ _ _ (e.trans h1)))
  split
  · exact .inl (State.reply_evolves _ _ _ _ _ _ _ _ _ _ (e.trans h2))
  · exact .inr ⟨_, _, _, State.checkReads_evolves _ _ _ _ h2, rfl, hqo, ha⟩

theorem State.checked_evolves {s : State} (c : Caller) (k : Cmd) (run : Run) (p : Packet) (t : State) (e : Evolves s t)
    (hr : ∀ q t, Evolves s t → Ran.Leads s (run c q false t)) (hq : (p.opcode ≠ 0x210 ∧ p.opcode ≠ 0x211) ∨ ∀ q t, (run c q false t).ends) :
    Evolves s (State.checked c k run p t) := by
  rcases State.checked_cases c k run p t e with h | ⟨log, q, v, hv, h, hqo, -⟩
  · exact h
  · rw [h]
    refine State.conclude_evolves _ _ _ _ (hr _ _ (e.trans hv)) ?_
    rw [hqo]
    exact hq.imp id fun h => h _ _

theorem State.command_evolves {s : State} (c : Caller) (k : Cmd) (run : Run) (t : State) (e : Evolves s t)
    (hr : ∀ c q t, Evolves s t → Ran.Leads s (run c q false t)) (hk : (k.op ≠ 0x210 ∧ k.op ≠ 0x211) ∨ ∀ c q t, (run c q false t).ends) :
    Evolves s (State.command c k run t) := by
  unfold State.command
  split
  · extract_lets p
    split
    · exact e
    · rename_i h
      refine State.settle_evolves _ _ (State.checked_evolves _ _ _ _ _ (State.meetAssembly_evolves _ _ _ (State.accept_evolves _ _ e)) (hr c) ?_)
      refine hk.imp (fun hk => ?_) fun h => h c
      simp only [Bool.or_eq_true, bne_iff_ne, ne_eq, not_or, Decidable.not_not] at h
      rw [h.2]
      exact hk
  · exact e

theorem atReply_evolves {s : State} (run : Run) (c : Caller) (p : Packet) (b : Bool) (t : State) (e : Evolves s t)
    (hr : ∀ b t, Evolves s t → Ran.Leads s (run c p b t)) : Ran.Leads s (atReply run c p b t) := by
  unfold atReply
  split
  · exact hr _ _ e
  · split
    · exact e
    · exact e
    · exact hr _ _ e

theorem State.cmdDraw_evolves {s t : State} {c : Caller} {n : Nat} {pr : Bool} {obj : Nat} {ra : Bytes} {ru : State}
    (h : State.cmdDraw c n pr obj t = .inl (ra, ru)) (e : Evolves s t) : Evolves s ru := by
  unfold State.cmdDraw at h
  split at h
  · cases h; exact State.forgetDraw_evolves _ _ e
  · split at h <;> cases h
    exact State.draw_evolves (by assumption) e

theorem State.cmdDraw_evolves_ran {s t : State} {c : Caller} {n : Nat} {pr : Bool} {obj : Nat} {r : Ran}
    (h : State.cmdDraw c n pr obj t = .inr r) (e : Evolves s t) : Ran.Leads s r := by
  unfold State.cmdDraw at h
  split at h
  · cases h
  · split at h <;> cases h <;> exact State.draw_evolves (by assumption) e

theorem State.cmdDraw_evolves_done {s t : State} {c : Caller} {n : Nat} {pr : Bool} {obj : Nat} {a : _} {b : _} {d : _} {o : _} {ru : State}
    (h : State.cmdDraw c n pr obj t = .inr (.done a b d o ru)) (e : Evolves s t) : Evolves s ru := State.cmdDraw_evolves_ran h e

theorem State.cmdDraw_evolves_hold {s t : State} {c : Caller} {n : Nat} {pr : Bool} {obj : Nat} {a : _} {b : _} {d : _} {ru : State}
    (h : State.cmdDraw c n pr obj t = .inr (.hold a b d ru)) (e : Evolves s t) : Evolves s ru := State.cmdDraw_evolves_ran h e

theorem State.cmdDraw_evolves_part {s t : State} {c : Caller} {n : Nat} {pr : Bool} {obj : Nat} {a : _} {b : _} {d : _} {ru : State}
    (h : State.cmdDraw c n pr obj t = .inr (.part a b d ru)) (e : Evolves s t) : Evolves s ru := State.cmdDraw_evolves_ran h e

theorem inTurn_evolves {s : State} (op : Nat) (obj : Packet → Nat) (run : Run) (c : Caller) (p : Packet) (b : Bool) (t : State) (e : Evolves s t)
    (hr : ∀ b t, Evolves s t → Ran.Leads s (run c p b t)) : Ran.Leads s (inTurn op obj run c p b t) := by
  unfold inTurn
  split
  · exact e
  · exact hr _ _ e

/-! ### Slices -/

theorem State.giveInts_evolves {s : State} (n : Nat) (l : List Nat) (t : State) (e : Evolves s t) : Evolves s (State.giveInts n l t) := by
  unfold State.giveInts
  apply State.each_evolves; exact e; intro _ _ _; apply State.modInt_evolves; assumption

theorem State.takeInts_evolves {s : State} (l : List Nat) (t : State) (e : Evolves s t) : Evolves s (State.takeInts l t) := by
  unfold State.takeInts
  apply State.each_evolves; exact e; intro _ _ _; apply State.modInt_evolves; assumption

theorem refused_evolves {s : State} (st : Status) (n : Nat) (t : State) (e : Evolves s t) : Ran.Leads s (refused st n t) := by
  unfold refused
  refine Ran.leads_done ?_; exact e

theorem State.claim_evolves {s : State} (n : Nat) (mask : Nat) (t : State) (e : Evolves s t) : Evolves s (State.claim n mask t) := by
  unfold State.claim
  dsimp only; apply State.each_evolves; apply State.each_evolves; exact e; intro _ _ _; apply State.withdraw_evolves; assumption; intro _ _ _
  apply State.withdrawSegs_evolves; assumption

theorem State.waitClaim_evolves {s : State} (n : Nat) (mask : Nat) (pasid : Bool) (t : State) (e : Evolves s t) : Ran.Leads s
    (State.waitClaim n mask pasid t) := by
  unfold State.waitClaim
  refine Ran.leads_hold ?_; apply State.claim_evolves; exact e

theorem State.rebind_evolves {s : State} (n : Nat) (pasid : Nat) (t : State) (e : Evolves s t) : Evolves s (State.rebind n pasid t) := by
  unfold State.rebind
  dsimp only; refine Evolves.other ?_; apply State.modSlice_evolves; apply State.modDist_evolves; exact e

theorem sliceCreateRun_evolves {s : State} (x0 : Caller) (x1 : Packet) (x2 : Bool) (t : State) (e : Evolves s t) : Ran.Leads s
    (sliceCreateRun x0 x1 x2 t) := by
  unfold sliceCreateRun
  dsimp only; split; apply refused_evolves; exact e; split; apply refused_evolves; exact e; split; apply State.waitClaim_evolves; exact e; split
  refine State.cmdDraw_evolves_ran (by assumption) ?_; exact e; refine Ran.leads_done ?_; apply State.setSlice_evolves; apply State.overwrite_evolves
  apply State.giveInts_evolves; refine State.cmdDraw_evolves (by assumption) ?_; exact e

theorem sliceModifyRun_evolves {s : State} (x0 : Caller) (x1 : Packet) (x2 : Bool) (t : State) (e : Evolves s t) : Ran.Leads s
    (sliceModifyRun x0 x1 x2 t) := by
  unfold sliceModifyRun
  dsimp only; split; apply refused_evolves; exact e; split; refine Ran.leads_done ?_; exact e; split; apply refused_evolves; exact e; split; apply refused_evolves
  exact e; split; apply refused_evolves; exact e; split; apply State.waitClaim_evolves; exact e; refine Ran.leads_done ?_; apply State.setSlice_evolves
  apply State.rebind_evolves; apply State.giveInts_evolves; apply State.takeInts_evolves; exact e

theorem State.startFlush_evolves {s : State} (n : Nat) (t : State) (e : Evolves s t) : Evolves s (State.startFlush n t) := by
  unfold State.startFlush
  apply State.modSlice_evolves; exact e

theorem sliceQuiesceRun_evolves {s : State} (x0 : Caller) (x1 : Packet) (x2 : Bool) (t : State) (e : Evolves s t) : Ran.Leads s
    (sliceQuiesceRun x0 x1 x2 t) := by
  unfold sliceQuiesceRun
  dsimp only; split; refine Ran.leads_hold ?_; split; apply State.startFlush_evolves; exact e; exact e; split; apply refused_evolves; exact e; split; split
  refine Ran.leads_hold ?_; apply State.startFlush_evolves; exact e; refine Ran.leads_done ?_; exact e; refine Ran.leads_hold ?_; apply State.modSlice_evolves; split
  apply State.startFlush_evolves; exact e; exact e

theorem sliceResumeRun_evolves {s : State} (x0 : Caller) (x1 : Packet) (x2 : Bool) (t : State) (e : Evolves s t) : Ran.Leads s
    (sliceResumeRun x0 x1 x2 t) := by
  unfold sliceResumeRun
  dsimp only; split; apply refused_evolves; exact e; refine Ran.leads_done ?_; apply State.modSlice_evolves; exact e

theorem State.abortSlice_evolves {s : State} (n : Nat) (t : State) (e : Evolves s t) : Evolves s (State.abortSlice n t) := by
  unfold State.abortSlice
  dsimp only; refine Evolves.build rfl ?_ ?_ ?_ ?_ ?_ ?_ ?_ ?_ ?_ ?_ ?_ ?_; apply State.modDist_evolves; apply State.each_evolves; exact e; intro _ _ _
  apply State.dropWaiter_evolves; assumption; intro _; simpa using ‹_›; exact Rng.keeps_refl _; exact Custody.keeps_refl _; exact Mail.keeps_refl _
  exact Dual.keeps_refl _; exact Worlds.keeps_refl _; intro _; assumption; exact Recorder.keeps_refl _; intro _; assumption; exact Power.keeps_refl _
  exact Renewal.keeps_refl _

theorem State.abortCommands_evolves {s : State} (n : Nat) (t : State) (e : Evolves s t) : Evolves s (State.abortCommands n t) := by
  unfold State.abortCommands
  refine evolves_foldl _ ?_ _ _ ?_; intro _ _ _; split; split; apply State.endJob_evolves; apply State.freeRows_evolves; assumption; apply State.endJob_evolves
  assumption; apply State.endJob_evolves; assumption; exact e

theorem State.countOf_evolves_snd {s : State} (k : Nat) (t : State) (e : Evolves s t) : Evolves s (State.countOf k t).2 := by
  unfold State.countOf
  split; exact e; dsimp only; apply State.freeBytes_evolves_snd; exact e

theorem State.countOf_evolves {s t : State} {k : Nat} {ra : _} {ru : State} (h : State.countOf k t = (ra, ru)) (e : Evolves s t) : Evolves s ru := by
  have := State.countOf_evolves_snd k t e
  rwa [h] at this

theorem State.discarded_evolves_snd {s : State} (n : Nat) (p : Nat) (r : RingPair) (t : State) (e : Evolves s t) : Evolves s (State.discarded n p r t).2 := by
  unfold State.discarded
  dsimp only; split; dsimp only; apply State.countOf_evolves_snd; exact e; apply State.countOf_evolves_snd; exact e

theorem State.discarded_evolves {s t : State} {n : Nat} {p : Nat} {r : RingPair} {ra : _} {ru : State} (h : State.discarded n p r t = (ra, ru)) (e
    : Evolves s t) : Evolves s ru := by
  have := State.discarded_evolves_snd n p r t e
  rwa [h] at this

theorem State.discardedAll_evolves_snd {s : State} {n : Nat} (t : State) (e : Evolves s t) : Evolves s (State.discardedAll n t).2 := by
  unfold State.discardedAll
  have : ∀ (l : List (RingPair × Nat)) (x : Bytes × State), Evolves s x.2 →
      Evolves s (l.foldl (fun (x : Bytes × State) q => ((x.1 ++ (x.2.discarded n q.2 q.1).1, (x.2.discarded n q.2 q.1).2) : Bytes × State)) x).2 := by
    intro l
    induction l with
    | nil => exact fun x e => e
    | cons a l ih => exact fun x e => ih _ (State.discarded_evolves_snd (n := n) (p := a.2) (r := a.1) _ e)
  exact this _ _ e

theorem State.discardedAll_evolves {s t : State} {n : Nat} {ra : _} {ru : State} (h : State.discardedAll n t = (ra, ru)) (e : Evolves s t)
    : Evolves s ru := by
  have := State.discardedAll_evolves_snd (n := n) t e
  rwa [h] at this

theorem fenceSlice_evolves {s : State} (n : Nat) (force : Bool) (eraseKeys : Bool) (t : State) (e : Evolves s t) : Ran.Leads s
    (fenceSlice n force eraseKeys t) := by
  unfold fenceSlice
  split; apply refused_evolves; exact e; split; dsimp only; refine Ran.leads_hold ?_; apply State.modSlice_evolves; apply State.abortCommands_evolves
  apply State.abortSlice_evolves; refine State.discardedAll_evolves (by assumption) ?_; exact e

theorem State.clearBox_evolves {s : State} (n : Nat) (t : State) (e : Evolves s t) : Evolves s (State.clearBox n t) := by
  unfold State.clearBox
  apply State.modBox_evolves; exact e

theorem sliceResetRun_evolves {s : State} (x0 : Caller) (x1 : Packet) (x2 : Bool) (t : State) (e : Evolves s t) : Ran.Leads s (sliceResetRun x0 x1 x2 t) := by
  unfold sliceResetRun
  dsimp only; split; apply fenceSlice_evolves; exact e; split; split; refine Ran.leads_done ?_; apply State.setSlice_evolves; apply State.clearBox_evolves
  refine State.cmdDraw_evolves_done (by assumption) ?_; exact e; refine State.cmdDraw_evolves_ran (by assumption) ?_; exact e; refine Ran.leads_done ?_
  apply State.setSlice_evolves; apply State.clearBox_evolves; refine State.cmdDraw_evolves (by assumption) ?_; exact e; refine Ran.leads_done ?_
  apply State.setSlice_evolves; apply State.clearBox_evolves; exact e

theorem sliceRemoveRun_evolves {s : State} (x0 : Caller) (x1 : Packet) (x2 : Bool) (t : State) (e : Evolves s t) : Ran.Leads s
    (sliceRemoveRun x0 x1 x2 t) := by
  unfold sliceRemoveRun
  dsimp only; split; apply fenceSlice_evolves; exact e; refine Ran.leads_done ?_; apply State.modBox_evolves; apply State.setSlice_evolves; apply State.takeInts_evolves
  exact e

theorem State.scrubSlice_evolves {s : State} (n : Nat) (t : State) (e : Evolves s t) : Evolves s (State.scrubSlice n t) := by
  unfold State.scrubSlice
  dsimp only; refine Evolves.build rfl ?_ ?_ ?_ ?_ ?_ ?_ ?_ ?_ ?_ ?_ ?_ ?_; apply State.modRng_evolves; exact e; intro _
  exact ⟨id, fun h => by simpa using h⟩; intro _; simpa using ‹_›; exact Rng.keeps_refl _; exact Custody.keeps_refl _; exact Mail.keeps_refl _
  exact Dual.keeps_refl _; exact Worlds.keeps_refl _; intro _; assumption; exact Recorder.keeps_refl _; intro _; assumption; exact Power.keeps_refl _
  exact Renewal.keeps_refl _

theorem sliceQueryRun_evolves {s : State} (x0 : Caller) (x1 : Packet) (x2 : Bool) (t : State) (e : Evolves s t) : Ran.Leads s (sliceQueryRun x0 x1 x2 t) := by
  unfold sliceQueryRun
  refine Ran.leads_done ?_; exact e

/-! ### Manage -/

theorem ringArmRun_evolves {s : State} (x0 : Caller) (x1 : Packet) (x2 : Bool) (t : State) (e : Evolves s t) : Ran.Leads s (ringArmRun x0 x1 x2 t) := by
  unfold ringArmRun
  dsimp only; split; refine Ran.leads_done ?_; exact e; split; apply refused_evolves; exact e; split; refine Ran.leads_done ?_; exact e; refine Ran.leads_done ?_
  apply State.modRing_evolves; exact e

theorem ringDisarmRun_evolves {s : State} (x0 : Caller) (x1 : Packet) (x2 : Bool) (t : State) (e : Evolves s t) : Ran.Leads s (ringDisarmRun x0 x1 x2 t) := by
  unfold ringDisarmRun
  dsimp only; split; refine Ran.leads_done ?_; exact e; split; split; refine Ran.leads_done ?_; exact e; split; apply refused_evolves; exact e
  refine Ran.leads_done ?_; apply State.modRing_evolves; refine Evolves.other ?_; exact e; refine Ran.leads_done ?_; exact e

theorem ringQueryRun_evolves {s : State} (x0 : Caller) (x1 : Packet) (x2 : Bool) (t : State) (e : Evolves s t) : Ran.Leads s (ringQueryRun x0 x1 x2 t) := by
  unfold ringQueryRun
  dsimp only; split; refine Ran.leads_done ?_; exact e; refine Ran.leads_done ?_; exact e

theorem chFenceRun_evolves {s : State} (x0 : Caller) (x1 : Packet) (x2 : Bool) (t : State) (e : Evolves s t) : Ran.Leads s (chFenceRun x0 x1 x2 t) := by
  unfold chFenceRun
  dsimp only; split; refine Ran.leads_done ?_; exact e; refine Ran.leads_hold ?_; apply State.modCh_evolves; split; split; apply State.drain_evolves; exact e
  apply State.fence_evolves; exact e; split; apply State.fence_evolves; exact e; exact e

theorem chReturnRun_evolves {s : State} (x0 : Caller) (x1 : Packet) (x2 : Bool) (t : State) (e : Evolves s t) : Ran.Leads s (chReturnRun x0 x1 x2 t) := by
  unfold chReturnRun
  dsimp only; split; apply refused_evolves; exact e; split; refine Ran.leads_done ?_; apply State.modCh_evolves; exact e; split; refine Ran.leads_hold ?_
  apply State.askTest_evolves; apply State.recordChannel_evolves; apply State.modCh_evolves; apply State.modCh_evolves; exact e; refine Ran.leads_hold ?_; split
  apply State.askTest_evolves; apply State.modCh_evolves; exact e; apply State.modCh_evolves; exact e; refine Ran.leads_hold ?_; apply State.modCh_evolves; exact e

theorem rngReseedRun_evolves {s : State} (x0 : Caller) (x1 : Packet) (x2 : Bool) (t : State) (e : Evolves s t) : Ran.Leads s (rngReseedRun x0 x1 x2 t) := by
  unfold rngReseedRun
  dsimp only; split; refine Ran.leads_done ?_; exact e; refine Ran.leads_hold ?_; apply State.each_evolves; exact e; intro _ _ _; apply State.makeDue_evolves
  assumption

theorem rngPersonaliseRun_evolves {s : State} (x0 : Caller) (x1 : Packet) (x2 : Bool) (t : State) (e : Evolves s t) : Ran.Leads s
    (rngPersonaliseRun x0 x1 x2 t) := by
  unfold rngPersonaliseRun
  refine Ran.leads_done ?_; apply State.modRng_evolves; exact e; intro _; exact ⟨id, id⟩

theorem rngRecoverRun_evolves {s : State} (x0 : Caller) (x1 : Packet) (x2 : Bool) (t : State) (e : Evolves s t) : Ran.Leads s (rngRecoverRun x0 x1 x2 t) := by
  unfold rngRecoverRun
  dsimp only; refine Ran.leads_hold ?_; apply State.recovery_evolves; apply State.modRng_evolves; exact e; intro _; exact ⟨fun h => by simpa using h, id⟩

theorem State.failGen_evolves {s : State} (i : Nat) (t : State) (e : Evolves s t) : Evolves s (State.failGen i t) := by
  unfold State.failGen
  apply State.failWaiting_evolves; apply State.modGen_evolves; exact e

theorem State.testGens_evolves {s : State} (t : State) (e : Evolves s t) : Evolves s (State.testGens t) := by
  unfold State.testGens
  split; apply State.each_evolves; refine State.freeBytes_evolves (by assumption) ?_; exact e; intro _ _ _; apply State.failGen_evolves; assumption

theorem rngSelftestRun_evolves {s : State} (x0 : Caller) (x1 : Packet) (x2 : Bool) (t : State) (e : Evolves s t) : Ran.Leads s
    (rngSelftestRun x0 x1 x2 t) := by
  unfold rngSelftestRun
  split; refine Ran.leads_done ?_; exact e; dsimp only; refine Ran.leads_hold ?_; apply State.nextSelftest_evolves; apply State.modRng_evolves
  apply State.testGens_evolves; exact e; intro _; exact ⟨id, id⟩

theorem rngRawCaptureRun_evolves {s : State} (x0 : Caller) (x1 : Packet) (x2 : Bool) (t : State) (e : Evolves s t) : Ran.Leads s
    (rngRawCaptureRun x0 x1 x2 t) := by
  unfold rngRawCaptureRun
  dsimp only; refine Ran.leads_hold ?_; apply State.modRng_evolves; apply State.modBank_evolves; exact e; intro _; exact ⟨id, id⟩

theorem devInfoRun_evolves {s : State} (x0 : Caller) (x1 : Packet) (x2 : Bool) (t : State) (e : Evolves s t) : Ran.Leads s (devInfoRun x0 x1 x2 t) := by
  unfold devInfoRun
  dsimp only; refine Ran.leads_done ?_; exact e

theorem mgrChallengeRun_evolves {s : State} (x0 : Caller) (x1 : Packet) (x2 : Bool) (t : State) (e : Evolves s t) : Ran.Leads s
    (mgrChallengeRun x0 x1 x2 t) := by
  unfold mgrChallengeRun
  split; refine State.cmdDraw_evolves_ran (by assumption) ?_; exact e; refine Ran.leads_done ?_; apply State.modBox_evolves
  refine State.cmdDraw_evolves (by assumption) ?_; exact e

theorem mgrOpenRun_evolves {s : State} (x0 : Caller) (x1 : Packet) (x2 : Bool) (t : State) (e : Evolves s t) : Ran.Leads s (mgrOpenRun x0 x1 x2 t) := by
  unfold mgrOpenRun
  dsimp only; split; refine Ran.leads_done ?_; exact e; split; split; refine Ran.leads_done ?_; exact e; split; refine Ran.leads_done ?_; apply State.modBox_evolves
  apply State.modBox_evolves; exact e; refine Ran.leads_done ?_; apply State.modBox_evolves; exact e; split; refine Ran.leads_done ?_; exact e; split
  refine Ran.leads_done ?_; apply State.modBox_evolves; apply State.modBox_evolves; exact e; refine Ran.leads_done ?_; apply State.modBox_evolves; exact e

theorem mgrCloseRun_evolves {s : State} (x0 : Caller) (x1 : Packet) (x2 : Bool) (t : State) (e : Evolves s t) : Ran.Leads s (mgrCloseRun x0 x1 x2 t) := by
  unfold mgrCloseRun
  refine Ran.leads_done ?_; apply State.modBox_evolves; exact e

theorem State.endSessions_evolves {s : State} (t : State) (e : Evolves s t) : Evolves s (State.endSessions t) := by
  unfold State.endSessions
  apply State.modMail_evolves; exact e; intro _; exact ⟨id, id⟩

theorem mgrCredSetRun_evolves {s : State} (x0 : Caller) (x1 : Packet) (x2 : Bool) (t : State) (e : Evolves s t) : Ran.Leads s (mgrCredSetRun x0 x1 x2 t) := by
  unfold mgrCredSetRun
  dsimp only; split; refine Ran.leads_done ?_; exact e; refine Ran.leads_done ?_; split; apply State.endSessions_evolves; apply State.modMail_evolves; exact e
  intro _; exact ⟨id, id⟩; apply State.modMail_evolves; exact e; intro _; exact ⟨id, id⟩

theorem devKeepRun_evolves {s : State} (x0 : Caller) (x1 : Packet) (x2 : Bool) (t : State) (e : Evolves s t) : Ran.Leads s (devKeepRun x0 x1 x2 t) := by
  unfold devKeepRun
  refine Ran.leads_done ?_; apply State.refreshMode_evolves; refine Evolves.other ?_; exact e

theorem devResumeRun_evolves {s : State} (x0 : Caller) (x1 : Packet) (x2 : Bool) (t : State) (e : Evolves s t) : Ran.Leads s (devResumeRun x0 x1 x2 t) := by
  unfold devResumeRun
  dsimp only; refine Ran.leads_done ?_; apply State.modDom_evolves; apply State.modPower_evolves; refine Evolves.other ?_; exact e; intro _; exact ⟨id, id⟩

/-! ### FabricLink -/

theorem State.portUp_evolves {s : State} (p : Nat) (t : State) (e : Evolves s t) : Evolves s (State.portUp p t) := by
  unfold State.portUp
  dsimp only; apply State.refreshLevel_evolves; apply State.modPort_evolves; split; apply State.sendUnit_evolves; apply State.sendUnit_evolves; apply State.modPort_evolves
  exact e; apply State.sendUnit_evolves; apply State.modPort_evolves; exact e

theorem State.sessionUp_evolves {s : State} (p : Nat) (t : State) (e : Evolves s t) : Evolves s (State.sessionUp p t) := by
  unfold State.sessionUp
  dsimp only; split; refine evolves_foldl _ ?_ _ _ ?_; intro _ _ _; apply State.sendUnit_evolves; assumption; apply State.portUp_evolves; exact e; split; split
  apply State.sendTo_evolves; apply State.portUp_evolves; exact e; apply State.portUp_evolves; exact e; apply State.portUp_evolves; exact e

theorem State.toAuth_evolves {s : State} (p : Nat) (t : State) (e : Evolves s t) : Evolves s (State.toAuth p t) := by
  unfold State.toAuth
  apply State.modPort_evolves; apply State.leaveUp_evolves; exact e

theorem State.enWrite_evolves {s : State} (port : Nat) (value : Bool) (t : State) (e : Evolves s t) : Evolves s (State.enWrite port value t) := by
  unfold State.enWrite
  split; exact e; split; apply State.modPort_evolves; exact e; apply State.settle_evolves; apply State.modPort_evolves; apply State.portDown_evolves; exact e

theorem State.retrainWrite_evolves {s : State} (port : Nat) (t : State) (e : Evolves s t) : Evolves s (State.retrainWrite port t) := by
  unfold State.retrainWrite
  split; apply State.retrain_evolves; exact e; apply State.retrain_evolves; exact e; apply State.settle_evolves; apply State.retrain_evolves; exact e; exact e

theorem State.tagFailed_evolves {s : State} (p : Nat) (t : State) (e : Evolves s t) : Evolves s (State.tagFailed p t) := by
  unfold State.tagFailed
  dsimp only; split; apply State.record_evolves; apply State.restartPort_evolves; apply State.freeBytes_evolves_snd; apply State.modPort_evolves; apply State.modPort_evolves
  exact e; apply State.modPort_evolves; exact e

theorem State.resend_evolves {s : State} (p : Nat) (t : State) (e : Evolves s t) : Evolves s (State.resend p t) := by
  unfold State.resend
  split; exact e; dsimp only; split; apply State.retrain_evolves; apply State.modPort_evolves; exact e; apply State.modPort_evolves; exact e

theorem State.frameHeader_evolves {s : State} (p : Nat) (f : Frame) (t : State) (e : Evolves s t) : Evolves s (State.frameHeader p f t) := by
  unfold State.frameHeader
  dsimp only; split; apply State.resend_evolves; apply State.modPort_evolves; exact e; apply State.modPort_evolves; exact e

theorem State.malformedFrame_evolves {s : State} (p : Nat) (t : State) (e : Evolves s t) : Evolves s (State.malformedFrame p t) := by
  unfold State.malformedFrame
  apply State.modPort_evolves; exact e

theorem State.takeFrame_evolves_snd {s : State} (p : Nat) (f : Frame) (ctl : Bool) (t : State) (e : Evolves s t) : Evolves s
    (State.takeFrame p f ctl t).1 := by
  unfold State.takeFrame
  split; dsimp only; apply State.tagFailed_evolves; exact e; dsimp only; split; dsimp only; apply State.malformedFrame_evolves; apply State.modPort_evolves; exact e
  dsimp only; apply State.frameHeader_evolves; apply State.modPort_evolves; exact e

theorem State.takeFrame_evolves {s t : State} {p : Nat} {f : Frame} {ctl : Bool} {ru : State} {ra : _} (h : State.takeFrame p f ctl t = (ru, ra))
    (e : Evolves s t) : Evolves s ru := by
  have := State.takeFrame_evolves_snd p f ctl t e
  rwa [h] at this

theorem State.takeUnitIn_evolves {s : State} (p : Nat) (vc : Nat) (h0 : UnitHdr) (t : State) (e : Evolves s t) : Evolves s (State.takeUnitIn p vc h0 t) := by
  unfold State.takeUnitIn
  split; apply State.malformedFrame_evolves; exact e; split; exact e; split; split; apply State.sendTo_evolves; exact e; exact e; split; apply State.modPort_evolves
  exact e; exact e

/-! ### Domain -/

theorem State.dropDomain_evolves {s : State} (slot : Nat) (rows : Nat) (t : State) (e : Evolves s t) : Evolves s (State.dropDomain slot rows t) := by
  unfold State.dropDomain
  dsimp only; apply State.modKeys_evolves; refine evolves_foldl _ ?_ _ _ ?_; intro _ _ _; apply State.supersede_evolves; assumption; exact e; intro _
  exact ⟨rfl, .inl rfl, Nat.le_refl _, id⟩

theorem State.putDomain_evolves {s : State} (k : Key) (t : State) (e : Evolves s t) : Evolves s (State.putDomain k t) := by
  unfold State.putDomain
  apply State.modKeys_evolves; apply State.overwrite_evolves; apply State.dropDomain_evolves; exact e; intro _; exact ⟨rfl, .inl rfl, Nat.le_refl _, id⟩

theorem State.shedUpper_evolves {s : State} (t : State) (e : Evolves s t) : Evolves s (State.shedUpper t) := by
  unfold State.shedUpper
  dsimp only; apply State.modKeys_evolves; refine evolves_foldl _ ?_ _ _ ?_; intro _ _ _; apply State.supersede_evolves; assumption; exact e; intro _
  exact ⟨rfl, .inl rfl, Nat.le_refl _, id⟩

theorem State.recordDk_evolves {s : State} (event : Nat) (version : Nat) (serial : Nat) (dom : Bytes) (t : State) (e : Evolves s t) : Evolves s
    (State.recordDk event version serial dom t) := by
  unfold State.recordDk
  apply State.record_evolves; exact e

theorem State.activateDk_evolves {s : State} (v : Nat) (serial : Nat) (t : State) (e : Evolves s t) : Evolves s (State.activateDk v serial t) := by
  unfold State.activateDk
  split; split; exact e; dsimp only; apply State.advanceEpoch_evolves; apply State.deriveSmks_evolves; split; apply State.recordDk_evolves; apply State.recordDk_evolves
  apply State.modKeys_evolves; exact e; intro _; exact ⟨rfl, .inl rfl, Nat.le_refl _, id⟩; apply State.recordDk_evolves; apply State.modKeys_evolves; exact e
  intro _; exact ⟨rfl, .inl rfl, Nat.le_refl _, id⟩; exact e

theorem State.applyKind_evolves {s : State} (c : Change) (t : State) (e : Evolves s t) : Evolves s (State.applyKind c t) := by
  unfold State.applyKind
  split; split; exact e; apply State.deriveSmks_evolves; apply State.recordDk_evolves; apply State.modKeys_evolves; exact e; intro _
  exact ⟨rfl, .inl rfl, Nat.le_refl _, id⟩; split; exact e; apply State.recordDk_evolves; apply State.modKeys_evolves; exact e; intro _
  exact ⟨rfl, .inl rfl, Nat.le_refl _, id⟩; apply State.activateDk_evolves; exact e; apply State.putDomain_evolves; exact e; apply State.dropDomain_evolves; exact e
  split; apply State.rewriteKey_evolves; apply State.supersede_evolves; exact e; exact e; apply State.modHier_evolves; exact e

theorem State.reportStage_evolves {s : State} (c : Change) (t : State) (e : Evolves s t) : Evolves s (State.reportStage c t) := by
  unfold State.reportStage
  split; split; exact e; apply State.sendTo_evolves; exact e; exact e

theorem State.applyChange_evolves {s : State} (c : Change) (t : State) (e : Evolves s t) : Evolves s (State.applyChange c t) := by
  unfold State.applyChange
  dsimp only; apply State.reportStage_evolves; apply State.modHier_evolves; apply State.applyKind_evolves; exact e

theorem State.passDown_evolves {s : State} (c : Change) (t : State) (e : Evolves s t) : Evolves s (State.passDown c t) := by
  unfold State.passDown
  apply State.sendAll_evolves; exact e

theorem State.applyNext_evolves {s : State} (c : Change) (t : State) (e : Evolves s t) : Evolves s (State.applyNext c t) := by
  unfold State.applyNext
  split; apply State.passDown_evolves; apply State.applyChange_evolves; exact e; exact e

theorem State.committed_evolves {s : State} (serial : Nat) (t : State) (e : Evolves s t) : Evolves s (State.committed serial t) := by
  unfold State.committed
  apply State.modMail_evolves; exact e; intro _; (exact Mail.Keeps.map _ _ fun j => by split <;> rfl)

theorem State.commitOne_evolves {s : State} (c : Change) (t : State) (e : Evolves s t) : Evolves s (State.commitOne c t) := by
  unfold State.commitOne
  dsimp only; apply State.committed_evolves; apply State.modHier_evolves; apply State.applyChange_evolves; apply State.sendAll_evolves; exact e

theorem State.commitReady_evolves {s : State} (n : Nat) (t : State) (e : Evolves s t) : Evolves s (State.commitReady n t) := by
  induction n generalizing t with
  | zero => exact e
  | succ n ih =>
    unfold State.commitReady
    split
    · split
      · exact ih _ (State.commitOne_evolves _ _ e)
      · exact e
    · exact e

theorem State.issueChange_evolves {s : State} (k : ChangeKind) (t : State) (e : Evolves s t) : Evolves s (State.issueChange k t) := by
  unfold State.issueChange
  dsimp only; apply State.sendAll_evolves; apply State.modHier_evolves; exact e

theorem State.issueFor_evolves {s : State} (k : ChangeKind) (reply : Bytes) (obj : Nat) (t : State) (e : Evolves s t) : Ran.Leads s
    (State.issueFor k reply obj t) := by
  unfold State.issueFor
  refine Ran.leads_hold ?_; apply State.issueChange_evolves; exact e

theorem State.recordLead_evolves {s : State} (event : Nat) (votes : Nat) (t : State) (e : Evolves s t) : Evolves s (State.recordLead event votes t) := by
  unfold State.recordLead
  apply State.record_evolves; exact e

theorem State.abortChanges_evolves {s : State} (t : State) (e : Evolves s t) : Evolves s (State.abortChanges t) := by
  unfold State.abortChanges
  refine evolves_foldl _ ?_ _ _ ?_; intro _ _ _; apply State.endJob_evolves; assumption; exact e

theorem State.stepDown_evolves {s : State} (t : State) (e : Evolves s t) : Evolves s (State.stepDown t) := by
  unfold State.stepDown
  split; apply State.abortChanges_evolves; apply State.recordLead_evolves; apply State.modHier_evolves; exact e; exact e

theorem State.sendBeat_evolves {s : State} (t : State) (e : Evolves s t) : Evolves s (State.sendBeat t) := by
  unfold State.sendBeat
  apply State.sendAll_evolves; apply State.modHier_evolves; exact e

theorem State.becomeActive_evolves {s : State} (term : Nat) (votes : Nat) (t : State) (e : Evolves s t) : Evolves s (State.becomeActive term votes t) := by
  unfold State.becomeActive
  dsimp only; apply State.sendBeat_evolves; refine evolves_foldl _ ?_ _ _ ?_; intro _ _ _; apply State.sendAll_evolves; assumption; apply State.recordLead_evolves
  apply State.setFab_evolves; apply State.modHier_evolves; exact e

theorem State.forwardRecords_evolves {s : State} (t : State) (e : Evolves s t) : Evolves s (State.forwardRecords t) := by
  unfold State.forwardRecords
  split; exact e; dsimp only; split; apply State.sendTo_evolves; apply State.modHier_evolves; exact e; exact e

/-! ### Hierarchy -/

theorem State.duplicate_evolves {s : State} (p : Nat) (t : State) (e : Evolves s t) : Evolves s (State.duplicate p t) := by
  unfold State.duplicate
  apply State.record_evolves; apply State.setFab_evolves; exact e

theorem State.formation_evolves {s : State} (role : Nat) (dev : Nat) (term : Nat) (t : State) (e : Evolves s t) : Evolves s
    (State.formation role dev term t) := by
  unfold State.formation
  split; apply State.becomeActive_evolves; exact e; exact e

theorem State.seeTerm_evolves {s : State} (term : Nat) (t : State) (e : Evolves s t) : Evolves s (State.seeTerm term t) := by
  unfold State.seeTerm
  split; apply State.modHier_evolves; apply State.stepDown_evolves; exact e; exact e

theorem State.askSync_evolves {s : State} (t : State) (e : Evolves s t) : Evolves s (State.askSync t) := by
  unfold State.askSync
  split; exact e; apply State.sendTo_evolves; apply State.setFab_evolves; exact e

theorem State.catchUp_evolves {s : State} (t : State) (e : Evolves s t) : Evolves s (State.catchUp t) := by
  unfold State.catchUp
  split; exact e; split; apply State.askSync_evolves; exact e; apply State.setFab_evolves; exact e

theorem State.takeBeat_evolves {s : State} (term : Nat) (lead : Nat) (serial : Nat) (t : State) (e : Evolves s t) : Evolves s
    (State.takeBeat term lead serial t) := by
  unfold State.takeBeat
  dsimp only; apply State.modHier_evolves; exact e

theorem State.refill_evolves {s : State} (before : List Key) (c : Change) (t : State) (e : Evolves s t) : Evolves s (State.refill before c t) := by
  unfold State.refill
  split; split; dsimp only; split; apply State.rewritten_evolves; apply State.rewriteKey_evolves; exact e; apply State.rewriteKey_evolves; exact e; exact e; exact e

theorem State.takeSnapshot_evolves {s : State} (term : Nat) (serial : Nat) (dom : Bytes) (dks : List SnapDk) (slots : List SnapSlot) (level1
    : List Nat) (timeout : Nat) (t : State) (e : Evolves s t) : Evolves s (State.takeSnapshot term serial dom dks slots level1 timeout t) := by
  unfold State.takeSnapshot
  dsimp only; split; apply State.advanceEpoch_evolves; apply State.deriveSmks_evolves; apply State.modHier_evolves; refine evolves_foldl _ ?_ _ _ ?_; intro _ _ _
  apply State.putDomain_evolves; assumption; apply State.modKeys_evolves; refine evolves_foldl _ ?_ _ _ ?_; intro _ _ _; apply State.dropDomain_evolves; assumption
  exact e; intro _; exact ⟨rfl, .inl rfl, Nat.le_refl _, id⟩; apply State.modHier_evolves; refine evolves_foldl _ ?_ _ _ ?_; intro _ _ _
  apply State.putDomain_evolves; assumption; apply State.modKeys_evolves; refine evolves_foldl _ ?_ _ _ ?_; intro _ _ _; apply State.dropDomain_evolves; assumption
  exact e; intro _; exact ⟨rfl, .inl rfl, Nat.le_refl _, id⟩

theorem State.synced_evolves {s : State} (oldSerial : Nat) (snapshot : Bool) (t : State) (e : Evolves s t) : Evolves s
    (State.synced oldSerial snapshot t) := by
  unfold State.synced
  dsimp only; split; apply State.record_evolves; apply State.modHier_evolves; exact e; apply State.setFab_evolves; apply State.record_evolves; apply State.modHier_evolves
  exact e

theorem State.aggHeadWrite_evolves {s : State} (value : Nat) (t : State) (e : Evolves s t) : Evolves s (State.aggHeadWrite value t) := by
  unfold State.aggHeadWrite
  dsimp only; split; apply State.modHier_evolves; exact e; refine evolves_foldl _ ?_ _ _ ?_; intro _ _ _; apply State.sendTo_evolves; assumption
  apply State.modHier_evolves; apply State.modHier_evolves; exact e

theorem fabStatusRun_evolves {s : State} (x0 : Caller) (x1 : Packet) (x2 : Bool) (t : State) (e : Evolves s t) : Ran.Leads s (fabStatusRun x0 x1 x2 t) := by
  unfold fabStatusRun
  refine Ran.leads_done ?_; exact e

theorem State.holderChanged_evolves {s : State} (old : Bool) (t : State) (e : Evolves s t) : Evolves s (State.holderChanged old t) := by
  unfold State.holderChanged
  split; exact e; dsimp only; split; apply State.askSync_evolves; apply State.sendAll_evolves; exact e; apply State.sendAll_evolves; exact e

theorem State.setRole_evolves {s : State} (r : RoleReq) (t : State) (e : Evolves s t) : Evolves s (State.setRole r t) := by
  unfold State.setRole
  dsimp only; split; apply State.holderChanged_evolves; split; apply State.modHier_evolves; exact e; apply State.shedUpper_evolves; apply State.modHier_evolves; exact e
  apply State.refreshLevel_evolves; split; apply State.modHier_evolves; apply State.setFab_evolves; apply State.stepDown_evolves; split; apply State.modHier_evolves; exact e
  apply State.shedUpper_evolves; apply State.modHier_evolves; exact e; split; apply State.setFab_evolves; apply State.stepDown_evolves; split; apply State.modHier_evolves
  exact e; apply State.shedUpper_evolves; apply State.modHier_evolves; exact e; apply State.stepDown_evolves; split; apply State.modHier_evolves; exact e
  apply State.shedUpper_evolves; apply State.modHier_evolves; exact e

theorem fabRoleSetRun_evolves {s : State} (x0 : Caller) (x1 : Packet) (x2 : Bool) (t : State) (e : Evolves s t) : Ran.Leads s (fabRoleSetRun x0 x1 x2 t) := by
  unfold fabRoleSetRun
  dsimp only; split; refine Ran.leads_done ?_; exact e; split; refine Ran.leads_done ?_; exact e; split; apply State.issueFor_evolves; apply State.setRole_evolves
  exact e; split; refine Ran.leads_hold ?_; apply State.modHier_evolves; apply State.setRole_evolves; exact e; refine Ran.leads_done ?_; apply State.modHier_evolves
  apply State.setRole_evolves; exact e

theorem dkCreateRun_evolves {s : State} (x0 : Caller) (x1 : Packet) (x2 : Bool) (t : State) (e : Evolves s t) : Ran.Leads s (dkCreateRun x0 x1 x2 t) := by
  unfold dkCreateRun
  split; refine Ran.leads_done ?_; exact e; split; refine State.cmdDraw_evolves_ran (by assumption) ?_; exact e; apply State.issueFor_evolves
  refine State.cmdDraw_evolves (by assumption) ?_; exact e

theorem dkRolloverRun_evolves {s : State} (x0 : Caller) (x1 : Packet) (x2 : Bool) (t : State) (e : Evolves s t) : Ran.Leads s (dkRolloverRun x0 x1 x2 t) := by
  unfold dkRolloverRun
  dsimp only; split; refine Ran.leads_done ?_; exact e; split; refine Ran.leads_done ?_; exact e; split; refine Ran.leads_done ?_; exact e; split
  refine State.cmdDraw_evolves_ran (by assumption) ?_; exact e; apply State.issueFor_evolves; apply State.modHier_evolves; refine State.cmdDraw_evolves (by assumption) ?_
  exact e

theorem dkStatusRun_evolves {s : State} (x0 : Caller) (x1 : Packet) (x2 : Bool) (t : State) (e : Evolves s t) : Ran.Leads s (dkStatusRun x0 x1 x2 t) := by
  unfold dkStatusRun
  dsimp only; refine Ran.leads_done ?_; exact e

/-! ### KeyMake -/

theorem State.install_evolves {s : State} (v : NewKey) (t : State) (e : Evolves s t) : Ran.Leads s (State.install v t) := by
  unfold State.install
  dsimp only; split; split; refine Ran.leads_done ?_; exact e; split; apply State.issueFor_evolves; exact e; refine Ran.leads_done ?_; apply State.modKeys_evolves
  apply State.overwrite_evolves; exact e; intro _; exact ⟨rfl, .inl rfl, Nat.le_refl _, id⟩; refine Ran.leads_done ?_; exact e

theorem State.make_evolves {s : State} (v : NewKey) (t : State) (e : Evolves s t) : Ran.Leads s (State.make v t) := by
  unfold State.make
  split; refine Ran.leads_done ?_; exact e; split; refine Ran.leads_done ?_; exact e; apply State.install_evolves; exact e

/-! ### Keys -/

theorem State.rsaEngine_evolves {s : State} (cls : Nat) (t : State) (e : Evolves s t) : Evolves s (State.rsaEngine cls t) := by
  unfold State.rsaEngine
  split; exact e; split; apply State.modCh_evolves; exact e; exact e

theorem keyGenerateRun_evolves {s : State} (x0 : Caller) (x1 : Packet) (x2 : Bool) (t : State) (e : Evolves s t) : Ran.Leads s
    (keyGenerateRun x0 x1 x2 t) := by
  unfold keyGenerateRun
  dsimp only; split; refine Ran.leads_done ?_; exact e; split; refine Ran.leads_done ?_; exact e; split; split; refine Ran.leads_done ?_; exact e; split
  refine State.cmdDraw_evolves_ran (by assumption) ?_; exact e; split; refine Ran.leads_hold ?_; refine State.cmdDraw_evolves (by assumption) ?_; exact e
  apply State.install_evolves; apply State.rsaEngine_evolves; refine State.cmdDraw_evolves
    (by assumption) ?_; exact e; split; refine Ran.leads_done ?_; exact e; split
  refine State.cmdDraw_evolves_ran (by assumption) ?_; exact e; split; refine Ran.leads_hold ?_; refine State.cmdDraw_evolves (by assumption) ?_; exact e
  apply State.install_evolves; apply State.rsaEngine_evolves; refine State.cmdDraw_evolves (by assumption) ?_; exact e

theorem State.openScope_evolves_snd {s : State} (scope : Nat) (slice : Nat) (t : State) (e : Evolves s t) : Evolves s (State.openScope scope slice t).2 := by
  unfold State.openScope
  split; split; dsimp only; refine State.freeBytes_evolves (by assumption) ?_; exact e; exact e

theorem State.openScope_evolves {s t : State} {scope : Nat} {slice : Nat} {ra : _} {ru : State} (h : State.openScope scope slice t = (ra, ru)) (e
    : Evolves s t) : Evolves s ru := by
  have := State.openScope_evolves_snd scope slice t e
  rwa [h] at this

theorem keyImportWrappedRun_evolves {s : State} (x0 : Caller) (x1 : Packet) (x2 : Bool) (t : State) (e : Evolves s t) : Ran.Leads s
    (keyImportWrappedRun x0 x1 x2 t) := by
  unfold keyImportWrappedRun
  dsimp only; split; refine Ran.leads_done ?_; exact e; split; refine Ran.leads_done ?_; exact e; split; refine Ran.leads_done ?_; exact e; apply State.make_evolves
  apply State.openScope_evolves_snd; exact e

theorem keyImportClearRun_evolves {s : State} (x0 : Caller) (x1 : Packet) (x2 : Bool) (t : State) (e : Evolves s t) : Ran.Leads s
    (keyImportClearRun x0 x1 x2 t) := by
  unfold keyImportClearRun
  dsimp only; split; refine Ran.leads_done ?_; exact e; apply State.make_evolves; exact e

theorem exportPart_evolves {s : State} (data : Bytes) (p : Packet) (obj : Nat) (t : State) (e : Evolves s t) : Ran.Leads s (exportPart data p obj t) := by
  unfold exportPart
  dsimp only; split; refine Ran.leads_done ?_; exact e; refine Ran.leads_part ?_; exact e

theorem keyExportWrappedRun_evolves {s : State} (x0 : Caller) (x1 : Packet) (x2 : Bool) (t : State) (e : Evolves s t) : Ran.Leads s
    (keyExportWrappedRun x0 x1 x2 t) := by
  unfold keyExportWrappedRun
  dsimp only; split; refine Ran.leads_done ?_; exact e; refine Ran.leads_done ?_; exact e; split; refine Ran.leads_done ?_; exact e; apply exportPart_evolves
  exact e

theorem keyExportPublicRun_evolves {s : State} (x0 : Caller) (x1 : Packet) (x2 : Bool) (t : State) (e : Evolves s t) : Ran.Leads s
    (keyExportPublicRun x0 x1 x2 t) := by
  unfold keyExportPublicRun
  dsimp only; split; refine Ran.leads_done ?_; exact e; split; apply exportPart_evolves; exact e; refine Ran.leads_done ?_; exact e

theorem keySaveBlobRun_evolves {s : State} (x0 : Caller) (x1 : Packet) (x2 : Bool) (t : State) (e : Evolves s t) : Ran.Leads s
    (keySaveBlobRun x0 x1 x2 t) := by
  unfold keySaveBlobRun
  dsimp only; split; refine Ran.leads_done ?_; exact e; split; refine Ran.leads_done ?_; exact e; split; refine Ran.leads_done ?_; exact e; split; split
  apply exportPart_evolves; exact e; refine Ran.leads_done ?_; exact e; split; refine State.cmdDraw_evolves_ran
    (by assumption) ?_; exact e; apply exportPart_evolves
  split; split; apply State.modBox_evolves; refine State.cmdDraw_evolves (by assumption) ?_; exact e; refine State.cmdDraw_evolves (by assumption) ?_; exact e
  refine State.cmdDraw_evolves (by assumption) ?_; exact e

theorem keyLoadBlobRun_evolves {s : State} (x0 : Caller) (x1 : Packet) (x2 : Bool) (t : State) (e : Evolves s t) : Ran.Leads s
    (keyLoadBlobRun x0 x1 x2 t) := by
  unfold keyLoadBlobRun
  dsimp only; split; refine Ran.leads_done ?_; exact e; split; refine Ran.leads_done ?_; exact e; apply State.install_evolves; exact e

theorem keyDeriveRun_evolves {s : State} (x0 : Caller) (x1 : Packet) (x2 : Bool) (t : State) (e : Evolves s t) : Ran.Leads s (keyDeriveRun x0 x1 x2 t) := by
  unfold keyDeriveRun
  dsimp only; split; refine Ran.leads_done ?_; exact e; split; refine Ran.leads_done ?_; exact e; split; refine Ran.leads_done ?_; exact e; split
  refine Ran.leads_done ?_; exact e; refine Ran.leads_done ?_; exact e; apply State.make_evolves; apply State.openScope_evolves_snd; exact e

theorem keyDeleteRun_evolves {s : State} (x0 : Caller) (x1 : Packet) (x2 : Bool) (t : State) (e : Evolves s t) : Ran.Leads s (keyDeleteRun x0 x1 x2 t) := by
  unfold keyDeleteRun
  dsimp only; split; refine Ran.leads_done ?_; exact e; split; apply State.issueFor_evolves; exact e; refine Ran.leads_hold ?_; apply State.rewriteKey_evolves
  apply State.supersede_evolves; exact e

theorem keySetPolicyRun_evolves {s : State} (x0 : Caller) (x1 : Packet) (x2 : Bool) (t : State) (e : Evolves s t) : Ran.Leads s
    (keySetPolicyRun x0 x1 x2 t) := by
  unfold keySetPolicyRun
  dsimp only; split; refine Ran.leads_done ?_; exact e; split; apply State.issueFor_evolves; exact e; refine Ran.leads_hold ?_; apply State.rewriteKey_evolves
  apply State.supersede_evolves; exact e

theorem keyQueryRun_evolves {s : State} (x0 : Caller) (x1 : Packet) (x2 : Bool) (t : State) (e : Evolves s t) : Ran.Leads s (keyQueryRun x0 x1 x2 t) := by
  unfold keyQueryRun
  dsimp only; split; refine Ran.leads_done ?_; exact e; refine Ran.leads_done ?_; exact e

theorem keysetGetRun_evolves {s : State} (x0 : Caller) (x1 : Packet) (x2 : Bool) (t : State) (e : Evolves s t) : Ran.Leads s (keysetGetRun x0 x1 x2 t) := by
  unfold keysetGetRun
  dsimp only; split; apply refused_evolves; exact e; refine Ran.leads_done ?_; exact e

theorem keysetSetRun_evolves {s : State} (x0 : Caller) (x1 : Packet) (x2 : Bool) (t : State) (e : Evolves s t) : Ran.Leads s (keysetSetRun x0 x1 x2 t) := by
  unfold keysetSetRun
  dsimp only; split; apply refused_evolves; exact e; refine Ran.leads_done ?_; apply State.setSlice_evolves; exact e

theorem State.sweptBad_evolves {s : State} (r : Nat × Nat × Nat) (t : State) (e : Evolves s t) : Evolves s (State.sweptBad t r) := by
  unfold State.sweptBad
  split; split; split; apply State.markBad_evolves; exact e; exact e; apply State.smkFailed_evolves; exact e; split; apply State.stagedFailed_evolves; exact e
  exact e; split; split; exact e; split; apply State.askSync_evolves; apply State.modHier_evolves; apply State.markBad_evolves; exact e; apply State.markBad_evolves
  exact e; exact e; exact e

/-! ### Lifecycle -/

theorem State.lifecycleReset_evolves {s : State} (t : State) (e : Evolves s t) : Evolves s (State.lifecycleReset t) := by
  unfold State.lifecycleReset
  dsimp only; refine Evolves.build rfl ?_ ?_ ?_ ?_ ?_ ?_ ?_ ?_ ?_ ?_ ?_ ?_; apply State.dark_evolves; exact e; intro _; assumption; exact Rng.keeps_refl _
  exact Custody.keeps_refl _; exact ⟨id, id⟩; exact Dual.keeps_refl _; exact Worlds.keeps_refl _; intro _; assumption; exact Recorder.keeps_refl _; intro _
  assumption; exact ⟨id, id⟩; exact ⟨Nat.le_refl _, Nat.le_refl _, Nat.le_refl _⟩

theorem State.clearCounts_evolves {s : State} (t : State) (e : Evolves s t) : Evolves s (State.clearCounts t) := by
  unfold State.clearCounts
  refine Evolves.build rfl ?_ ?_ ?_ ?_ ?_ ?_ ?_ ?_ ?_ ?_ ?_ ?_; exact e; intro _; assumption; exact Rng.keeps_refl _; exact Custody.keeps_refl _
  exact Mail.keeps_refl _; exact Dual.keeps_refl _; exact Worlds.keeps_refl _; intro _; simpa using ‹_›; dsimp only; exact fun h => ⟨h, Nat.le_refl _⟩; intro _
  assumption; exact Power.keeps_refl _; exact Renewal.keeps_refl _

/-! ### Quorum -/

theorem State.modChal_evolves {s : State} (f : Challenge → Challenge) (t : State) (e : Evolves s t) : Evolves s (State.modChal f t) := by
  unfold State.modChal
  refine Evolves.build rfl ?_ ?_ ?_ ?_ ?_ ?_ ?_ ?_ ?_ ?_ ?_ ?_; exact e; intro _; assumption; exact Rng.keeps_refl _; exact Custody.keeps_refl _
  exact Mail.keeps_refl _; dsimp only; exact ⟨id, id⟩; exact Worlds.keeps_refl _; intro _; assumption; exact Recorder.keeps_refl _; intro _; assumption
  exact Power.keeps_refl _; exact Renewal.keeps_refl _

theorem State.modCard_evolves {s : State} (p : Nat) (f : CardPort → CardPort) (t : State) (e : Evolves s t) : Evolves s (State.modCard p f t) := by
  unfold State.modCard
  refine Evolves.build rfl ?_ ?_ ?_ ?_ ?_ ?_ ?_ ?_ ?_ ?_ ?_ ?_; exact e; intro _; assumption; exact Rng.keeps_refl _; exact Custody.keeps_refl _
  exact Mail.keeps_refl _; dsimp only; exact ⟨fun h => by simpa using h, id⟩; exact Worlds.keeps_refl _; intro _; assumption; exact Recorder.keeps_refl _
  intro _; assumption; exact Power.keeps_refl _; exact Renewal.keeps_refl _

theorem State.endChallenge_evolves {s : State} (t : State) (e : Evolves s t) : Evolves s (State.endChallenge t) := by
  unfold State.endChallenge
  dsimp only; refine Evolves.build rfl ?_ ?_ ?_ ?_ ?_ ?_ ?_ ?_ ?_ ?_ ?_ ?_; apply State.modChal_evolves; exact e; intro _; assumption; exact Rng.keeps_refl _
  exact Custody.keeps_refl _; exact Mail.keeps_refl _; exact ⟨fun h => by simpa using h, id⟩; exact Worlds.keeps_refl _; intro _; assumption
  exact Recorder.keeps_refl _; intro _; assumption; exact Power.keeps_refl _; exact Renewal.keeps_refl _

theorem State.issueChallenge_evolves {s : State} (mailbox : Nat) (opcode : Nat) (digest : Bytes) (nonce : Bytes) (t : State) (e : Evolves s t)
    : Evolves s (State.issueChallenge mailbox opcode digest nonce t) := by
  unfold State.issueChallenge
  dsimp only; apply State.modChal_evolves; apply State.record_evolves; apply State.endChallenge_evolves; exact e

theorem State.approve_evolves_snd {s : State} (i : Nat) (alg : Nat) (sig : Bytes) (t : State) (e : Evolves s t) : Evolves s
    (State.approve i alg sig t).2.2 := by
  unfold State.approve
  dsimp only; split; exact e; split; exact e; split; exact e; dsimp only; apply State.modChal_evolves; exact e

theorem State.approve_evolves {s t : State} {i : Nat} {alg : Nat} {sig : Bytes} {ra rb : _} {ru : State} (h : State.approve i alg sig t =
    (ra, rb, ru)) (e : Evolves s t) : Evolves s ru := by
  have := State.approve_evolves_snd i alg sig t e
  rwa [h] at this

theorem State.sendApdu_evolves {s : State} (p : Nat) (step : CardStep) (data : Bytes) (t : State) (e : Evolves s t) : Evolves s
    (State.sendApdu p step data t) := by
  unfold State.sendApdu
  apply State.modCard_evolves; exact e

theorem State.askCard_evolves {s : State} (p : Nat) (t : State) (e : Evolves s t) : Evolves s (State.askCard p t) := by
  unfold State.askCard
  dsimp only; split; apply State.modCard_evolves; apply State.sendApdu_evolves; exact e; exact e

theorem State.askCards_evolves {s : State} (t : State) (e : Evolves s t) : Evolves s (State.askCards t) := by
  unfold State.askCards
  apply State.askCard_evolves; apply State.askCard_evolves; exact e

theorem quorumChallengeRun_evolves {s : State} (x0 : Caller) (x1 : Packet) (x2 : Bool) (t : State) (e : Evolves s t) : Ran.Leads s
    (quorumChallengeRun x0 x1 x2 t) := by
  unfold quorumChallengeRun
  dsimp only; split; refine Ran.leads_done ?_; exact e; split; refine State.cmdDraw_evolves_ran (by assumption) ?_; exact e; refine Ran.leads_done ?_
  apply State.askCards_evolves; apply State.issueChallenge_evolves; refine State.cmdDraw_evolves (by assumption) ?_; exact e

theorem quorumApproveRun_evolves {s : State} (x0 : Caller) (x1 : Packet) (x2 : Bool) (t : State) (e : Evolves s t) : Ran.Leads s
    (quorumApproveRun x0 x1 x2 t) := by
  unfold quorumApproveRun
  dsimp only; split; refine Ran.leads_done ?_; exact e; refine Ran.leads_done ?_; apply State.approve_evolves_snd; exact e

theorem custodianEnrolRun_evolves {s : State} (x0 : Caller) (x1 : Packet) (x2 : Bool) (t : State) (e : Evolves s t) : Ran.Leads s
    (custodianEnrolRun x0 x1 x2 t) := by
  unfold custodianEnrolRun
  dsimp only; split; refine Ran.leads_done ?_; exact e; split; refine Ran.leads_done ?_; exact e; split; refine Ran.leads_done ?_; exact e; split
  refine Ran.leads_done ?_; exact e; split; refine Ran.leads_done ?_; exact e; refine Ran.leads_done ?_
  refine Evolves.build rfl ?_ ?_ ?_ ?_ ?_ ?_ ?_ ?_ ?_ ?_ ?_ ?_; exact e; intro _; assumption; exact Rng.keeps_refl _; exact Custody.keeps_refl _
  exact Mail.keeps_refl _; exact ⟨id, fun h => by simpa using h⟩; exact Worlds.keeps_refl _; intro _; assumption; exact Recorder.keeps_refl _; intro _
  assumption; exact Power.keeps_refl _; exact Renewal.keeps_refl _

theorem custodianRemoveRun_evolves {s : State} (x0 : Caller) (x1 : Packet) (x2 : Bool) (t : State) (e : Evolves s t) : Ran.Leads s
    (custodianRemoveRun x0 x1 x2 t) := by
  unfold custodianRemoveRun
  dsimp only; split; refine Ran.leads_done ?_; exact e; split; refine Ran.leads_done ?_; exact e; refine Ran.leads_done ?_
  refine Evolves.build rfl ?_ ?_ ?_ ?_ ?_ ?_ ?_ ?_ ?_ ?_ ?_ ?_; exact e; intro _; assumption; exact Rng.keeps_refl _; exact Custody.keeps_refl _
  exact Mail.keeps_refl _; exact ⟨id, fun h => by simpa using h⟩; exact Worlds.keeps_refl _; intro _; assumption; exact Recorder.keeps_refl _; intro _
  assumption; exact Power.keeps_refl _; exact Renewal.keeps_refl _

theorem quorumSetRun_evolves {s : State} (x0 : Caller) (x1 : Packet) (x2 : Bool) (t : State) (e : Evolves s t) : Ran.Leads s (quorumSetRun x0 x1 x2 t) := by
  unfold quorumSetRun
  dsimp only; split; refine Ran.leads_done ?_; exact e; refine Ran.leads_done ?_; refine Evolves.build rfl ?_ ?_ ?_ ?_ ?_ ?_ ?_ ?_ ?_ ?_ ?_ ?_; exact e
  intro _; assumption; exact Rng.keeps_refl _; exact Custody.keeps_refl _; exact Mail.keeps_refl _; exact ⟨id, id⟩; exact Worlds.keeps_refl _; intro _; assumption
  exact Recorder.keeps_refl _; intro _; assumption; exact Power.keeps_refl _; exact Renewal.keeps_refl _

theorem cellWindowOpenRun_evolves {s : State} (x0 : Caller) (x1 : Packet) (x2 : Bool) (t : State) (e : Evolves s t) : Ran.Leads s
    (cellWindowOpenRun x0 x1 x2 t) := by
  unfold cellWindowOpenRun
  dsimp only; split; refine Ran.leads_done ?_; exact e; split; refine Ran.leads_done ?_; exact e; refine Ran.leads_done ?_; apply State.record_evolves
  refine Evolves.build rfl ?_ ?_ ?_ ?_ ?_ ?_ ?_ ?_ ?_ ?_ ?_ ?_; exact e; intro _; assumption; exact Rng.keeps_refl _; exact Custody.keeps_refl _
  exact Mail.keeps_refl _; exact ⟨id, id⟩; exact Worlds.keeps_refl _; intro _; assumption; exact Recorder.keeps_refl _; intro _; assumption
  exact Power.keeps_refl _; exact Renewal.keeps_refl _

theorem cellWindowCloseRun_evolves {s : State} (x0 : Caller) (x1 : Packet) (x2 : Bool) (t : State) (e : Evolves s t) : Ran.Leads s
    (cellWindowCloseRun x0 x1 x2 t) := by
  unfold cellWindowCloseRun
  split; refine Ran.leads_done ?_; exact e; refine Ran.leads_done ?_; apply State.closeWindow_evolves; exact e

theorem State.zeroiseStep_evolves {s : State} (t : State) (e : Evolves s t) : Evolves s (State.zeroiseStep t) := by
  unfold State.zeroiseStep
  split; apply State.settle_evolves; apply State.tamperEvent_evolves; refine Evolves.build rfl ?_ ?_ ?_ ?_ ?_ ?_ ?_ ?_ ?_ ?_ ?_ ?_; exact e; intro _; assumption
  exact Rng.keeps_refl _; exact Custody.keeps_refl _; exact Mail.keeps_refl _; dsimp only; exact ⟨id, id⟩; exact Worlds.keeps_refl _; intro _; assumption
  exact Recorder.keeps_refl _; intro _; assumption; exact Power.keeps_refl _; exact Renewal.keeps_refl _; exact e

theorem zeroiseRun_evolves {s : State} (x0 : Caller) (x1 : Packet) (x2 : Bool) (t : State) (e : Evolves s t) : Ran.Leads s (zeroiseRun x0 x1 x2 t) := by
  unfold zeroiseRun
  refine Ran.leads_done ?_; refine Evolves.build rfl ?_ ?_ ?_ ?_ ?_ ?_ ?_ ?_ ?_ ?_ ?_ ?_; exact e; intro _; assumption; exact Rng.keeps_refl _
  exact Custody.keeps_refl _; exact Mail.keeps_refl _; dsimp only; exact ⟨id, id⟩; exact Worlds.keeps_refl _; intro _; assumption; exact Recorder.keeps_refl _
  intro _; assumption; exact Power.keeps_refl _; exact Renewal.keeps_refl _

theorem devResumeAlarmRun_evolves {s : State} (x0 : Caller) (x1 : Packet) (x2 : Bool) (t : State) (e : Evolves s t) : Ran.Leads s
    (devResumeAlarmRun x0 x1 x2 t) := by
  unfold devResumeAlarmRun
  split; refine Ran.leads_done ?_; exact e; dsimp only; refine Ran.leads_done ?_; split; apply State.commitReady_evolves
  refine Evolves.build rfl ?_ ?_ ?_ ?_ ?_ ?_ ?_ ?_ ?_ ?_ ?_ ?_; exact e; intro _; assumption; exact Rng.keeps_refl _; exact Custody.keeps_refl _
  exact Mail.keeps_refl _; exact Dual.keeps_refl _; exact Worlds.keeps_refl _; intro _; simpa using ‹_›; exact Recorder.keeps_refl _; intro _; assumption
  exact Power.keeps_refl _; exact Renewal.keeps_refl _; split; apply State.askSync_evolves; refine Evolves.build rfl ?_ ?_ ?_ ?_ ?_ ?_ ?_ ?_ ?_ ?_ ?_ ?_; exact e
  intro _; assumption; exact Rng.keeps_refl _; exact Custody.keeps_refl _; exact Mail.keeps_refl _; exact Dual.keeps_refl _; exact Worlds.keeps_refl _; intro _
  simpa using ‹_›; exact Recorder.keeps_refl _; intro _; assumption; exact Power.keeps_refl _; exact Renewal.keeps_refl _
  refine Evolves.build rfl ?_ ?_ ?_ ?_ ?_ ?_ ?_ ?_ ?_ ?_ ?_ ?_; exact e; intro _; assumption; exact Rng.keeps_refl _; exact Custody.keeps_refl _
  exact Mail.keeps_refl _; exact Dual.keeps_refl _; exact Worlds.keeps_refl _; intro _; simpa using ‹_›; exact Recorder.keeps_refl _; intro _; assumption
  exact Power.keeps_refl _; exact Renewal.keeps_refl _

/-! ### Cards -/

theorem State.dropAsked_evolves {s : State} (p : Nat) (t : State) (e : Evolves s t) : Evolves s (State.dropAsked p t) := by
  unfold State.dropAsked
  apply State.modCard_evolves; apply State.forgetDraw_evolves; apply State.leaveDraws_evolves; exact e

theorem State.refuseCard_evolves {s : State} (p : Nat) (sw : Option Nat) (t : State) (e : Evolves s t) : Evolves s (State.refuseCard p sw t) := by
  unfold State.refuseCard
  dsimp only; apply State.askCards_evolves; apply State.record_evolves; apply State.modCard_evolves; apply State.dropAsked_evolves; apply State.freeBytes_evolves_snd; exact e

theorem State.cardIdentity_evolves {s : State} (p : Nat) (data : Bytes) (t : State) (e : Evolves s t) : Evolves s (State.cardIdentity p data t) := by
  unfold State.cardIdentity
  dsimp only; split; apply State.refuseCard_evolves; exact e; split; apply State.askCards_evolves; apply State.modCard_evolves; exact e; apply State.sendApdu_evolves
  apply State.modCard_evolves; exact e

theorem State.rejectProposal_evolves {s : State} (p : Nat) (st : Status) (t : State) (e : Evolves s t) : Evolves s (State.rejectProposal p st t) := by
  unfold State.rejectProposal
  apply State.modCard_evolves; exact e

theorem State.cardProposal_evolves {s : State} (p : Nat) (data : Bytes) (t : State) (e : Evolves s t) : Evolves s (State.cardProposal p data t) := by
  unfold State.cardProposal
  dsimp only; split; apply State.askCards_evolves; apply State.modCard_evolves; exact e; split; apply State.rejectProposal_evolves; exact e; split
  apply State.rejectProposal_evolves; exact e; split; apply State.rejectProposal_evolves; exact e; split; apply State.askCard_evolves; apply State.modCard_evolves
  apply State.issueChallenge_evolves; refine State.cmdDraw_evolves (by assumption) ?_; exact e; apply State.rejectProposal_evolves
  refine State.cmdDraw_evolves_done (by assumption) ?_; exact e; apply State.modCard_evolves; refine State.cmdDraw_evolves_hold (by assumption) ?_; exact e
  refine State.cmdDraw_evolves_part (by assumption) ?_; exact e

theorem State.proposalAgain_evolves {s : State} (p : Nat) (t : State) (e : Evolves s t) : Evolves s (State.proposalAgain p t) := by
  unfold State.proposalAgain
  split; split; exact e; apply State.forgetDraw_evolves; apply State.cardProposal_evolves; apply State.modCard_evolves; exact e; exact e

/-! ### Gate -/

theorem imagePolicySetRun_evolves {s : State} (x0 : Caller) (x1 : Packet) (x2 : Bool) (t : State) (e : Evolves s t) : Ran.Leads s
    (imagePolicySetRun x0 x1 x2 t) := by
  unfold imagePolicySetRun
  split; refine Ran.leads_done ?_; exact e; dsimp only; refine Ran.leads_done ?_; refine Evolves.other ?_; exact e

theorem State.modGate_evolves {s : State} (f : Gate → Gate) (t : State) (e : Evolves s t) : Evolves s (State.modGate f t) := by
  unfold State.modGate
  refine Evolves.other ?_; exact e

theorem State.gateTo_evolves {s : State} (st : GateState) (t : State) (e : Evolves s t) : Evolves s (State.gateTo st t) := by
  unfold State.gateTo
  split; exact e; apply State.record_evolves; apply State.modGate_evolves; exact e

theorem State.openGate_evolves {s : State} (v : Nat) (t : State) (e : Evolves s t) : Evolves s (State.openGate v t) := by
  unfold State.openGate
  apply State.gateTo_evolves; apply State.modGate_evolves; exact e

theorem State.closeGate_evolves {s : State} (fromPerst : Bool) (t : State) (e : Evolves s t) : Evolves s (State.closeGate fromPerst t) := by
  unfold State.closeGate
  apply State.modGate_evolves; exact e

theorem State.bootFields_evolves {s : State} (before : State) (d : Decision) (open_ : Bool) (t : State) (e : Evolves s t) : Evolves s
    (State.bootFields before d open_ t) := by
  unfold State.bootFields
  split; dsimp only; apply State.modGate_evolves; refine State.freeBytes_evolves (by assumption) ?_; exact e

theorem bootRecordGetRun_evolves {s : State} (x0 : Caller) (x1 : Packet) (x2 : Bool) (t : State) (e : Evolves s t) : Ran.Leads s
    (bootRecordGetRun x0 x1 x2 t) := by
  unfold bootRecordGetRun
  dsimp only; split; refine Ran.leads_done ?_; exact e; split; refine Ran.leads_done ?_; exact e; refine Ran.leads_done ?_; exact e

theorem identityGetRun_evolves {s : State} (x0 : Caller) (x1 : Packet) (x2 : Bool) (t : State) (e : Evolves s t) : Ran.Leads s
    (identityGetRun x0 x1 x2 t) := by
  unfold identityGetRun
  dsimp only; split; refine Ran.leads_done ?_; exact e; split; refine Ran.leads_done ?_; exact e; refine Ran.leads_part ?_; exact e

theorem measurementsGetRun_evolves {s : State} (x0 : Caller) (x1 : Packet) (x2 : Bool) (t : State) (e : Evolves s t) : Ran.Leads s
    (measurementsGetRun x0 x1 x2 t) := by
  unfold measurementsGetRun
  dsimp only; split; refine Ran.leads_done ?_; exact e; refine Ran.leads_done ?_; apply State.freeBytes_evolves_snd; exact e

/-! ### Reports -/

theorem erReadRun_evolves {s : State} (x0 : Caller) (x1 : Packet) (x2 : Bool) (t : State) (e : Evolves s t) : Ran.Leads s (erReadRun x0 x1 x2 t) := by
  unfold erReadRun
  dsimp only; split; refine Ran.leads_done ?_; exact e; refine Ran.leads_done ?_; split; apply State.freeBytes_evolves_snd; exact e; exact e

theorem State.clearLog_evolves {s : State} (upTo : Nat) (challenge : Nat) (mask : Nat) (t : State) (e : Evolves s t) : Evolves s
    (State.clearLog upTo challenge mask t) := by
  unfold State.clearLog
  dsimp only; apply State.checkAck_evolves; refine Evolves.build rfl ?_ ?_ ?_ ?_ ?_ ?_ ?_ ?_ ?_ ?_ ?_ ?_; apply State.flushLog_evolves; apply State.record_evolves
  exact e; intro _; assumption; exact Rng.keeps_refl _; exact Custody.keeps_refl _; exact Mail.keeps_refl _; exact Dual.keeps_refl _; exact Worlds.keeps_refl _
  intro _; assumption; exact fun h => ⟨h, Nat.le_refl _⟩; intro _; assumption; exact Power.keeps_refl _; exact Renewal.keeps_refl _

theorem erClearRun_evolves {s : State} (x0 : Caller) (x1 : Packet) (x2 : Bool) (t : State) (e : Evolves s t) : Ran.Leads s (erClearRun x0 x1 x2 t) := by
  unfold erClearRun
  dsimp only; split; refine Ran.leads_done ?_; exact e; refine Ran.leads_done ?_; apply State.clearLog_evolves; exact e

theorem tamperStatusRun_evolves {s : State} (x0 : Caller) (x1 : Packet) (x2 : Bool) (t : State) (e : Evolves s t) : Ran.Leads s
    (tamperStatusRun x0 x1 x2 t) := by
  unfold tamperStatusRun
  refine Ran.leads_done ?_; exact e

theorem tamperConfigRun_evolves {s : State} (x0 : Caller) (x1 : Packet) (x2 : Bool) (t : State) (e : Evolves s t) : Ran.Leads s
    (tamperConfigRun x0 x1 x2 t) := by
  unfold tamperConfigRun
  dsimp only; split; refine Ran.leads_done ?_; exact e; split; refine Ran.leads_done ?_; exact e; refine Ran.leads_done ?_; split
  refine Evolves.build rfl ?_ ?_ ?_ ?_ ?_ ?_ ?_ ?_ ?_ ?_ ?_ ?_; apply State.modSrc_evolves; exact e; intro _; assumption; exact Rng.keeps_refl _
  exact Custody.keeps_refl _; exact Mail.keeps_refl _; exact Dual.keeps_refl _; exact Worlds.keeps_refl _; intro _; assumption; exact Recorder.keeps_refl _; intro _
  assumption; exact Power.keeps_refl _; exact Renewal.keeps_refl _; apply State.modSrc_evolves; exact e

theorem worldStatusRun_evolves {s : State} (x0 : Caller) (x1 : Packet) (x2 : Bool) (t : State) (e : Evolves s t) : Ran.Leads s
    (worldStatusRun x0 x1 x2 t) := by
  unfold worldStatusRun
  refine Ran.leads_done ?_; exact e

end Sys2Proof.Machine
end

