-- ==== Sys2Proof/Laws/EvolvesMore.lean ====
section
/-! SUPPORT. Power, renewal, replies, start-up, registers and the debug port: each operation carries `Evolves s t` on. -/

namespace Sys2Proof.Machine

/-! ### Power -/

theorem State.requestOff_evolves {s : State} (w : World) (f : Nat → Nat) (t : State) (e : Evolves s t) : Evolves s (State.requestOff w f t) := by
  unfold State.requestOff
  split; apply State.modDom_evolves; apply State.modPower_evolves; exact e; intro _; exact ⟨id, id⟩; exact e

theorem State.refreshDeferred_evolves {s : State} (d : Nat) (t : State) (e : Evolves s t) : Evolves s (State.refreshDeferred d t) := by
  unfold State.refreshDeferred
  split; exact e; apply State.modDom_evolves; exact e

theorem State.wakeShallow_evolves {s : State} (d : Nat) (t : State) (e : Evolves s t) : Evolves s (State.wakeShallow d t) := by
  unfold State.wakeShallow
  split; apply State.startWake_evolves; exact e; exact e

theorem State.pwrApply_evolves {s : State} (w : World) (f : Nat → Nat) (t : State) (e : Evolves s t) : Evolves s (State.pwrApply w f t) := by
  unfold State.pwrApply
  dsimp only; apply State.settle_evolves; apply State.wakeShallow_evolves; apply State.refreshDeferred_evolves; apply State.requestOff_evolves; split
  apply State.modPower_evolves; split; apply State.followTarget_evolves; apply State.modCh_evolves; apply State.modDom_evolves; exact e; apply State.modDom_evolves; exact e
  intro _; exact ⟨id, id⟩; split; apply State.followTarget_evolves; apply State.modCh_evolves; apply State.modDom_evolves; exact e; apply State.modDom_evolves; exact e

theorem pwrDomainSetRun_evolves {s : State} (x0 : Caller) (x1 : Packet) (x2 : Bool) (t : State) (e : Evolves s t) : Ran.Leads s
    (pwrDomainSetRun x0 x1 x2 t) := by
  unfold pwrDomainSetRun
  dsimp only; split; refine Ran.leads_done ?_; exact e; split; refine Ran.leads_done ?_; exact e; split; refine Ran.leads_hold ?_; apply State.pwrApply_evolves
  exact e; refine Ran.leads_done ?_; apply State.pwrApply_evolves; exact e

theorem pwrStatusRun_evolves {s : State} (x0 : Caller) (x1 : Packet) (x2 : Bool) (t : State) (e : Evolves s t) : Ran.Leads s (pwrStatusRun x0 x1 x2 t) := by
  unfold pwrStatusRun
  dsimp only; split; refine Ran.leads_done ?_; exact e; refine Ran.leads_done ?_; exact e

theorem State.powerGo_evolves {s : State} (w : World) (t : State) (e : Evolves s t) : Evolves s (State.powerGo w t) := by
  unfold State.powerGo
  dsimp only; split; exact e; split; apply State.modWorld_evolves; exact e; apply State.modWorld_evolves; apply State.pwrApply_evolves; exact e

theorem State.deepLoss_evolves {s : State} (d : Nat) (t : State) (e : Evolves s t) : Evolves s (State.deepLoss d t) := by
  unfold State.deepLoss
  split; apply State.modCh_evolves; exact e; apply State.portDown_evolves; exact e; exact e

theorem State.enterState_evolves {s : State} (d : Nat) (p : PState) (t : State) (e : Evolves s t) : Evolves s (State.enterState d p t) := by
  unfold State.enterState
  dsimp only; apply State.modDom_evolves; exact e

theorem State.coreReturn_evolves {s : State} (d : Nat) (t : State) (e : Evolves s t) : Evolves s (State.coreReturn d t) := by
  unfold State.coreReturn
  dsimp only; apply State.modDom_evolves; refine Evolves.build rfl ?_ ?_ ?_ ?_ ?_ ?_ ?_ ?_ ?_ ?_ ?_ ?_; exact e; intro _; assumption; exact Rng.keeps_refl _
  exact Custody.keeps_refl _; exact Mail.keeps_refl _; exact Dual.keeps_refl _; exact ⟨id, id⟩; intro _; assumption; exact Recorder.keeps_refl _; intro _
  assumption; exact Power.keeps_refl _; exact Renewal.keeps_refl _

theorem State.portReturn_evolves {s : State} (p : Nat) (t : State) (e : Evolves s t) : Evolves s (State.portReturn p t) := by
  unfold State.portReturn
  split; apply State.retrain_evolves; exact e; split; apply State.modPort_evolves; exact e; exact e

theorem State.groupSettled_evolves {s : State} (g : Nat) (mv : Nat) (t : State) (e : Evolves s t) : Evolves s (State.groupSettled g mv t) := by
  unfold State.groupSettled
  dsimp only; refine Evolves.build rfl ?_ ?_ ?_ ?_ ?_ ?_ ?_ ?_ ?_ ?_ ?_ ?_; apply State.modGrp_evolves; exact e; intro _; assumption; exact Rng.keeps_refl _
  exact Custody.keeps_refl _; exact Mail.keeps_refl _; exact Dual.keeps_refl _; exact ⟨id, id⟩; intro _; assumption; exact Recorder.keeps_refl _; intro _
  assumption; exact Power.keeps_refl _; exact Renewal.keeps_refl _

theorem State.recordRegulator_evolves {s : State} (g : Nat) (event : Nat) (mv : Nat) (t : State) (e : Evolves s t) : Evolves s
    (State.recordRegulator g event mv t) := by
  unfold State.recordRegulator
  apply State.record_evolves; exact e

/-! ### Renewal -/

theorem State.activateTw_evolves {s : State} (i : Image) (setFloor : Bool) (t : State) (e : Evolves s t) : Evolves s (State.activateTw i setFloor t) := by
  unfold State.activateTw
  dsimp only; apply State.twFault_evolves; refine Evolves.build rfl ?_ ?_ ?_ ?_ ?_ ?_ ?_ ?_ ?_ ?_ ?_ ?_; apply State.modWorld_evolves; exact e; intro _
  assumption; exact Rng.keeps_refl _; exact Custody.keeps_refl _; exact Mail.keeps_refl _; exact Dual.keeps_refl _; exact Worlds.keeps_refl _; intro _; assumption
  exact Recorder.keeps_refl _; intro _; assumption; exact Power.keeps_refl _; exact ⟨Nat.le_refl _, Nat.le_refl _, Nat.le_refl _⟩

theorem fwUpdateRun_evolves {s : State} (x0 : Caller) (x1 : Packet) (x2 : Bool) (t : State) (e : Evolves s t) : Ran.Leads s (fwUpdateRun x0 x1 x2 t) := by
  unfold fwUpdateRun
  split; refine Ran.leads_done ?_; exact e; refine Ran.leads_hold ?_; apply State.activateTw_evolves; exact e

theorem State.activateOw_evolves {s : State} (i : Image) (setFloor : Bool) (t : State) (e : Evolves s t) : Evolves s (State.activateOw i setFloor t) := by
  unfold State.activateOw
  dsimp only; split; apply State.twFault_evolves; apply State.owFault_evolves; refine Evolves.build rfl ?_ ?_ ?_ ?_ ?_ ?_ ?_ ?_ ?_ ?_ ?_ ?_
  apply State.modWorld_evolves; exact e; intro _; assumption; exact Rng.keeps_refl _; exact Custody.keeps_refl _; exact ⟨id, id⟩; exact Dual.keeps_refl _
  exact Worlds.keeps_refl _; intro _; assumption; exact Recorder.keeps_refl _; intro _; assumption; exact Power.keeps_refl _
  exact ⟨Nat.le_refl _, Nat.le_refl _, Nat.le_refl _⟩; apply State.owFault_evolves; refine Evolves.build rfl ?_ ?_ ?_ ?_ ?_ ?_ ?_ ?_ ?_ ?_ ?_ ?_
  apply State.modWorld_evolves; exact e; intro _; assumption; exact Rng.keeps_refl _; exact Custody.keeps_refl _; exact ⟨id, id⟩; exact Dual.keeps_refl _
  exact Worlds.keeps_refl _; intro _; assumption; exact Recorder.keeps_refl _; intro _; assumption; exact Power.keeps_refl _
  exact ⟨Nat.le_refl _, Nat.le_refl _, Nat.le_refl _⟩

theorem owUpdateRun_evolves {s : State} (x0 : Caller) (x1 : Packet) (x2 : Bool) (t : State) (e : Evolves s t) : Ran.Leads s (owUpdateRun x0 x1 x2 t) := by
  unfold owUpdateRun
  split; refine Ran.leads_done ?_; exact e; refine Ran.leads_hold ?_; apply State.activateOw_evolves; exact e

theorem State.beginLoad_evolves {s : State} (n : Nat) (t : State) (e : Evolves s t) : Evolves s (State.beginLoad n t) := by
  unfold State.beginLoad
  dsimp only; apply State.each_evolves; refine Evolves.build rfl ?_ ?_ ?_ ?_ ?_ ?_ ?_ ?_ ?_ ?_ ?_ ?_; apply State.modCh_evolves; exact e; intro _; assumption
  exact Rng.keeps_refl _; exact Custody.keeps_refl _; exact Mail.keeps_refl _; exact Dual.keeps_refl _; exact Worlds.keeps_refl _; intro _; assumption
  exact Recorder.keeps_refl _; intro _; assumption; exact Power.keeps_refl _; exact ⟨Nat.le_refl _, Nat.le_refl _, Nat.le_refl _⟩; intro _ _ _
  apply State.withdraw_evolves; assumption

theorem State.nextLoad_evolves {s : State} (t : State) (e : Evolves s t) : Evolves s (State.nextLoad t) := by
  unfold State.nextLoad
  split; apply State.beginLoad_evolves; refine Evolves.build rfl ?_ ?_ ?_ ?_ ?_ ?_ ?_ ?_ ?_ ?_ ?_ ?_; exact e; intro _; assumption; exact Rng.keeps_refl _
  exact Custody.keeps_refl _; exact Mail.keeps_refl _; exact Dual.keeps_refl _; exact Worlds.keeps_refl _; intro _; assumption; exact Recorder.keeps_refl _; intro _
  assumption; exact Power.keeps_refl _; dsimp only; exact ⟨Nat.le_refl _, Nat.le_refl _, Nat.le_refl _⟩
  refine Evolves.build rfl ?_ ?_ ?_ ?_ ?_ ?_ ?_ ?_ ?_ ?_ ?_ ?_; exact e; intro _; assumption; exact Rng.keeps_refl _; exact Custody.keeps_refl _
  exact Mail.keeps_refl _; exact Dual.keeps_refl _; exact Worlds.keeps_refl _; intro _; assumption; exact Recorder.keeps_refl _; intro _; assumption
  exact Power.keeps_refl _; dsimp only; exact ⟨Nat.le_refl _, Nat.le_refl _, Nat.le_refl _⟩

theorem State.startLoad_evolves {s : State} (i : Image) (t : State) (e : Evolves s t) : Evolves s (State.startLoad i t) := by
  unfold State.startLoad
  apply State.nextLoad_evolves; refine Evolves.build rfl ?_ ?_ ?_ ?_ ?_ ?_ ?_ ?_ ?_ ?_ ?_ ?_; exact e; intro _; assumption; exact Rng.keeps_refl _
  exact Custody.keeps_refl _; exact Mail.keeps_refl _; exact Dual.keeps_refl _; exact Worlds.keeps_refl _; intro _; assumption; exact Recorder.keeps_refl _; intro _
  assumption; exact Power.keeps_refl _; dsimp only; exact ⟨Nat.le_refl _, Nat.le_refl _, Nat.le_refl _⟩

theorem mcUpdateRun_evolves {s : State} (x0 : Caller) (x1 : Packet) (x2 : Bool) (t : State) (e : Evolves s t) : Ran.Leads s (mcUpdateRun x0 x1 x2 t) := by
  unfold mcUpdateRun
  split; refine Ran.leads_done ?_; exact e; split; refine Ran.leads_done ?_; exact e; refine Ran.leads_done ?_; apply State.startLoad_evolves; exact e

theorem State.recordMc_evolves {s : State} (n : Nat) (old : Nat) (new : Nat) (result : Nat) (t : State) (e : Evolves s t) : Evolves s
    (State.recordMc n old new result t) := by
  unfold State.recordMc
  apply State.record_evolves; exact e

theorem State.firstLoad_evolves {s : State} (n : Nat) (b : Bytes) (katOk : Bool) (t : State) (e : Evolves s t) : Evolves s (State.firstLoad n b katOk t) := by
  unfold State.firstLoad
  split; dsimp only; split; apply State.modCh_evolves; exact e; split; apply State.modCh_evolves; apply State.modCh_evolves; exact e; apply State.modCh_evolves
  apply State.modCh_evolves; exact e; exact e

theorem State.raiseFloors_evolves {s : State} (kind : Nat) (t : State) (e : Evolves s t) : Evolves s (State.raiseFloors kind t) := by
  unfold State.raiseFloors
  dsimp only; split; refine Evolves.build rfl ?_ ?_ ?_ ?_ ?_ ?_ ?_ ?_ ?_ ?_ ?_ ?_; exact e; intro _; assumption; exact Rng.keeps_refl _
  exact Custody.keeps_refl _; exact Mail.keeps_refl _; exact Dual.keeps_refl _; exact Worlds.keeps_refl _; intro _; assumption; exact Recorder.keeps_refl _; intro _
  assumption; exact Power.keeps_refl _; exact ⟨Nat.le_max_left _ _, Nat.le_refl _, Nat.le_max_left _ _⟩; split
  refine Evolves.build rfl ?_ ?_ ?_ ?_ ?_ ?_ ?_ ?_ ?_ ?_ ?_ ?_; exact e; intro _; assumption; exact Rng.keeps_refl _; exact Custody.keeps_refl _
  exact Mail.keeps_refl _; exact Dual.keeps_refl _; exact Worlds.keeps_refl _; intro _; assumption; exact Recorder.keeps_refl _; intro _; assumption
  exact Power.keeps_refl _; exact ⟨Nat.le_refl _, Nat.le_max_left _ _, Nat.le_refl _⟩; exact e

theorem State.beginWrite_evolves {s : State} (kind : Nat) (t : State) (e : Evolves s t) : Evolves s (State.beginWrite kind t) := by
  unfold State.beginWrite
  refine Evolves.build rfl ?_ ?_ ?_ ?_ ?_ ?_ ?_ ?_ ?_ ?_ ?_ ?_; exact e; intro _; assumption; exact Rng.keeps_refl _; exact Custody.keeps_refl _
  exact Mail.keeps_refl _; exact Dual.keeps_refl _; exact Worlds.keeps_refl _; intro _; assumption; exact Recorder.keeps_refl _; intro _; assumption
  exact Power.keeps_refl _; dsimp only; exact ⟨Nat.le_refl _, Nat.le_refl _, Nat.le_refl _⟩

theorem State.endWrite_evolves {s : State} (kind : Nat) (t : State) (e : Evolves s t) : Evolves s (State.endWrite kind t) := by
  unfold State.endWrite
  split; dsimp only; refine Evolves.build rfl ?_ ?_ ?_ ?_ ?_ ?_ ?_ ?_ ?_ ?_ ?_ ?_; exact e; intro _; assumption; exact Rng.keeps_refl _
  exact Custody.keeps_refl _; exact Mail.keeps_refl _; exact Dual.keeps_refl _; exact Worlds.keeps_refl _; intro _; assumption; exact Recorder.keeps_refl _; intro _
  assumption; exact Power.keeps_refl _; exact ⟨Nat.le_refl _, Nat.le_refl _, Nat.le_refl _⟩

/-! ### CommandReply -/

theorem State.refuseUnknown_evolves {s : State} (c : Caller) (t : State) (e : Evolves s t) : Evolves s (State.refuseUnknown c t) := by
  unfold State.refuseUnknown
  split; exact e; split; apply State.reply_evolves; apply State.accept_evolves; exact e; split; apply State.refuseHeader_evolves; apply State.accept_evolves; exact e
  dsimp only; split; exact e; apply State.reply_evolves; apply State.meetAssembly_evolves; apply State.accept_evolves; exact e

theorem State.submit_evolves {s : State} (c : Caller) (t : State) (e : Evolves s t) : Evolves s (State.submit c t) := by
  unfold State.submit
  split; dsimp only; split; apply State.modBox_evolves; exact e; apply State.modMail_evolves; apply State.modBox_evolves; exact e; intro _; exact ⟨id, id⟩
  apply State.modMail_evolves; exact e; intro _; exact ⟨fun h => by simpa using h, id⟩; exact e

theorem State.goWrite_evolves {s : State} (m : Nat) (t : State) (e : Evolves s t) : Evolves s (State.goWrite m t) := by
  unfold State.goWrite
  split; exact e; apply State.settle_evolves; apply State.refuseUnknown_evolves; apply State.submit_evolves; exact e

theorem State.callWrite_evolves {s : State} (g : Nat) (t : State) (e : Evolves s t) : Evolves s (State.callWrite g t) := by
  unfold State.callWrite
  split; exact e; apply State.settle_evolves; apply State.refuseUnknown_evolves; apply State.submit_evolves; exact e

theorem extensionRun_evolves {s : State} (x0 : Caller) (x1 : Packet) (x2 : Bool) (t : State) (e : Evolves s t) : Ran.Leads s (extensionRun x0 x1 x2 t) := by
  unfold extensionRun
  split; refine Ran.leads_done ?_; exact e; refine Ran.leads_hold ?_; exact e

theorem State.abortCalls_evolves {s : State} (m : Nat) (t : State) (e : Evolves s t) : Evolves s (State.abortCalls m t) := by
  unfold State.abortCalls
  apply State.each_evolves; exact e; intro _ _ _; dsimp only; split; split; apply State.reply_evolves; assumption; apply State.deliverReply_evolves; assumption
  assumption

theorem State.endExtension_evolves {s : State} (j : Job) (m : Nat) (st : Status) (detail : Nat) (body : Bytes) (t : State) (e : Evolves s t)
    : Evolves s (State.endExtension j m st detail body t) := by
  unfold State.endExtension
  split; apply State.abortCalls_evolves; apply State.endJob_evolves; exact e; apply State.modMail_evolves; exact e; intro _
  (exact Mail.Keeps.map _ _ fun j => by split <;> rfl)

/-! ### Startup -/

theorem State.readCell_evolves {s : State} (present : Bool) (c : Nat) (t : State) (e : Evolves s t) : Evolves s (State.readCell present c t) := by
  unfold State.readCell
  dsimp only; split; split; exact e; refine Evolves.build rfl ?_ ?_ ?_ ?_ ?_ ?_ ?_ ?_ ?_ ?_ ?_ ?_; exact e; intro _; assumption; exact Rng.keeps_refl _
  exact Custody.keeps_refl _; exact Mail.keeps_refl _; exact Dual.keeps_refl _; exact Worlds.keeps_refl _; intro _; assumption; exact Recorder.keeps_refl _; intro _
  assumption; exact Power.keeps_refl _; exact Renewal.keeps_refl _; split; apply State.tamperRecord_evolves; apply State.cellBad_evolves; exact e; split
  apply State.tamperEvent_evolves; apply State.cellBad_evolves; exact e; exact e

theorem State.checkRoot_evolves {s : State} (ok : Bool) (t : State) (e : Evolves s t) : Evolves s (State.checkRoot ok t) := by
  unfold State.checkRoot
  split; exact e; split; apply State.record_evolves; apply State.modKeys_evolves; refine State.freeBytes_evolves (by assumption) ?_; exact e; intro _
  exact ⟨rfl, .inl rfl, Nat.le_refl _, id⟩

theorem State.latched_evolves {s : State} (t : State) (e : Evolves s t) : Evolves s (State.latched t) := by
  unfold State.latched
  split; dsimp only; refine Evolves.other ?_; apply State.eraseKeys_evolves; exact e; dsimp only; split; apply State.modGen_evolves; refine Evolves.other ?_
  exact e; refine Evolves.other ?_; exact e

theorem State.mergeEntry_evolves {s : State} (e0 : TahrEntry) (t : State) (e : Evolves s t) : Evolves s (State.mergeEntry e0 t) := by
  unfold State.mergeEntry
  dsimp only; split; apply State.raiseCause_evolves; split; apply State.flushStart_evolves; refine Evolves.build rfl ?_ ?_ ?_ ?_ ?_ ?_ ?_ ?_ ?_ ?_ ?_ ?_
  exact e; intro _; assumption; exact Rng.keeps_refl _; exact Custody.keeps_refl _; exact Mail.keeps_refl _; exact Dual.keeps_refl _; exact Worlds.keeps_refl _
  intro _; assumption; exact Recorder.put_takeSeq_evolves _ _; intro _; assumption; exact Power.keeps_refl _; exact Renewal.keeps_refl _
  refine Evolves.build rfl ?_ ?_ ?_ ?_ ?_ ?_ ?_ ?_ ?_ ?_ ?_ ?_; exact e; intro _; assumption; exact Rng.keeps_refl _; exact Custody.keeps_refl _
  exact Mail.keeps_refl _; exact Dual.keeps_refl _; exact Worlds.keeps_refl _; intro _; assumption; exact Recorder.put_takeSeq_evolves _ _; intro _; assumption
  exact Power.keeps_refl _; exact Renewal.keeps_refl _; split; apply State.flushStart_evolves; refine Evolves.build rfl ?_ ?_ ?_ ?_ ?_ ?_ ?_ ?_ ?_ ?_ ?_ ?_
  exact e; intro _; assumption; exact Rng.keeps_refl _; exact Custody.keeps_refl _; exact Mail.keeps_refl _; exact Dual.keeps_refl _; exact Worlds.keeps_refl _
  intro _; assumption; exact Recorder.put_takeSeq_evolves _ _; intro _; assumption; exact Power.keeps_refl _; exact Renewal.keeps_refl _
  refine Evolves.build rfl ?_ ?_ ?_ ?_ ?_ ?_ ?_ ?_ ?_ ?_ ?_ ?_; exact e; intro _; assumption; exact Rng.keeps_refl _; exact Custody.keeps_refl _
  exact Mail.keeps_refl _; exact Dual.keeps_refl _; exact Worlds.keeps_refl _; intro _; assumption; exact Recorder.put_takeSeq_evolves _ _; intro _; assumption
  exact Power.keeps_refl _; exact Renewal.keeps_refl _

theorem State.mergeTahr_evolves {s : State} (t : State) (e : Evolves s t) : Evolves s (State.mergeTahr t) := by
  unfold State.mergeTahr
  dsimp only; refine Evolves.build rfl ?_ ?_ ?_ ?_ ?_ ?_ ?_ ?_ ?_ ?_ ?_ ?_; refine evolves_foldl _ ?_ _ _ ?_; intro _ _ _; apply State.mergeEntry_evolves
  assumption; exact e; intro _; assumption; exact Rng.keeps_refl _; exact Custody.keeps_refl _; exact Mail.keeps_refl _; exact Dual.keeps_refl _
  exact Worlds.keeps_refl _; intro _; assumption; exact Recorder.keeps_refl _; intro _; assumption; exact Power.keeps_refl _; exact Renewal.keeps_refl _

theorem State.writeStart_evolves {s : State} (t : State) (e : Evolves s t) : Evolves s (State.writeStart t) := by
  unfold State.writeStart
  apply State.record_evolves; exact e

theorem State.dropPending_evolves {s : State} (t : State) (e : Evolves s t) : Evolves s (State.dropPending t) := by
  unfold State.dropPending
  dsimp only; split; apply State.record_evolves; refine Evolves.build rfl ?_ ?_ ?_ ?_ ?_ ?_ ?_ ?_ ?_ ?_ ?_ ?_; apply State.freeBytes_evolves_snd; exact e
  intro _; assumption; exact Rng.keeps_refl _; exact Custody.keeps_refl _; exact Mail.keeps_refl _; exact Dual.keeps_refl _; exact Worlds.keeps_refl _; intro _
  assumption; exact Recorder.keeps_refl _; intro _; assumption; exact Power.keeps_refl _; exact ⟨Nat.le_refl _, Nat.le_refl _, Nat.le_refl _⟩; exact e

theorem State.startTw_evolves {s : State} (l : List (Image × Nat)) (t : State) (e : Evolves s t) : Evolves s (State.startTw l t) := by
  unfold State.startTw
  split; dsimp only; refine Evolves.build rfl ?_ ?_ ?_ ?_ ?_ ?_ ?_ ?_ ?_ ?_ ?_ ?_; apply State.modWorld_evolves; exact e; intro _; assumption
  exact Rng.keeps_refl _; exact Custody.keeps_refl _; exact Mail.keeps_refl _; exact Dual.keeps_refl _; exact Worlds.keeps_refl _; intro _; assumption
  exact Recorder.keeps_refl _; intro _; assumption; exact Power.keeps_refl _; exact ⟨Nat.le_refl _, Nat.le_refl _, Nat.le_refl _⟩; apply State.modGate_evolves
  exact e

theorem State.startOw_evolves {s : State} (l : List (Image × Nat)) (t : State) (e : Evolves s t) : Evolves s (State.startOw l t) := by
  unfold State.startOw
  split; dsimp only; refine Evolves.build rfl ?_ ?_ ?_ ?_ ?_ ?_ ?_ ?_ ?_ ?_ ?_ ?_; apply State.assign_evolves; apply State.modWorld_evolves; exact e; intro _
  assumption; exact Rng.keeps_refl _; exact Custody.keeps_refl _; exact ⟨id, id⟩; exact Dual.keeps_refl _; exact Worlds.keeps_refl _; intro _; assumption
  exact Recorder.keeps_refl _; intro _; assumption; exact Power.keeps_refl _; exact ⟨Nat.le_refl _, Nat.le_refl _, Nat.le_refl _⟩
  refine Evolves.build rfl ?_ ?_ ?_ ?_ ?_ ?_ ?_ ?_ ?_ ?_ ?_ ?_; exact e; intro _; assumption; exact Rng.keeps_refl _; exact Custody.keeps_refl _
  exact Mail.keeps_refl _; exact Dual.keeps_refl _; exact Worlds.keeps_refl _; intro _; assumption; exact Recorder.keeps_refl _; intro _; assumption
  exact Power.keeps_refl _; dsimp only; exact ⟨Nat.le_refl _, Nat.le_refl _, Nat.le_refl _⟩

theorem State.takeMc_evolves {s : State} (l : List (Image × Nat)) (t : State) (e : Evolves s t) : Evolves s (State.takeMc l t) := by
  unfold State.takeMc
  split; refine Evolves.build rfl ?_ ?_ ?_ ?_ ?_ ?_ ?_ ?_ ?_ ?_ ?_ ?_; exact e; intro _; assumption; exact Rng.keeps_refl _; exact Custody.keeps_refl _
  exact Mail.keeps_refl _; exact Dual.keeps_refl _; exact Worlds.keeps_refl _; intro _; assumption; exact Recorder.keeps_refl _; intro _; assumption
  exact Power.keeps_refl _; dsimp only; exact ⟨Nat.le_refl _, Nat.le_refl _, Nat.le_refl _⟩; exact e

theorem State.readDirectory_evolves {s : State} (b : Bytes) (t : State) (e : Evolves s t) : Evolves s (State.readDirectory b t) := by
  unfold State.readDirectory
  dsimp only; refine Evolves.build rfl ?_ ?_ ?_ ?_ ?_ ?_ ?_ ?_ ?_ ?_ ?_ ?_; exact e; intro _; assumption; exact Rng.keeps_refl _; exact Custody.keeps_refl _
  exact Mail.keeps_refl _; exact Dual.keeps_refl _; exact Worlds.keeps_refl _; intro _; assumption; exact Recorder.keeps_refl _; intro _; assumption
  exact Power.keeps_refl _; exact ⟨Nat.le_refl _, Nat.le_refl _, Nat.le_refl _⟩

theorem State.startImages_evolves {s : State} (copies : List Bytes) (t : State) (e : Evolves s t) : Evolves s (State.startImages copies t) := by
  unfold State.startImages
  dsimp only; split; apply State.startWatchdogs_evolves; apply State.startWatchdogs_evolves; apply State.loadSik_evolves; apply State.lockTable_evolves
  apply State.startOw_evolves; apply State.takeMc_evolves; apply State.startTw_evolves; exact e; apply State.startTw_evolves; exact e

theorem State.startGate_evolves {s : State} (b : BootInfo) (t : State) (e : Evolves s t) : Evolves s (State.startGate b t) := by
  unfold State.startGate
  dsimp only; split; apply State.gateTo_evolves; apply State.modGate_evolves; apply State.closeGate_evolves; apply State.modGate_evolves; exact e
  apply State.closeGate_evolves; apply State.modGate_evolves; exact e

theorem State.time0_evolves {s : State} (t : State) (e : Evolves s t) : Evolves s (State.time0 t) := by
  unfold State.time0
  dsimp only; split; apply State.wakeNote_evolves; refine Evolves.build rfl ?_ ?_ ?_ ?_ ?_ ?_ ?_ ?_ ?_ ?_ ?_ ?_; exact e; intro _; assumption
  exact ⟨id, id⟩; exact Custody.keeps_refl _; exact Mail.keeps_refl _; exact Dual.keeps_refl _; exact Worlds.keeps_refl _; intro _; assumption
  exact Recorder.keeps_refl _; intro _; assumption; exact Power.keeps_refl _; exact ⟨Nat.le_refl _, Nat.le_refl _, Nat.le_refl _⟩
  refine Evolves.build rfl ?_ ?_ ?_ ?_ ?_ ?_ ?_ ?_ ?_ ?_ ?_ ?_; exact e; intro _; assumption; exact ⟨id, id⟩; exact Custody.keeps_refl _
  exact Mail.keeps_refl _; exact Dual.keeps_refl _; exact Worlds.keeps_refl _; intro _; assumption; exact Recorder.keeps_refl _; intro _; assumption
  exact Power.keeps_refl _; exact ⟨Nat.le_refl _, Nat.le_refl _, Nat.le_refl _⟩

/-! ### RegRead -/

theorem State.busRead_evolves_snd {s : State} (b : Blk) (a : Nat) (n : Nat) (t : State) (e : Evolves s t) : Evolves s (State.busRead b a n t).2 := by
  unfold State.busRead
  split; apply State.freeBytes_evolves_snd; exact e; dsimp only; split; refine Evolves.other ?_; exact e; exact e

theorem State.busRead_evolves {s t : State} {b : Blk} {a : Nat} {n : Nat} {ra : _} {ru : State} (h : State.busRead b a n t = (ra, ru)) (e
    : Evolves s t) : Evolves s ru := by
  have := State.busRead_evolves_snd b a n t e
  rwa [h] at this

/-! ### Registers -/

theorem State.onReg_evolves {s : State} (reg : Nat) (n : Nat) (old : Nat) (off : Nat) (data : Bytes) (f : Nat → State → State) (t : State) (e
    : Evolves s t) (h0 : ∀ n t, Evolves s t → Evolves s (f n t)) : Evolves s (State.onReg reg n old off data f t) := by
  unfold State.onReg
  split; apply h0; exact e; exact e

theorem State.writeDistCtrl_evolves {s : State} (v : Nat) (t : State) (e : Evolves s t) : Evolves s (State.writeDistCtrl v t) := by
  unfold State.writeDistCtrl
  apply State.modDist_evolves; exact e

theorem State.writePortCtrl_evolves {s : State} (p : Nat) (v : Nat) (t : State) (e : Evolves s t) : Evolves s (State.writePortCtrl p v t) := by
  unfold State.writePortCtrl
  apply State.modPort_evolves; exact e

theorem State.writeNotify_evolves {s : State} (v : Nat) (t : State) (e : Evolves s t) : Evolves s (State.writeNotify v t) := by
  unfold State.writeNotify
  apply State.checkAck_evolves; refine Evolves.build rfl ?_ ?_ ?_ ?_ ?_ ?_ ?_ ?_ ?_ ?_ ?_ ?_; exact e; intro _; assumption; exact Rng.keeps_refl _
  exact Custody.keeps_refl _; exact Mail.keeps_refl _; exact Dual.keeps_refl _; exact Worlds.keeps_refl _; intro _; assumption; dsimp only
  exact fun h => ⟨h, Nat.le_refl _⟩; intro _; assumption; exact Power.keeps_refl _; exact Renewal.keeps_refl _

theorem State.bar0Write_evolves {s : State} (off : Nat) (data : Bytes) (t : State) (e : Evolves s t) : Evolves s (State.bar0Write off data t) := by
  unfold State.bar0Write
  dsimp only; apply State.onReg_evolves; apply State.onReg_evolves; split; apply State.onReg_evolves; apply State.onReg_evolves; apply State.onReg_evolves
  apply State.onReg_evolves; apply State.onReg_evolves; apply State.onReg_evolves; apply State.onReg_evolves; apply State.onReg_evolves; apply State.onReg_evolves; exact e
  intro _ _ _; refine Evolves.other ?_; assumption; intro _ _ _; refine Evolves.other ?_; assumption; intro _ _ _; refine Evolves.other ?_; assumption
  intro _ _ _; apply State.writeDistCtrl_evolves; assumption; intro _ _ _; apply State.modDist_evolves; assumption; intro _ _ _; apply State.modRng_evolves
  assumption; intro _; exact ⟨id, id⟩; intro _ _ _; apply State.modKeys_evolves; assumption; intro _; exact ⟨rfl, .inl rfl, Nat.le_refl _, id⟩; intro _ _ _
  apply State.writeNotify_evolves; assumption; intro _ _ _; apply State.writePortCtrl_evolves; assumption; dsimp only [id]; apply State.onReg_evolves
  apply State.onReg_evolves; apply State.onReg_evolves; apply State.onReg_evolves; apply State.onReg_evolves; apply State.onReg_evolves; apply State.onReg_evolves
  apply State.onReg_evolves; exact e; intro _ _ _; refine Evolves.other ?_; assumption; intro _ _ _; refine Evolves.other ?_; assumption; intro _ _ _
  refine Evolves.other ?_; assumption; intro _ _ _; apply State.writeDistCtrl_evolves; assumption; intro _ _ _; apply State.modDist_evolves; assumption
  intro _ _ _; apply State.modRng_evolves; assumption; intro _; exact ⟨id, id⟩; intro _ _ _; apply State.modKeys_evolves; assumption; intro _
  exact ⟨rfl, .inl rfl, Nat.le_refl _, id⟩; intro _ _ _; apply State.writeNotify_evolves; assumption; intro _ _ _
  refine Evolves.build rfl ?_ ?_ ?_ ?_ ?_ ?_ ?_ ?_ ?_ ?_ ?_ ?_; assumption; intro _; assumption; exact Rng.keeps_refl _; exact Custody.keeps_refl _
  exact Mail.keeps_refl _; exact Dual.keeps_refl _; exact Worlds.keeps_refl _; intro _; assumption; exact Recorder.keeps_refl _; intro _; assumption
  exact ⟨id, id⟩; exact Renewal.keeps_refl _; intro _ _ _; refine Evolves.build rfl ?_ ?_ ?_ ?_ ?_ ?_ ?_ ?_ ?_ ?_ ?_ ?_; assumption; intro _; assumption
  exact Rng.keeps_refl _; exact Custody.keeps_refl _; exact Mail.keeps_refl _; exact Dual.keeps_refl _; exact Worlds.keeps_refl _; intro _; assumption
  exact Recorder.keeps_refl _; intro _; assumption; exact Power.keeps_refl _; exact ⟨Nat.le_refl _, Nat.le_refl _, Nat.le_refl _⟩

theorem State.ringWrite_evolves {s : State} (n : Nat) (rp : Nat) (off : Nat) (data : Bytes) (t : State) (e : Evolves s t) : Evolves s
    (State.ringWrite n rp off data t) := by
  unfold State.ringWrite
  split; split; apply State.onReg_evolves; exact e; intro _ _ _; apply State.modRing_evolves; assumption; exact e; exact e

theorem State.boxWrite_evolves {s : State} (m : Nat) (off : Nat) (data : Bytes) (t : State) (e : Evolves s t) : Evolves s (State.boxWrite m off data t) := by
  unfold State.boxWrite
  dsimp only; apply State.onReg_evolves; apply State.onReg_evolves; split; exact e; split; apply State.modBox_evolves; exact e; apply State.modBox_evolves; exact e
  intro _ _ _; apply State.modBox_evolves; assumption; intro _ _ _; apply State.modBox_evolves; assumption

theorem State.intWrite_evolves {s : State} (e0 : Nat) (off : Nat) (data : Bytes) (t : State) (e : Evolves s t) : Evolves s
    (State.intWrite e0 off data t) := by
  unfold State.intWrite
  split; exact e; dsimp only; apply State.onReg_evolves; apply State.onReg_evolves; exact e; intro _ _ _; apply State.modInt_evolves; assumption; intro _ _ _
  apply State.modInt_evolves; assumption

theorem State.bar4Write_evolves {s : State} (off : Nat) (data : Bytes) (t : State) (e : Evolves s t) : Evolves s (State.bar4Write off data t) := by
  unfold State.bar4Write
  split; split; apply State.boxWrite_evolves; exact e; exact e; split; split; apply State.boxWrite_evolves; exact e; exact e; split; apply State.intWrite_evolves
  exact e; exact e

theorem State.sessionHeld_evolves {s : State} (ch : Nat) (k : Nat) (f : Session → Session) (t : State) (e : Evolves s t) : Evolves s
    (State.sessionHeld ch k f t) := by
  unfold State.sessionHeld
  apply State.modSession_evolves; exact e

theorem State.sessionCtrl_evolves {s : State} (ch : Nat) (k : Nat) (off : Nat) (data : Bytes) (t : State) (e : Evolves s t) : Evolves s
    (State.sessionCtrl ch k off data t) := by
  unfold State.sessionCtrl
  dsimp only; apply State.onReg_evolves; apply State.sessionWake_evolves; exact e; intro _ _ _; apply State.sessionHeld_evolves; assumption

theorem State.sessionWrite_evolves {s : State} (ch : Nat) (k : Nat) (off : Nat) (data : Bytes) (t : State) (e : Evolves s t) : Evolves s
    (State.sessionWrite ch k off data t) := by
  unfold State.sessionWrite
  dsimp only; split; dsimp only; apply State.modSession_evolves; split; dsimp only; apply State.modSession_evolves; apply State.onReg_evolves; apply State.onReg_evolves
  apply State.onReg_evolves; apply State.onReg_evolves; apply State.onReg_evolves; apply State.onReg_evolves; apply State.sessionWake_evolves; exact e; intro _ _ _
  apply State.sessionHeld_evolves; assumption; intro _ _ _; apply State.modSession_evolves; assumption; intro _ _ _; apply State.modSession_evolves; assumption
  intro _ _ _; apply State.sessionHeld_evolves; assumption; intro _ _ _; apply State.sessionHeld_evolves; assumption; intro _ _ _; apply State.modSession_evolves
  assumption; dsimp only [id]; apply State.onReg_evolves; apply State.onReg_evolves; apply State.onReg_evolves; apply State.onReg_evolves; apply State.onReg_evolves
  apply State.onReg_evolves; apply State.sessionWake_evolves; exact e; intro _ _ _; apply State.sessionHeld_evolves; assumption; intro _ _ _
  apply State.modSession_evolves; assumption; intro _ _ _; apply State.modSession_evolves; assumption; intro _ _ _; apply State.sessionHeld_evolves; assumption
  intro _ _ _; apply State.sessionHeld_evolves; assumption; intro _ _ _; apply State.modSession_evolves; assumption; dsimp only [id]; split; dsimp only
  apply State.modSession_evolves; apply State.onReg_evolves; apply State.onReg_evolves; apply State.onReg_evolves; apply State.onReg_evolves; apply State.onReg_evolves
  apply State.onReg_evolves; apply State.sessionWake_evolves; exact e; intro _ _ _; apply State.sessionHeld_evolves; assumption; intro _ _ _
  apply State.modSession_evolves; assumption; intro _ _ _; apply State.modSession_evolves; assumption; intro _ _ _; apply State.sessionHeld_evolves; assumption
  intro _ _ _; apply State.sessionHeld_evolves; assumption; intro _ _ _; apply State.modSession_evolves; assumption; dsimp only [id]; apply State.onReg_evolves
  apply State.onReg_evolves; apply State.onReg_evolves; apply State.onReg_evolves; apply State.onReg_evolves; apply State.onReg_evolves; apply State.sessionWake_evolves; exact e
  intro _ _ _; apply State.sessionHeld_evolves; assumption; intro _ _ _; apply State.modSession_evolves; assumption; intro _ _ _; apply State.modSession_evolves
  assumption; intro _ _ _; apply State.sessionHeld_evolves; assumption; intro _ _ _; apply State.sessionHeld_evolves; assumption; intro _ _ _
  apply State.modSession_evolves; assumption

theorem State.entryWrite_evolves {s : State} (m : Master) (w : World) (i : Nat) (off : Nat) (data : Bytes) (t : State) (e : Evolves s t) : Evolves s
    (State.entryWrite m w i off data t) := by
  unfold State.entryWrite
  split; exact e; split; apply State.admErr_evolves; exact e; dsimp only; apply State.onReg_evolves; apply State.onReg_evolves; exact e; intro _ _ _
  apply State.modWorld_evolves; assumption; intro _ _ _; apply State.modWorld_evolves; assumption

theorem State.admWrite_evolves {s : State} (m : Master) (w : World) (off : Nat) (data : Bytes) (t : State) (e : Evolves s t) : Evolves s
    (State.admWrite m w off data t) := by
  unfold State.admWrite
  split; apply State.entryWrite_evolves; exact e; split; apply State.onReg_evolves; apply State.onReg_evolves; apply State.onReg_evolves; apply State.onReg_evolves; exact e
  intro _ _ _; apply State.modWorld_evolves; assumption; intro _ _ _; apply State.modWorld_evolves; assumption; intro _ _ _; apply State.modWorld_evolves; assumption
  intro _ _ _; refine Evolves.build rfl ?_ ?_ ?_ ?_ ?_ ?_ ?_ ?_ ?_ ?_ ?_ ?_; assumption; intro _; assumption; exact Rng.keeps_refl _
  exact Custody.keeps_refl _; exact Mail.keeps_refl _; exact Dual.keeps_refl _; dsimp only; exact ⟨id, id⟩; intro _; assumption; exact Recorder.keeps_refl _
  intro _; assumption; exact Power.keeps_refl _; exact Renewal.keeps_refl _; dsimp only [id]; apply State.onReg_evolves; apply State.onReg_evolves
  apply State.onReg_evolves; exact e; intro _ _ _; apply State.modWorld_evolves; assumption; intro _ _ _; apply State.modWorld_evolves; assumption; intro _ _ _
  apply State.modWorld_evolves; assumption

theorem State.gateSlotWrite_evolves {s : State} (g : Nat) (off : Nat) (data : Bytes) (t : State) (e : Evolves s t) : Evolves s
    (State.gateSlotWrite g off data t) := by
  unfold State.gateSlotWrite
  dsimp only; apply State.onReg_evolves; split; apply State.onReg_evolves; apply State.onReg_evolves; exact e; intro _ _ _; apply State.modMail_evolves; assumption
  intro _; exact ⟨fun h => by simpa using h, id⟩; intro _ _ _; apply State.modMail_evolves; assumption; intro _; exact ⟨fun h => by simpa using h, id⟩
  dsimp only [id]; apply State.onReg_evolves; exact e; intro _ _ _; apply State.modMail_evolves; assumption; intro _; exact ⟨fun h => by simpa using h, id⟩
  intro _ _ _; apply State.modMail_evolves; assumption; intro _; exact ⟨fun h => by simpa using h, id⟩

theorem State.powerPortWrite_evolves {s : State} (w : World) (off : Nat) (data : Bytes) (t : State) (e : Evolves s t) : Evolves s
    (State.powerPortWrite w off data t) := by
  unfold State.powerPortWrite
  split; exact e; apply State.modWorld_evolves; exact e

theorem State.periodWrite_evolves {s : State} (c : Nat) (off : Nat) (data : Bytes) (t : State) (e : Evolves s t) : Evolves s
    (State.periodWrite c off data t) := by
  unfold State.periodWrite
  split; exact e; apply State.onReg_evolves; exact e; intro _ _ _; refine Evolves.build rfl ?_ ?_ ?_ ?_ ?_ ?_ ?_ ?_ ?_ ?_ ?_ ?_; assumption; intro _
  assumption; exact Rng.keeps_refl _; exact Custody.keeps_refl _; exact Mail.keeps_refl _; exact Dual.keeps_refl _; dsimp only; exact ⟨id, id⟩; intro _
  assumption; exact Recorder.keeps_refl _; intro _; assumption; exact Power.keeps_refl _; exact Renewal.keeps_refl _

theorem State.bar2Write_evolves {s : State} (off : Nat) (data : Bytes) (t : State) (e : Evolves s t) : Evolves s (State.bar2Write off data t) := by
  unfold State.bar2Write
  split; apply State.ringWrite_evolves; exact e; exact e

theorem State.assignHeld_evolves {s : State} (m : Master) (off : Nat) (data : Bytes) (t : State) (e : Evolves s t) : Evolves s
    (State.assignHeld m off data t) := by
  unfold State.assignHeld
  split; split; apply State.modWorld_evolves; exact e; exact e; exact e

theorem State.fieldWrite_evolves {s : State} (m : Master) (b : Blk) (a : Nat) (data : Bytes) (t : State) (e : Evolves s t) : Evolves s
    (State.fieldWrite m b a data t) := by
  unfold State.fieldWrite
  split; apply State.periodWrite_evolves; exact e; apply State.admWrite_evolves; exact e; apply State.sessionWrite_evolves; apply State.sessionCtrl_evolves; exact e
  apply State.gateSlotWrite_evolves; exact e; apply State.powerPortWrite_evolves; exact e; apply State.bar0Write_evolves; apply State.assignHeld_evolves; exact e
  apply State.bar4Write_evolves; exact e; apply State.bar2Write_evolves; exact e; exact e

theorem State.hostWrite_evolves {s : State} (bar : Nat) (off : Nat) (data : Bytes) (t : State) (e : Evolves s t) : Evolves s
    (State.hostWrite bar off data t) := by
  unfold State.hostWrite
  apply State.hostAccess_evolves; exact e; intro _ _; split; apply State.bar0Write_evolves; assumption; split; split; apply State.bar2Write_evolves; assumption
  assumption; apply State.bar4Write_evolves; assumption

theorem State.msixWrite_evolves {s : State} (vector : Nat) (addr : Nat) (data : Nat) (masked : Bool) (t : State) (e : Evolves s t) : Evolves s
    (State.msixWrite vector addr data masked t) := by
  unfold State.msixWrite
  dsimp only; split; apply State.emit_evolves; refine Evolves.other ?_; exact e; refine Evolves.other ?_; exact e

/-! ### Debug -/

theorem State.onAct_evolves {s : State} (reg : Nat) (n : Nat) (old : Nat) (off : Nat) (data : Bytes) (f : Nat → State → State) (t : State) (e
    : Evolves s t) (h0 : ∀ n t, Evolves s t → Evolves s (f n t)) : Evolves s (State.onAct reg n old off data f t) := by
  unfold State.onAct
  split; apply State.onReg_evolves; exact e; assumption; exact e

theorem State.bar0Act_evolves {s : State} (off : Nat) (data : Bytes) (t : State) (e : Evolves s t) : Evolves s (State.bar0Act off data t) := by
  unfold State.bar0Act
  dsimp only; split; apply State.onReg_evolves; apply State.onReg_evolves; split; apply State.onAct_evolves; apply State.onReg_evolves; exact e; intro _ _ _
  apply State.ackWrite_evolves; assumption; intro _ _ _; split; apply State.retrainWrite_evolves; apply State.enWrite_evolves; assumption; apply State.enWrite_evolves
  assumption; dsimp only [id]; apply State.onReg_evolves; exact e; intro _ _ _; apply State.ackWrite_evolves; assumption; intro _ _ _
  apply State.aggHeadWrite_evolves; assumption; intro _ _ _; apply State.msixWrite_evolves; assumption; dsimp only [id]; apply State.onReg_evolves; split
  apply State.onAct_evolves; apply State.onReg_evolves; exact e; intro _ _ _; apply State.ackWrite_evolves; assumption; intro _ _ _; split
  apply State.retrainWrite_evolves; apply State.enWrite_evolves; assumption; apply State.enWrite_evolves; assumption; dsimp only [id]; apply State.onReg_evolves; exact e
  intro _ _ _; apply State.ackWrite_evolves; assumption; intro _ _ _; apply State.aggHeadWrite_evolves; assumption

theorem State.ringAct_evolves {s : State} (n : Nat) (rp : Nat) (off : Nat) (data : Bytes) (t : State) (e : Evolves s t) : Evolves s
    (State.ringAct n rp off data t) := by
  unfold State.ringAct
  split; apply State.onAct_evolves; apply State.onReg_evolves; apply State.onReg_evolves; exact e; intro _ _ _; apply State.sqTailWrite_evolves; assumption; intro _ _ _
  apply State.cqHeadWrite_evolves; assumption; intro _ _ _; split; apply State.restartWrite_evolves; assumption; assumption; exact e

theorem State.bar4Act_evolves {s : State} (off : Nat) (data : Bytes) (t : State) (e : Evolves s t) : Evolves s (State.bar4Act off data t) := by
  unfold State.bar4Act
  dsimp only; split; apply State.onAct_evolves; exact e; intro _ _ _; split; apply State.goWrite_evolves; assumption; assumption; split; apply State.onAct_evolves
  exact e; intro _ _ _; split; apply State.goWrite_evolves; assumption; assumption; split; apply State.onAct_evolves; exact e; intro _ _ _
  apply State.maskWrite_evolves; assumption; exact e

theorem State.sessionAct_evolves {s : State} (ch : Nat) (k : Nat) (off : Nat) (data : Bytes) (t : State) (e : Evolves s t) : Evolves s
    (State.sessionAct ch k off data t) := by
  unfold State.sessionAct
  dsimp only; apply State.onReg_evolves; apply State.onAct_evolves; split; apply State.feed_evolves; apply State.onReg_evolves; apply State.sessionWrite_evolves
  apply State.sessionWake_evolves; exact e; intro _ _ _; split; apply State.sessionHeld_evolves; assumption; split; apply State.sessionCompare_evolves; split
  apply State.sessionSave_evolves; split; apply State.sessionRestore_evolves; split; apply State.sessionOpen_evolves; split; apply State.sessionAbandon_evolves; split
  assumption; apply State.modSession_evolves; assumption; split; assumption; apply State.modSession_evolves; assumption; split; apply State.sessionAbandon_evolves
  split; assumption; apply State.modSession_evolves; assumption; split; assumption; apply State.modSession_evolves; assumption; split
  apply State.sessionOpen_evolves; split; apply State.sessionAbandon_evolves; split; assumption; apply State.modSession_evolves; assumption; split; assumption
  apply State.modSession_evolves; assumption; split; apply State.sessionAbandon_evolves; split; assumption; apply State.modSession_evolves; assumption; split
  assumption; apply State.modSession_evolves; assumption; split; apply State.sessionRestore_evolves; split; apply State.sessionOpen_evolves; split
  apply State.sessionAbandon_evolves; split; assumption; apply State.modSession_evolves; assumption; split; assumption; apply State.modSession_evolves; assumption
  split; apply State.sessionAbandon_evolves; split; assumption; apply State.modSession_evolves; assumption; split; assumption; apply State.modSession_evolves
  assumption; split; apply State.sessionOpen_evolves; split; apply State.sessionAbandon_evolves; split; assumption; apply State.modSession_evolves; assumption; split
  assumption; apply State.modSession_evolves; assumption; split; apply State.sessionAbandon_evolves; split; assumption; apply State.modSession_evolves; assumption
  split; assumption; apply State.modSession_evolves; assumption; split; apply State.sessionSave_evolves; split; apply State.sessionRestore_evolves; split
  apply State.sessionOpen_evolves; split; apply State.sessionAbandon_evolves; split; assumption; apply State.modSession_evolves; assumption; split; assumption
  apply State.modSession_evolves; assumption; split; apply State.sessionAbandon_evolves; split; assumption; apply State.modSession_evolves; assumption; split
  assumption; apply State.modSession_evolves; assumption; split; apply State.sessionOpen_evolves; split; apply State.sessionAbandon_evolves; split; assumption
  apply State.modSession_evolves; assumption; split; assumption; apply State.modSession_evolves; assumption; split; apply State.sessionAbandon_evolves; split
  assumption; apply State.modSession_evolves; assumption; split; assumption; apply State.modSession_evolves; assumption; split; apply State.sessionRestore_evolves
  split; apply State.sessionOpen_evolves; split; apply State.sessionAbandon_evolves; split; assumption; apply State.modSession_evolves; assumption; split; assumption
  apply State.modSession_evolves; assumption; split; apply State.sessionAbandon_evolves; split; assumption; apply State.modSession_evolves; assumption; split
  assumption; apply State.modSession_evolves; assumption; split; apply State.sessionOpen_evolves; split; apply State.sessionAbandon_evolves; split; assumption
  apply State.modSession_evolves; assumption; split; assumption; apply State.modSession_evolves; assumption; split; apply State.sessionAbandon_evolves; split
  assumption; apply State.modSession_evolves; assumption; split; assumption; apply State.modSession_evolves; assumption; dsimp only [id]; apply State.onReg_evolves
  apply State.sessionWrite_evolves; apply State.sessionWake_evolves; exact e; intro _ _ _; split; apply State.sessionHeld_evolves; assumption; split
  apply State.sessionCompare_evolves; split; apply State.sessionSave_evolves; split; apply State.sessionRestore_evolves; split; apply State.sessionOpen_evolves; split
  apply State.sessionAbandon_evolves; split; assumption; apply State.modSession_evolves; assumption; split; assumption; apply State.modSession_evolves; assumption
  split; apply State.sessionAbandon_evolves; split; assumption; apply State.modSession_evolves; assumption; split; assumption; apply State.modSession_evolves
  assumption; split; apply State.sessionOpen_evolves; split; apply State.sessionAbandon_evolves; split; assumption; apply State.modSession_evolves; assumption; split
  assumption; apply State.modSession_evolves; assumption; split; apply State.sessionAbandon_evolves; split; assumption; apply State.modSession_evolves; assumption
  split; assumption; apply State.modSession_evolves; assumption; split; apply State.sessionRestore_evolves; split; apply State.sessionOpen_evolves; split
  apply State.sessionAbandon_evolves; split; assumption; apply State.modSession_evolves; assumption; split; assumption; apply State.modSession_evolves; assumption
  split; apply State.sessionAbandon_evolves; split; assumption; apply State.modSession_evolves; assumption; split; assumption; apply State.modSession_evolves
  assumption; split; apply State.sessionOpen_evolves; split; apply State.sessionAbandon_evolves; split; assumption; apply State.modSession_evolves; assumption; split
  assumption; apply State.modSession_evolves; assumption; split; apply State.sessionAbandon_evolves; split; assumption; apply State.modSession_evolves; assumption
  split; assumption; apply State.modSession_evolves; assumption; split; apply State.sessionSave_evolves; split; apply State.sessionRestore_evolves; split
  apply State.sessionOpen_evolves; split; apply State.sessionAbandon_evolves; split; assumption; apply State.modSession_evolves; assumption; split; assumption
  apply State.modSession_evolves; assumption; split; apply State.sessionAbandon_evolves; split; assumption; apply State.modSession_evolves; assumption; split
  assumption; apply State.modSession_evolves; assumption; split; apply State.sessionOpen_evolves; split; apply State.sessionAbandon_evolves; split; assumption
  apply State.modSession_evolves; assumption; split; assumption; apply State.modSession_evolves; assumption; split; apply State.sessionAbandon_evolves; split
  assumption; apply State.modSession_evolves; assumption; split; assumption; apply State.modSession_evolves; assumption; split; apply State.sessionRestore_evolves
  split; apply State.sessionOpen_evolves; split; apply State.sessionAbandon_evolves; split; assumption; apply State.modSession_evolves; assumption; split; assumption
  apply State.modSession_evolves; assumption; split; apply State.sessionAbandon_evolves; split; assumption; apply State.modSession_evolves; assumption; split
  assumption; apply State.modSession_evolves; assumption; split; apply State.sessionOpen_evolves; split; apply State.sessionAbandon_evolves; split; assumption
  apply State.modSession_evolves; assumption; split; assumption; apply State.modSession_evolves; assumption; split; apply State.sessionAbandon_evolves; split
  assumption; apply State.modSession_evolves; assumption; split; assumption; apply State.modSession_evolves; assumption; intro _ _ _; apply State.lastCnt_evolves
  assumption; intro _ _ _; apply State.crcValueWrite_evolves; assumption

theorem State.watchdogAct_evolves {s : State} (c : Nat) (off : Nat) (data : Bytes) (t : State) (e : Evolves s t) : Evolves s
    (State.watchdogAct c off data t) := by
  unfold State.watchdogAct
  apply State.periodWrite_evolves; apply State.onAct_evolves; exact e; intro _ _ _; dsimp only; split; apply State.fatalWrite_evolves; split
  apply State.serviceWrite_evolves; assumption; assumption; split; apply State.serviceWrite_evolves; assumption; assumption

theorem State.plicWrite_evolves {s : State} (c a : Nat) (data : Bytes) (t : State) (e : Evolves s t) : Evolves s (State.plicWrite c a data t) := by
  have h : ∀ (l : List (Byte × Nat)) (f : List Host.Cell → Byte × Nat → List Host.Cell), (∀ m p, Memory.wf m = true → Memory.wf (f m p) = true) →
      ∀ m, Memory.wf m = true → Memory.wf (l.foldl f m) = true := by
    intro l f hf
    induction l with
    | nil => exact fun m h => h
    | cons p l ih => exact fun m h => ih _ (hf m p h)
  unfold State.plicWrite
  dsimp only
  refine Evolves.build rfl e id (Rng.keeps_refl _) (Custody.keeps_refl _) (Mail.keeps_refl _) (Dual.keeps_refl _) ⟨id, fun hw => h _ _
    (fun m p hm => ?_) _ hw⟩ id
    (Recorder.keeps_refl _) id (Power.keeps_refl _) (Renewal.keeps_refl _)
  split
  · exact hm
  · exact hm
  · exact Mem.put_wf hm

theorem State.timerWrite_evolves {s : State} (c : Nat) (a : Nat) (data : Bytes) (t : State) (e : Evolves s t) : Evolves s (State.timerWrite c a data t) := by
  unfold State.timerWrite
  dsimp only; apply State.onReg_evolves; apply State.onReg_evolves; exact e; intro _ _ _; refine Evolves.build rfl ?_ ?_ ?_ ?_ ?_ ?_ ?_ ?_ ?_ ?_ ?_ ?_
  assumption; intro _; assumption; exact Rng.keeps_refl _; exact Custody.keeps_refl _; exact Mail.keeps_refl _; exact Dual.keeps_refl _; exact ⟨id, Mem.write_wf⟩
  intro _; assumption; exact Recorder.keeps_refl _; intro _; assumption; exact Power.keeps_refl _; exact Renewal.keeps_refl _; intro _ _ _
  refine Evolves.build rfl ?_ ?_ ?_ ?_ ?_ ?_ ?_ ?_ ?_ ?_ ?_ ?_; assumption; intro _; assumption; exact Rng.keeps_refl _; exact Custody.keeps_refl _
  exact Mail.keeps_refl _; exact Dual.keeps_refl _; exact ⟨id, id⟩; intro _; assumption; exact Recorder.keeps_refl _; intro _; assumption
  exact Power.keeps_refl _; exact Renewal.keeps_refl _

theorem State.rowWrite_evolves {s : State} (r : Nat) (off : Nat) (data : Bytes) (t : State) (e : Evolves s t) : Evolves s (State.rowWrite r off data t) := by
  unfold State.rowWrite
  dsimp only; split; apply State.modKey_evolves; exact e; apply State.modKeys_evolves; exact e; intro _; exact ⟨rfl, .inl rfl, Nat.le_refl _, id⟩
  apply State.modSlice_evolves; exact e; apply State.modKeys_evolves; exact e; intro _; exact ⟨rfl, .inl rfl, Nat.le_refl _, fun h => Mem.write_wf h⟩

theorem State.keyWrite_evolves {s : State} (a : Nat) (data : Bytes) (t : State) (e : Evolves s t) : Evolves s (State.keyWrite a data t) := by
  unfold State.keyWrite
  dsimp only; split; apply State.rowWrite_evolves; exact e; apply State.rowWrite_evolves; apply State.rowWrite_evolves; exact e

theorem State.busWrite_evolves {s : State} (m : Master) (b : Blk) (a : Nat) (data : Bytes) (t : State) (e : Evolves s t) : Evolves s
    (State.busWrite m b a data t) := by
  unfold State.busWrite
  split; apply State.sramWrite_evolves; exact e; apply State.plicWrite_evolves; exact e; apply State.timerWrite_evolves; exact e; apply State.watchdogAct_evolves; exact e
  apply State.keyWrite_evolves; exact e; split; apply State.emit_evolves; exact e; exact e; apply State.onAct_evolves; apply State.fieldWrite_evolves; exact e
  intro _ _ _; split; apply State.commitWrite_evolves; assumption; assumption; apply State.sessionAct_evolves; exact e; apply State.onAct_evolves
  apply State.fieldWrite_evolves; exact e; intro _ _ _; split; apply State.callWrite_evolves; assumption; assumption; apply State.onAct_evolves
  apply State.fieldWrite_evolves; exact e; intro _ _ _; split; apply State.powerGo_evolves; assumption; assumption; apply State.onAct_evolves; exact e; intro _ _ _
  apply State.drawPortWrite_evolves; assumption; apply State.bar0Act_evolves; apply State.fieldWrite_evolves; exact e; apply State.ringAct_evolves
  apply State.fieldWrite_evolves; exact e; apply State.bar4Act_evolves; apply State.fieldWrite_evolves; exact e; exact e; exact e; exact e

theorem State.accessEffect_evolves {s : State} (w : World) (p : Priv) (t0 : AccessType) (b : Blk) (a : Nat) (data : Bytes) (t : State) (e
    : Evolves s t) : Evolves s (State.accessEffect w p t0 b a data t) := by
  unfold State.accessEffect
  split; apply State.busWrite_evolves; exact e; split; refine Evolves.build rfl ?_ ?_ ?_ ?_ ?_ ?_ ?_ ?_ ?_ ?_ ?_ ?_
  refine State.busRead_evolves (by assumption) ?_; exact e; intro _; assumption; exact Rng.keeps_refl _; exact Custody.keeps_refl _; exact Mail.keeps_refl _
  exact Dual.keeps_refl _; dsimp only; exact ⟨id, id⟩; intro _; assumption; exact Recorder.keeps_refl _; intro _; assumption; exact Power.keeps_refl _
  exact Renewal.keeps_refl _

theorem State.dbgAnswer_evolves {s : State} (ack : Nat) (cause : Nat) (data : Option (BitVec 64)) (t : State) (e : Evolves s t) : Evolves s
    (State.dbgAnswer ack cause data t) := by
  unfold State.dbgAnswer
  refine Evolves.build rfl ?_ ?_ ?_ ?_ ?_ ?_ ?_ ?_ ?_ ?_ ?_ ?_; exact e; intro _; assumption; exact Rng.keeps_refl _; exact Custody.keeps_refl _
  exact Mail.keeps_refl _; exact Dual.keeps_refl _; dsimp only; exact ⟨id, id⟩; intro _; assumption; exact Recorder.keeps_refl _; intro _; assumption
  exact Power.keeps_refl _; exact Renewal.keeps_refl _

theorem State.debugAttempt_evolves {s : State} (addr : Nat) (t : State) (e : Evolves s t) : Evolves s (State.debugAttempt addr t) := by
  unfold State.debugAttempt
  dsimp only; apply State.tamperEvent_evolves; apply State.record_evolves; refine Evolves.build rfl ?_ ?_ ?_ ?_ ?_ ?_ ?_ ?_ ?_ ?_ ?_ ?_; exact e; intro _
  assumption; exact Rng.keeps_refl _; exact Custody.keeps_refl _; exact Mail.keeps_refl _; exact Dual.keeps_refl _; exact ⟨id, id⟩; intro _; assumption
  exact Recorder.keeps_refl _; intro _; assumption; exact Power.keeps_refl _; exact Renewal.keeps_refl _

theorem State.freeData_evolves_snd {s : State} (n : Nat) (t : State) (e : Evolves s t) : Evolves s (State.freeData n t).2 := by
  unfold State.freeData
  split; dsimp only; refine State.freeBytes_evolves (by assumption) ?_; exact e

theorem State.freeData_evolves {s t : State} {n : Nat} {ra : _} {ru : State} (h : State.freeData n t = (ra, ru)) (e : Evolves s t) : Evolves s ru := by
  have := State.freeData_evolves_snd n t e
  rwa [h] at this

theorem State.coreReg_evolves_snd {s : State} (h0 : Nat) (regno : Nat) (t : State) (e : Evolves s t) : Evolves s (State.coreReg h0 regno t).2 := by
  unfold State.coreReg
  split; split; exact e; apply State.freeData_evolves_snd; exact e; apply State.freeData_evolves_snd; exact e

theorem State.coreReg_evolves {s t : State} {h0 : Nat} {regno : Nat} {ra : _} {ru : State} (h : State.coreReg h0 regno t = (ra, ru)) (e
    : Evolves s t) : Evolves s ru := by
  have := State.coreReg_evolves_snd h0 regno t e
  rwa [h] at this

theorem State.abstractCommand_evolves {s : State} (v : Nat) (t : State) (e : Evolves s t) : Evolves s (State.abstractCommand v t) := by
  unfold State.abstractCommand
  dsimp only; split; refine Evolves.build rfl ?_ ?_ ?_ ?_ ?_ ?_ ?_ ?_ ?_ ?_ ?_ ?_; apply State.coreReg_evolves_snd; exact e; intro _; assumption
  exact Rng.keeps_refl _; exact Custody.keeps_refl _; exact Mail.keeps_refl _; exact Dual.keeps_refl _; exact ⟨id, id⟩; intro _; assumption
  exact Recorder.keeps_refl _; intro _; assumption; exact Power.keeps_refl _; exact Renewal.keeps_refl _; exact e

theorem State.dmRead_evolves_snd {s : State} (r : DbgReq) (t : State) (e : Evolves s t) : Evolves s (State.dmRead r t).2 := by
  unfold State.dmRead
  dsimp only; split; exact e; apply State.freeData_evolves_snd; exact e

theorem State.dmRead_evolves {s t : State} {r : DbgReq} {ra : _} {ru : State} (h : State.dmRead r t = (ra, ru)) (e : Evolves s t) : Evolves s ru := by
  have := State.dmRead_evolves_snd r t e
  rwa [h] at this

theorem State.dmWrite_evolves {s : State} (r : DbgReq) (t : State) (e : Evolves s t) : Evolves s (State.dmWrite r t) := by
  unfold State.dmWrite
  dsimp only; split; apply State.abstractCommand_evolves; refine Evolves.build rfl ?_ ?_ ?_ ?_ ?_ ?_ ?_ ?_ ?_ ?_ ?_ ?_; exact e; intro _; assumption
  exact Rng.keeps_refl _; exact Custody.keeps_refl _; exact Mail.keeps_refl _; exact Dual.keeps_refl _; exact ⟨id, id⟩; intro _; assumption
  exact Recorder.keeps_refl _; intro _; assumption; exact Power.keeps_refl _; exact Renewal.keeps_refl _
  refine Evolves.build rfl ?_ ?_ ?_ ?_ ?_ ?_ ?_ ?_ ?_ ?_ ?_ ?_; exact e; intro _; assumption; exact Rng.keeps_refl _; exact Custody.keeps_refl _
  exact Mail.keeps_refl _; exact Dual.keeps_refl _; exact ⟨id, id⟩; intro _; assumption; exact Recorder.keeps_refl _; intro _; assumption
  exact Power.keeps_refl _; exact Renewal.keeps_refl _

theorem State.dbgFresh_evolves {s : State} (op : Nat) (r : DbgReq) (t : State) (e : Evolves s t) : Evolves s (State.dbgFresh op r t) := by
  unfold State.dbgFresh
  dsimp only; split; split; apply State.dbgAnswer_evolves; exact e; split; split; apply State.dbgAnswer_evolves; exact e; split; apply State.dbgAnswer_evolves
  refine Evolves.build rfl ?_ ?_ ?_ ?_ ?_ ?_ ?_ ?_ ?_ ?_ ?_ ?_; exact e; intro _; assumption; exact Rng.keeps_refl _; exact Custody.keeps_refl _
  exact Mail.keeps_refl _; exact Dual.keeps_refl _; exact ⟨id, id⟩; intro _; assumption; exact Recorder.keeps_refl _; intro _; assumption
  exact Power.keeps_refl _; exact Renewal.keeps_refl _; apply State.dbgAnswer_evolves; apply State.busWrite_evolves; exact e; apply State.dbgAnswer_evolves; exact e; split
  apply State.dbgAnswer_evolves; exact e; split; split; apply State.dbgAnswer_evolves; exact e; split; apply State.dbgAnswer_evolves
  refine Evolves.build rfl ?_ ?_ ?_ ?_ ?_ ?_ ?_ ?_ ?_ ?_ ?_ ?_; exact e; intro _; assumption; exact Rng.keeps_refl _; exact Custody.keeps_refl _
  exact Mail.keeps_refl _; exact Dual.keeps_refl _; exact ⟨id, id⟩; intro _; assumption; exact Recorder.keeps_refl _; intro _; assumption
  exact Power.keeps_refl _; exact Renewal.keeps_refl _; apply State.dbgAnswer_evolves; apply State.busRead_evolves_snd; exact e; apply State.dbgAnswer_evolves; exact e

theorem State.dbgBusAccess_evolves {s : State} (op : Nat) (r : DbgReq) (t : State) (e : Evolves s t) : Evolves s (State.dbgBusAccess op r t) := by
  unfold State.dbgBusAccess
  dsimp only; split; split; apply State.dbgAnswer_evolves; apply State.debugAttempt_evolves; exact e; split; split; apply State.dbgFresh_evolves
  refine Evolves.build rfl ?_ ?_ ?_ ?_ ?_ ?_ ?_ ?_ ?_ ?_ ?_ ?_; exact e; intro _; assumption; exact Rng.keeps_refl _; exact Custody.keeps_refl _
  exact Mail.keeps_refl _; exact Dual.keeps_refl _; exact ⟨id, id⟩; intro _; assumption; exact Recorder.keeps_refl _; intro _; assumption
  exact Power.keeps_refl _; exact Renewal.keeps_refl _; split; apply State.dbgAnswer_evolves; refine Evolves.build rfl ?_ ?_ ?_ ?_ ?_ ?_ ?_ ?_ ?_ ?_ ?_ ?_
  exact e; intro _; assumption; exact Rng.keeps_refl _; exact Custody.keeps_refl _; exact Mail.keeps_refl _; exact Dual.keeps_refl _; exact ⟨id, id⟩; intro _
  assumption; exact Recorder.keeps_refl _; intro _; assumption; exact Power.keeps_refl _; exact Renewal.keeps_refl _; apply State.dbgAnswer_evolves
  refine Evolves.build rfl ?_ ?_ ?_ ?_ ?_ ?_ ?_ ?_ ?_ ?_ ?_ ?_; exact e; intro _; assumption; exact Rng.keeps_refl _; exact Custody.keeps_refl _
  exact Mail.keeps_refl _; exact Dual.keeps_refl _; exact ⟨id, id⟩; intro _; assumption; exact Recorder.keeps_refl _; intro _; assumption
  exact Power.keeps_refl _; exact Renewal.keeps_refl _; apply State.dbgFresh_evolves; exact e; split; apply State.dbgAnswer_evolves; apply State.debugAttempt_evolves
  exact e; split; split; apply State.dbgFresh_evolves; refine Evolves.build rfl ?_ ?_ ?_ ?_ ?_ ?_ ?_ ?_ ?_ ?_ ?_ ?_; exact e; intro _; assumption
  exact Rng.keeps_refl _; exact Custody.keeps_refl _; exact Mail.keeps_refl _; exact Dual.keeps_refl _; exact ⟨id, id⟩; intro _; assumption
  exact Recorder.keeps_refl _; intro _; assumption; exact Power.keeps_refl _; exact Renewal.keeps_refl _; split; apply State.dbgAnswer_evolves
  refine Evolves.build rfl ?_ ?_ ?_ ?_ ?_ ?_ ?_ ?_ ?_ ?_ ?_ ?_; exact e; intro _; assumption; exact Rng.keeps_refl _; exact Custody.keeps_refl _
  exact Mail.keeps_refl _; exact Dual.keeps_refl _; exact ⟨id, id⟩; intro _; assumption; exact Recorder.keeps_refl _; intro _; assumption
  exact Power.keeps_refl _; exact Renewal.keeps_refl _; apply State.dbgAnswer_evolves; refine Evolves.build rfl ?_ ?_ ?_ ?_ ?_ ?_ ?_ ?_ ?_ ?_ ?_ ?_; exact e
  intro _; assumption; exact Rng.keeps_refl _; exact Custody.keeps_refl _; exact Mail.keeps_refl _; exact Dual.keeps_refl _; exact ⟨id, id⟩; intro _; assumption
  exact Recorder.keeps_refl _; intro _; assumption; exact Power.keeps_refl _; exact Renewal.keeps_refl _; apply State.dbgFresh_evolves; exact e

theorem State.dbgAccess_evolves {s : State} (op : Nat) (r : DbgReq) (t : State) (e : Evolves s t) : Evolves s (State.dbgAccess op r t) := by
  unfold State.dbgAccess
  split; split; apply State.dbgAnswer_evolves; exact e; split; apply State.dbgAnswer_evolves; apply State.dmWrite_evolves; exact e; split; apply State.dbgAnswer_evolves
  refine State.dmRead_evolves (by assumption) ?_; exact e; split; apply State.dbgBusAccess_evolves; exact e; apply State.dbgAnswer_evolves; exact e

theorem State.dbgRequest_evolves {s : State} (op : Nat) (r : DbgReq) (f : State → State) (t : State) (e : Evolves s t) (h0
    : ∀ t, Evolves s t → Evolves s (f t)) : Evolves s (State.dbgRequest op r f t) := by
  unfold State.dbgRequest
  split; apply State.dbgAnswer_evolves; exact e; split; apply State.dbgAnswer_evolves; exact e; split; apply State.dbgAnswer_evolves; exact e; apply h0; exact e

theorem State.dbgWait_evolves {s : State} (op : Nat) (f : State → State) (t : State) (e : Evolves s t) (h0 : ∀ t, Evolves s t → Evolves s (f t))
    : Evolves s (State.dbgWait op f t) := by
  unfold State.dbgWait
  split; apply State.dbgAnswer_evolves; exact e; apply h0; exact e

theorem State.setJtag_evolves {s : State} (i : Nat) (t : State) (e : Evolves s t) : Evolves s (State.setJtag i t) := by
  unfold State.setJtag
  refine Evolves.build rfl ?_ ?_ ?_ ?_ ?_ ?_ ?_ ?_ ?_ ?_ ?_ ?_; exact e; intro _; assumption; exact Rng.keeps_refl _; exact Custody.keeps_refl _
  exact Mail.keeps_refl _; exact Dual.keeps_refl _; dsimp only; exact ⟨id, id⟩; intro _; assumption; exact Recorder.keeps_refl _; intro _; assumption
  exact Power.keeps_refl _; exact Renewal.keeps_refl _

theorem State.jtagTest_evolves {s : State} (i : Nat) (t : State) (e : Evolves s t) : Evolves s (State.jtagTest i t) := by
  unfold State.jtagTest
  apply State.setJtag_evolves; exact e

/-! ### A running command (R370) -/

/-- A row of the index other than the two lifecycle commands: its run carries `Evolves` on. -/
def rowOk (r : Cmd × Run) : Prop := (r.1.op ≠ 0x210 ∧ r.1.op ≠ 0x211) → ∀ s c p b t, Evolves s t → Ran.Leads s (r.2 c p b t)

/-- Every row does. -/
theorem index_ok : ∀ r ∈ commandIndex, rowOk r := by
  unfold commandIndex
  simp only [List.forall_mem_append, List.forall_mem_cons, List.not_mem_nil, false_imp_iff, implies_true, and_true]
  repeat' apply And.intro
  · intro _ s c p b t e; dsimp only
    apply atReply_evolves; exact e; intro _ _ _; apply sliceCreateRun_evolves; assumption
  · intro _ s c p b t e; dsimp only
    apply atReply_evolves; exact e; intro _ _ _; apply sliceModifyRun_evolves; assumption
  · intro _ s c p b t e; dsimp only
    apply sliceQuiesceRun_evolves; exact e
  · intro _ s c p b t e; dsimp only
    apply atReply_evolves; exact e; intro _ _ _; apply sliceResumeRun_evolves; assumption
  · intro _ s c p b t e; dsimp only
    apply sliceResetRun_evolves; exact e
  · intro _ s c p b t e; dsimp only
    apply sliceRemoveRun_evolves; exact e
  · intro _ s c p b t e; dsimp only
    apply sliceQueryRun_evolves; exact e
  · intro _ s c p b t e; dsimp only
    apply atReply_evolves; exact e; intro _ _ _; apply ringArmRun_evolves; assumption
  · intro _ s c p b t e; dsimp only
    apply atReply_evolves; exact e; intro _ _ _; apply ringDisarmRun_evolves; assumption
  · intro _ s c p b t e; dsimp only
    apply ringQueryRun_evolves; exact e
  · intro _ s c p b t e; dsimp only
    apply inTurn_evolves; exact e; intro _ _ _; apply chFenceRun_evolves; assumption
  · intro _ s c p b t e; dsimp only
    apply inTurn_evolves; exact e; intro _ _ _; apply chReturnRun_evolves; assumption
  · intro _ s c p b t e; dsimp only
    apply rngReseedRun_evolves; exact e
  · intro _ s c p b t e; dsimp only
    apply rngPersonaliseRun_evolves; exact e
  · intro _ s c p b t e; dsimp only
    apply inTurn_evolves; exact e; intro _ _ _; apply rngRecoverRun_evolves; assumption
  · intro _ s c p b t e; dsimp only
    apply inTurn_evolves; exact e; intro _ _ _; apply rngSelftestRun_evolves; assumption
  · intro _ s c p b t e; dsimp only
    apply inTurn_evolves; exact e; intro _ _ _; apply rngRawCaptureRun_evolves; assumption
  · intro _ s c p b t e; dsimp only
    apply devInfoRun_evolves; exact e
  · intro _ s c p b t e; dsimp only
    apply mgrChallengeRun_evolves; exact e
  · intro _ s c p b t e; dsimp only
    apply mgrOpenRun_evolves; exact e
  · intro _ s c p b t e; dsimp only
    apply mgrCloseRun_evolves; exact e
  · intro _ s c p b t e; dsimp only
    apply mgrCredSetRun_evolves; exact e
  · intro _ s c p b t e; dsimp only
    apply devKeepRun_evolves; exact e
  · intro _ s c p b t e; dsimp only
    apply devResumeRun_evolves; exact e
  · intro _ s c p b t e; dsimp only
    apply fabStatusRun_evolves; exact e
  · intro _ s c p b t e; dsimp only
    apply fabRoleSetRun_evolves; exact e
  · intro _ s c p b t e; dsimp only
    apply inTurn_evolves; exact e; intro _ _ _; apply dkCreateRun_evolves; assumption
  · intro _ s c p b t e; dsimp only
    apply dkRolloverRun_evolves; exact e
  · intro _ s c p b t e; dsimp only
    apply dkStatusRun_evolves; exact e
  · intro _ s c p b t e; dsimp only
    apply keyGenerateRun_evolves; exact e
  · intro _ s c p b t e; dsimp only
    apply keyImportWrappedRun_evolves; exact e
  · intro _ s c p b t e; dsimp only
    apply keyImportClearRun_evolves; exact e
  · intro _ s c p b t e; dsimp only
    apply keyExportWrappedRun_evolves; exact e
  · intro _ s c p b t e; dsimp only
    apply keyExportPublicRun_evolves; exact e
  · intro _ s c p b t e; dsimp only
    apply keySaveBlobRun_evolves; exact e
  · intro _ s c p b t e; dsimp only
    apply keyLoadBlobRun_evolves; exact e
  · intro _ s c p b t e; dsimp only
    apply keyDeriveRun_evolves; exact e
  · intro _ s c p b t e; dsimp only
    apply inTurn_evolves; exact e; intro _ _ _; apply keyDeleteRun_evolves; assumption
  · intro _ s c p b t e; dsimp only
    apply inTurn_evolves; exact e; intro _ _ _; apply keySetPolicyRun_evolves; assumption
  · intro _ s c p b t e; dsimp only
    apply keyQueryRun_evolves; exact e
  · intro _ s c p b t e; dsimp only
    apply keysetGetRun_evolves; exact e
  · intro _ s c p b t e; dsimp only
    apply keysetSetRun_evolves; exact e
  · exact fun hk => absurd rfl hk.1
  · exact fun hk => absurd rfl hk.2
  · intro _ s c p b t e; dsimp only
    apply quorumChallengeRun_evolves; exact e
  · intro _ s c p b t e; dsimp only
    apply custodianEnrolRun_evolves; exact e
  · intro _ s c p b t e; dsimp only
    apply custodianRemoveRun_evolves; exact e
  · intro _ s c p b t e; dsimp only
    apply quorumSetRun_evolves; exact e
  · intro _ s c p b t e; dsimp only
    apply cellWindowOpenRun_evolves; exact e
  · intro _ s c p b t e; dsimp only
    apply cellWindowCloseRun_evolves; exact e
  · intro _ s c p b t e; dsimp only
    apply zeroiseRun_evolves; exact e
  · intro _ s c p b t e; dsimp only
    apply devResumeAlarmRun_evolves; exact e
  · intro _ s c p b t e; dsimp only
    apply quorumApproveRun_evolves; exact e
  · intro _ s c p b t e; dsimp only
    apply imagePolicySetRun_evolves; exact e
  · intro _ s c p b t e; dsimp only
    apply bootRecordGetRun_evolves; exact e
  · intro _ s c p b t e; dsimp only
    apply identityGetRun_evolves; exact e
  · intro _ s c p b t e; dsimp only
    apply measurementsGetRun_evolves; exact e
  · intro _ s c p b t e; dsimp only
    apply erReadRun_evolves; exact e
  · intro _ s c p b t e; dsimp only
    apply erClearRun_evolves; exact e
  · intro _ s c p b t e; dsimp only
    apply tamperStatusRun_evolves; exact e
  · intro _ s c p b t e; dsimp only
    apply tamperConfigRun_evolves; exact e
  · intro _ s c p b t e; dsimp only
    apply worldStatusRun_evolves; exact e
  · intro _ s c p b t e; dsimp only
    apply pwrDomainSetRun_evolves; exact e
  · intro _ s c p b t e; dsimp only
    apply pwrStatusRun_evolves; exact e
  · intro _ s c p b t e; dsimp only
    apply inTurn_evolves; exact e; intro _ _ _; apply fwUpdateRun_evolves; assumption
  · intro _ s c p b t e; dsimp only
    apply inTurn_evolves; exact e; intro _ _ _; apply owUpdateRun_evolves; assumption
  · intro _ s c p b t e; dsimp only
    apply mcUpdateRun_evolves; exact e

theorem commandRow_evolves {op : Nat} {k : Cmd} {run : Run} (h : commandRow op = some (k, run)) (ho : op ≠ 0x210 ∧ op ≠ 0x211)
    {s : State} {c p b t} (e : Evolves s t) : Ran.Leads s (run c p b t) := by
  have h1 := index_ok _ (List.mem_of_find?_eq_some h)
  have h2 := List.find?_some h
  refine h1 ?_ s c p b t e
  simp only [beq_iff_eq] at h2
  rwa [h2]

theorem insertAt_evolves (m : Mail) (i : Nat) (j : Job) (hj : j.quiet) : Mail.Keeps m { m with running := insertAt i j m.running } := by
  refine ⟨id, fun h x hx => ?_⟩
  unfold insertAt at hx
  rcases List.mem_append.mp hx with hx | hx
  · exact h x (List.mem_of_mem_take hx)
  · rcases List.mem_cons.mp hx with hx | hx
    · subst hx; exact hj
    · exact h x (List.mem_of_mem_drop hx)

theorem State.rerunJob_evolves {s : State} (j : Job) (hj : j.quiet) (t : State) (e : Evolves s t) : Evolves s (State.rerunJob j t) := by
  unfold State.rerunJob
  split
  · exact State.endJob_evolves _ _ _ _ _ e
  · rename_i k run h
    split
    · exact State.endJob_evolves _ _ _ _ _ e
    · dsimp only
      have h1 := commandRow_evolves h hj (c := j.caller) (p := j.packet k.data) (b := true) (State.dropJob_evolves j _ e)
      split <;> (rename_i h2; rw [h2] at h1)
      · exact State.reply_evolves _ _ _ _ _ _ _ _ _ _ (State.forgetDraw_evolves _ _ h1)
      · exact State.reply_evolves _ _ _ _ _ _ _ _ _ _ (State.forgetDraw_evolves _ _ h1)
      · exact State.modMail_evolves _ _ h1 fun m => insertAt_evolves m _ _ hj

theorem State.jobStep_evolves {s t u : State} (j : Job) (hj : j.quiet) (h : State.jobStep j t = some u) (e : Evolves s t) : Evolves s u := by
  have h1 := fun (st : Status) => State.endJob_evolves j st 0 j.reply t e
  have h2 := fun d b => State.endJob_evolves j j.status d b t e
  have h3 := State.rerunJob_evolves j hj t e
  have h4 := fun a b c d => State.endJob_evolves j .done 0 j.reply _ (State.freeRows_evolves a b c d t e)
  have hi : ∀ (c : Prop) [Decidable c] (x y : Option State), (if c then x else y) = some u → x = some u ∨ y = some u := by
    intro c _ x y h; split at h <;> simp [h]
  have hs : ∀ x : State, some x = some u → Evolves s x → Evolves s u := by intro x hx ex; cases hx; exact ex
  have hn : none = some u → Evolves s u := nofun
  unfold State.jobStep at h
  dsimp only at h
  revert h
  cases j.kind <;> dsimp only <;> intro h
  case wait =>
    have h := @hi _ _ _ _ h
    rcases h with h | h
    · exact hn h
    · exact hs _ h (h2 _ _)
  case draw =>
    rcases @hi _ _ _ _ h with h | h
    · exact hs _ h h3
    · exact hn h
  case channels =>
    rcases @hi _ _ _ _ h with h | h
    · exact hs _ h h3
    · exact hn h
  case dropCopies =>
    rcases @hi _ _ _ _ h with h | h
    · exact hs _ h (h4 _ _ _ _)
    · exact hn h
  case quiesce =>
    rcases @hi _ _ _ _ h with h | h
    · exact hs _ h (h1 _)
    · exact hn h
  case fence => exact hn h
  case chFence =>
    rcases @hi _ _ _ _ h with h | h
    · exact hn h
    · exact hs _ h (h1 _)
  case chReturn =>
    rcases @hi _ _ _ _ h with h | h
    · exact hs _ h (h1 _)
    rcases @hi _ _ _ _ h with h | h
    · exact hs _ h (h1 _)
    · exact hn h
  case reseed =>
    rcases @hi _ _ _ _ h with h | h
    · exact hs _ h (h1 _)
    rcases @hi _ _ _ _ h with h | h
    · exact hs _ h (h1 _)
    · exact hn h
  case recover =>
    rcases @hi _ _ _ _ h with h | h
    · exact hs _ h (h1 _)
    rcases @hi _ _ _ _ h with h | h
    · exact hs _ h (h1 _)
    · exact hn h
  case selftest =>
    rcases @hi _ _ _ _ h with h | h
    · exact hs _ h (h1 _)
    rcases @hi _ _ _ _ h with h | h
    · exact hs _ h (h1 _)
    · exact hn h
  case capture =>
    rcases @hi _ _ _ _ h with h | h
    · exact hs _ h (h1 _)
    · exact hn h
  case change => exact hn h
  case trial => exact hn h
  case owStart => exact hn h
  case settle =>
    rcases @hi _ _ _ _ h with h | h
    · exact hs _ h h3
    · exact hn h
  case extension => exact hn h

end Sys2Proof.Machine
end

