-- ==== Sys2Proof/Laws/EvolvesExec.lean ====
section
/-! SUPPORT. Every command but LC_PERSONALISE, LC_TRANSITION, QUORUM_APPROVE and CARD_RESPONSE, behind which the lifecycle state may move, answers a state its state evolves to. -/

namespace Sys2Proof.Machine

theorem execLinkLoss_evolves {s : State} (kind : LinkLossKind) (t : State) (e : Evolves s t) : Answers s (execLinkLoss kind t) := by
  unfold execLinkLoss
  split; refine Answers.next ?_; exact e; dsimp only; refine Answers.next ?_; apply State.noteLink_evolves
  refine Evolves.build rfl ?_ ?_ ?_ ?_ ?_ ?_ ?_ ?_ ?_ ?_ ?_ ?_; refine evolves_foldl _ ?_ _ _ ?_; intro _ _ _; apply State.takeBack_evolves; assumption
  apply State.abandonAll_evolves; apply State.dropFetched_evolves; exact e; intro _; assumption; exact Rng.keeps_refl _; exact Custody.keeps_refl _
  exact Mail.keeps_refl _; exact Dual.keeps_refl _; exact ⟨id, id⟩; intro _; assumption; exact Recorder.keeps_refl _; intro _; assumption
  exact Power.keeps_refl _; exact Renewal.keeps_refl _

theorem execLinkReturn_evolves {s : State} (t : State) (e : Evolves s t) : Answers s (execLinkReturn t) := by
  unfold execLinkReturn
  split; refine Answers.next ?_; exact e; dsimp only; refine Answers.next ?_; apply State.each_evolves; refine Evolves.other ?_; exact e; intro _ _ _
  apply State.sliceInt_evolves; assumption

theorem execHostLinkTrained_evolves {s : State} (speed : Nat) (width : Nat) (flit : Bool) (t : State) (e : Evolves s t) : Answers s
    (execHostLinkTrained speed width flit t) := by
  unfold execHostLinkTrained
  split; refine Answers.next ?_; exact e; dsimp only; refine Answers.next ?_; split; apply State.raiseCause_evolves; apply State.record_evolves; apply State.wakeHost_evolves
  refine Evolves.other ?_; exact e; apply State.noteLink_evolves; apply State.wakeHost_evolves; refine Evolves.other ?_; exact e

theorem execFunctionLevelReset_evolves {s : State} (t : State) (e : Evolves s t) : Answers s (execFunctionLevelReset t) := by
  unfold execFunctionLevelReset
  refine Answers.next ?_; split; apply State.wakeHost_evolves; apply State.functionReset_evolves; exact e; apply State.functionReset_evolves; exact e

theorem execD3hotEntry_evolves {s : State} (t : State) (e : Evolves s t) : Answers s (execD3hotEntry t) := by
  unfold execD3hotEntry
  split; refine Answers.next ?_; exact e; refine Answers.next ?_; apply State.modDom_evolves; refine Evolves.other ?_; exact e

theorem execD0Return_evolves {s : State} (t : State) (e : Evolves s t) : Answers s (execD0Return t) := by
  unfold execD0Return
  split; refine Answers.next ?_; exact e; refine Answers.next ?_; apply State.wakeNote_evolves; refine Evolves.other ?_; exact e

theorem execTlpAck_evolves {s : State} (count : Nat) (t : State) (e : Evolves s t) : Answers s (execTlpAck count t) := by
  unfold execTlpAck
  dsimp only; refine Answers.next ?_; refine Evolves.build rfl ?_ ?_ ?_ ?_ ?_ ?_ ?_ ?_ ?_ ?_ ?_ ?_; exact e; intro _; assumption; exact Rng.keeps_refl _
  exact Custody.keeps_refl _; exact Mail.keeps_refl _; exact Dual.keeps_refl _; exact ⟨id, id⟩; intro _; assumption; exact Recorder.keeps_refl _; intro _
  assumption; exact Power.keeps_refl _; exact Renewal.keeps_refl _

theorem execAtsInvalidate_evolves {s : State} (tag : Nat) (pasid : Option Nat) (page : Nat) (pages : Nat) (t : State) (e : Evolves s t) : Answers s
    (execAtsInvalidate tag pasid page pages t) := by
  unfold execAtsInvalidate
  split; refine Answers.next ?_; exact e; dsimp only; refine Answers.next ?_; refine Evolves.other ?_; exact e

theorem execAtsInvalidateComplete_evolves {s : State} (tag : Nat) (t : State) (e : Evolves s t) : Answers s (execAtsInvalidateComplete tag t) := by
  unfold execAtsInvalidateComplete
  split; split; refine Answers.next ?_; refine Evolves.other ?_; exact e; refine Answers.next ?_; exact e; refine Answers.next ?_; exact e

theorem execDmaReadCompletion_evolves {s : State} (ctx : Nat) (part : DmaPart) (r : DmaResult) (t : State) (e : Evolves s t) : Answers s
    (execDmaReadCompletion ctx part r t) := by
  unfold execDmaReadCompletion
  split; split; refine Answers.next ?_; exact e; dsimp only; refine Answers.next ?_; apply State.dmaFail_evolves; apply State.readDone_evolves; exact e; split
  refine Answers.next ?_; exact e; dsimp only; split; split; split; refine Answers.next ?_; apply State.sendWork_evolves; apply State.modCtx_evolves
  apply State.readDone_evolves; exact e; refine Answers.next ?_; apply State.orphanDone_evolves; apply State.readDone_evolves; exact e; refine Answers.next ?_
  apply State.orphanDone_evolves; apply State.readDone_evolves; exact e; refine Answers.next ?_; apply State.dmaFail_evolves; apply State.readDone_evolves; exact e
  refine Answers.next ?_; apply State.dmaFail_evolves; apply State.readDone_evolves; exact e; refine Answers.next ?_; apply State.dmaFail_evolves; apply State.readDone_evolves
  exact e; refine Answers.next ?_; apply State.dmaFail_evolves; apply State.readDone_evolves; exact e; refine Answers.next ?_; apply State.dmaFail_evolves
  apply State.readDone_evolves; exact e

theorem execDmaCompletionTimeout_evolves {s : State} (ctx : Nat) (part : DmaPart) (addr : Nat) (t : State) (e : Evolves s t) : Answers s
    (execDmaCompletionTimeout ctx part addr t) := by
  unfold execDmaCompletionTimeout
  refine Answers.next ?_; apply State.dmaFail_evolves; apply State.readDone_evolves; exact e

theorem execHpErrStatusClear_evolves {s : State} (bits : BitVec 6) (t : State) (e : Evolves s t) : Answers s (execHpErrStatusClear bits t) := by
  unfold execHpErrStatusClear
  refine Answers.next ?_; apply State.hostReg_evolves; exact e; intro _ _; apply State.clearErr_evolves; assumption

theorem execMask_evolves {s : State} (entry : Nat) (value : Bool) (t : State) (e : Evolves s t) : Answers s (execMask entry value t) := by
  unfold execMask
  refine Answers.next ?_; apply State.hostReg_evolves; exact e; intro _ _; apply State.maskWrite_evolves; assumption

theorem execMctpRequest_evolves {s : State} (t0 : Transport) (m : MctpMsg) (body : Bytes) (t : State) (e : Evolves s t) : Answers s
    (execMctpRequest t0 m body t) := by
  unfold execMctpRequest
  split; refine Answers.next ?_; exact e; split; refine Answers.next ?_; refine Evolves.other ?_; exact e; dsimp only; split; refine Answers.next ?_
  apply State.mctpControl_evolves; refine Evolves.other ?_; exact e; refine Answers.next ?_; refine Evolves.other ?_; exact e; refine Answers.next ?_
  refine Evolves.other ?_; exact e; refine Answers.next ?_; refine Evolves.other ?_; exact e; refine Answers.next ?_; exact e

theorem execSqTail_evolves {s : State} (slice : Nat) (rp : Nat) (value : Nat) (t : State) (e : Evolves s t) : Answers s (execSqTail slice rp value t) := by
  unfold execSqTail
  refine Answers.next ?_; apply State.hostReg_evolves; exact e; intro _ _; apply State.sqTailWrite_evolves; assumption

theorem execCqHead_evolves {s : State} (slice : Nat) (rp : Nat) (value : Nat) (t : State) (e : Evolves s t) : Answers s (execCqHead slice rp value t) := by
  unfold execCqHead
  refine Answers.next ?_; apply State.hostReg_evolves; exact e; intro _ _; apply State.cqHeadWrite_evolves; assumption

theorem execRestart_evolves {s : State} (slice : Nat) (rp : Nat) (t : State) (e : Evolves s t) : Answers s (execRestart slice rp t) := by
  unfold execRestart
  refine Answers.next ?_; apply State.hostReg_evolves; exact e; intro _ _; apply State.restartWrite_evolves; assumption

theorem execDescriptorArrival_evolves {s : State} (slice : Nat) (rp : Nat) (a : Arrival) (t : State) (e : Evolves s t) : Answers s
    (execDescriptorArrival slice rp a t) := by
  unfold execDescriptorArrival
  dsimp only; split; split; refine Answers.next ?_; exact e; split; refine Answers.next ?_; apply State.stopRing_evolves; refine evolves_foldl _ ?_ _ _ ?_
  intro _ _ _; apply State.translate_evolves; assumption; apply State.linkExit_evolves; exact e; split; refine Answers.next ?_; apply State.stopRing_evolves
  refine evolves_foldl _ ?_ _ _ ?_; intro _ _ _; apply State.translate_evolves; assumption; apply State.linkExit_evolves; exact e; refine Answers.next ?_
  apply State.modRing_evolves; refine evolves_foldl _ ?_ _ _ ?_; intro _ _ _; apply State.translate_evolves; assumption; apply State.linkExit_evolves; exact e
  refine Answers.next ?_; exact e

theorem execNop_evolves {s : State} (ctx : Nat) (t : State) (e : Evolves s t) : Answers s (execNop ctx t) := by
  unfold execNop
  split; split; refine Answers.next ?_; apply State.finish_evolves; exact e; refine Answers.next ?_; exact e; refine Answers.next ?_; exact e

theorem execCompletionRecord_evolves {s : State} (ctx : Nat) (cqFault : Option Nat) (t : State) (e : Evolves s t) : Answers s
    (execCompletionRecord ctx cqFault t) := by
  unfold execCompletionRecord
  split; split; refine Answers.next ?_; split; apply State.sendResult_evolves; exact e; exact e; split; split; refine Answers.next ?_; exact e; split
  refine Answers.next ?_; apply State.stopRing_evolves; exact e; refine Answers.next ?_; apply State.writeRecord_evolves; exact e; refine Answers.next ?_; exact e
  refine Answers.next ?_; exact e

theorem execChainAbandonTimeout_evolves {s : State} (slice : Nat) (rp : Nat) (t : State) (e : Evolves s t) : Answers s
    (execChainAbandonTimeout slice rp t) := by
  unfold execChainAbandonTimeout
  split; split; split; refine Answers.next ?_; apply State.modRing_evolves; exact e; refine Answers.next ?_; exact e; refine Answers.next ?_; exact e
  refine Answers.next ?_; exact e

theorem execDescriptorAdmit_evolves {s : State} (slice : Nat) (rp : Nat) (t : State) (e : Evolves s t) : Answers s (execDescriptorAdmit slice rp t) := by
  unfold execDescriptorAdmit
  dsimp only; split; split; split; refine Answers.next ?_; exact e; split; refine Answers.next ?_; apply State.stopRing_evolves; exact e; split; refine Answers.next ?_
  split; apply State.hpError_evolves; apply State.enter_evolves; exact e; apply State.enter_evolves; exact e; split; refine Answers.next ?_; apply State.enter_evolves
  exact e; split; refine Answers.next ?_; exact e; split; refine Answers.next ?_; apply State.handOver_evolves; refine State.drr_evolves
    (by assumption) ?_; exact e
  refine Answers.next ?_; exact e; refine Answers.next ?_; exact e; refine Answers.next ?_; exact e

theorem execEntryIssue_evolves {s : State} (ctx : Nat) (tagOk : Bool) (t : State) (e : Evolves s t) : Answers s (execEntryIssue ctx tagOk t) := by
  unfold execEntryIssue
  split; split; refine Answers.next ?_; exact e; split; split; refine Answers.next ?_; apply State.creditWake_evolves; exact e; split; refine Answers.next ?_
  apply State.issue_evolves; exact e; split; refine Answers.next ?_; apply State.issue_evolves; refine State.drr_evolves
    (by assumption) ?_; exact e; refine Answers.next ?_
  exact e; refine Answers.next ?_; exact e; refine Answers.next ?_; exact e

theorem execSegmentComplete_evolves {s : State} (ctx : Nat) (t : State) (e : Evolves s t) : Answers s (execSegmentComplete ctx t) := by
  unfold execSegmentComplete
  split; split; split; refine Answers.next ?_; apply State.modCtx_evolves; apply State.entryDone_evolves; exact e; refine Answers.next ?_; exact e; refine Answers.next ?_
  exact e; refine Answers.next ?_; exact e

theorem execContextMove_evolves {s : State} (ctx : Nat) (t : State) (e : Evolves s t) : Answers s (execContextMove ctx t) := by
  unfold execContextMove
  split; split; split; refine Answers.next ?_; apply State.modCtx_evolves; apply State.releaseHome_evolves; exact e; refine Answers.next ?_; exact e; refine Answers.next ?_
  exact e; refine Answers.next ?_; exact e

theorem execServiceWindowEnd_evolves {s : State} (meas : List ChMeas) (t : State) (e : Evolves s t) : Answers s (execServiceWindowEnd meas t) := by
  unfold execServiceWindowEnd
  split; refine Answers.next ?_; exact e; dsimp only; refine Answers.next ?_; apply State.settle_evolves; apply State.modRng_evolves; apply State.each_evolves
  apply State.each_evolves; apply State.each_evolves; apply State.each_evolves; apply State.each_evolves; apply State.each_evolves; apply State.each_evolves; apply State.modDist_evolves
  apply State.each_evolves; refine Evolves.build rfl ?_ ?_ ?_ ?_ ?_ ?_ ?_ ?_ ?_ ?_ ?_ ?_; exact e; intro _; assumption; exact Rng.keeps_refl _
  exact Custody.keeps_refl _; exact Mail.keeps_refl _; apply Dual.tick_evolves; exact Worlds.keeps_refl _; intro _; assumption; exact Recorder.keeps_refl _; intro _
  assumption; exact Power.keeps_refl _; exact Renewal.keeps_refl _; intro _ _ _; apply State.modCh_evolves; assumption; intro _ _ _; apply State.modCh_evolves
  assumption; intro _ _ _; apply State.judge_evolves; assumption; intro _ _ _; apply State.deferredDrain_evolves; assumption; intro _ _ _
  apply State.voltageLoop_evolves; assumption; intro _ _ _; apply State.modCh_evolves; assumption; intro _ _ _; apply State.refreshIdle_evolves; assumption
  intro _ _ _; apply State.refreshIdle_evolves; assumption; intro _; exact ⟨id, fun h => by simpa using h⟩

theorem execOpMinRaise_evolves {s : State} (ch : Nat) (t : State) (e : Evolves s t) : Answers s (execOpMinRaise ch t) := by
  unfold execOpMinRaise
  dsimp only; split; refine Answers.next ?_; exact e; refine Answers.next ?_; apply State.settle_evolves; apply State.setOpMin_evolves; apply State.modCh_evolves; exact e

theorem execDrainTimeout_evolves {s : State} (ch : Nat) (t : State) (e : Evolves s t) : Answers s (execDrainTimeout ch t) := by
  unfold execDrainTimeout
  dsimp only; split; refine Answers.next ?_; exact e; split; refine Answers.next ?_; apply State.recordChannel_evolves; apply State.modCh_evolves; exact e
  refine Answers.next ?_; apply State.settle_evolves; apply State.drain_evolves; exact e

theorem execDrainComplete_evolves {s : State} (ch : Nat) (t : State) (e : Evolves s t) : Answers s (execDrainComplete ch t) := by
  unfold execDrainComplete
  dsimp only; split; refine Answers.next ?_; exact e; refine Answers.next ?_; apply State.settle_evolves; apply State.recordChannel_evolves; apply State.setOpMin_evolves
  apply State.modCh_evolves; exact e

theorem execLaneGroupFail_evolves {s : State} (f : LaneFault) (t : State) (e : Evolves s t) : Answers s (execLaneGroupFail f t) := by
  unfold execLaneGroupFail
  split; refine Answers.next ?_; apply State.settle_evolves; split; apply State.fence_evolves; exact e; exact e; refine Answers.next ?_; apply State.settle_evolves
  apply State.fenceAll_evolves; exact e; refine Answers.next ?_; apply State.settle_evolves; apply State.fenceAll_evolves; exact e

theorem execChannelFence_evolves {s : State} (ch : Nat) (cause : FenceCause) (t : State) (e : Evolves s t) : Answers s (execChannelFence ch cause t) := by
  unfold execChannelFence
  refine Answers.next ?_; apply State.settle_evolves; split; apply State.fence_evolves; exact e; exact e

theorem execScrubComplete_evolves {s : State} (ch : Nat) (t : State) (e : Evolves s t) : Answers s (execScrubComplete ch t) := by
  unfold execScrubComplete
  dsimp only; split; refine Answers.next ?_; exact e; split; refine Answers.next ?_; apply State.settle_evolves; apply State.failChannel_evolves
  apply State.eraseGen_evolves; apply State.modCh_evolves; exact e; refine Answers.next ?_; apply State.settle_evolves; split; apply State.recordChannel_evolves
  apply State.modCh_evolves; apply State.eraseGen_evolves; apply State.modCh_evolves; exact e; apply State.askTest_evolves; apply State.recordChannel_evolves
  apply State.modCh_evolves; apply State.eraseGen_evolves; apply State.modCh_evolves; exact e

theorem execSelftestComplete_evolves {s : State} (ch : Nat) (katOk : Bool) (rateOk : Bool) (t : State) (e : Evolves s t) : Answers s
    (execSelftestComplete ch katOk rateOk t) := by
  unfold execSelftestComplete
  dsimp only; split; refine Answers.next ?_; exact e; split; refine Answers.next ?_; apply State.settle_evolves; apply State.recordChannel_evolves
  apply State.modDom_evolves; apply State.modCh_evolves; exact e; refine Answers.next ?_; apply State.settle_evolves; apply State.failChannel_evolves; exact e

theorem execSelftestSettleTimeout_evolves {s : State} (ch : Nat) (t : State) (e : Evolves s t) : Answers s (execSelftestSettleTimeout ch t) := by
  unfold execSelftestSettleTimeout
  dsimp only; split; refine Answers.next ?_; exact e; refine Answers.next ?_; apply State.settle_evolves; apply State.failChannel_evolves; exact e

theorem execEncrypt_evolves {s : State} (ctx : Nat) (t : State) (e : Evolves s t) : Answers s (execEncrypt ctx t) := by
  unfold execEncrypt
  split; split; refine Answers.next ?_; exact e; split; split; refine Answers.next ?_; split; apply State.startReads_evolves
  refine State.ctxDraw_evolves (by assumption) ?_; exact e; refine State.ctxDraw_evolves (by assumption) ?_; exact e; split; dsimp only; split
  refine Answers.next ?_; apply State.endOp_evolves; split; apply State.ranSeg_evolves; apply State.writeDst_evolves; exact e; apply State.writeOut2_evolves
  apply State.ranSeg_evolves; apply State.writeDst_evolves; exact e; refine Answers.next ?_; apply State.ranSeg_evolves; apply State.writeDst_evolves; exact e
  refine Answers.next ?_; exact e; refine Answers.next ?_; exact e

theorem execDecrypt_evolves {s : State} (ctx : Nat) (t : State) (e : Evolves s t) : Answers s (execDecrypt ctx t) := by
  unfold execDecrypt
  split; split; refine Answers.next ?_; exact e; split; dsimp only; split; refine Answers.next ?_; exact e; split; refine Answers.next ?_; split
  apply State.decEnd_evolves; apply State.ranSeg_evolves; split; apply State.modCtx_evolves; exact e; apply State.writeDst_evolves; exact e; apply State.endOp_evolves
  apply State.ranSeg_evolves; split; apply State.modCtx_evolves; exact e; apply State.writeDst_evolves; exact e; refine Answers.next ?_; apply State.ranSeg_evolves; split
  apply State.modCtx_evolves; exact e; apply State.writeDst_evolves; exact e; refine Answers.next ?_; exact e; refine Answers.next ?_; exact e

theorem execWrap_evolves {s : State} (ctx : Nat) (t : State) (e : Evolves s t) : Answers s (execWrap ctx t) := by
  unfold execWrap
  split; split; refine Answers.next ?_; exact e; split; dsimp only; split; split; refine Answers.next ?_; apply State.endOp_evolves; exact e; refine Answers.next ?_
  apply State.endOp_evolves; apply State.writeDst_evolves; exact e; split; refine Answers.next ?_; apply State.endOp_evolves; exact e; refine Answers.next ?_
  apply State.endOp_evolves; apply State.writeDst_evolves; exact e; refine Answers.next ?_; exact e; refine Answers.next ?_; exact e

theorem execUnwrap_evolves {s : State} (ctx : Nat) (t : State) (e : Evolves s t) : Answers s (execUnwrap ctx t) := by
  unfold execUnwrap
  split; split; refine Answers.next ?_; exact e; split; dsimp only; split; refine Answers.next ?_; apply State.endOp_evolves; apply State.writeDst_evolves; exact e
  refine Answers.next ?_; apply State.endOp_evolves; apply State.zeroDst_evolves; exact e; refine Answers.next ?_; exact e; refine Answers.next ?_; exact e

theorem execDigest_evolves {s : State} (ctx : Nat) (t : State) (e : Evolves s t) : Answers s (execDigest ctx t) := by
  unfold execDigest
  split; split; refine Answers.next ?_; exact e; split; dsimp only; split; refine Answers.next ?_; apply State.endOp_evolves; split; apply State.absorbSeg_evolves
  exact e; apply State.writeOut2_evolves; apply State.absorbSeg_evolves; exact e; refine Answers.next ?_; apply State.absorbSeg_evolves; exact e; refine Answers.next ?_
  exact e; refine Answers.next ?_; exact e

theorem execKeyedDigest_evolves {s : State} (ctx : Nat) (t : State) (e : Evolves s t) : Answers s (execKeyedDigest ctx t) := by
  unfold execKeyedDigest
  split; split; refine Answers.next ?_; exact e; split; dsimp only; split; split; refine Answers.next ?_; apply State.endOp_evolves; apply State.absorbSeg_evolves
  exact e; split; refine Answers.next ?_; apply State.endOp_evolves; apply State.absorbSeg_evolves; exact e; refine Answers.next ?_; apply State.endOp_evolves
  apply State.writeOut2_evolves; apply State.absorbSeg_evolves; exact e; refine Answers.next ?_; apply State.absorbSeg_evolves; exact e; refine Answers.next ?_; exact e
  refine Answers.next ?_; exact e

theorem execCrc_evolves {s : State} (ctx : Nat) (t : State) (e : Evolves s t) : Answers s (execCrc ctx t) := by
  unfold execCrc
  split; split; refine Answers.next ?_; exact e; split; dsimp only; split; refine Answers.next ?_; apply State.endOp_evolves; apply State.modCtx_evolves
  apply State.ranSeg_evolves; exact e; refine Answers.next ?_; apply State.modCtx_evolves; apply State.ranSeg_evolves; exact e; refine Answers.next ?_; exact e
  refine Answers.next ?_; exact e

theorem execRandom_evolves {s : State} (ctx : Nat) (t : State) (e : Evolves s t) : Answers s (execRandom ctx t) := by
  unfold execRandom
  split; split; refine Answers.next ?_; exact e; split; dsimp only; split; split; refine Answers.next ?_; split; apply State.endOp_evolves; apply State.modCtx_evolves
  apply State.ranSeg_evolves; apply State.writeDst_evolves; refine State.ctxDraw_evolves
    (by assumption) ?_; exact e; apply State.modCtx_evolves; apply State.ranSeg_evolves
  apply State.writeDst_evolves; refine State.ctxDraw_evolves (by assumption) ?_; exact e; refine Answers.next ?_; refine State.ctxDraw_evolves
    (by assumption) ?_
  exact e; refine Answers.next ?_; split; apply State.endOp_evolves; apply State.modCtx_evolves; apply State.ranSeg_evolves; apply State.writeDst_evolves; exact e
  apply State.modCtx_evolves; apply State.ranSeg_evolves; apply State.writeDst_evolves; exact e; refine Answers.next ?_; exact e; refine Answers.next ?_; exact e

theorem execSessionOpen_evolves {s : State} (ch : Nat) (sn : Nat) (ctrl : BitVec 32) (t : State) (e : Evolves s t) : Answers s
    (execSessionOpen ch sn ctrl t) := by
  unfold execSessionOpen
  refine Answers.next ?_; apply State.sessionOpen_evolves; exact e

theorem execSessionAbandon_evolves {s : State} (ch : Nat) (sn : Nat) (t : State) (e : Evolves s t) : Answers s (execSessionAbandon ch sn t) := by
  unfold execSessionAbandon
  refine Answers.next ?_; apply State.sessionAbandon_evolves; exact e

theorem execSessionSave_evolves {s : State} (ch : Nat) (sn : Nat) (t : State) (e : Evolves s t) : Answers s (execSessionSave ch sn t) := by
  unfold execSessionSave
  refine Answers.next ?_; apply State.sessionSave_evolves; exact e

theorem execSessionRestore_evolves {s : State} (ch : Nat) (sn : Nat) (t : State) (e : Evolves s t) : Answers s (execSessionRestore ch sn t) := by
  unfold execSessionRestore
  refine Answers.next ?_; apply State.sessionRestore_evolves; exact e

theorem execSessionCompare_evolves {s : State} (ch : Nat) (sn : Nat) (t : State) (e : Evolves s t) : Answers s (execSessionCompare ch sn t) := by
  unfold execSessionCompare
  refine Answers.next ?_; apply State.sessionCompare_evolves; exact e

theorem execFeed_evolves {s : State} (ch : Nat) (sn : Nat) (data : Bytes) (t : State) (e : Evolves s t) : Answers s (execFeed ch sn data t) := by
  unfold execFeed
  refine Answers.next ?_; apply State.feed_evolves; exact e

theorem execLastCnt_evolves {s : State} (ch : Nat) (sn : Nat) (n : Nat) (t : State) (e : Evolves s t) : Answers s (execLastCnt ch sn n t) := by
  unfold execLastCnt
  refine Answers.next ?_; apply State.lastCnt_evolves; exact e

theorem execCrcValue_evolves {s : State} (ch : Nat) (sn : Nat) (value : BitVec 64) (t : State) (e : Evolves s t) : Answers s
    (execCrcValue ch sn value t) := by
  unfold execCrcValue
  refine Answers.next ?_; apply State.crcValueWrite_evolves; exact e

theorem execSessionAbsorb_evolves {s : State} (ch : Nat) (sn : Nat) (t : State) (e : Evolves s t) : Answers s (execSessionAbsorb ch sn t) := by
  unfold execSessionAbsorb
  dsimp only; split; refine Answers.next ?_; exact e; refine Answers.next ?_; apply State.modSession_evolves; exact e

theorem execPkComputeEnd_evolves {s : State} (ch : Nat) (elapsedNs : Nat) (t : State) (e : Evolves s t) : Answers s (execPkComputeEnd ch elapsedNs t) := by
  unfold execPkComputeEnd
  split; split; refine Answers.next ?_; exact e; split; refine Answers.next ?_; apply State.modCh_evolves; exact e; split; refine Answers.next ?_; exact e
  refine Answers.next ?_; apply State.settle_evolves; apply State.pkRelease_evolves; exact e; refine Answers.next ?_; exact e

theorem execPacerRelease_evolves {s : State} (ch : Nat) (t : State) (e : Evolves s t) : Answers s (execPacerRelease ch t) := by
  unfold execPacerRelease
  split; split; refine Answers.next ?_; exact e; split; dsimp only; refine Answers.next ?_; apply State.settle_evolves; split; apply State.followTarget_evolves
  apply State.partEnd_evolves; apply State.countPaced_evolves; exact e; apply State.partEnd_evolves; apply State.countPaced_evolves; exact e; refine Answers.next ?_
  apply State.modCh_evolves; exact e; refine Answers.next ?_; exact e

theorem execPaceOverrun_evolves {s : State} (ch : Nat) (t : State) (e : Evolves s t) : Answers s (execPaceOverrun ch t) := by
  unfold execPaceOverrun
  split; split; split; refine Answers.next ?_; exact e; split; dsimp only; refine Answers.next ?_; apply State.settle_evolves; apply State.partEnd_evolves
  apply State.countPaced_evolves; apply State.recordPace_evolves; apply State.modCtx_evolves; apply State.modCh_evolves; exact e; refine Answers.next ?_
  apply State.settle_evolves; apply State.fence_evolves; exact e; refine Answers.next ?_; exact e; refine Answers.next ?_; exact e

theorem execPkWipeComplete_evolves {s : State} (ch : Nat) (t : State) (e : Evolves s t) : Answers s (execPkWipeComplete ch t) := by
  unfold execPkWipeComplete
  split; split; refine Answers.next ?_; apply State.pkFetch_evolves; apply State.modCh_evolves; exact e; refine Answers.next ?_; exact e; refine Answers.next ?_; exact e

theorem execRsaPublic_evolves {s : State} (ctx : Nat) (t : State) (e : Evolves s t) : Answers s (execRsaPublic ctx t) := by
  unfold execRsaPublic
  refine Answers.next ?_; apply State.pkStart_evolves; exact e

theorem execRsaPrivate_evolves {s : State} (ctx : Nat) (t : State) (e : Evolves s t) : Answers s (execRsaPrivate ctx t) := by
  unfold execRsaPrivate
  refine Answers.next ?_; apply State.pkStart_evolves; exact e

theorem execRsaSignPss_evolves {s : State} (ctx : Nat) (t : State) (e : Evolves s t) : Answers s (execRsaSignPss ctx t) := by
  unfold execRsaSignPss
  refine Answers.next ?_; apply State.pkStart_evolves; exact e

theorem execRsaSignPkcs1_evolves {s : State} (ctx : Nat) (t : State) (e : Evolves s t) : Answers s (execRsaSignPkcs1 ctx t) := by
  unfold execRsaSignPkcs1
  refine Answers.next ?_; apply State.pkStart_evolves; exact e

theorem execRsaVerifyPss_evolves {s : State} (ctx : Nat) (t : State) (e : Evolves s t) : Answers s (execRsaVerifyPss ctx t) := by
  unfold execRsaVerifyPss
  refine Answers.next ?_; apply State.pkStart_evolves; exact e

theorem execRsaVerifyPkcs1_evolves {s : State} (ctx : Nat) (t : State) (e : Evolves s t) : Answers s (execRsaVerifyPkcs1 ctx t) := by
  unfold execRsaVerifyPkcs1
  refine Answers.next ?_; apply State.pkStart_evolves; exact e

theorem execRsaDecryptOaep_evolves {s : State} (ctx : Nat) (t : State) (e : Evolves s t) : Answers s (execRsaDecryptOaep ctx t) := by
  unfold execRsaDecryptOaep
  refine Answers.next ?_; apply State.pkStart_evolves; exact e

theorem execRsaEncryptOaep_evolves {s : State} (ctx : Nat) (t : State) (e : Evolves s t) : Answers s (execRsaEncryptOaep ctx t) := by
  unfold execRsaEncryptOaep
  refine Answers.next ?_; apply State.pkStart_evolves; exact e

theorem execEcdsaSign_evolves {s : State} (ctx : Nat) (t : State) (e : Evolves s t) : Answers s (execEcdsaSign ctx t) := by
  unfold execEcdsaSign
  refine Answers.next ?_; apply State.pkStart_evolves; exact e

theorem execEcdsaVerify_evolves {s : State} (ctx : Nat) (t : State) (e : Evolves s t) : Answers s (execEcdsaVerify ctx t) := by
  unfold execEcdsaVerify
  refine Answers.next ?_; apply State.pkStart_evolves; exact e

theorem execEcdh_evolves {s : State} (ctx : Nat) (t : State) (e : Evolves s t) : Answers s (execEcdh ctx t) := by
  unfold execEcdh
  refine Answers.next ?_; apply State.pkStart_evolves; exact e

theorem execEddsaSign_evolves {s : State} (ctx : Nat) (t : State) (e : Evolves s t) : Answers s (execEddsaSign ctx t) := by
  unfold execEddsaSign
  refine Answers.next ?_; apply State.pkStart_evolves; exact e

theorem execEddsaVerify_evolves {s : State} (ctx : Nat) (t : State) (e : Evolves s t) : Answers s (execEddsaVerify ctx t) := by
  unfold execEddsaVerify
  refine Answers.next ?_; apply State.pkStart_evolves; exact e

theorem execMlkemEncaps_evolves {s : State} (ctx : Nat) (t : State) (e : Evolves s t) : Answers s (execMlkemEncaps ctx t) := by
  unfold execMlkemEncaps
  refine Answers.next ?_; apply State.pkStart_evolves; exact e

theorem execMlkemDecaps_evolves {s : State} (ctx : Nat) (t : State) (e : Evolves s t) : Answers s (execMlkemDecaps ctx t) := by
  unfold execMlkemDecaps
  refine Answers.next ?_; apply State.pkStart_evolves; exact e

theorem execMldsaSign_evolves {s : State} (ctx : Nat) (t : State) (e : Evolves s t) : Answers s (execMldsaSign ctx t) := by
  unfold execMldsaSign
  refine Answers.next ?_; apply State.pkStart_evolves; exact e

theorem execMldsaVerify_evolves {s : State} (ctx : Nat) (t : State) (e : Evolves s t) : Answers s (execMldsaVerify ctx t) := by
  unfold execMldsaVerify
  refine Answers.next ?_; apply State.pkStart_evolves; exact e

theorem execModExp_evolves {s : State} (ctx : Nat) (t : State) (e : Evolves s t) : Answers s (execModExp ctx t) := by
  unfold execModExp
  refine Answers.next ?_; apply State.pkStart_evolves; exact e

theorem execModMul_evolves {s : State} (ctx : Nat) (t : State) (e : Evolves s t) : Answers s (execModMul ctx t) := by
  unfold execModMul
  refine Answers.next ?_; apply State.pkStart_evolves; exact e

theorem execModInv_evolves {s : State} (ctx : Nat) (t : State) (e : Evolves s t) : Answers s (execModInv ctx t) := by
  unfold execModInv
  refine Answers.next ?_; apply State.pkStart_evolves; exact e

theorem execModReduce_evolves {s : State} (ctx : Nat) (t : State) (e : Evolves s t) : Answers s (execModReduce ctx t) := by
  unfold execModReduce
  refine Answers.next ?_; apply State.pkStart_evolves; exact e

theorem execSpillHoldExpire_evolves {s : State} (slice : Nat) (rp : Nat) (port : Nat) (t : State) (e : Evolves s t) : Answers s
    (execSpillHoldExpire slice rp port t) := by
  unfold execSpillHoldExpire
  dsimp only; split; split; split; refine Answers.next ?_; apply State.spillOut_evolves; exact e; refine Answers.next ?_; exact e; refine Answers.next ?_; exact e
  refine Answers.next ?_; exact e

theorem execSpillResult_evolves {s : State} (port : Nat) (w : WorkResult) (t : State) (e : Evolves s t) : Answers s (execSpillResult port w t) := by
  unfold execSpillResult
  split; split; refine Answers.next ?_; split; apply State.takeResult_evolves; refine State.takeUnit_evolves (by assumption) ?_; exact e; exact e
  refine Answers.next ?_; refine State.takeUnit_evolves (by assumption) ?_; exact e; refine Answers.next ?_; exact e

theorem execSpillRefuse_evolves {s : State} (port : Nat) (xid : Nat) (t : State) (e : Evolves s t) : Answers s (execSpillRefuse port xid t) := by
  unfold execSpillRefuse
  split; split; refine Answers.next ?_; apply State.dropOffered_evolves; refine State.takeUnit_evolves (by assumption) ?_; exact e; refine Answers.next ?_
  refine State.takeUnit_evolves (by assumption) ?_; exact e; refine Answers.next ?_; exact e

theorem execSpillPathLoss_evolves {s : State} (port : Nat) (t : State) (e : Evolves s t) : Answers s (execSpillPathLoss port t) := by
  unfold execSpillPathLoss
  refine Answers.next ?_; apply State.spillLost_evolves; exact e

theorem execSpillReq_evolves {s : State} (port : Nat) (w : WorkReq) (t : State) (e : Evolves s t) : Answers s (execSpillReq port w t) := by
  unfold execSpillReq
  split; split; split; refine Answers.next ?_; apply State.takeIn_evolves; refine State.takeUnit_evolves (by assumption) ?_; exact e; refine Answers.next ?_
  apply State.sendUnit_evolves; refine State.takeUnit_evolves (by assumption) ?_; exact e; refine Answers.next ?_; apply State.sendUnit_evolves
  refine State.takeUnit_evolves (by assumption) ?_; exact e; refine Answers.next ?_; exact e

theorem execRemoteReq_evolves {s : State} (port : Nat) (w : WorkReq) (t : State) (e : Evolves s t) : Answers s (execRemoteReq port w t) := by
  unfold execRemoteReq
  split; split; split; refine Answers.next ?_; apply State.sendTo_evolves; refine State.takeUnit_evolves (by assumption) ?_; exact e; refine Answers.next ?_
  apply State.takeIn_evolves; refine State.takeUnit_evolves (by assumption) ?_; exact e; refine Answers.next ?_; apply State.sendTo_evolves
  refine State.takeUnit_evolves (by assumption) ?_; exact e; refine Answers.next ?_; exact e

theorem execRemoteResult_evolves {s : State} (port : Nat) (w : WorkResult) (t : State) (e : Evolves s t) : Answers s (execRemoteResult port w t) := by
  unfold execRemoteResult
  split; split; dsimp only; split; split; refine Answers.next ?_; apply State.modDist_evolves; refine State.takeUnit_evolves (by assumption) ?_; exact e
  refine Answers.next ?_; split; apply State.takeResult_evolves; apply State.modDist_evolves; refine State.takeUnit_evolves
    (by assumption) ?_; exact e; exact e
  refine Answers.next ?_; apply State.modDist_evolves; refine State.takeUnit_evolves (by assumption) ?_; exact e; refine Answers.next ?_
  refine State.takeUnit_evolves (by assumption) ?_; exact e; refine Answers.next ?_; exact e

theorem execRemoteRefuse_evolves {s : State} (port : Nat) (xid : Nat) (t : State) (e : Evolves s t) : Answers s (execRemoteRefuse port xid t) := by
  unfold execRemoteRefuse
  split; split; refine Answers.next ?_; apply State.remoteNext_evolves; refine State.takeUnit_evolves (by assumption) ?_; exact e; refine Answers.next ?_
  refine State.takeUnit_evolves (by assumption) ?_; exact e; refine Answers.next ?_; exact e

theorem execRemoteTimeout_evolves {s : State} (xid : Nat) (t : State) (e : Evolves s t) : Answers s (execRemoteTimeout xid t) := by
  unfold execRemoteTimeout
  split; split; refine Answers.next ?_; apply State.remoteNext_evolves; exact e; refine Answers.next ?_; exact e; refine Answers.next ?_; exact e

theorem execTamperEvent_evolves {s : State} (src : Nat) (scope : Nat) (persists : Bool) (t : State) (e : Evolves s t) : Answers s
    (execTamperEvent src scope persists t) := by
  unfold execTamperEvent
  dsimp only; split; refine Answers.next ?_; apply State.settle_evolves; split; apply State.cellBad_evolves; exact e; exact e; refine Answers.next ?_
  apply State.settle_evolves; apply State.tamperEvent_evolves; split; apply State.cellBad_evolves; exact e; exact e

theorem execSourceRearm_evolves {s : State} (src : Nat) (t : State) (e : Evolves s t) : Answers s (execSourceRearm src t) := by
  unfold execSourceRearm
  split; refine Answers.next ?_; apply State.rearm_evolves; exact e; refine Answers.next ?_; exact e

theorem execThrottleEnd_evolves {s : State} (src : Nat) (t : State) (e : Evolves s t) : Answers s (execThrottleEnd src t) := by
  unfold execThrottleEnd
  dsimp only; split; refine Answers.next ?_; exact e; refine Answers.next ?_; apply State.settle_evolves; split; apply State.modSrc_evolves; exact e
  apply State.each_evolves; apply State.modSrc_evolves; exact e; intro _ _ _; apply State.clampOne_evolves; assumption

theorem execFenceEnd_evolves {s : State} (src : Nat) (t : State) (e : Evolves s t) : Answers s (execFenceEnd src t) := by
  unfold execFenceEnd
  dsimp only; split; refine Answers.next ?_; exact e; refine Answers.next ?_; apply State.settle_evolves; apply State.each_evolves; apply State.modSrc_evolves; exact e
  intro _ _ _; apply State.releaseA2_evolves; assumption

theorem execLoopReading_evolves {s : State} (clean : BitVec 8) (t : State) (e : Evolves s t) : Answers s (execLoopReading clean t) := by
  unfold execLoopReading
  split; refine Answers.next ?_; exact e; dsimp only; refine Answers.next ?_; apply State.each_evolves
  refine Evolves.build rfl ?_ ?_ ?_ ?_ ?_ ?_ ?_ ?_ ?_ ?_ ?_ ?_; exact e; intro _; assumption; exact Rng.keeps_refl _; exact Custody.keeps_refl _
  exact Mail.keeps_refl _; apply Dual.tick_evolves; exact Worlds.keeps_refl _; intro _; assumption; exact Recorder.keeps_refl _; intro _; assumption
  exact Power.keeps_refl _; exact Renewal.keeps_refl _; intro _ _ _; apply State.readLoop_evolves; assumption

theorem execCellArm_evolves {s : State} (cell : Nat) (t : State) (e : Evolves s t) : Answers s (execCellArm cell t) := by
  unfold execCellArm
  dsimp only; split; refine Answers.next ?_; apply State.tamperRecord_evolves; refine Evolves.build rfl ?_ ?_ ?_ ?_ ?_ ?_ ?_ ?_ ?_ ?_ ?_ ?_; exact e; intro _
  assumption; exact Rng.keeps_refl _; exact Custody.keeps_refl _; exact Mail.keeps_refl _; exact Dual.keeps_refl _; exact Worlds.keeps_refl _; intro _; assumption
  exact Recorder.keeps_refl _; intro _; assumption; exact Power.keeps_refl _; exact Renewal.keeps_refl _; refine Answers.next ?_; exact e

theorem execCellLow_evolves {s : State} (cell : Nat) (t : State) (e : Evolves s t) : Answers s (execCellLow cell t) := by
  unfold execCellLow
  dsimp only; split; refine Answers.next ?_; apply State.settle_evolves; split; apply State.tamperRecord_evolves; apply State.cellBad_evolves; exact e
  apply State.cellBad_evolves; exact e; refine Answers.next ?_; exact e

theorem execCellInRange_evolves {s : State} (cell : Nat) (t : State) (e : Evolves s t) : Answers s (execCellInRange cell t) := by
  unfold execCellInRange
  dsimp only; split; refine Answers.next ?_; exact e; refine Answers.next ?_; apply State.settle_evolves
  refine Evolves.build rfl ?_ ?_ ?_ ?_ ?_ ?_ ?_ ?_ ?_ ?_ ?_ ?_; exact e; intro _; assumption; exact Rng.keeps_refl _; exact Custody.keeps_refl _
  exact Mail.keeps_refl _; exact Dual.keeps_refl _; exact Worlds.keeps_refl _; intro _; assumption; exact Recorder.keeps_refl _; intro _; assumption
  exact Power.keeps_refl _; exact Renewal.keeps_refl _

theorem execVaultLinkFail_evolves {s : State} (t : State) (e : Evolves s t) : Answers s (execVaultLinkFail t) := by
  unfold execVaultLinkFail
  refine Answers.next ?_; apply State.settle_evolves; apply State.tamperEvent_evolves; exact e

theorem execErFlushTimer_evolves {s : State} (t : State) (e : Evolves s t) : Answers s (execErFlushTimer t) := by
  unfold execErFlushTimer
  split; refine Answers.next ?_; exact e; refine Answers.next ?_; apply State.flushStart_evolves; exact e

theorem execErFlushDone_evolves {s : State} (t : State) (e : Evolves s t) : Answers s (execErFlushDone t) := by
  unfold execErFlushDone
  split; refine Answers.next ?_; exact e; refine Answers.next ?_; apply State.flushLog_evolves; exact e

theorem execErLostRecover_evolves {s : State} (t : State) (e : Evolves s t) : Answers s (execErLostRecover t) := by
  unfold execErLostRecover
  refine Answers.next ?_; apply State.writeLost_evolves; exact e

theorem execErAck_evolves {s : State} (value : Nat) (t : State) (e : Evolves s t) : Answers s (execErAck value t) := by
  unfold execErAck
  refine Answers.next ?_; apply State.hostAccess_evolves; exact e; intro _ _; apply State.ackWrite_evolves; assumption

theorem execFwNoteRequest_evolves {s : State} (w : World) (body : Bytes) (t : State) (e : Evolves s t) : Answers s (execFwNoteRequest w body t) := by
  unfold execFwNoteRequest
  dsimp only; split; refine Answers.next ?_; exact e; split; refine Answers.next ?_; apply State.modWorld_evolves; exact e; refine Answers.next ?_
  apply State.record_evolves; apply State.modWorld_evolves; exact e

theorem execPwrFailAssert_evolves {s : State} (droop : Bool) (t : State) (e : Evolves s t) : Answers s (execPwrFailAssert droop t) := by
  unfold execPwrFailAssert
  split; refine Answers.next ?_; exact e; split; refine Answers.next ?_; apply State.tahrLost_evolves; apply State.mainLost_evolves; exact e; split; refine Answers.next ?_
  exact e; refine Answers.next ?_; apply State.powerFlush_evolves; refine Evolves.build rfl ?_ ?_ ?_ ?_ ?_ ?_ ?_ ?_ ?_ ?_ ?_ ?_; exact e; intro _; assumption
  exact Rng.keeps_refl _; exact Custody.keeps_refl _; exact Mail.keeps_refl _; exact Dual.keeps_refl _; exact Worlds.keeps_refl _; intro _; assumption
  exact Recorder.keeps_refl _; intro _; assumption; dsimp only; exact ⟨id, id⟩; exact Renewal.keeps_refl _

theorem execPwrFailRelease_evolves {s : State} (t : State) (e : Evolves s t) : Answers s (execPwrFailRelease t) := by
  unfold execPwrFailRelease
  refine Answers.next ?_; refine Evolves.build rfl ?_ ?_ ?_ ?_ ?_ ?_ ?_ ?_ ?_ ?_ ?_ ?_; exact e; intro _; assumption; exact Rng.keeps_refl _
  exact Custody.keeps_refl _; exact Mail.keeps_refl _; exact Dual.keeps_refl _; exact Worlds.keeps_refl _; intro _; assumption; exact Recorder.keeps_refl _; intro _
  assumption; dsimp only; exact ⟨id, id⟩; exact Renewal.keeps_refl _

theorem execSysPwrgdLow_evolves {s : State} (t : State) (e : Evolves s t) : Answers s (execSysPwrgdLow t) := by
  unfold execSysPwrgdLow
  split; refine Answers.next ?_; exact e; refine Answers.next ?_; apply State.mainLost_evolves; exact e

theorem execBlobUnwrap_evolves {s : State} (ctx : Nat) (blob : Option Bytes) (t : State) (e : Evolves s t) : Answers s (execBlobUnwrap ctx blob t) := by
  unfold execBlobUnwrap
  split; split; refine Answers.next ?_; exact e; dsimp only; split; refine Answers.next ?_; apply State.modCtx_evolves; split; apply State.fill_evolves
  apply State.stageIn_evolves; apply State.blobCheck_evolves; exact e; apply State.stageIn_evolves; apply State.blobCheck_evolves; exact e; refine Answers.next ?_
  apply State.finish_evolves; apply State.blobCheck_evolves; exact e; refine Answers.next ?_; exact e

theorem execBankWarmupEnd_evolves {s : State} (d : BankBits) (t : State) (e : Evolves s t) : Answers s (execBankWarmupEnd d t) := by
  unfold execBankWarmupEnd
  dsimp only; split; refine Answers.next ?_; apply State.modBank_evolves; exact e; refine Answers.next ?_; exact e

theorem execBankStartupTestPass_evolves {s : State} (d : BankBits) (t : State) (e : Evolves s t) : Answers s
    (execBankStartupTestPass d t) := by
  unfold execBankStartupTestPass
  dsimp only; split; refine Answers.next ?_; apply State.nextSelftest_evolves; apply State.checkService_evolves; apply State.modBank_evolves; exact e; refine Answers.next ?_
  exact e

theorem execBankBlock_evolves {s : State} (bank : Nat) (raw : Bytes) (t : State) (e : Evolves s t) : Answers s (execBankBlock bank raw t) := by
  unfold execBankBlock
  split; split; refine Answers.next ?_; exact e; refine Answers.next ?_; apply State.captureBlock_evolves; exact e; split; refine Answers.next ?_; exact e
  refine Answers.next ?_; apply State.modRng_evolves; apply State.modBank_evolves; exact e; intro _; exact ⟨id, id⟩; refine Answers.next ?_; exact e

theorem execHealthTestFail_evolves {s : State} (d : BankBits) (count : Nat) (t : State) (e : Evolves s t) : Answers s
    (execHealthTestFail d count t) := by
  unfold execHealthTestFail
  dsimp only; split; split; refine Answers.next ?_; exact e; split; refine Answers.next ?_; apply State.settle_evolves; apply State.nextSelftest_evolves
  apply State.checkService_evolves; apply State.checkFailed_evolves; apply State.setAside_evolves; apply State.modBank_evolves; exact e; refine Answers.next ?_
  apply State.settle_evolves; split; apply State.fatalRng_evolves; apply State.recordRng_evolves; apply State.modBank_evolves; apply State.modBank_evolves; exact e
  apply State.restartBank_evolves; apply State.recordRng_evolves; apply State.modBank_evolves; apply State.modBank_evolves; exact e; split; refine Answers.next ?_; exact e
  split; refine Answers.next ?_; apply State.settle_evolves; apply State.nextSelftest_evolves; apply State.checkService_evolves; apply State.checkFailed_evolves
  apply State.setAside_evolves; apply State.modBank_evolves; exact e; refine Answers.next ?_; apply State.settle_evolves; split; apply State.fatalRng_evolves
  apply State.recordRng_evolves; apply State.modBank_evolves; apply State.modBank_evolves; exact e; apply State.restartBank_evolves; apply State.recordRng_evolves
  apply State.modBank_evolves; apply State.modBank_evolves; exact e

theorem execDrbgInstantiate_evolves {s : State} (inst : Nat) (t : State) (e : Evolves s t) : Answers s (execDrbgInstantiate inst t) := by
  unfold execDrbgInstantiate
  split; split; refine Answers.next ?_; exact e; dsimp only; refine Answers.next ?_; apply State.ranDry_evolves; split; apply State.checkService_evolves
  apply State.allBanks_evolves; split; apply State.loadSik_evolves; apply State.serve_evolves; apply State.modGen_evolves; apply State.modRng_evolves; exact e; intro _
  exact ⟨id, id⟩; apply State.serve_evolves; apply State.modGen_evolves; apply State.modRng_evolves; exact e; intro _; exact ⟨id, id⟩; split; apply State.loadSik_evolves
  apply State.serve_evolves; apply State.modGen_evolves; apply State.modRng_evolves; exact e; intro _; exact ⟨id, id⟩; apply State.serve_evolves; apply State.modGen_evolves
  apply State.modRng_evolves; exact e; intro _; exact ⟨id, id⟩; refine Answers.next ?_; exact e

theorem execDrbgReseed_evolves {s : State} (inst : Nat) (t : State) (e : Evolves s t) : Answers s (execDrbgReseed inst t) := by
  unfold execDrbgReseed
  split; split; dsimp only; refine Answers.next ?_; apply State.ranDry_evolves; split; apply State.loadSik_evolves; apply State.reseedWith_evolves; apply State.modRng_evolves
  exact e; intro _; exact ⟨id, id⟩; apply State.reseedWith_evolves; apply State.modRng_evolves; exact e; intro _; exact ⟨id, id⟩; refine Answers.next ?_; exact e
  refine Answers.next ?_; exact e

theorem execDrawRequest_evolves {s : State} (w : World) (len : Nat) (pr : Bool) (t : State) (e : Evolves s t) : Answers s (execDrawRequest w len pr t) := by
  unfold execDrawRequest
  refine Answers.next ?_; apply State.drawPortWrite_evolves; exact e

theorem execAdmCommit_evolves {s : State} (w : World) (t : State) (e : Evolves s t) : Answers s (execAdmCommit w t) := by
  unfold execAdmCommit
  refine Answers.next ?_; apply State.commitWrite_evolves; exact e

theorem execAdmCommitApply_evolves {s : State} (w : World) (t : State) (e : Evolves s t) : Answers s (execAdmCommitApply w t) := by
  unfold execAdmCommitApply
  dsimp only; split; refine Answers.next ?_; exact e; split; refine Answers.next ?_; apply State.admErr_evolves; apply State.modWorld_evolves; exact e
  refine Answers.next ?_; apply State.admAdvance_evolves; apply State.modWorld_evolves; refine Evolves.build rfl ?_ ?_ ?_ ?_ ?_ ?_ ?_ ?_ ?_ ?_ ?_ ?_
  apply State.modWorld_evolves; exact e; intro _; assumption; exact Rng.keeps_refl _; exact Custody.keeps_refl _; exact Mail.keeps_refl _; exact Dual.keeps_refl _
  exact ⟨id, id⟩; intro _; assumption; exact Recorder.keeps_refl _; intro _; assumption; exact Power.keeps_refl _; exact Renewal.keeps_refl _

theorem execService_evolves {s : State} (core : Nat) (t : State) (e : Evolves s t) : Answers s (execService core t) := by
  unfold execService
  refine Answers.next ?_; apply State.serviceWrite_evolves; exact e

theorem execFatal_evolves {s : State} (core : Nat) (t : State) (e : Evolves s t) : Answers s (execFatal core t) := by
  unfold execFatal
  refine Answers.next ?_; apply State.fatalWrite_evolves; exact e

theorem execWatchdogExpire_evolves {s : State} (core : Nat) (t : State) (e : Evolves s t) : Answers s (execWatchdogExpire core t) := by
  unfold execWatchdogExpire
  split; refine Answers.next ?_; exact e; refine Answers.next ?_; apply State.worldFault_evolves; exact e

theorem execSerowMemoryError_evolves {s : State} (w : World) (t : State) (e : Evolves s t) : Answers s (execSerowMemoryError w t) := by
  unfold execSerowMemoryError
  refine Answers.next ?_; apply State.worldFault_evolves; exact e

theorem execIntegrityFail_evolves {s : State} (u0 : FaultUnit) (t : State) (e : Evolves s t) : Answers s (execIntegrityFail u0 t) := by
  unfold execIntegrityFail
  dsimp only; split; refine Answers.next ?_; apply State.settle_evolves; apply State.flushStart_evolves; apply State.fence_evolves; apply State.tamperEvent_evolves; exact e
  refine Answers.next ?_; apply State.settle_evolves; apply State.flushStart_evolves; apply State.worldFault_evolves; apply State.tamperEvent_evolves; exact e
  refine Answers.next ?_; apply State.settle_evolves; apply State.flushStart_evolves; apply State.tamperEvent_evolves; apply State.tamperEvent_evolves; exact e
  refine Answers.next ?_; apply State.settle_evolves; apply State.flushStart_evolves; apply State.dmaFail_evolves; apply State.tamperEvent_evolves; exact e

theorem execTwRestartComplete_evolves {s : State} (r : RestartRead) (t : State) (e : Evolves s t) : Answers s
    (execTwRestartComplete r t) := by
  unfold execTwRestartComplete
  dsimp only; split; split; refine Answers.next ?_; exact e; split; refine Answers.next ?_; apply State.settle_evolves; apply State.mismatch_evolves; split
  apply State.discardNew_evolves; exact e; exact e; split; refine Answers.next ?_; exact e; refine Answers.next ?_; apply State.settle_evolves
  refine Evolves.build rfl ?_ ?_ ?_ ?_ ?_ ?_ ?_ ?_ ?_ ?_ ?_ ?_; apply State.startWatchdogs_evolves; apply State.countRestart_evolves; apply State.modWorld_evolves
  apply State.advanceEpoch_evolves; apply State.deriveSmks_evolves; apply State.loadSik_evolves; apply State.lockTable_evolves; split
  refine Evolves.build rfl ?_ ?_ ?_ ?_ ?_ ?_ ?_ ?_ ?_ ?_ ?_ ?_; apply State.assign_evolves; refine Evolves.build rfl ?_ ?_ ?_ ?_ ?_ ?_ ?_ ?_ ?_ ?_ ?_ ?_
  apply State.modWorld_evolves; apply State.remeasure_evolves; exact e; intro _; assumption; exact Rng.keeps_refl _; exact Custody.keeps_refl _; exact Mail.keeps_refl _
  exact Dual.keeps_refl _; exact Worlds.keeps_refl _; intro _; assumption; exact Recorder.keeps_refl _; intro _; assumption; exact Power.keeps_refl _
  exact ⟨Nat.le_refl _, Nat.le_refl _, Nat.le_refl _⟩; intro _; assumption; exact Rng.keeps_refl _; exact Custody.keeps_refl _; exact Mail.keeps_refl _
  exact Dual.keeps_refl _; exact Worlds.keeps_refl _; intro _; assumption; exact Recorder.keeps_refl _; intro _; assumption; exact Power.keeps_refl _
  exact ⟨Nat.le_refl _, Nat.le_refl _, Nat.le_refl _⟩; refine Evolves.build rfl ?_ ?_ ?_ ?_ ?_ ?_ ?_ ?_ ?_ ?_ ?_ ?_; apply State.modWorld_evolves
  apply State.remeasure_evolves; exact e; intro _; assumption; exact Rng.keeps_refl _; exact Custody.keeps_refl _; exact Mail.keeps_refl _; exact Dual.keeps_refl _
  exact Worlds.keeps_refl _; intro _; assumption; exact Recorder.keeps_refl _; intro _; assumption; exact Power.keeps_refl _
  exact ⟨Nat.le_refl _, Nat.le_refl _, Nat.le_refl _⟩; intro _; assumption; exact Rng.keeps_refl _; exact Custody.keeps_refl _; exact Mail.keeps_refl _
  exact Dual.keeps_refl _; exact Worlds.keeps_refl _; intro _; assumption; exact Recorder.keeps_refl _; intro _; simpa using ‹_›; exact Power.keeps_refl _
  exact ⟨Nat.le_refl _, Nat.le_refl _, Nat.le_refl _⟩; refine Answers.next ?_; exact e

theorem execOwRestartComplete_evolves {s : State} (r : RestartRead) (t : State) (e : Evolves s t) : Answers s
    (execOwRestartComplete r t) := by
  unfold execOwRestartComplete
  dsimp only; split; split; refine Answers.next ?_; exact e; split; refine Answers.next ?_; apply State.settle_evolves; split; apply State.revertOw_evolves
  apply State.mismatch_evolves; exact e; apply State.mismatch_evolves; exact e; split; refine Answers.next ?_; exact e; refine Answers.next ?_
  refine Evolves.build rfl ?_ ?_ ?_ ?_ ?_ ?_ ?_ ?_ ?_ ?_ ?_ ?_; apply State.endJobs_evolves; apply State.startWatchdogs_evolves; apply State.countRestart_evolves
  apply State.modWorld_evolves; exact e; intro _; assumption; exact Rng.keeps_refl _; exact Custody.keeps_refl _; exact ⟨id, id⟩; exact Dual.keeps_refl _
  exact Worlds.keeps_refl _; intro _; assumption; exact Recorder.keeps_refl _; intro _; assumption; exact Power.keeps_refl _
  exact ⟨Nat.le_refl _, Nat.le_refl _, Nat.le_refl _⟩; refine Answers.next ?_; exact e

theorem execSliceCreate_evolves {s : State} (c : Caller) (t : State) (e : Evolves s t) : Answers s (execSliceCreate c t) := by
  unfold execSliceCreate
  refine Answers.next ?_; apply State.command_evolves; exact e; intro _ _ _ _; apply atReply_evolves; assumption; intro _ _ _; apply sliceCreateRun_evolves; assumption
  exact Or.inl (by decide)

theorem execSliceModify_evolves {s : State} (c : Caller) (t : State) (e : Evolves s t) : Answers s (execSliceModify c t) := by
  unfold execSliceModify
  refine Answers.next ?_; apply State.command_evolves; exact e; intro _ _ _ _; apply atReply_evolves; assumption; intro _ _ _; apply sliceModifyRun_evolves; assumption
  exact Or.inl (by decide)

theorem execSliceQuiesce_evolves {s : State} (c : Caller) (t : State) (e : Evolves s t) : Answers s (execSliceQuiesce c t) := by
  unfold execSliceQuiesce
  refine Answers.next ?_; apply State.command_evolves; exact e; intro _ _ _ _; apply sliceQuiesceRun_evolves; assumption; exact Or.inl (by decide)

theorem execSliceQuiesceDone_evolves {s : State} (slice : Nat) (t : State) (e : Evolves s t) : Answers s (execSliceQuiesceDone slice t) := by
  unfold execSliceQuiesceDone
  split; refine Answers.next ?_; exact e; dsimp only; split; refine Answers.next ?_; apply State.settle_evolves; refine evolves_foldl _ ?_ _ _ ?_; intro _ _ _
  apply State.endJob_evolves; assumption; apply State.modSlice_evolves; exact e; refine Answers.next ?_; apply State.modMail_evolves; apply State.modSlice_evolves; exact e
  intro _; (exact Mail.Keeps.map _ _ fun j => by split <;> rfl)

theorem execSliceResume_evolves {s : State} (c : Caller) (t : State) (e : Evolves s t) : Answers s (execSliceResume c t) := by
  unfold execSliceResume
  refine Answers.next ?_; apply State.command_evolves; exact e; intro _ _ _ _; apply atReply_evolves; assumption; intro _ _ _; apply sliceResumeRun_evolves; assumption
  exact Or.inl (by decide)

theorem execSliceReset_evolves {s : State} (c : Caller) (t : State) (e : Evolves s t) : Answers s (execSliceReset c t) := by
  unfold execSliceReset
  refine Answers.next ?_; apply State.command_evolves; exact e; intro _ _ _ _; apply sliceResetRun_evolves; assumption; exact Or.inl (by decide)

theorem execSliceRemove_evolves {s : State} (c : Caller) (t : State) (e : Evolves s t) : Answers s (execSliceRemove c t) := by
  unfold execSliceRemove
  refine Answers.next ?_; apply State.command_evolves; exact e; intro _ _ _ _; apply sliceRemoveRun_evolves; assumption; exact Or.inl (by decide)

theorem execSliceFenceEnd_evolves {s : State} (slice : Nat) (t : State) (e : Evolves s t) : Answers s (execSliceFenceEnd slice t) := by
  unfold execSliceFenceEnd
  split; split; refine Answers.next ?_; exact e; dsimp only; refine Answers.next ?_; apply State.settle_evolves; apply State.modMail_evolves; apply State.modKeys_evolves
  apply State.each_evolves; apply State.modSlice_evolves; apply State.scrubSlice_evolves; exact e; intro _ _ _; apply State.modInt_evolves; assumption; intro _
  exact ⟨rfl, .inl rfl, Nat.le_refl _, id⟩; intro _; (exact Mail.Keeps.map _ _ fun j => by split <;> rfl); refine Answers.next ?_; exact e

theorem execSliceQuery_evolves {s : State} (c : Caller) (t : State) (e : Evolves s t) : Answers s (execSliceQuery c t) := by
  unfold execSliceQuery
  refine Answers.next ?_; apply State.command_evolves; exact e; intro _ _ _ _; apply sliceQueryRun_evolves; assumption; exact Or.inl (by decide)

theorem execRingArm_evolves {s : State} (c : Caller) (t : State) (e : Evolves s t) : Answers s (execRingArm c t) := by
  unfold execRingArm
  refine Answers.next ?_; apply State.command_evolves; exact e; intro _ _ _ _; apply atReply_evolves; assumption; intro _ _ _; apply ringArmRun_evolves; assumption
  exact Or.inl (by decide)

theorem execRingDisarm_evolves {s : State} (c : Caller) (t : State) (e : Evolves s t) : Answers s (execRingDisarm c t) := by
  unfold execRingDisarm
  refine Answers.next ?_; apply State.command_evolves; exact e; intro _ _ _ _; apply atReply_evolves; assumption; intro _ _ _; apply ringDisarmRun_evolves; assumption
  exact Or.inl (by decide)

theorem execRingQuery_evolves {s : State} (c : Caller) (t : State) (e : Evolves s t) : Answers s (execRingQuery c t) := by
  unfold execRingQuery
  refine Answers.next ?_; apply State.command_evolves; exact e; intro _ _ _ _; apply ringQueryRun_evolves; assumption; exact Or.inl (by decide)

theorem execChFence_evolves {s : State} (c : Caller) (t : State) (e : Evolves s t) : Answers s (execChFence c t) := by
  unfold execChFence
  refine Answers.next ?_; apply State.command_evolves; exact e; intro _ _ _ _; apply inTurn_evolves; assumption; intro _ _ _; apply chFenceRun_evolves; assumption
  exact Or.inl (by decide)

theorem execChReturn_evolves {s : State} (c : Caller) (t : State) (e : Evolves s t) : Answers s (execChReturn c t) := by
  unfold execChReturn
  refine Answers.next ?_; apply State.command_evolves; exact e; intro _ _ _ _; apply inTurn_evolves; assumption; intro _ _ _; apply chReturnRun_evolves; assumption
  exact Or.inl (by decide)

theorem execRngReseed_evolves {s : State} (c : Caller) (t : State) (e : Evolves s t) : Answers s (execRngReseed c t) := by
  unfold execRngReseed
  refine Answers.next ?_; apply State.command_evolves; exact e; intro _ _ _ _; apply rngReseedRun_evolves; assumption; exact Or.inl (by decide)

theorem execRngPersonalise_evolves {s : State} (c : Caller) (t : State) (e : Evolves s t) : Answers s (execRngPersonalise c t) := by
  unfold execRngPersonalise
  refine Answers.next ?_; apply State.command_evolves; exact e; intro _ _ _ _; apply rngPersonaliseRun_evolves; assumption; exact Or.inl (by decide)

theorem execRngRecover_evolves {s : State} (c : Caller) (t : State) (e : Evolves s t) : Answers s (execRngRecover c t) := by
  unfold execRngRecover
  refine Answers.next ?_; apply State.command_evolves; exact e; intro _ _ _ _; apply inTurn_evolves; assumption; intro _ _ _; apply rngRecoverRun_evolves; assumption
  exact Or.inl (by decide)

theorem execRngSelftest_evolves {s : State} (c : Caller) (t : State) (e : Evolves s t) : Answers s (execRngSelftest c t) := by
  unfold execRngSelftest
  refine Answers.next ?_; apply State.command_evolves; exact e; intro _ _ _ _; apply inTurn_evolves; assumption; intro _ _ _; apply rngSelftestRun_evolves; assumption
  exact Or.inl (by decide)

theorem execRngRawCapture_evolves {s : State} (c : Caller) (t : State) (e : Evolves s t) : Answers s (execRngRawCapture c t) := by
  unfold execRngRawCapture
  refine Answers.next ?_; apply State.command_evolves; exact e; intro _ _ _ _; apply inTurn_evolves; assumption; intro _ _ _; apply rngRawCaptureRun_evolves; assumption
  exact Or.inl (by decide)

theorem execDevInfo_evolves {s : State} (c : Caller) (t : State) (e : Evolves s t) : Answers s (execDevInfo c t) := by
  unfold execDevInfo
  refine Answers.next ?_; apply State.command_evolves; exact e; intro _ _ _ _; apply devInfoRun_evolves; assumption; exact Or.inl (by decide)

theorem execMgrChallenge_evolves {s : State} (c : Caller) (t : State) (e : Evolves s t) : Answers s (execMgrChallenge c t) := by
  unfold execMgrChallenge
  refine Answers.next ?_; apply State.command_evolves; exact e; intro _ _ _ _; apply mgrChallengeRun_evolves; assumption; exact Or.inl (by decide)

theorem execMgrOpen_evolves {s : State} (c : Caller) (t : State) (e : Evolves s t) : Answers s (execMgrOpen c t) := by
  unfold execMgrOpen
  refine Answers.next ?_; apply State.command_evolves; exact e; intro _ _ _ _; apply mgrOpenRun_evolves; assumption; exact Or.inl (by decide)

theorem execMgrClose_evolves {s : State} (c : Caller) (t : State) (e : Evolves s t) : Answers s (execMgrClose c t) := by
  unfold execMgrClose
  refine Answers.next ?_; apply State.command_evolves; exact e; intro _ _ _ _; apply mgrCloseRun_evolves; assumption; exact Or.inl (by decide)

theorem execMgrCredSet_evolves {s : State} (c : Caller) (t : State) (e : Evolves s t) : Answers s (execMgrCredSet c t) := by
  unfold execMgrCredSet
  refine Answers.next ?_; apply State.command_evolves; exact e; intro _ _ _ _; apply mgrCredSetRun_evolves; assumption; exact Or.inl (by decide)

theorem execDevKeep_evolves {s : State} (c : Caller) (t : State) (e : Evolves s t) : Answers s (execDevKeep c t) := by
  unfold execDevKeep
  refine Answers.next ?_; apply State.command_evolves; exact e; intro _ _ _ _; apply devKeepRun_evolves; assumption; exact Or.inl (by decide)

theorem execDevResume_evolves {s : State} (c : Caller) (t : State) (e : Evolves s t) : Answers s (execDevResume c t) := by
  unfold execDevResume
  refine Answers.next ?_; apply State.command_evolves; exact e; intro _ _ _ _; apply devResumeRun_evolves; assumption; exact Or.inl (by decide)

theorem execEn_evolves {s : State} (port : Nat) (value : Bool) (t : State) (e : Evolves s t) : Answers s (execEn port value t) := by
  unfold execEn
  refine Answers.next ?_; apply State.hostReg_evolves; exact e; intro _ _; apply State.enWrite_evolves; assumption

theorem execRetrain_evolves {s : State} (port : Nat) (t : State) (e : Evolves s t) : Answers s (execRetrain port t) := by
  unfold execRetrain
  refine Answers.next ?_; apply State.hostReg_evolves; exact e; intro _ _; apply State.retrainWrite_evolves; assumption

theorem execFpSignalDetect_evolves {s : State} (port : Nat) (t : State) (e : Evolves s t) : Answers s (execFpSignalDetect port t) := by
  unfold execFpSignalDetect
  dsimp only; split; refine Answers.next ?_; apply State.modPort_evolves; exact e; refine Answers.next ?_; exact e

theorem execFpTrainComplete_evolves {s : State} (port : Nat) (lanes : BitVec 4) (t : State) (e : Evolves s t) : Answers s
    (execFpTrainComplete port lanes t) := by
  unfold execFpTrainComplete
  dsimp only; split; refine Answers.next ?_; exact e; split; split; refine Answers.next ?_; apply State.settle_evolves; apply State.portDown_evolves; exact e
  refine Answers.next ?_; apply State.modPort_evolves; apply State.freeBytes_evolves_snd; exact e; split; refine Answers.next ?_; apply State.settle_evolves
  apply State.portDown_evolves; exact e; refine Answers.next ?_; apply State.modPort_evolves; apply State.freeBytes_evolves_snd; exact e

theorem execLinkInit_evolves {s : State} (port : Nat) (i : PeerInit) (t : State) (e : Evolves s t) : Answers s (execLinkInit port i t) := by
  unfold execLinkInit
  split; refine Answers.next ?_; exact e; dsimp only; split; refine Answers.next ?_; apply State.modPort_evolves; apply State.modPort_evolves; exact e; split
  refine Answers.next ?_; apply State.settle_evolves; apply State.portUp_evolves; apply State.modPort_evolves; apply State.modPort_evolves; exact e; refine Answers.next ?_
  apply State.toAuth_evolves; apply State.modPort_evolves; apply State.dropSession_evolves; apply State.modPort_evolves; apply State.modPort_evolves; exact e

theorem execFpInitRetry_evolves {s : State} (port : Nat) (t : State) (e : Evolves s t) : Answers s (execFpInitRetry port t) := by
  unfold execFpInitRetry
  dsimp only; split; refine Answers.next ?_; apply State.modPort_evolves; exact e; refine Answers.next ?_; exact e

theorem execAuth_evolves {s : State} (port : Nat) (a : PeerAuth) (t : State) (e : Evolves s t) : Answers s (execAuth port a t) := by
  unfold execAuth
  dsimp only; split; refine Answers.next ?_; exact e; split; refine Answers.next ?_; apply State.modPort_evolves; exact e; split; refine Answers.next ?_
  apply State.record_evolves; apply State.modPort_evolves; exact e; refine Answers.next ?_; apply State.settle_evolves; apply State.sessionUp_evolves; apply State.modPort_evolves
  exact e

theorem execAuthRetry_evolves {s : State} (port : Nat) (t : State) (e : Evolves s t) : Answers s (execAuthRetry port t) := by
  unfold execAuthRetry
  dsimp only; split; refine Answers.next ?_; apply State.toAuth_evolves; exact e; refine Answers.next ?_; exact e

theorem execData_evolves {s : State} (port : Nat) (f : Frame) (t : State) (e : Evolves s t) : Answers s (execData port f t) := by
  unfold execData
  split; refine Answers.next ?_; exact e; split; dsimp only; split; refine Answers.next ?_; apply State.settle_evolves
  refine State.takeFrame_evolves (by assumption) ?_; exact e; split; split; refine Answers.next ?_; apply State.modPort_evolves
  refine State.takeFrame_evolves (by assumption) ?_; exact e; refine Answers.next ?_; refine State.takeFrame_evolves (by assumption) ?_; exact e; split
  refine Answers.next ?_; apply State.settle_evolves; apply State.retrain_evolves; apply State.malformedFrame_evolves; refine State.takeFrame_evolves (by assumption) ?_
  exact e; refine Answers.next ?_; apply State.modPort_evolves; refine evolves_foldl _ ?_ _ _ ?_; intro _ _ _; apply State.takeUnitIn_evolves; assumption
  apply State.portWork_evolves; apply State.modPort_evolves; refine State.takeFrame_evolves (by assumption) ?_; exact e

theorem execCtrl_evolves {s : State} (port : Nat) (f : Frame) (t : State) (e : Evolves s t) : Answers s (execCtrl port f t) := by
  unfold execCtrl
  split; refine Answers.next ?_; exact e; split; split; refine Answers.next ?_; apply State.settle_evolves; refine State.takeFrame_evolves
    (by assumption) ?_; exact e
  dsimp only; split; split; split; refine Answers.next ?_; apply State.modPort_evolves; refine State.takeFrame_evolves (by assumption) ?_; exact e
  refine Answers.next ?_; apply State.modPort_evolves; refine State.takeFrame_evolves
    (by assumption) ?_; exact e; split; refine Answers.next ?_; apply State.modPort_evolves
  refine State.takeFrame_evolves (by assumption) ?_; exact e; refine Answers.next ?_; apply State.modPort_evolves; refine State.takeFrame_evolves
    (by assumption) ?_
  exact e; refine Answers.next ?_; refine State.takeFrame_evolves (by assumption) ?_; exact e

theorem execKeyUpdate_evolves {s : State} (port : Nat) (f : Frame) (t : State) (e : Evolves s t) : Answers s (execKeyUpdate port f t) := by
  unfold execKeyUpdate
  split; refine Answers.next ?_; exact e; split; split; refine Answers.next ?_; apply State.settle_evolves; refine State.takeFrame_evolves
    (by assumption) ?_; exact e
  refine Answers.next ?_; apply State.modPort_evolves; refine State.takeFrame_evolves (by assumption) ?_; exact e

theorem execKeyUpdateDue_evolves {s : State} (port : Nat) (t : State) (e : Evolves s t) : Answers s (execKeyUpdateDue port t) := by
  unfold execKeyUpdateDue
  dsimp only; split; refine Answers.next ?_; exact e; split; refine Answers.next ?_; apply State.settle_evolves; apply State.toAuth_evolves; apply State.dropSession_evolves
  apply State.leaveUp_evolves; exact e; split; refine Answers.next ?_; apply State.modPort_evolves; exact e; refine Answers.next ?_; exact e

theorem execRetryTimeout_evolves {s : State} (port : Nat) (t : State) (e : Evolves s t) : Answers s (execRetryTimeout port t) := by
  unfold execRetryTimeout
  split; refine Answers.next ?_; exact e; refine Answers.next ?_; apply State.settle_evolves; apply State.resend_evolves; exact e

theorem execNakTimer_evolves {s : State} (port : Nat) (t : State) (e : Evolves s t) : Answers s (execNakTimer port t) := by
  unfold execNakTimer
  dsimp only; split; refine Answers.next ?_; apply State.modPort_evolves; exact e; refine Answers.next ?_; exact e

theorem execAckTimer_evolves {s : State} (port : Nat) (t : State) (e : Evolves s t) : Answers s (execAckTimer port t) := by
  unfold execAckTimer
  dsimp only; split; refine Answers.next ?_; apply State.modPort_evolves; exact e; refine Answers.next ?_; exact e

theorem execLaneMarginFail_evolves {s : State} (port : Nat) (lane : Nat) (t : State) (e : Evolves s t) : Answers s (execLaneMarginFail port lane t) := by
  unfold execLaneMarginFail
  dsimp only; split; refine Answers.next ?_; apply State.settle_evolves; apply State.retrain_evolves; apply State.modPort_evolves; exact e; refine Answers.next ?_; exact e

theorem execFecUncorrectableLimit_evolves {s : State} (port : Nat) (t : State) (e : Evolves s t) : Answers s (execFecUncorrectableLimit port t) := by
  unfold execFecUncorrectableLimit
  split; refine Answers.next ?_; apply State.settle_evolves; apply State.retrain_evolves; apply State.modPort_evolves; exact e; refine Answers.next ?_; exact e

theorem execFabricWake_evolves {s : State} (port : Nat) (t : State) (e : Evolves s t) : Answers s (execFabricWake port t) := by
  unfold execFabricWake
  refine Answers.next ?_; split; apply State.startWake_evolves; exact e; exact e

theorem execHello_evolves {s : State} (port : Nat) (role : Nat) (dev : Nat) (domainId : Bytes) (identity : Bytes) (term : Nat) (_applied : Nat)
    (level : Nat) (holder : Bool) (t : State) (e : Evolves s t) : Answers s (execHello port role dev domainId identity term _applied level holder t) := by
  unfold execHello
  split; split; refine Answers.next ?_; refine State.takeUnit_evolves
    (by assumption) ?_; exact e; split; refine Answers.next ?_; split; apply State.duplicate_evolves
  refine State.takeUnit_evolves (by assumption) ?_; exact e; refine State.takeUnit_evolves
    (by assumption) ?_; exact e; dsimp only; split; refine Answers.next ?_
  refine State.takeUnit_evolves (by assumption) ?_; exact e; refine Answers.next ?_; apply State.refreshLevel_evolves; apply State.seeTerm_evolves
  apply State.formation_evolves; apply State.modPort_evolves; apply State.modHier_evolves; refine State.takeUnit_evolves
    (by assumption) ?_; exact e; refine Answers.next ?_
  exact e

theorem execRoute_evolves {s : State} (port : Nat) (added : List (Nat × Bool)) (withdrawn : List Nat) (t : State) (e : Evolves s t) : Answers s
    (execRoute port added withdrawn t) := by
  unfold execRoute
  split; split; refine Answers.next ?_; refine State.takeUnit_evolves
    (by assumption) ?_; exact e; dsimp only; refine Answers.next ?_; apply State.pathsLost_evolves
  apply State.sendAll_evolves; apply State.modPort_evolves; refine State.takeUnit_evolves (by assumption) ?_; exact e; refine Answers.next ?_; exact e

theorem execBeat_evolves {s : State} (port : Nat) (term : Nat) (lead : Nat) (commitSerial : Nat) (t : State) (e : Evolves s t) : Answers s
    (execBeat port term lead commitSerial t) := by
  unfold execBeat
  split; split; refine Answers.next ?_; refine State.takeUnit_evolves (by assumption) ?_; exact e; split; refine Answers.next ?_; apply State.modHier_evolves
  refine State.takeUnit_evolves (by assumption) ?_; exact e; dsimp only; refine Answers.next ?_; apply State.forwardRecords_evolves; apply State.catchUp_evolves; split
  split; split; apply State.sendUnit_evolves; apply State.sendAll_evolves; apply State.sendAll_evolves; apply State.takeBeat_evolves; apply State.stepDown_evolves
  refine State.takeUnit_evolves (by assumption) ?_; exact e; apply State.sendAll_evolves; apply State.takeBeat_evolves; apply State.stepDown_evolves
  refine State.takeUnit_evolves (by assumption) ?_; exact e; split; apply State.sendUnit_evolves; apply State.sendAll_evolves; apply State.takeBeat_evolves
  apply State.stepDown_evolves; refine State.takeUnit_evolves (by assumption) ?_; exact e; apply State.takeBeat_evolves; apply State.stepDown_evolves
  refine State.takeUnit_evolves (by assumption) ?_; exact e; split; split; apply State.sendUnit_evolves; apply State.sendAll_evolves; apply State.sendAll_evolves
  apply State.takeBeat_evolves; refine State.takeUnit_evolves (by assumption) ?_; exact e; apply State.sendAll_evolves; apply State.takeBeat_evolves
  refine State.takeUnit_evolves (by assumption) ?_; exact e; split; apply State.sendUnit_evolves; apply State.sendAll_evolves; apply State.takeBeat_evolves
  refine State.takeUnit_evolves (by assumption) ?_; exact e; apply State.takeBeat_evolves; refine State.takeUnit_evolves (by assumption) ?_; exact e
  refine Answers.next ?_; exact e

theorem execBeatAck_evolves {s : State} (port : Nat) (dev : Nat) (term : Nat) (t : State) (e : Evolves s t) : Answers s (execBeatAck port dev term t) := by
  unfold execBeatAck
  split; split; refine Answers.next ?_; apply State.modHier_evolves; refine State.takeUnit_evolves (by assumption) ?_; exact e; refine Answers.next ?_
  refine State.takeUnit_evolves (by assumption) ?_; exact e; refine Answers.next ?_; exact e

theorem execBeatTimer_evolves {s : State} (t : State) (e : Evolves s t) : Answers s (execBeatTimer t) := by
  unfold execBeatTimer
  split; refine Answers.next ?_; apply State.sendBeat_evolves; exact e; refine Answers.next ?_; exact e

theorem execLeaseExpire_evolves {s : State} (t : State) (e : Evolves s t) : Answers s (execLeaseExpire t) := by
  unfold execLeaseExpire
  split; refine Answers.next ?_; apply State.stepDown_evolves; exact e; refine Answers.next ?_; exact e

theorem execVoteTimeout_evolves {s : State} (t : State) (e : Evolves s t) : Answers s (execVoteTimeout t) := by
  unfold execVoteTimeout
  split; dsimp only; refine Answers.next ?_; apply State.sendAll_evolves; apply State.modHier_evolves; exact e; refine Answers.next ?_; exact e

theorem execVoteReq_evolves {s : State} (port : Nat) (term : Nat) (_applied : Nat) (t : State) (e : Evolves s t) : Answers s
    (execVoteReq port term _applied t) := by
  unfold execVoteReq
  split; split; refine Answers.next ?_; apply State.sendUnit_evolves; apply State.modHier_evolves; refine State.takeUnit_evolves (by assumption) ?_; exact e
  refine Answers.next ?_; refine State.takeUnit_evolves (by assumption) ?_; exact e; refine Answers.next ?_; exact e

theorem execVote_evolves {s : State} (port : Nat) (dev : Nat) (term : Nat) (pending : Option Change) (t : State) (e : Evolves s t) : Answers s
    (execVote port dev term pending t) := by
  unfold execVote
  split; split; dsimp only; refine Answers.next ?_; split; split; apply State.becomeActive_evolves; apply State.modHier_evolves
  refine State.takeUnit_evolves (by assumption) ?_; exact e; apply State.modHier_evolves; refine State.takeUnit_evolves (by assumption) ?_; exact e; split
  apply State.becomeActive_evolves; apply State.modHier_evolves; refine State.takeUnit_evolves (by assumption) ?_; exact e; apply State.modHier_evolves
  refine State.takeUnit_evolves (by assumption) ?_; exact e; refine Answers.next ?_; refine State.takeUnit_evolves
    (by assumption) ?_; exact e; refine Answers.next ?_
  exact e

theorem execPartitionTimeout_evolves {s : State} (t : State) (e : Evolves s t) : Answers s (execPartitionTimeout t) := by
  unfold execPartitionTimeout
  split; refine Answers.next ?_; apply State.setFab_evolves; exact e; refine Answers.next ?_; exact e

theorem execChange_evolves {s : State} (port : Nat) (c : Change) (t : State) (e : Evolves s t) : Answers s (execChange port c t) := by
  unfold execChange
  split; split; refine Answers.next ?_; refine State.takeUnit_evolves (by assumption) ?_; exact e; dsimp only; split; split; refine Answers.next ?_
  apply State.askSync_evolves; apply State.modHier_evolves; refine State.takeUnit_evolves
    (by assumption) ?_; exact e; refine Answers.next ?_; apply State.applyNext_evolves
  apply State.modHier_evolves; refine State.takeUnit_evolves (by assumption) ?_; exact e; split; split; refine Answers.next ?_; apply State.modHier_evolves
  refine State.takeUnit_evolves (by assumption) ?_; exact e; refine Answers.next ?_; apply State.sendTo_evolves; apply State.modHier_evolves; apply State.modHier_evolves
  refine State.takeUnit_evolves (by assumption) ?_; exact e; refine Answers.next ?_; apply State.modHier_evolves; refine State.takeUnit_evolves
    (by assumption) ?_
  exact e; refine Answers.next ?_; exact e

theorem execCommit_evolves {s : State} (port : Nat) (term : Nat) (serial : Nat) (t : State) (e : Evolves s t) : Answers s
    (execCommit port term serial t) := by
  unfold execCommit
  split; split; refine Answers.next ?_; refine State.takeUnit_evolves
    (by assumption) ?_; exact e; split; split; refine Answers.next ?_; apply State.askSync_evolves
  refine State.takeUnit_evolves (by assumption) ?_; exact e; split; refine Answers.next ?_; split; refine State.takeUnit_evolves (by assumption) ?_; exact e
  apply State.applyChange_evolves; refine State.takeUnit_evolves (by assumption) ?_; exact e; refine Answers.next ?_; apply State.applyNext_evolves
  refine State.takeUnit_evolves (by assumption) ?_; exact e; refine Answers.next ?_; apply State.askSync_evolves; refine State.takeUnit_evolves
    (by assumption) ?_
  exact e; refine Answers.next ?_; exact e

theorem execChangeAck_evolves {s : State} (port : Nat) (serial : Nat) (devs : List Nat) (t : State) (e : Evolves s t) : Answers s
    (execChangeAck port serial devs t) := by
  unfold execChangeAck
  split; split; refine Answers.next ?_; refine State.takeUnit_evolves
    (by assumption) ?_; exact e; dsimp only; refine Answers.next ?_; apply State.settle_evolves
  apply State.commitReady_evolves; apply State.modHier_evolves; refine State.takeUnit_evolves (by assumption) ?_; exact e; refine Answers.next ?_; exact e

theorem execDkActivateIssue_evolves {s : State} (t : State) (e : Evolves s t) : Answers s (execDkActivateIssue t) := by
  unfold execDkActivateIssue
  split; dsimp only; split; refine Answers.next ?_; apply State.issueChange_evolves; exact e; refine Answers.next ?_; exact e; refine Answers.next ?_; exact e

theorem execSyncReq_evolves {s : State} (port : Nat) (src : Nat) (serial : Nat) (t : State) (e : Evolves s t) : Answers s
    (execSyncReq port src serial t) := by
  unfold execSyncReq
  split; split; refine Answers.next ?_; refine State.takeUnit_evolves
    (by assumption) ?_; exact e; dsimp only; refine Answers.next ?_; apply State.sendTo_evolves
  refine State.takeUnit_evolves (by assumption) ?_; exact e; refine Answers.next ?_; exact e

theorem execSync_evolves {s : State} (port : Nat) (b : SyncBody) (t : State) (e : Evolves s t) : Answers s (execSync port b t) := by
  unfold execSync
  split; split; refine Answers.next ?_; refine State.takeUnit_evolves
    (by assumption) ?_; exact e; split; dsimp only; refine Answers.next ?_; apply State.settle_evolves
  apply State.synced_evolves; refine evolves_foldl _ ?_ _ _ ?_; intro _ _ _; split; apply State.refill_evolves; assumption; apply State.applyNext_evolves; assumption
  refine State.takeUnit_evolves (by assumption) ?_; exact e; split; refine Answers.next ?_; refine State.takeUnit_evolves
    (by assumption) ?_; exact e; dsimp only
  refine Answers.next ?_; apply State.settle_evolves; apply State.synced_evolves; apply State.each_evolves; apply State.takeSnapshot_evolves
  refine State.takeUnit_evolves (by assumption) ?_; exact e; intro _ _ _; apply State.sendUnit_evolves; assumption; refine Answers.next ?_; exact e

theorem execRecord_evolves {s : State} (port src : Nat) (recs : List Bytes) (t : State) (e : Evolves s t) : Answers s (execRecord port src recs t) := by
  have hf : ∀ (l : List Bytes) (a : State × Option Nat), Evolves s a.1 → Evolves s (l.foldl (State.aggregate src) a).1 := by
    intro l
    induction l with
    | nil => exact fun a e => e
    | cons r l ih =>
      intro a e
      refine ih _ ?_
      unfold State.aggregate
      dsimp only
      split
      · exact e
      · have h3 := State.emit_evolves (Out.write none (a.1.hier.aggBase + 80 * a.1.hier.aggTail)
    (leBytes 2 src ++ zeros 2 ++ leBytes 4 a.1.hier.term ++ zeros 8 ++ padTo 64 r)) _ e
        dsimp only
        apply State.modHier_evolves
        exact h3
  unfold execRecord
  split
  · have h1 : Evolves s _ := State.takeUnit_evolves (by assumption) e
    split
    · exact Answers.next h1
    · have h2 := hf recs (_, none) h1
      split
      rename_i h
      rw [h] at h2
      have h2 : Evolves s _ := h2
      split
      · split
        · exact Answers.next (State.modHier_evolves _ _ h2)
        · exact Answers.next (State.sendTo_evolves _ _ _ h2)
      · exact Answers.next h2
  · exact Answers.next e

theorem execAggHead_evolves {s : State} (value : Nat) (t : State) (e : Evolves s t) : Answers s (execAggHead value t) := by
  unfold execAggHead
  refine Answers.next ?_; apply State.hostReg_evolves; exact e; intro _ _; apply State.aggHeadWrite_evolves; assumption

theorem execRecordAck_evolves {s : State} (port : Nat) (seq : Nat) (t : State) (e : Evolves s t) : Answers s (execRecordAck port seq t) := by
  unfold execRecordAck
  split; refine Answers.next ?_; apply State.forwardRecords_evolves; apply State.modHier_evolves; refine State.takeUnit_evolves (by assumption) ?_; exact e
  refine Answers.next ?_; exact e

theorem execFabStatus_evolves {s : State} (c : Caller) (t : State) (e : Evolves s t) : Answers s (execFabStatus c t) := by
  unfold execFabStatus
  refine Answers.next ?_; apply State.command_evolves; exact e; intro _ _ _ _; apply fabStatusRun_evolves; assumption; exact Or.inl (by decide)

theorem execFabRoleSet_evolves {s : State} (c : Caller) (t : State) (e : Evolves s t) : Answers s (execFabRoleSet c t) := by
  unfold execFabRoleSet
  refine Answers.next ?_; apply State.command_evolves; exact e; intro _ _ _ _; apply fabRoleSetRun_evolves; assumption; exact Or.inl (by decide)

theorem execDkCreate_evolves {s : State} (c : Caller) (t : State) (e : Evolves s t) : Answers s (execDkCreate c t) := by
  unfold execDkCreate
  refine Answers.next ?_; apply State.command_evolves; exact e; intro _ _ _ _; apply inTurn_evolves; assumption; intro _ _ _; apply dkCreateRun_evolves; assumption
  exact Or.inl (by decide)

theorem execDkRollover_evolves {s : State} (c : Caller) (t : State) (e : Evolves s t) : Answers s (execDkRollover c t) := by
  unfold execDkRollover
  refine Answers.next ?_; apply State.command_evolves; exact e; intro _ _ _ _; apply dkRolloverRun_evolves; assumption; exact Or.inl (by decide)

theorem execDkStatus_evolves {s : State} (c : Caller) (t : State) (e : Evolves s t) : Answers s (execDkStatus c t) := by
  unfold execDkStatus
  refine Answers.next ?_; apply State.command_evolves; exact e; intro _ _ _ _; apply dkStatusRun_evolves; assumption; exact Or.inl (by decide)

theorem execKeyGenerate_evolves {s : State} (c : Caller) (t : State) (e : Evolves s t) : Answers s (execKeyGenerate c t) := by
  unfold execKeyGenerate
  refine Answers.next ?_; apply State.command_evolves; exact e; intro _ _ _ _; apply keyGenerateRun_evolves; assumption; exact Or.inl (by decide)

theorem execKeyImportWrapped_evolves {s : State} (c : Caller) (t : State) (e : Evolves s t) : Answers s (execKeyImportWrapped c t) := by
  unfold execKeyImportWrapped
  refine Answers.next ?_; apply State.command_evolves; exact e; intro _ _ _ _; apply keyImportWrappedRun_evolves; assumption; exact Or.inl (by decide)

theorem execKeyImportClear_evolves {s : State} (c : Caller) (t : State) (e : Evolves s t) : Answers s (execKeyImportClear c t) := by
  unfold execKeyImportClear
  refine Answers.next ?_; apply State.command_evolves; exact e; intro _ _ _ _; apply keyImportClearRun_evolves; assumption; exact Or.inl (by decide)

theorem execKeyExportWrapped_evolves {s : State} (c : Caller) (t : State) (e : Evolves s t) : Answers s (execKeyExportWrapped c t) := by
  unfold execKeyExportWrapped
  refine Answers.next ?_; apply State.command_evolves; exact e; intro _ _ _ _; apply keyExportWrappedRun_evolves; assumption; exact Or.inl (by decide)

theorem execKeyExportPublic_evolves {s : State} (c : Caller) (t : State) (e : Evolves s t) : Answers s (execKeyExportPublic c t) := by
  unfold execKeyExportPublic
  refine Answers.next ?_; apply State.command_evolves; exact e; intro _ _ _ _; apply keyExportPublicRun_evolves; assumption; exact Or.inl (by decide)

theorem execKeySaveBlob_evolves {s : State} (c : Caller) (t : State) (e : Evolves s t) : Answers s (execKeySaveBlob c t) := by
  unfold execKeySaveBlob
  refine Answers.next ?_; apply State.command_evolves; exact e; intro _ _ _ _; apply keySaveBlobRun_evolves; assumption; exact Or.inl (by decide)

theorem execKeyLoadBlob_evolves {s : State} (c : Caller) (t : State) (e : Evolves s t) : Answers s (execKeyLoadBlob c t) := by
  unfold execKeyLoadBlob
  refine Answers.next ?_; apply State.command_evolves; exact e; intro _ _ _ _; apply keyLoadBlobRun_evolves; assumption; exact Or.inl (by decide)

theorem execKeyDerive_evolves {s : State} (c : Caller) (t : State) (e : Evolves s t) : Answers s (execKeyDerive c t) := by
  unfold execKeyDerive
  refine Answers.next ?_; apply State.command_evolves; exact e; intro _ _ _ _; apply keyDeriveRun_evolves; assumption; exact Or.inl (by decide)

theorem execKeyDelete_evolves {s : State} (c : Caller) (t : State) (e : Evolves s t) : Answers s (execKeyDelete c t) := by
  unfold execKeyDelete
  refine Answers.next ?_; apply State.command_evolves; exact e; intro _ _ _ _; apply inTurn_evolves; assumption; intro _ _ _; apply keyDeleteRun_evolves; assumption
  exact Or.inl (by decide)

theorem execKeySetPolicy_evolves {s : State} (c : Caller) (t : State) (e : Evolves s t) : Answers s (execKeySetPolicy c t) := by
  unfold execKeySetPolicy
  refine Answers.next ?_; apply State.command_evolves; exact e; intro _ _ _ _; apply inTurn_evolves; assumption; intro _ _ _; apply keySetPolicyRun_evolves; assumption
  exact Or.inl (by decide)

theorem execKeyQuery_evolves {s : State} (c : Caller) (t : State) (e : Evolves s t) : Answers s (execKeyQuery c t) := by
  unfold execKeyQuery
  refine Answers.next ?_; apply State.command_evolves; exact e; intro _ _ _ _; apply keyQueryRun_evolves; assumption; exact Or.inl (by decide)

theorem execKeysetGet_evolves {s : State} (c : Caller) (t : State) (e : Evolves s t) : Answers s (execKeysetGet c t) := by
  unfold execKeysetGet
  refine Answers.next ?_; apply State.command_evolves; exact e; intro _ _ _ _; apply keysetGetRun_evolves; assumption; exact Or.inl (by decide)

theorem execKeysetSet_evolves {s : State} (c : Caller) (t : State) (e : Evolves s t) : Answers s (execKeysetSet c t) := by
  unfold execKeysetSet
  refine Answers.next ?_; apply State.command_evolves; exact e; intro _ _ _ _; apply keysetSetRun_evolves; assumption; exact Or.inl (by decide)

theorem execImportAssemblyTimeout_evolves {s : State} (m : Nat) (t : State) (e : Evolves s t) : Answers s (execImportAssemblyTimeout m t) := by
  unfold execImportAssemblyTimeout
  split; split; refine Answers.next ?_; exact e; refine Answers.next ?_; apply State.modBox_evolves; exact e; refine Answers.next ?_; exact e

theorem execKeySweep_evolves {s : State} (bad : List (Nat × Nat × Nat)) (t : State) (e : Evolves s t) : Answers s (execKeySweep bad t) := by
  unfold execKeySweep
  split; refine Answers.next ?_; exact e; refine Answers.next ?_; apply State.modKeys_evolves; refine evolves_foldl _ ?_ _ _ ?_; intro _ _ _
  apply State.sweptBad_evolves; assumption; exact e; intro _; exact ⟨rfl, .inl rfl, Nat.le_refl _, id⟩

theorem execKeyEpochAdvance_evolves {s : State} (t : State) (e : Evolves s t) : Answers s (execKeyEpochAdvance t) := by
  unfold execKeyEpochAdvance
  split; refine Answers.next ?_; exact e; refine Answers.next ?_; apply State.modKeys_evolves; apply State.compareSmks_evolves; apply State.loadSik_evolves; exact e; intro _
  exact ⟨rfl, .inl rfl, Nat.le_refl _, id⟩

theorem execQuorumChallenge_evolves {s : State} (c : Caller) (t : State) (e : Evolves s t) : Answers s (execQuorumChallenge c t) := by
  unfold execQuorumChallenge
  refine Answers.next ?_; apply State.command_evolves; exact e; intro _ _ _ _; apply quorumChallengeRun_evolves; assumption; exact Or.inl (by decide)

theorem execCustodianEnrol_evolves {s : State} (c : Caller) (t : State) (e : Evolves s t) : Answers s (execCustodianEnrol c t) := by
  unfold execCustodianEnrol
  refine Answers.next ?_; apply State.command_evolves; exact e; intro _ _ _ _; apply custodianEnrolRun_evolves; assumption; exact Or.inl (by decide)

theorem execCustodianRemove_evolves {s : State} (c : Caller) (t : State) (e : Evolves s t) : Answers s (execCustodianRemove c t) := by
  unfold execCustodianRemove
  refine Answers.next ?_; apply State.command_evolves; exact e; intro _ _ _ _; apply custodianRemoveRun_evolves; assumption; exact Or.inl (by decide)

theorem execQuorumSet_evolves {s : State} (c : Caller) (t : State) (e : Evolves s t) : Answers s (execQuorumSet c t) := by
  unfold execQuorumSet
  refine Answers.next ?_; apply State.command_evolves; exact e; intro _ _ _ _; apply quorumSetRun_evolves; assumption; exact Or.inl (by decide)

theorem execCellWindowOpen_evolves {s : State} (c : Caller) (t : State) (e : Evolves s t) : Answers s (execCellWindowOpen c t) := by
  unfold execCellWindowOpen
  refine Answers.next ?_; apply State.command_evolves; exact e; intro _ _ _ _; apply cellWindowOpenRun_evolves; assumption; exact Or.inl (by decide)

theorem execCellWindowClose_evolves {s : State} (c : Caller) (t : State) (e : Evolves s t) : Answers s (execCellWindowClose c t) := by
  unfold execCellWindowClose
  refine Answers.next ?_; apply State.command_evolves; exact e; intro _ _ _ _; apply cellWindowCloseRun_evolves; assumption; exact Or.inl (by decide)

theorem execCellWindowExpire_evolves {s : State} (t : State) (e : Evolves s t) : Answers s (execCellWindowExpire t) := by
  unfold execCellWindowExpire
  split; refine Answers.next ?_; exact e; dsimp only; refine Answers.next ?_; apply State.settle_evolves; split; split; apply State.closeWindow_evolves; exact e
  refine Evolves.build rfl ?_ ?_ ?_ ?_ ?_ ?_ ?_ ?_ ?_ ?_ ?_ ?_; exact e; intro _; assumption; exact Rng.keeps_refl _; exact Custody.keeps_refl _
  exact Mail.keeps_refl _; exact ⟨id, id⟩; exact Worlds.keeps_refl _; intro _; assumption; exact Recorder.keeps_refl _; intro _; assumption
  exact Power.keeps_refl _; exact Renewal.keeps_refl _; apply State.tamperEvent_evolves; split; apply State.closeWindow_evolves; exact e
  refine Evolves.build rfl ?_ ?_ ?_ ?_ ?_ ?_ ?_ ?_ ?_ ?_ ?_ ?_; exact e; intro _; assumption; exact Rng.keeps_refl _; exact Custody.keeps_refl _
  exact Mail.keeps_refl _; exact ⟨id, id⟩; exact Worlds.keeps_refl _; intro _; assumption; exact Recorder.keeps_refl _; intro _; assumption
  exact Power.keeps_refl _; exact Renewal.keeps_refl _

theorem execZeroise_evolves {s : State} (c : Caller) (t : State) (e : Evolves s t) : Answers s (execZeroise c t) := by
  unfold execZeroise
  refine Answers.next ?_; apply State.zeroiseStep_evolves; apply State.command_evolves; exact e; intro _ _ _ _; apply zeroiseRun_evolves; assumption
  exact Or.inl (by decide)

theorem execDevResumeAlarm_evolves {s : State} (c : Caller) (t : State) (e : Evolves s t) : Answers s (execDevResumeAlarm c t) := by
  unfold execDevResumeAlarm
  refine Answers.next ?_; apply State.command_evolves; exact e; intro _ _ _ _; apply devResumeAlarmRun_evolves; assumption; exact Or.inl (by decide)

theorem execChallengeExpire_evolves {s : State} (t : State) (e : Evolves s t) : Answers s (execChallengeExpire t) := by
  unfold execChallengeExpire
  split; refine Answers.next ?_; apply State.endChallenge_evolves; exact e; refine Answers.next ?_; exact e

theorem execCardInsert_evolves {s : State} (p : Nat) (t : State) (e : Evolves s t) : Answers s (execCardInsert p t) := by
  unfold execCardInsert
  split; refine Answers.next ?_; exact e; refine Answers.next ?_; apply State.sendApdu_evolves; apply State.modCard_evolves; exact e

theorem execCardRemove_evolves {s : State} (p : Nat) (t : State) (e : Evolves s t) : Answers s (execCardRemove p t) := by
  unfold execCardRemove
  split; refine Answers.next ?_; exact e; refine Answers.next ?_; apply State.askCards_evolves; apply State.modCard_evolves; apply State.dropAsked_evolves; exact e

theorem execCardSupplyShort_evolves {s : State} (p : Nat) (t : State) (e : Evolves s t) : Answers s (execCardSupplyShort p t) := by
  unfold execCardSupplyShort
  split; refine Answers.next ?_; exact e; refine Answers.next ?_; apply State.askCards_evolves; apply State.modCard_evolves; apply State.dropAsked_evolves; exact e

theorem execCardTimeout_evolves {s : State} (p : Nat) (t : State) (e : Evolves s t) : Answers s (execCardTimeout p t) := by
  unfold execCardTimeout
  split; refine Answers.next ?_; exact e; refine Answers.next ?_; apply State.refuseCard_evolves; exact e

theorem execImagePolicySet_evolves {s : State} (c : Caller) (t : State) (e : Evolves s t) : Answers s (execImagePolicySet c t) := by
  unfold execImagePolicySet
  refine Answers.next ?_; apply State.command_evolves; exact e; intro _ _ _ _; apply imagePolicySetRun_evolves; assumption; exact Or.inl (by decide)

theorem execPerstAssert_evolves {s : State} (t : State) (e : Evolves s t) : Answers s (execPerstAssert t) := by
  unfold execPerstAssert
  split; refine Answers.next ?_; exact e; dsimp only; refine Answers.next ?_; refine Evolves.build rfl ?_ ?_ ?_ ?_ ?_ ?_ ?_ ?_ ?_ ?_ ?_ ?_; split
  apply State.noteLink_evolves; refine Evolves.other ?_; apply State.modDom_evolves; apply State.functionReset_evolves; exact e; split; apply State.gateTo_evolves
  apply State.modGate_evolves; apply State.noteLink_evolves; refine Evolves.other ?_; apply State.modDom_evolves; apply State.functionReset_evolves; exact e
  apply State.gateTo_evolves; apply State.closeGate_evolves; apply State.noteLink_evolves; refine Evolves.other ?_; apply State.modDom_evolves
  apply State.functionReset_evolves; exact e; intro _; assumption; exact Rng.keeps_refl _; exact Custody.keeps_refl _; exact Mail.keeps_refl _; exact Dual.keeps_refl _
  exact ⟨id, id⟩; intro _; assumption; exact Recorder.keeps_refl _; intro _; assumption; exact Power.keeps_refl _; exact Renewal.keeps_refl _

theorem execPerstRelease_evolves {s : State} (t : State) (e : Evolves s t) : Answers s (execPerstRelease t) := by
  unfold execPerstRelease
  split; refine Answers.next ?_; exact e; dsimp only; split; refine Answers.next ?_; refine Evolves.other ?_; exact e; split; refine Answers.next ?_
  apply State.openGate_evolves; refine Evolves.other ?_; exact e; refine Answers.next ?_; apply State.gateTo_evolves; refine Evolves.other ?_; exact e

theorem execGateVerdict_evolves {s : State} (g : GateRead) (t : State) (e : Evolves s t) : Answers s (execGateVerdict g t) := by
  unfold execGateVerdict
  split; refine Answers.next ?_; exact e; dsimp only; refine Answers.next ?_; apply State.bootFields_evolves; split; apply State.gateTo_evolves; apply State.modGate_evolves
  exact e; split; apply State.modGate_evolves; apply State.modGate_evolves; exact e; apply State.openGate_evolves; apply State.modGate_evolves; exact e

theorem execBootRecordWrite_evolves {s : State} (t : State) (e : Evolves s t) : Answers s (execBootRecordWrite t) := by
  unfold execBootRecordWrite
  split; split; refine Answers.next ?_; exact e; dsimp only; refine Answers.next ?_; refine Evolves.build rfl ?_ ?_ ?_ ?_ ?_ ?_ ?_ ?_ ?_ ?_ ?_ ?_
  apply State.each_evolves; exact e; intro _ _ _; apply State.record_evolves; assumption; intro _; assumption; exact Rng.keeps_refl _; exact Custody.keeps_refl _
  exact Mail.keeps_refl _; exact Dual.keeps_refl _; exact Worlds.keeps_refl _; intro _; assumption; exact Recorder.keeps_refl _; intro _; assumption
  exact Power.keeps_refl _; exact ⟨Nat.le_refl _, Nat.le_refl _, Nat.le_refl _⟩; refine Answers.next ?_; exact e

theorem execBootRecordGet_evolves {s : State} (c : Caller) (t : State) (e : Evolves s t) : Answers s (execBootRecordGet c t) := by
  unfold execBootRecordGet
  refine Answers.next ?_; apply State.command_evolves; exact e; intro _ _ _ _; apply bootRecordGetRun_evolves; assumption; exact Or.inl (by decide)

theorem execHostFlashAccess_evolves {s : State} (flash : Nat) (addr : Nat) (len : Nat) (op : FlashOp) (t : State) (e : Evolves s t) : Answers s
    (execHostFlashAccess flash addr len op t) := by
  unfold execHostFlashAccess
  split; refine Answers.next ?_; exact e; split; refine Answers.next ?_; apply State.modGate_evolves; exact e; refine Answers.next ?_; apply State.modGate_evolves; exact e

theorem execIdentityGet_evolves {s : State} (c : Caller) (t : State) (e : Evolves s t) : Answers s (execIdentityGet c t) := by
  unfold execIdentityGet
  refine Answers.next ?_; apply State.command_evolves; exact e; intro _ _ _ _; apply identityGetRun_evolves; assumption; exact Or.inl (by decide)

theorem execMeasurementsGet_evolves {s : State} (c : Caller) (t : State) (e : Evolves s t) : Answers s (execMeasurementsGet c t) := by
  unfold execMeasurementsGet
  refine Answers.next ?_; apply State.command_evolves; exact e; intro _ _ _ _; apply measurementsGetRun_evolves; assumption; exact Or.inl (by decide)

theorem execSpdmRequest_evolves {s : State} (t0 : Transport) (r : SpdmReq) (t : State) (e : Evolves s t) : Answers s (execSpdmRequest t0 r t) := by
  unfold execSpdmRequest
  split; refine Answers.next ?_; exact e; split; refine Answers.next ?_; refine Evolves.other ?_; exact e; dsimp only; refine Answers.next ?_
  refine Evolves.other ?_; apply State.freeBytes_evolves_snd; exact e

theorem execErRead_evolves {s : State} (c : Caller) (t : State) (e : Evolves s t) : Answers s (execErRead c t) := by
  unfold execErRead
  refine Answers.next ?_; apply State.command_evolves; exact e; intro _ _ _ _; apply erReadRun_evolves; assumption; exact Or.inl (by decide)

theorem execErClear_evolves {s : State} (c : Caller) (t : State) (e : Evolves s t) : Answers s (execErClear c t) := by
  unfold execErClear
  refine Answers.next ?_; apply State.command_evolves; exact e; intro _ _ _ _; apply erClearRun_evolves; assumption; exact Or.inl (by decide)

theorem execTamperStatus_evolves {s : State} (c : Caller) (t : State) (e : Evolves s t) : Answers s (execTamperStatus c t) := by
  unfold execTamperStatus
  refine Answers.next ?_; apply State.command_evolves; exact e; intro _ _ _ _; apply tamperStatusRun_evolves; assumption; exact Or.inl (by decide)

theorem execTamperConfig_evolves {s : State} (c : Caller) (t : State) (e : Evolves s t) : Answers s (execTamperConfig c t) := by
  unfold execTamperConfig
  refine Answers.next ?_; apply State.command_evolves; exact e; intro _ _ _ _; apply tamperConfigRun_evolves; assumption; exact Or.inl (by decide)

theorem execWorldStatus_evolves {s : State} (c : Caller) (t : State) (e : Evolves s t) : Answers s (execWorldStatus c t) := by
  unfold execWorldStatus
  refine Answers.next ?_; apply State.command_evolves; exact e; intro _ _ _ _; apply worldStatusRun_evolves; assumption; exact Or.inl (by decide)

theorem execPwrDomainSet_evolves {s : State} (c : Caller) (t : State) (e : Evolves s t) : Answers s (execPwrDomainSet c t) := by
  unfold execPwrDomainSet
  refine Answers.next ?_; apply State.command_evolves; exact e; intro _ _ _ _; apply pwrDomainSetRun_evolves; assumption; exact Or.inl (by decide)

theorem execPwrStatus_evolves {s : State} (c : Caller) (t : State) (e : Evolves s t) : Answers s (execPwrStatus c t) := by
  unfold execPwrStatus
  refine Answers.next ?_; apply State.command_evolves; exact e; intro _ _ _ _; apply pwrStatusRun_evolves; assumption; exact Or.inl (by decide)

theorem execGo_evolves {s : State} (w : World) (t : State) (e : Evolves s t) : Answers s (execGo w t) := by
  unfold execGo
  refine Answers.next ?_; apply State.powerGo_evolves; exact e

theorem execSleepEntry_evolves {s : State} (d : Nat) (t : State) (e : Evolves s t) : Answers s (execSleepEntry d t) := by
  unfold execSleepEntry
  split; refine Answers.next ?_; apply State.settle_evolves; apply State.enterState_evolves; exact e; refine Answers.next ?_; exact e

theorem execDeepEntry_evolves {s : State} (d : Nat) (t : State) (e : Evolves s t) : Answers s (execDeepEntry d t) := by
  unfold execDeepEntry
  split; refine Answers.next ?_; apply State.settle_evolves; apply State.enterState_evolves; apply State.deepLoss_evolves; exact e; refine Answers.next ?_; exact e

theorem execOffEntry_evolves {s : State} (t : State) (e : Evolves s t) : Answers s (execOffEntry t) := by
  unfold execOffEntry
  split; refine Answers.next ?_; exact e; dsimp only; refine Answers.next ?_; apply State.modDom_evolves
  refine Evolves.build rfl ?_ ?_ ?_ ?_ ?_ ?_ ?_ ?_ ?_ ?_ ?_ ?_; apply State.dark_evolves; exact e; intro _; assumption; exact Rng.keeps_refl _
  exact Custody.keeps_refl _; exact Mail.keeps_refl _; exact Dual.keeps_refl _; exact Worlds.keeps_refl _; intro _; assumption; exact Recorder.keeps_refl _; intro _
  assumption; exact ⟨id, id⟩; exact ⟨Nat.le_refl _, Nat.le_refl _, Nat.le_refl _⟩

theorem execDomainWake_evolves {s : State} (d : Nat) (src : WakeSource) (t : State) (e : Evolves s t) : Answers s (execDomainWake d src t) := by
  unfold execDomainWake
  split; refine Answers.next ?_; apply State.startWake_evolves; exact e; refine Answers.next ?_; exact e

theorem execDomainExitDone_evolves {s : State} (d : Nat) (t : State) (e : Evolves s t) : Answers s (execDomainExitDone d t) := by
  unfold execDomainExitDone
  split; refine Answers.next ?_; exact e; split; refine Answers.next ?_; apply State.settle_evolves; split; apply State.channelReturn_evolves; exact e
  apply State.wakeNote_evolves; apply State.coreReturn_evolves; exact e; apply State.portReturn_evolves; apply State.wakeNote_evolves; exact e; apply State.wakeNote_evolves
  exact e; refine Answers.next ?_; exact e

theorem execWakePin_evolves {s : State} (inWindow : Bool) (t : State) (e : Evolves s t) : Answers s (execWakePin inWindow t) := by
  unfold execWakePin
  split; refine Answers.next ?_; exact e; split; refine Answers.next ?_; apply State.modDom_evolves; exact e; dsimp only; refine Answers.next ?_; apply State.each_evolves
  exact e; intro _ _ _; apply State.startWake_evolves; assumption

theorem execRegulatorSettled_evolves {s : State} (g : Nat) (mv : Nat) (t : State) (e : Evolves s t) : Answers s (execRegulatorSettled g mv t) := by
  unfold execRegulatorSettled
  dsimp only; split; refine Answers.next ?_; exact e; refine Answers.next ?_; apply State.settle_evolves; apply State.groupSettled_evolves; exact e

theorem execRegulatorFault_evolves {s : State} (g : Nat) (mv : Nat) (t : State) (e : Evolves s t) : Answers s (execRegulatorFault g mv t) := by
  unfold execRegulatorFault
  split; refine Answers.next ?_; exact e; dsimp only; refine Answers.next ?_; apply State.settle_evolves; apply State.recordRegulator_evolves; apply State.modGrp_evolves
  exact e

theorem execRegulatorRetry_evolves {s : State} (g : Nat) (mv : Nat) (t : State) (e : Evolves s t) : Answers s (execRegulatorRetry g mv t) := by
  unfold execRegulatorRetry
  dsimp only; split; refine Answers.next ?_; exact e; split; refine Answers.next ?_; apply State.settle_evolves; apply State.recordRegulator_evolves
  apply State.groupSettled_evolves; exact e; refine Answers.next ?_; apply State.modGrp_evolves; exact e

theorem execRegulatorPoll_evolves {s : State} (g : Nat) (mv : Nat) (ma : Nat) (t : State) (e : Evolves s t) : Answers s (execRegulatorPoll g mv ma t) := by
  unfold execRegulatorPoll
  split; refine Answers.next ?_; exact e; refine Answers.next ?_; apply State.modGrp_evolves; exact e

theorem execRocChange_evolves {s : State} (junctionOk : Bool) (vhuOk : Bool) (railsOk : Bool) (t : State) (e : Evolves s t) : Answers s
    (execRocChange junctionOk vhuOk railsOk t) := by
  unfold execRocChange
  refine Answers.next ?_; apply State.settle_evolves; refine Evolves.other ?_; exact e

theorem execHostLinkPmChange_evolves {s : State} (pm : Nat) (t : State) (e : Evolves s t) : Answers s (execHostLinkPmChange pm t) := by
  unfold execHostLinkPmChange
  split; refine Answers.next ?_; exact e; dsimp only; refine Answers.next ?_; split; split; apply State.wakeNote_evolves; apply State.setLinkPm_evolves; exact e
  apply State.modDom_evolves; apply State.setLinkPm_evolves; exact e; split; apply State.wakeNote_evolves; apply State.setLinkPm_evolves; exact e; apply State.modDom_evolves
  apply State.setLinkPm_evolves; exact e

theorem execFwUpdate_evolves {s : State} (c : Caller) (t : State) (e : Evolves s t) : Answers s (execFwUpdate c t) := by
  unfold execFwUpdate
  refine Answers.next ?_; apply State.command_evolves; exact e; intro _ _ _ _; apply inTurn_evolves; assumption; intro _ _ _; apply fwUpdateRun_evolves; assumption
  exact Or.inl (by decide)

theorem execFwTrialEnd_evolves {s : State} (t : State) (e : Evolves s t) : Answers s (execFwTrialEnd t) := by
  unfold execFwTrialEnd
  split; refine Answers.next ?_; exact e; dsimp only; refine Answers.next ?_; apply State.endJobs_evolves
  refine Evolves.build rfl ?_ ?_ ?_ ?_ ?_ ?_ ?_ ?_ ?_ ?_ ?_ ?_; apply State.modWorld_evolves; exact e; intro _; assumption; exact Rng.keeps_refl _
  exact Custody.keeps_refl _; exact Mail.keeps_refl _; exact Dual.keeps_refl _; exact Worlds.keeps_refl _; intro _; assumption; exact Recorder.keeps_refl _; intro _
  assumption; exact Power.keeps_refl _; exact ⟨Nat.le_refl _, Nat.le_refl _, Nat.le_refl _⟩

theorem execOwUpdate_evolves {s : State} (c : Caller) (t : State) (e : Evolves s t) : Answers s (execOwUpdate c t) := by
  unfold execOwUpdate
  refine Answers.next ?_; apply State.command_evolves; exact e; intro _ _ _ _; apply inTurn_evolves; assumption; intro _ _ _; apply owUpdateRun_evolves; assumption
  exact Or.inl (by decide)

theorem execMcUpdate_evolves {s : State} (c : Caller) (t : State) (e : Evolves s t) : Answers s (execMcUpdate c t) := by
  unfold execMcUpdate
  refine Answers.next ?_; apply State.command_evolves; exact e; intro _ _ _ _; apply mcUpdateRun_evolves; assumption; exact Or.inl (by decide)

theorem execMcChannelUpdateStep_evolves {s : State} (ch : Nat) (image : Bytes) (katOk : Bool) (oldKatOk : Bool) (t : State) (e : Evolves s t)
    : Answers s (execMcChannelUpdateStep ch image katOk oldKatOk t) := by
  unfold execMcChannelUpdateStep
  dsimp only; split; refine Answers.next ?_; exact e; split; split; refine Answers.next ?_; apply State.settle_evolves; apply State.firstLoad_evolves; exact e
  refine Answers.next ?_; exact e; split; split; refine Answers.next ?_; exact e; split; refine Answers.next ?_; apply State.settle_evolves; apply State.nextLoad_evolves
  refine Evolves.build rfl ?_ ?_ ?_ ?_ ?_ ?_ ?_ ?_ ?_ ?_ ?_ ?_; apply State.modCh_evolves; apply State.modCh_evolves; exact e; intro _; assumption
  exact Rng.keeps_refl _; exact Custody.keeps_refl _; exact Mail.keeps_refl _; exact Dual.keeps_refl _; exact Worlds.keeps_refl _; intro _; assumption
  exact Recorder.keeps_refl _; intro _; assumption; exact Power.keeps_refl _; exact ⟨Nat.le_refl _, Nat.le_refl _, Nat.le_refl _⟩; split; refine Answers.next ?_
  apply State.settle_evolves; apply State.recordMc_evolves; refine Evolves.build rfl ?_ ?_ ?_ ?_ ?_ ?_ ?_ ?_ ?_ ?_ ?_ ?_; apply State.modCh_evolves
  apply State.modCh_evolves; exact e; intro _; assumption; exact Rng.keeps_refl _; exact Custody.keeps_refl _; exact Mail.keeps_refl _; exact Dual.keeps_refl _
  exact Worlds.keeps_refl _; intro _; assumption; exact Recorder.keeps_refl _; intro _; assumption; exact Power.keeps_refl _
  exact ⟨Nat.le_refl _, Nat.le_refl _, Nat.le_refl _⟩; refine Answers.next ?_; apply State.settle_evolves; apply State.nextLoad_evolves; apply State.recordMc_evolves
  refine Evolves.build rfl ?_ ?_ ?_ ?_ ?_ ?_ ?_ ?_ ?_ ?_ ?_ ?_; apply State.modCh_evolves; apply State.modCh_evolves; exact e; intro _; assumption
  exact Rng.keeps_refl _; exact Custody.keeps_refl _; exact Mail.keeps_refl _; exact Dual.keeps_refl _; exact Worlds.keeps_refl _; intro _; assumption
  exact Recorder.keeps_refl _; intro _; assumption; exact Power.keeps_refl _; exact ⟨Nat.le_refl _, Nat.le_refl _, Nat.le_refl _⟩; refine Answers.next ?_
  exact e

theorem execPldmActivateFirmware_evolves {s : State} (b : Bytes) (t : State) (e : Evolves s t) : Answers s (execPldmActivateFirmware b t) := by
  unfold execPldmActivateFirmware
  dsimp only; split; refine Answers.next ?_; refine Evolves.other ?_; exact e; split; refine Answers.next ?_; refine Evolves.other ?_; exact e; split
  refine Answers.next ?_; refine Evolves.other ?_; exact e; split; split; refine Answers.next ?_; refine Evolves.other ?_; exact e; refine Answers.next ?_
  refine Evolves.other ?_; apply State.settle_evolves; apply State.startLoad_evolves; exact e; split; refine Answers.next ?_; refine Evolves.other ?_; exact e
  refine Answers.next ?_; refine Evolves.other ?_; apply State.settle_evolves; apply State.activateOw_evolves; exact e

theorem execImageFlashWrite_evolves {s : State} (kind : Nat) (readBackOk : Bool) (t : State) (e : Evolves s t) : Answers s
    (execImageFlashWrite kind readBackOk t) := by
  unfold execImageFlashWrite
  split; refine Answers.next ?_; exact e; dsimp only; split; refine Answers.next ?_; apply State.beginWrite_evolves; exact e; refine Answers.next ?_
  apply State.settle_evolves; apply State.raiseFloors_evolves; refine Evolves.build rfl ?_ ?_ ?_ ?_ ?_ ?_ ?_ ?_ ?_ ?_ ?_ ?_; apply State.beginWrite_evolves; exact e
  intro _; assumption; exact Rng.keeps_refl _; exact Custody.keeps_refl _; exact Mail.keeps_refl _; exact Dual.keeps_refl _; exact Worlds.keeps_refl _; intro _
  assumption; exact Recorder.keeps_refl _; intro _; assumption; exact Power.keeps_refl _; split; exact ⟨Nat.le_refl _, Nat.le_refl _, Nat.le_refl _⟩; split
  exact ⟨Nat.le_refl _, Nat.le_refl _, Nat.le_refl _⟩; exact ⟨Nat.le_refl _, Nat.le_refl _, Nat.le_refl _⟩

theorem execMbxGo_evolves {s : State} (m : Nat) (t : State) (e : Evolves s t) : Answers s (execMbxGo m t) := by
  unfold execMbxGo
  split; refine Answers.next ?_; exact e; refine Answers.next ?_; apply State.hostReg_evolves; exact e; intro _ _; apply State.goWrite_evolves; assumption

theorem execCall_evolves {s : State} (g : Nat) (t : State) (e : Evolves s t) : Answers s (execCall g t) := by
  unfold execCall
  refine Answers.next ?_; apply State.callWrite_evolves; exact e

theorem execExtensionCommand_evolves {s : State} (m : Nat) (t : State) (e : Evolves s t) : Answers s (execExtensionCommand m t) := by
  unfold execExtensionCommand
  split
  · dsimp only
    split
    · refine Answers.next (State.command_evolves _ _ _ _ e (fun c q t e => extensionRun_evolves _ _ _ _ e) (.inl ?_))
      rename_i h
      unfold State.extension at h
      split at h
      · cases h
      · dsimp only; omega
    · exact Answers.next e
  · exact Answers.next e

theorem execExtensionReply_evolves {s : State} (m : Nat) (status : Nat) (detail : Nat) (body : Bytes) (t : State) (e : Evolves s t) : Answers s
    (execExtensionReply m status detail body t) := by
  unfold execExtensionReply
  split; split; refine Answers.next ?_; exact e; refine Answers.next ?_; apply State.settle_evolves; apply State.endExtension_evolves; exact e; refine Answers.next ?_
  exact e

theorem execExtensionTimeout_evolves {s : State} (m : Nat) (t : State) (e : Evolves s t) : Answers s (execExtensionTimeout m t) := by
  unfold execExtensionTimeout
  split; split; split; refine Answers.next ?_; exact e; refine Answers.next ?_; apply State.settle_evolves; apply State.endExtension_evolves; exact e
  refine Answers.next ?_; exact e; refine Answers.next ?_; exact e

theorem execMainSuppliesGood_evolves {s : State} (b : BootInfo) (t : State) (e : Evolves s t) : Answers s (execMainSuppliesGood b t) := by
  unfold execMainSuppliesGood
  split; refine Answers.next ?_; exact e; dsimp only; refine Answers.next ?_; apply State.settle_evolves
  refine Evolves.build rfl ?_ ?_ ?_ ?_ ?_ ?_ ?_ ?_ ?_ ?_ ?_ ?_; apply State.each_evolves; apply State.startGate_evolves; apply State.startImages_evolves
  apply State.readDirectory_evolves; apply State.dropPending_evolves; apply State.nextBank_evolves; apply State.latched_evolves; split; apply State.checkRoot_evolves
  apply State.readCell_evolves; apply State.readCell_evolves; apply State.writeStart_evolves; apply State.mergeTahr_evolves
  refine Evolves.build rfl ?_ ?_ ?_ ?_ ?_ ?_ ?_ ?_ ?_ ?_ ?_ ?_; apply State.time0_evolves; exact e; intro _; assumption; exact Rng.keeps_refl _
  exact Custody.keeps_refl _; exact Mail.keeps_refl _; exact Dual.keeps_refl _; exact Worlds.keeps_refl _; intro _; assumption; apply Recorder.resume_evolves; intro _
  assumption; exact Power.keeps_refl _; exact Renewal.keeps_refl _; apply State.tamperEvent_evolves; apply State.checkRoot_evolves; apply State.readCell_evolves
  apply State.readCell_evolves; apply State.writeStart_evolves; refine Evolves.build rfl ?_ ?_ ?_ ?_ ?_ ?_ ?_ ?_ ?_ ?_ ?_ ?_; apply State.time0_evolves; exact e
  intro _; assumption; exact Rng.keeps_refl _; exact Custody.keeps_refl _; exact Mail.keeps_refl _; exact Dual.keeps_refl _; exact Worlds.keeps_refl _; intro _
  assumption; apply Recorder.resume_evolves; intro _; assumption; exact Power.keeps_refl _; exact Renewal.keeps_refl _; intro _ _ _; apply State.askTest_evolves
  assumption; intro _; assumption; exact Rng.keeps_refl _; exact Custody.keeps_refl _; exact Mail.keeps_refl _; exact Dual.keeps_refl _; exact Worlds.keeps_refl _
  intro _; assumption; exact Recorder.keeps_refl _; intro _; assumption; exact Power.keeps_refl _; exact ⟨Nat.le_refl _, Nat.le_refl _, Nat.le_refl _⟩

theorem execReady_evolves {s : State} (t : State) (e : Evolves s t) : Answers s (execReady t) := by
  unfold execReady
  split; refine Answers.next ?_; exact e; refine Answers.next ?_; apply State.settle_evolves; refine Evolves.build rfl ?_ ?_ ?_ ?_ ?_ ?_ ?_ ?_ ?_ ?_ ?_ ?_; exact e
  intro _; assumption; exact Rng.keeps_refl _; exact Custody.keeps_refl _; exact Mail.keeps_refl _; exact Dual.keeps_refl _; exact Worlds.keeps_refl _; intro _
  assumption; exact Recorder.keeps_refl _; intro _; assumption; exact Power.keeps_refl _; dsimp only; exact ⟨Nat.le_refl _, Nat.le_refl _, Nat.le_refl _⟩

theorem execRegisterWrite_evolves {s : State} (via : Via) (off : Nat) (data : Bytes) (t : State) (e : Evolves s t) : Answers s
    (execRegisterWrite via off data t) := by
  unfold execRegisterWrite
  split; refine Answers.next ?_; apply State.hostWrite_evolves; exact e; refine Answers.next ?_; apply State.hostWrite_evolves; exact e; refine Answers.next ?_
  apply State.hostWrite_evolves; exact e; dsimp only; split; refine Answers.next ?_; exact e; split; refine Answers.next ?_; apply State.serowFault_evolves; exact e
  split; refine Answers.next ?_; apply State.fieldWrite_evolves; exact e; refine Answers.next ?_; exact e

theorem execStagedCommitApply_evolves {s : State} (blk : StagedBlk) (t : State) (e : Evolves s t) : Answers s (execStagedCommitApply blk t) := by
  unfold execStagedCommitApply
  split; split; refine Answers.next ?_; exact e; refine Answers.next ?_; apply State.modDist_evolves; exact e; dsimp only; split; refine Answers.next ?_; exact e
  refine Answers.next ?_; apply State.modPort_evolves; exact e

theorem execBarAccessRefused_evolves {s : State} (bar : Nat) (off : Nat) (len : Nat) (write : Bool) (t : State) (e : Evolves s t) : Answers s
    (execBarAccessRefused bar off len write t) := by
  unfold execBarAccessRefused
  split; refine Answers.next ?_; exact e; split; refine Answers.next ?_; apply State.refuseAccess_evolves; exact e; refine Answers.next ?_; split; exact e
  apply State.emit_evolves; exact e

theorem execMsixTableWrite_evolves {s : State} (vector : Nat) (addr : Nat) (data : Nat) (masked : Bool) (t : State) (e : Evolves s t) : Answers s
    (execMsixTableWrite vector addr data masked t) := by
  unfold execMsixTableWrite
  split; refine Answers.next ?_; exact e; refine Answers.next ?_; apply State.msixWrite_evolves; exact e

theorem execSerowAccess_evolves {s : State} (core : Nat) (priv : Priv) (t0 : AccessType) (addr : Nat) (data : Bytes) (t : State) (e : Evolves s t)
    : Answers s (execSerowAccess core priv t0 addr data t) := by
  unfold execSerowAccess
  dsimp only; split; refine Answers.next ?_; exact e; split; refine Answers.next ?_; apply State.serowFault_evolves; exact e; split; exact Answers.fault
  exact Answers.fault; split; refine Answers.next ?_; apply State.serowFault_evolves; refine Evolves.build rfl ?_ ?_ ?_ ?_ ?_ ?_ ?_ ?_ ?_ ?_ ?_ ?_; exact e
  intro _; assumption; exact Rng.keeps_refl _; exact Custody.keeps_refl _; exact Mail.keeps_refl _; exact Dual.keeps_refl _; exact Worlds.keeps_refl _; intro _
  assumption; exact Recorder.keeps_refl _; intro _; assumption; exact ⟨id, id⟩; exact Renewal.keeps_refl _; refine Answers.next ?_; apply State.settle_evolves
  apply State.accessEffect_evolves; exact e; refine Answers.next ?_; apply State.serowFault_evolves; exact e

theorem execDbgStatus_evolves {s : State} (r : DbgReq) (t : State) (e : Evolves s t) : Answers s (execDbgStatus r t) := by
  unfold execDbgStatus
  refine Answers.next ?_; apply State.dbgRequest_evolves; exact e; intro _ _; apply State.dbgWait_evolves; assumption; intro _ _; apply State.dbgAnswer_evolves
  assumption

theorem execDbgRead_evolves {s : State} (r : DbgReq) (t : State) (e : Evolves s t) : Answers s (execDbgRead r t) := by
  unfold execDbgRead
  refine Answers.next ?_; apply State.settle_evolves; apply State.dbgRequest_evolves; exact e; intro _ _; apply State.dbgWait_evolves; assumption; intro _ _
  apply State.dbgAccess_evolves; assumption

theorem execDbgWrite_evolves {s : State} (r : DbgReq) (t : State) (e : Evolves s t) : Answers s (execDbgWrite r t) := by
  unfold execDbgWrite
  refine Answers.next ?_; apply State.settle_evolves; apply State.dbgRequest_evolves; exact e; intro _ _; apply State.dbgWait_evolves; assumption; intro _ _
  apply State.dbgAccess_evolves; assumption

theorem execPortReset_evolves {s : State} (r : DbgReq) (t : State) (e : Evolves s t) : Answers s (execPortReset r t) := by
  unfold execPortReset
  refine Answers.next ?_; apply State.dbgRequest_evolves; exact e; intro _ _; apply State.dbgAnswer_evolves
  refine Evolves.build rfl ?_ ?_ ?_ ?_ ?_ ?_ ?_ ?_ ?_ ?_ ?_ ?_; assumption; intro _; assumption; exact Rng.keeps_refl _; exact Custody.keeps_refl _
  exact Mail.keeps_refl _; exact Dual.keeps_refl _; dsimp only; exact ⟨id, id⟩; intro _; assumption; exact Recorder.keeps_refl _; intro _; assumption
  exact Power.keeps_refl _; exact Renewal.keeps_refl _

theorem execDbgBusAccessComplete_evolves {s : State} (ok : Bool) (data : BitVec 64) (t : State) (e : Evolves s t) : Answers s
    (execDbgBusAccessComplete ok data t) := by
  unfold execDbgBusAccessComplete
  split; refine Answers.next ?_; refine Evolves.build rfl ?_ ?_ ?_ ?_ ?_ ?_ ?_ ?_ ?_ ?_ ?_ ?_; exact e; intro _; assumption; exact Rng.keeps_refl _
  exact Custody.keeps_refl _; exact Mail.keeps_refl _; exact Dual.keeps_refl _; dsimp only; exact ⟨id, id⟩; intro _; assumption; exact Recorder.keeps_refl _
  intro _; assumption; exact Power.keeps_refl _; exact Renewal.keeps_refl _; refine Answers.next ?_; exact e

theorem execBypass_evolves {s : State} (t : State) (e : Evolves s t) : Answers s (execBypass t) := by
  unfold execBypass
  refine Answers.next ?_; apply State.setJtag_evolves; exact e

theorem execIdcode_evolves {s : State} (t : State) (e : Evolves s t) : Answers s (execIdcode t) := by
  unfold execIdcode
  refine Answers.next ?_; apply State.setJtag_evolves; exact e

theorem execSamplePreload_evolves {s : State} (t : State) (e : Evolves s t) : Answers s (execSamplePreload t) := by
  unfold execSamplePreload
  refine Answers.next ?_; apply State.setJtag_evolves; exact e

theorem execExtest_evolves {s : State} (t : State) (e : Evolves s t) : Answers s (execExtest t) := by
  unfold execExtest
  refine Answers.next ?_; apply State.jtagTest_evolves; exact e

theorem execClamp_evolves {s : State} (t : State) (e : Evolves s t) : Answers s (execClamp t) := by
  unfold execClamp
  refine Answers.next ?_; apply State.jtagTest_evolves; exact e

theorem execHighz_evolves {s : State} (t : State) (e : Evolves s t) : Answers s (execHighz t) := by
  unfold execHighz
  refine Answers.next ?_; apply State.jtagTest_evolves; exact e

theorem execCommandReply_evolves {s : State} (c : Caller) (t : State) (hq : ∀ j ∈ t.mail.running, j.quiet) (e : Evolves s t) : Answers s
    (execCommandReply c t) := by
  unfold execCommandReply
  split
  · exact Answers.next e
  · split
    · rename_i h
      split
      · exact Answers.next (State.settle_evolves _ _ (State.jobStep_evolves _ (hq _ (List.mem_of_find?_eq_some h)) (by assumption) e))
      · exact Answers.next e
    · split
      · exact Answers.next (State.settle_evolves _ _ (State.proposalAgain_evolves _ _ e))
      · exact Answers.next (State.settle_evolves _ _ (State.refuseUnknown_evolves _ _ e))

end Sys2Proof.Machine
end

