-- ==== Sys2Proof/Laws/State.lean ====
section
/-! SUPPORT. One lemma per field per update of State: what each named update leaves as it was, and what it changes. -/

namespace Sys2Proof.Machine

variable (s : State)

/-! ### State.modCh -/

@[simp] theorem State.modCh_pending (n : Nat) (f : Channel → Channel) : (s.modCh n f).pending = s.pending := rfl
@[simp] theorem State.modCh_glob (n : Nat) (f : Channel → Channel) : (s.modCh n f).glob = s.glob := rfl
@[simp] theorem State.modCh_md (n : Nat) (f : Channel → Channel) : (s.modCh n f).md = s.md := rfl
@[simp] theorem State.modCh_hp (n : Nat) (f : Channel → Channel) : (s.modCh n f).hp = s.hp := rfl
@[simp] theorem State.modCh_slices (n : Nat) (f : Channel → Channel) : (s.modCh n f).slices = s.slices := rfl
@[simp] theorem State.modCh_ints (n : Nat) (f : Channel → Channel) : (s.modCh n f).ints = s.ints := rfl
@[simp] theorem State.modCh_chs (n : Nat) (f : Channel → Channel) : (s.modCh n f).chs = s.chs.modify n f := rfl
@[simp] theorem State.modCh_dist (n : Nat) (f : Channel → Channel) : (s.modCh n f).dist = s.dist := rfl
@[simp] theorem State.modCh_rng (n : Nat) (f : Channel → Channel) : (s.modCh n f).rng = s.rng := rfl
@[simp] theorem State.modCh_keys (n : Nat) (f : Channel → Channel) : (s.modCh n f).keys = s.keys := rfl
@[simp] theorem State.modCh_mail (n : Nat) (f : Channel → Channel) : (s.modCh n f).mail = s.mail := rfl
@[simp] theorem State.modCh_dual (n : Nat) (f : Channel → Channel) : (s.modCh n f).dual = s.dual := rfl
@[simp] theorem State.modCh_gate (n : Nat) (f : Channel → Channel) : (s.modCh n f).gate = s.gate := rfl
@[simp] theorem State.modCh_worlds (n : Nat) (f : Channel → Channel) : (s.modCh n f).worlds = s.worlds := rfl
@[simp] theorem State.modCh_tamper (n : Nat) (f : Channel → Channel) : (s.modCh n f).tamper = s.tamper := rfl
@[simp] theorem State.modCh_er (n : Nat) (f : Channel → Channel) : (s.modCh n f).er = s.er := rfl
@[simp] theorem State.modCh_ports (n : Nat) (f : Channel → Channel) : (s.modCh n f).ports = s.ports := rfl
@[simp] theorem State.modCh_hier (n : Nat) (f : Channel → Channel) : (s.modCh n f).hier = s.hier := rfl
@[simp] theorem State.modCh_power (n : Nat) (f : Channel → Channel) : (s.modCh n f).power = s.power := rfl
@[simp] theorem State.modCh_renewal (n : Nat) (f : Channel → Channel) : (s.modCh n f).renewal = s.renewal := rfl

/-! ### State.setSlice -/

@[simp] theorem State.setSlice_pending (x : Slice) : (s.setSlice x).pending = s.pending := rfl
@[simp] theorem State.setSlice_glob (x : Slice) : (s.setSlice x).glob = s.glob := rfl
@[simp] theorem State.setSlice_md (x : Slice) : (s.setSlice x).md = s.md := rfl
@[simp] theorem State.setSlice_hp (x : Slice) : (s.setSlice x).hp = s.hp := rfl
@[simp] theorem State.setSlice_slices (x : Slice) : (s.setSlice x).slices = upsert (·.num) x s.slices := rfl
@[simp] theorem State.setSlice_ints (x : Slice) : (s.setSlice x).ints = s.ints := rfl
@[simp] theorem State.setSlice_chs (x : Slice) : (s.setSlice x).chs = s.chs := rfl
@[simp] theorem State.setSlice_dist (x : Slice) : (s.setSlice x).dist = s.dist := rfl
@[simp] theorem State.setSlice_rng (x : Slice) : (s.setSlice x).rng = s.rng := rfl
@[simp] theorem State.setSlice_keys (x : Slice) : (s.setSlice x).keys = s.keys := rfl
@[simp] theorem State.setSlice_mail (x : Slice) : (s.setSlice x).mail = s.mail := rfl
@[simp] theorem State.setSlice_dual (x : Slice) : (s.setSlice x).dual = s.dual := rfl
@[simp] theorem State.setSlice_gate (x : Slice) : (s.setSlice x).gate = s.gate := rfl
@[simp] theorem State.setSlice_worlds (x : Slice) : (s.setSlice x).worlds = s.worlds := rfl
@[simp] theorem State.setSlice_tamper (x : Slice) : (s.setSlice x).tamper = s.tamper := rfl
@[simp] theorem State.setSlice_er (x : Slice) : (s.setSlice x).er = s.er := rfl
@[simp] theorem State.setSlice_ports (x : Slice) : (s.setSlice x).ports = s.ports := rfl
@[simp] theorem State.setSlice_hier (x : Slice) : (s.setSlice x).hier = s.hier := rfl
@[simp] theorem State.setSlice_power (x : Slice) : (s.setSlice x).power = s.power := rfl
@[simp] theorem State.setSlice_renewal (x : Slice) : (s.setSlice x).renewal = s.renewal := rfl

/-! ### State.modSlice -/

@[simp] theorem State.modSlice_pending (n : Nat) (f : Slice → Slice) : (s.modSlice n f).pending = s.pending := rfl
@[simp] theorem State.modSlice_glob (n : Nat) (f : Slice → Slice) : (s.modSlice n f).glob = s.glob := rfl
@[simp] theorem State.modSlice_md (n : Nat) (f : Slice → Slice) : (s.modSlice n f).md = s.md := rfl
@[simp] theorem State.modSlice_hp (n : Nat) (f : Slice → Slice) : (s.modSlice n f).hp = s.hp := rfl
@[simp] theorem State.modSlice_slices (n : Nat) (f : Slice → Slice) : (s.modSlice n f).slices = upsert (·.num) (f (s.slice n)) s.slices := rfl
@[simp] theorem State.modSlice_ints (n : Nat) (f : Slice → Slice) : (s.modSlice n f).ints = s.ints := rfl
@[simp] theorem State.modSlice_chs (n : Nat) (f : Slice → Slice) : (s.modSlice n f).chs = s.chs := rfl
@[simp] theorem State.modSlice_dist (n : Nat) (f : Slice → Slice) : (s.modSlice n f).dist = s.dist := rfl
@[simp] theorem State.modSlice_rng (n : Nat) (f : Slice → Slice) : (s.modSlice n f).rng = s.rng := rfl
@[simp] theorem State.modSlice_keys (n : Nat) (f : Slice → Slice) : (s.modSlice n f).keys = s.keys := rfl
@[simp] theorem State.modSlice_mail (n : Nat) (f : Slice → Slice) : (s.modSlice n f).mail = s.mail := rfl
@[simp] theorem State.modSlice_dual (n : Nat) (f : Slice → Slice) : (s.modSlice n f).dual = s.dual := rfl
@[simp] theorem State.modSlice_gate (n : Nat) (f : Slice → Slice) : (s.modSlice n f).gate = s.gate := rfl
@[simp] theorem State.modSlice_worlds (n : Nat) (f : Slice → Slice) : (s.modSlice n f).worlds = s.worlds := rfl
@[simp] theorem State.modSlice_tamper (n : Nat) (f : Slice → Slice) : (s.modSlice n f).tamper = s.tamper := rfl
@[simp] theorem State.modSlice_er (n : Nat) (f : Slice → Slice) : (s.modSlice n f).er = s.er := rfl
@[simp] theorem State.modSlice_ports (n : Nat) (f : Slice → Slice) : (s.modSlice n f).ports = s.ports := rfl
@[simp] theorem State.modSlice_hier (n : Nat) (f : Slice → Slice) : (s.modSlice n f).hier = s.hier := rfl
@[simp] theorem State.modSlice_power (n : Nat) (f : Slice → Slice) : (s.modSlice n f).power = s.power := rfl
@[simp] theorem State.modSlice_renewal (n : Nat) (f : Slice → Slice) : (s.modSlice n f).renewal = s.renewal := rfl

/-! ### State.modRing -/

@[simp] theorem State.modRing_pending (n p : Nat) (f : RingPair → RingPair) : (s.modRing n p f).pending = s.pending := rfl
@[simp] theorem State.modRing_glob (n p : Nat) (f : RingPair → RingPair) : (s.modRing n p f).glob = s.glob := rfl
@[simp] theorem State.modRing_md (n p : Nat) (f : RingPair → RingPair) : (s.modRing n p f).md = s.md := rfl
@[simp] theorem State.modRing_hp (n p : Nat) (f : RingPair → RingPair) : (s.modRing n p f).hp = s.hp := rfl
@[simp] theorem State.modRing_ints (n p : Nat) (f : RingPair → RingPair) : (s.modRing n p f).ints = s.ints := rfl
@[simp] theorem State.modRing_chs (n p : Nat) (f : RingPair → RingPair) : (s.modRing n p f).chs = s.chs := rfl
@[simp] theorem State.modRing_dist (n p : Nat) (f : RingPair → RingPair) : (s.modRing n p f).dist = s.dist := rfl
@[simp] theorem State.modRing_rng (n p : Nat) (f : RingPair → RingPair) : (s.modRing n p f).rng = s.rng := rfl
@[simp] theorem State.modRing_keys (n p : Nat) (f : RingPair → RingPair) : (s.modRing n p f).keys = s.keys := rfl
@[simp] theorem State.modRing_mail (n p : Nat) (f : RingPair → RingPair) : (s.modRing n p f).mail = s.mail := rfl
@[simp] theorem State.modRing_dual (n p : Nat) (f : RingPair → RingPair) : (s.modRing n p f).dual = s.dual := rfl
@[simp] theorem State.modRing_gate (n p : Nat) (f : RingPair → RingPair) : (s.modRing n p f).gate = s.gate := rfl
@[simp] theorem State.modRing_worlds (n p : Nat) (f : RingPair → RingPair) : (s.modRing n p f).worlds = s.worlds := rfl
@[simp] theorem State.modRing_tamper (n p : Nat) (f : RingPair → RingPair) : (s.modRing n p f).tamper = s.tamper := rfl
@[simp] theorem State.modRing_er (n p : Nat) (f : RingPair → RingPair) : (s.modRing n p f).er = s.er := rfl
@[simp] theorem State.modRing_ports (n p : Nat) (f : RingPair → RingPair) : (s.modRing n p f).ports = s.ports := rfl
@[simp] theorem State.modRing_hier (n p : Nat) (f : RingPair → RingPair) : (s.modRing n p f).hier = s.hier := rfl
@[simp] theorem State.modRing_power (n p : Nat) (f : RingPair → RingPair) : (s.modRing n p f).power = s.power := rfl
@[simp] theorem State.modRing_renewal (n p : Nat) (f : RingPair → RingPair) : (s.modRing n p f).renewal = s.renewal := rfl

/-! ### State.modInt -/

@[simp] theorem State.modInt_pending (i : Nat) (f : IntEntry → IntEntry) : (s.modInt i f).pending = s.pending := rfl
@[simp] theorem State.modInt_glob (i : Nat) (f : IntEntry → IntEntry) : (s.modInt i f).glob = s.glob := rfl
@[simp] theorem State.modInt_md (i : Nat) (f : IntEntry → IntEntry) : (s.modInt i f).md = s.md := rfl
@[simp] theorem State.modInt_hp (i : Nat) (f : IntEntry → IntEntry) : (s.modInt i f).hp = s.hp := rfl
@[simp] theorem State.modInt_slices (i : Nat) (f : IntEntry → IntEntry) : (s.modInt i f).slices = s.slices := rfl
@[simp] theorem State.modInt_ints (i : Nat) (f : IntEntry → IntEntry) : (s.modInt i f).ints = assocSet s.ints i (f (s.intE i)) := rfl
@[simp] theorem State.modInt_chs (i : Nat) (f : IntEntry → IntEntry) : (s.modInt i f).chs = s.chs := rfl
@[simp] theorem State.modInt_dist (i : Nat) (f : IntEntry → IntEntry) : (s.modInt i f).dist = s.dist := rfl
@[simp] theorem State.modInt_rng (i : Nat) (f : IntEntry → IntEntry) : (s.modInt i f).rng = s.rng := rfl
@[simp] theorem State.modInt_keys (i : Nat) (f : IntEntry → IntEntry) : (s.modInt i f).keys = s.keys := rfl
@[simp] theorem State.modInt_mail (i : Nat) (f : IntEntry → IntEntry) : (s.modInt i f).mail = s.mail := rfl
@[simp] theorem State.modInt_dual (i : Nat) (f : IntEntry → IntEntry) : (s.modInt i f).dual = s.dual := rfl
@[simp] theorem State.modInt_gate (i : Nat) (f : IntEntry → IntEntry) : (s.modInt i f).gate = s.gate := rfl
@[simp] theorem State.modInt_worlds (i : Nat) (f : IntEntry → IntEntry) : (s.modInt i f).worlds = s.worlds := rfl
@[simp] theorem State.modInt_tamper (i : Nat) (f : IntEntry → IntEntry) : (s.modInt i f).tamper = s.tamper := rfl
@[simp] theorem State.modInt_er (i : Nat) (f : IntEntry → IntEntry) : (s.modInt i f).er = s.er := rfl
@[simp] theorem State.modInt_ports (i : Nat) (f : IntEntry → IntEntry) : (s.modInt i f).ports = s.ports := rfl
@[simp] theorem State.modInt_hier (i : Nat) (f : IntEntry → IntEntry) : (s.modInt i f).hier = s.hier := rfl
@[simp] theorem State.modInt_power (i : Nat) (f : IntEntry → IntEntry) : (s.modInt i f).power = s.power := rfl
@[simp] theorem State.modInt_renewal (i : Nat) (f : IntEntry → IntEntry) : (s.modInt i f).renewal = s.renewal := rfl

/-! ### State.modDist -/

@[simp] theorem State.modDist_pending (f : Dist → Dist) : (s.modDist f).pending = s.pending := rfl
@[simp] theorem State.modDist_glob (f : Dist → Dist) : (s.modDist f).glob = s.glob := rfl
@[simp] theorem State.modDist_md (f : Dist → Dist) : (s.modDist f).md = s.md := rfl
@[simp] theorem State.modDist_hp (f : Dist → Dist) : (s.modDist f).hp = s.hp := rfl
@[simp] theorem State.modDist_slices (f : Dist → Dist) : (s.modDist f).slices = s.slices := rfl
@[simp] theorem State.modDist_ints (f : Dist → Dist) : (s.modDist f).ints = s.ints := rfl
@[simp] theorem State.modDist_chs (f : Dist → Dist) : (s.modDist f).chs = s.chs := rfl
@[simp] theorem State.modDist_dist (f : Dist → Dist) : (s.modDist f).dist = f s.dist := rfl
@[simp] theorem State.modDist_rng (f : Dist → Dist) : (s.modDist f).rng = s.rng := rfl
@[simp] theorem State.modDist_keys (f : Dist → Dist) : (s.modDist f).keys = s.keys := rfl
@[simp] theorem State.modDist_mail (f : Dist → Dist) : (s.modDist f).mail = s.mail := rfl
@[simp] theorem State.modDist_dual (f : Dist → Dist) : (s.modDist f).dual = s.dual := rfl
@[simp] theorem State.modDist_gate (f : Dist → Dist) : (s.modDist f).gate = s.gate := rfl
@[simp] theorem State.modDist_worlds (f : Dist → Dist) : (s.modDist f).worlds = s.worlds := rfl
@[simp] theorem State.modDist_tamper (f : Dist → Dist) : (s.modDist f).tamper = s.tamper := rfl
@[simp] theorem State.modDist_er (f : Dist → Dist) : (s.modDist f).er = s.er := rfl
@[simp] theorem State.modDist_ports (f : Dist → Dist) : (s.modDist f).ports = s.ports := rfl
@[simp] theorem State.modDist_hier (f : Dist → Dist) : (s.modDist f).hier = s.hier := rfl
@[simp] theorem State.modDist_power (f : Dist → Dist) : (s.modDist f).power = s.power := rfl
@[simp] theorem State.modDist_renewal (f : Dist → Dist) : (s.modDist f).renewal = s.renewal := rfl

/-! ### State.modCtx -/

@[simp] theorem State.modCtx_pending (i : Nat) (f : Ctx → Ctx) : (s.modCtx i f).pending = s.pending := rfl
@[simp] theorem State.modCtx_glob (i : Nat) (f : Ctx → Ctx) : (s.modCtx i f).glob = s.glob := rfl
@[simp] theorem State.modCtx_md (i : Nat) (f : Ctx → Ctx) : (s.modCtx i f).md = s.md := rfl
@[simp] theorem State.modCtx_hp (i : Nat) (f : Ctx → Ctx) : (s.modCtx i f).hp = s.hp := rfl
@[simp] theorem State.modCtx_slices (i : Nat) (f : Ctx → Ctx) : (s.modCtx i f).slices = s.slices := rfl
@[simp] theorem State.modCtx_ints (i : Nat) (f : Ctx → Ctx) : (s.modCtx i f).ints = s.ints := rfl
@[simp] theorem State.modCtx_chs (i : Nat) (f : Ctx → Ctx) : (s.modCtx i f).chs = s.chs := rfl
@[simp] theorem State.modCtx_rng (i : Nat) (f : Ctx → Ctx) : (s.modCtx i f).rng = s.rng := rfl
@[simp] theorem State.modCtx_keys (i : Nat) (f : Ctx → Ctx) : (s.modCtx i f).keys = s.keys := rfl
@[simp] theorem State.modCtx_mail (i : Nat) (f : Ctx → Ctx) : (s.modCtx i f).mail = s.mail := rfl
@[simp] theorem State.modCtx_dual (i : Nat) (f : Ctx → Ctx) : (s.modCtx i f).dual = s.dual := rfl
@[simp] theorem State.modCtx_gate (i : Nat) (f : Ctx → Ctx) : (s.modCtx i f).gate = s.gate := rfl
@[simp] theorem State.modCtx_worlds (i : Nat) (f : Ctx → Ctx) : (s.modCtx i f).worlds = s.worlds := rfl
@[simp] theorem State.modCtx_tamper (i : Nat) (f : Ctx → Ctx) : (s.modCtx i f).tamper = s.tamper := rfl
@[simp] theorem State.modCtx_er (i : Nat) (f : Ctx → Ctx) : (s.modCtx i f).er = s.er := rfl
@[simp] theorem State.modCtx_ports (i : Nat) (f : Ctx → Ctx) : (s.modCtx i f).ports = s.ports := rfl
@[simp] theorem State.modCtx_hier (i : Nat) (f : Ctx → Ctx) : (s.modCtx i f).hier = s.hier := rfl
@[simp] theorem State.modCtx_power (i : Nat) (f : Ctx → Ctx) : (s.modCtx i f).power = s.power := rfl
@[simp] theorem State.modCtx_renewal (i : Nat) (f : Ctx → Ctx) : (s.modCtx i f).renewal = s.renewal := rfl

/-! ### State.dropCtx -/

@[simp] theorem State.dropCtx_pending (i : Nat) : (s.dropCtx i).pending = s.pending := rfl
@[simp] theorem State.dropCtx_glob (i : Nat) : (s.dropCtx i).glob = s.glob := rfl
@[simp] theorem State.dropCtx_md (i : Nat) : (s.dropCtx i).md = s.md := rfl
@[simp] theorem State.dropCtx_hp (i : Nat) : (s.dropCtx i).hp = s.hp := rfl
@[simp] theorem State.dropCtx_slices (i : Nat) : (s.dropCtx i).slices = s.slices := rfl
@[simp] theorem State.dropCtx_ints (i : Nat) : (s.dropCtx i).ints = s.ints := rfl
@[simp] theorem State.dropCtx_chs (i : Nat) : (s.dropCtx i).chs = s.chs := rfl
@[simp] theorem State.dropCtx_rng (i : Nat) : (s.dropCtx i).rng = s.rng := rfl
@[simp] theorem State.dropCtx_keys (i : Nat) : (s.dropCtx i).keys = s.keys := rfl
@[simp] theorem State.dropCtx_mail (i : Nat) : (s.dropCtx i).mail = s.mail := rfl
@[simp] theorem State.dropCtx_dual (i : Nat) : (s.dropCtx i).dual = s.dual := rfl
@[simp] theorem State.dropCtx_gate (i : Nat) : (s.dropCtx i).gate = s.gate := rfl
@[simp] theorem State.dropCtx_worlds (i : Nat) : (s.dropCtx i).worlds = s.worlds := rfl
@[simp] theorem State.dropCtx_tamper (i : Nat) : (s.dropCtx i).tamper = s.tamper := rfl
@[simp] theorem State.dropCtx_er (i : Nat) : (s.dropCtx i).er = s.er := rfl
@[simp] theorem State.dropCtx_ports (i : Nat) : (s.dropCtx i).ports = s.ports := rfl
@[simp] theorem State.dropCtx_hier (i : Nat) : (s.dropCtx i).hier = s.hier := rfl
@[simp] theorem State.dropCtx_power (i : Nat) : (s.dropCtx i).power = s.power := rfl
@[simp] theorem State.dropCtx_renewal (i : Nat) : (s.dropCtx i).renewal = s.renewal := rfl

/-! ### State.modRng -/

@[simp] theorem State.modRng_pending (f : Rng → Rng) : (s.modRng f).pending = s.pending := rfl
@[simp] theorem State.modRng_glob (f : Rng → Rng) : (s.modRng f).glob = s.glob := rfl
@[simp] theorem State.modRng_md (f : Rng → Rng) : (s.modRng f).md = s.md := rfl
@[simp] theorem State.modRng_hp (f : Rng → Rng) : (s.modRng f).hp = s.hp := rfl
@[simp] theorem State.modRng_slices (f : Rng → Rng) : (s.modRng f).slices = s.slices := rfl
@[simp] theorem State.modRng_ints (f : Rng → Rng) : (s.modRng f).ints = s.ints := rfl
@[simp] theorem State.modRng_chs (f : Rng → Rng) : (s.modRng f).chs = s.chs := rfl
@[simp] theorem State.modRng_dist (f : Rng → Rng) : (s.modRng f).dist = s.dist := rfl
@[simp] theorem State.modRng_rng (f : Rng → Rng) : (s.modRng f).rng = f s.rng := rfl
@[simp] theorem State.modRng_keys (f : Rng → Rng) : (s.modRng f).keys = s.keys := rfl
@[simp] theorem State.modRng_mail (f : Rng → Rng) : (s.modRng f).mail = s.mail := rfl
@[simp] theorem State.modRng_dual (f : Rng → Rng) : (s.modRng f).dual = s.dual := rfl
@[simp] theorem State.modRng_gate (f : Rng → Rng) : (s.modRng f).gate = s.gate := rfl
@[simp] theorem State.modRng_worlds (f : Rng → Rng) : (s.modRng f).worlds = s.worlds := rfl
@[simp] theorem State.modRng_tamper (f : Rng → Rng) : (s.modRng f).tamper = s.tamper := rfl
@[simp] theorem State.modRng_er (f : Rng → Rng) : (s.modRng f).er = s.er := rfl
@[simp] theorem State.modRng_ports (f : Rng → Rng) : (s.modRng f).ports = s.ports := rfl
@[simp] theorem State.modRng_hier (f : Rng → Rng) : (s.modRng f).hier = s.hier := rfl
@[simp] theorem State.modRng_power (f : Rng → Rng) : (s.modRng f).power = s.power := rfl
@[simp] theorem State.modRng_renewal (f : Rng → Rng) : (s.modRng f).renewal = s.renewal := rfl

/-! ### State.modBank -/

@[simp] theorem State.modBank_pending (b : Nat) (f : Bank → Bank) : (s.modBank b f).pending = s.pending := rfl
@[simp] theorem State.modBank_glob (b : Nat) (f : Bank → Bank) : (s.modBank b f).glob = s.glob := rfl
@[simp] theorem State.modBank_md (b : Nat) (f : Bank → Bank) : (s.modBank b f).md = s.md := rfl
@[simp] theorem State.modBank_hp (b : Nat) (f : Bank → Bank) : (s.modBank b f).hp = s.hp := rfl
@[simp] theorem State.modBank_slices (b : Nat) (f : Bank → Bank) : (s.modBank b f).slices = s.slices := rfl
@[simp] theorem State.modBank_ints (b : Nat) (f : Bank → Bank) : (s.modBank b f).ints = s.ints := rfl
@[simp] theorem State.modBank_chs (b : Nat) (f : Bank → Bank) : (s.modBank b f).chs = s.chs := rfl
@[simp] theorem State.modBank_dist (b : Nat) (f : Bank → Bank) : (s.modBank b f).dist = s.dist := rfl
@[simp] theorem State.modBank_keys (b : Nat) (f : Bank → Bank) : (s.modBank b f).keys = s.keys := rfl
@[simp] theorem State.modBank_mail (b : Nat) (f : Bank → Bank) : (s.modBank b f).mail = s.mail := rfl
@[simp] theorem State.modBank_dual (b : Nat) (f : Bank → Bank) : (s.modBank b f).dual = s.dual := rfl
@[simp] theorem State.modBank_gate (b : Nat) (f : Bank → Bank) : (s.modBank b f).gate = s.gate := rfl
@[simp] theorem State.modBank_worlds (b : Nat) (f : Bank → Bank) : (s.modBank b f).worlds = s.worlds := rfl
@[simp] theorem State.modBank_tamper (b : Nat) (f : Bank → Bank) : (s.modBank b f).tamper = s.tamper := rfl
@[simp] theorem State.modBank_er (b : Nat) (f : Bank → Bank) : (s.modBank b f).er = s.er := rfl
@[simp] theorem State.modBank_ports (b : Nat) (f : Bank → Bank) : (s.modBank b f).ports = s.ports := rfl
@[simp] theorem State.modBank_hier (b : Nat) (f : Bank → Bank) : (s.modBank b f).hier = s.hier := rfl
@[simp] theorem State.modBank_power (b : Nat) (f : Bank → Bank) : (s.modBank b f).power = s.power := rfl
@[simp] theorem State.modBank_renewal (b : Nat) (f : Bank → Bank) : (s.modBank b f).renewal = s.renewal := rfl

/-! ### State.modGen -/

@[simp] theorem State.modGen_pending (i : Nat) (f : Gen → Gen) : (s.modGen i f).pending = s.pending := rfl
@[simp] theorem State.modGen_glob (i : Nat) (f : Gen → Gen) : (s.modGen i f).glob = s.glob := rfl
@[simp] theorem State.modGen_md (i : Nat) (f : Gen → Gen) : (s.modGen i f).md = s.md := rfl
@[simp] theorem State.modGen_hp (i : Nat) (f : Gen → Gen) : (s.modGen i f).hp = s.hp := rfl
@[simp] theorem State.modGen_slices (i : Nat) (f : Gen → Gen) : (s.modGen i f).slices = s.slices := rfl
@[simp] theorem State.modGen_ints (i : Nat) (f : Gen → Gen) : (s.modGen i f).ints = s.ints := rfl
@[simp] theorem State.modGen_chs (i : Nat) (f : Gen → Gen) : (s.modGen i f).chs = s.chs := rfl
@[simp] theorem State.modGen_dist (i : Nat) (f : Gen → Gen) : (s.modGen i f).dist = s.dist := rfl
@[simp] theorem State.modGen_keys (i : Nat) (f : Gen → Gen) : (s.modGen i f).keys = s.keys := rfl
@[simp] theorem State.modGen_mail (i : Nat) (f : Gen → Gen) : (s.modGen i f).mail = s.mail := rfl
@[simp] theorem State.modGen_dual (i : Nat) (f : Gen → Gen) : (s.modGen i f).dual = s.dual := rfl
@[simp] theorem State.modGen_gate (i : Nat) (f : Gen → Gen) : (s.modGen i f).gate = s.gate := rfl
@[simp] theorem State.modGen_worlds (i : Nat) (f : Gen → Gen) : (s.modGen i f).worlds = s.worlds := rfl
@[simp] theorem State.modGen_tamper (i : Nat) (f : Gen → Gen) : (s.modGen i f).tamper = s.tamper := rfl
@[simp] theorem State.modGen_er (i : Nat) (f : Gen → Gen) : (s.modGen i f).er = s.er := rfl
@[simp] theorem State.modGen_ports (i : Nat) (f : Gen → Gen) : (s.modGen i f).ports = s.ports := rfl
@[simp] theorem State.modGen_hier (i : Nat) (f : Gen → Gen) : (s.modGen i f).hier = s.hier := rfl
@[simp] theorem State.modGen_power (i : Nat) (f : Gen → Gen) : (s.modGen i f).power = s.power := rfl
@[simp] theorem State.modGen_renewal (i : Nat) (f : Gen → Gen) : (s.modGen i f).renewal = s.renewal := rfl

/-! ### State.modKeys -/

@[simp] theorem State.modKeys_pending (f : Custody → Custody) : (s.modKeys f).pending = s.pending := rfl
@[simp] theorem State.modKeys_glob (f : Custody → Custody) : (s.modKeys f).glob = s.glob := rfl
@[simp] theorem State.modKeys_md (f : Custody → Custody) : (s.modKeys f).md = s.md := rfl
@[simp] theorem State.modKeys_hp (f : Custody → Custody) : (s.modKeys f).hp = s.hp := rfl
@[simp] theorem State.modKeys_slices (f : Custody → Custody) : (s.modKeys f).slices = s.slices := rfl
@[simp] theorem State.modKeys_ints (f : Custody → Custody) : (s.modKeys f).ints = s.ints := rfl
@[simp] theorem State.modKeys_chs (f : Custody → Custody) : (s.modKeys f).chs = s.chs := rfl
@[simp] theorem State.modKeys_dist (f : Custody → Custody) : (s.modKeys f).dist = s.dist := rfl
@[simp] theorem State.modKeys_rng (f : Custody → Custody) : (s.modKeys f).rng = s.rng := rfl
@[simp] theorem State.modKeys_keys (f : Custody → Custody) : (s.modKeys f).keys = f s.keys := rfl
@[simp] theorem State.modKeys_mail (f : Custody → Custody) : (s.modKeys f).mail = s.mail := rfl
@[simp] theorem State.modKeys_dual (f : Custody → Custody) : (s.modKeys f).dual = s.dual := rfl
@[simp] theorem State.modKeys_gate (f : Custody → Custody) : (s.modKeys f).gate = s.gate := rfl
@[simp] theorem State.modKeys_worlds (f : Custody → Custody) : (s.modKeys f).worlds = s.worlds := rfl
@[simp] theorem State.modKeys_tamper (f : Custody → Custody) : (s.modKeys f).tamper = s.tamper := rfl
@[simp] theorem State.modKeys_er (f : Custody → Custody) : (s.modKeys f).er = s.er := rfl
@[simp] theorem State.modKeys_ports (f : Custody → Custody) : (s.modKeys f).ports = s.ports := rfl
@[simp] theorem State.modKeys_hier (f : Custody → Custody) : (s.modKeys f).hier = s.hier := rfl
@[simp] theorem State.modKeys_power (f : Custody → Custody) : (s.modKeys f).power = s.power := rfl
@[simp] theorem State.modKeys_renewal (f : Custody → Custody) : (s.modKeys f).renewal = s.renewal := rfl

/-! ### State.modMail -/

@[simp] theorem State.modMail_pending (f : Mail → Mail) : (s.modMail f).pending = s.pending := rfl
@[simp] theorem State.modMail_glob (f : Mail → Mail) : (s.modMail f).glob = s.glob := rfl
@[simp] theorem State.modMail_md (f : Mail → Mail) : (s.modMail f).md = s.md := rfl
@[simp] theorem State.modMail_hp (f : Mail → Mail) : (s.modMail f).hp = s.hp := rfl
@[simp] theorem State.modMail_slices (f : Mail → Mail) : (s.modMail f).slices = s.slices := rfl
@[simp] theorem State.modMail_ints (f : Mail → Mail) : (s.modMail f).ints = s.ints := rfl
@[simp] theorem State.modMail_chs (f : Mail → Mail) : (s.modMail f).chs = s.chs := rfl
@[simp] theorem State.modMail_dist (f : Mail → Mail) : (s.modMail f).dist = s.dist := rfl
@[simp] theorem State.modMail_rng (f : Mail → Mail) : (s.modMail f).rng = s.rng := rfl
@[simp] theorem State.modMail_keys (f : Mail → Mail) : (s.modMail f).keys = s.keys := rfl
@[simp] theorem State.modMail_mail (f : Mail → Mail) : (s.modMail f).mail = f s.mail := rfl
@[simp] theorem State.modMail_dual (f : Mail → Mail) : (s.modMail f).dual = s.dual := rfl
@[simp] theorem State.modMail_gate (f : Mail → Mail) : (s.modMail f).gate = s.gate := rfl
@[simp] theorem State.modMail_worlds (f : Mail → Mail) : (s.modMail f).worlds = s.worlds := rfl
@[simp] theorem State.modMail_tamper (f : Mail → Mail) : (s.modMail f).tamper = s.tamper := rfl
@[simp] theorem State.modMail_er (f : Mail → Mail) : (s.modMail f).er = s.er := rfl
@[simp] theorem State.modMail_ports (f : Mail → Mail) : (s.modMail f).ports = s.ports := rfl
@[simp] theorem State.modMail_hier (f : Mail → Mail) : (s.modMail f).hier = s.hier := rfl
@[simp] theorem State.modMail_power (f : Mail → Mail) : (s.modMail f).power = s.power := rfl
@[simp] theorem State.modMail_renewal (f : Mail → Mail) : (s.modMail f).renewal = s.renewal := rfl

/-! ### State.modBox -/

@[simp] theorem State.modBox_pending (m : Nat) (f : Mailbox → Mailbox) : (s.modBox m f).pending = s.pending := rfl
@[simp] theorem State.modBox_glob (m : Nat) (f : Mailbox → Mailbox) : (s.modBox m f).glob = s.glob := rfl
@[simp] theorem State.modBox_md (m : Nat) (f : Mailbox → Mailbox) : (s.modBox m f).md = s.md := rfl
@[simp] theorem State.modBox_hp (m : Nat) (f : Mailbox → Mailbox) : (s.modBox m f).hp = s.hp := rfl
@[simp] theorem State.modBox_slices (m : Nat) (f : Mailbox → Mailbox) : (s.modBox m f).slices = s.slices := rfl
@[simp] theorem State.modBox_ints (m : Nat) (f : Mailbox → Mailbox) : (s.modBox m f).ints = s.ints := rfl
@[simp] theorem State.modBox_chs (m : Nat) (f : Mailbox → Mailbox) : (s.modBox m f).chs = s.chs := rfl
@[simp] theorem State.modBox_dist (m : Nat) (f : Mailbox → Mailbox) : (s.modBox m f).dist = s.dist := rfl
@[simp] theorem State.modBox_rng (m : Nat) (f : Mailbox → Mailbox) : (s.modBox m f).rng = s.rng := rfl
@[simp] theorem State.modBox_keys (m : Nat) (f : Mailbox → Mailbox) : (s.modBox m f).keys = s.keys := rfl
@[simp] theorem State.modBox_dual (m : Nat) (f : Mailbox → Mailbox) : (s.modBox m f).dual = s.dual := rfl
@[simp] theorem State.modBox_gate (m : Nat) (f : Mailbox → Mailbox) : (s.modBox m f).gate = s.gate := rfl
@[simp] theorem State.modBox_worlds (m : Nat) (f : Mailbox → Mailbox) : (s.modBox m f).worlds = s.worlds := rfl
@[simp] theorem State.modBox_tamper (m : Nat) (f : Mailbox → Mailbox) : (s.modBox m f).tamper = s.tamper := rfl
@[simp] theorem State.modBox_er (m : Nat) (f : Mailbox → Mailbox) : (s.modBox m f).er = s.er := rfl
@[simp] theorem State.modBox_ports (m : Nat) (f : Mailbox → Mailbox) : (s.modBox m f).ports = s.ports := rfl
@[simp] theorem State.modBox_hier (m : Nat) (f : Mailbox → Mailbox) : (s.modBox m f).hier = s.hier := rfl
@[simp] theorem State.modBox_power (m : Nat) (f : Mailbox → Mailbox) : (s.modBox m f).power = s.power := rfl
@[simp] theorem State.modBox_renewal (m : Nat) (f : Mailbox → Mailbox) : (s.modBox m f).renewal = s.renewal := rfl

/-! ### State.modSrc -/

@[simp] theorem State.modSrc_pending (i : Nat) (f : TSource → TSource) : (s.modSrc i f).pending = s.pending := rfl
@[simp] theorem State.modSrc_glob (i : Nat) (f : TSource → TSource) : (s.modSrc i f).glob = s.glob := rfl
@[simp] theorem State.modSrc_md (i : Nat) (f : TSource → TSource) : (s.modSrc i f).md = s.md := rfl
@[simp] theorem State.modSrc_hp (i : Nat) (f : TSource → TSource) : (s.modSrc i f).hp = s.hp := rfl
@[simp] theorem State.modSrc_slices (i : Nat) (f : TSource → TSource) : (s.modSrc i f).slices = s.slices := rfl
@[simp] theorem State.modSrc_ints (i : Nat) (f : TSource → TSource) : (s.modSrc i f).ints = s.ints := rfl
@[simp] theorem State.modSrc_chs (i : Nat) (f : TSource → TSource) : (s.modSrc i f).chs = s.chs := rfl
@[simp] theorem State.modSrc_dist (i : Nat) (f : TSource → TSource) : (s.modSrc i f).dist = s.dist := rfl
@[simp] theorem State.modSrc_rng (i : Nat) (f : TSource → TSource) : (s.modSrc i f).rng = s.rng := rfl
@[simp] theorem State.modSrc_keys (i : Nat) (f : TSource → TSource) : (s.modSrc i f).keys = s.keys := rfl
@[simp] theorem State.modSrc_mail (i : Nat) (f : TSource → TSource) : (s.modSrc i f).mail = s.mail := rfl
@[simp] theorem State.modSrc_dual (i : Nat) (f : TSource → TSource) : (s.modSrc i f).dual = s.dual := rfl
@[simp] theorem State.modSrc_gate (i : Nat) (f : TSource → TSource) : (s.modSrc i f).gate = s.gate := rfl
@[simp] theorem State.modSrc_worlds (i : Nat) (f : TSource → TSource) : (s.modSrc i f).worlds = s.worlds := rfl
@[simp] theorem State.modSrc_er (i : Nat) (f : TSource → TSource) : (s.modSrc i f).er = s.er := rfl
@[simp] theorem State.modSrc_ports (i : Nat) (f : TSource → TSource) : (s.modSrc i f).ports = s.ports := rfl
@[simp] theorem State.modSrc_hier (i : Nat) (f : TSource → TSource) : (s.modSrc i f).hier = s.hier := rfl
@[simp] theorem State.modSrc_power (i : Nat) (f : TSource → TSource) : (s.modSrc i f).power = s.power := rfl
@[simp] theorem State.modSrc_renewal (i : Nat) (f : TSource → TSource) : (s.modSrc i f).renewal = s.renewal := rfl

/-! ### State.modPort -/

@[simp] theorem State.modPort_pending (p : Nat) (f : Port → Port) : (s.modPort p f).pending = s.pending := rfl
@[simp] theorem State.modPort_glob (p : Nat) (f : Port → Port) : (s.modPort p f).glob = s.glob := rfl
@[simp] theorem State.modPort_md (p : Nat) (f : Port → Port) : (s.modPort p f).md = s.md := rfl
@[simp] theorem State.modPort_hp (p : Nat) (f : Port → Port) : (s.modPort p f).hp = s.hp := rfl
@[simp] theorem State.modPort_slices (p : Nat) (f : Port → Port) : (s.modPort p f).slices = s.slices := rfl
@[simp] theorem State.modPort_ints (p : Nat) (f : Port → Port) : (s.modPort p f).ints = s.ints := rfl
@[simp] theorem State.modPort_chs (p : Nat) (f : Port → Port) : (s.modPort p f).chs = s.chs := rfl
@[simp] theorem State.modPort_dist (p : Nat) (f : Port → Port) : (s.modPort p f).dist = s.dist := rfl
@[simp] theorem State.modPort_rng (p : Nat) (f : Port → Port) : (s.modPort p f).rng = s.rng := rfl
@[simp] theorem State.modPort_keys (p : Nat) (f : Port → Port) : (s.modPort p f).keys = s.keys := rfl
@[simp] theorem State.modPort_mail (p : Nat) (f : Port → Port) : (s.modPort p f).mail = s.mail := rfl
@[simp] theorem State.modPort_dual (p : Nat) (f : Port → Port) : (s.modPort p f).dual = s.dual := rfl
@[simp] theorem State.modPort_gate (p : Nat) (f : Port → Port) : (s.modPort p f).gate = s.gate := rfl
@[simp] theorem State.modPort_worlds (p : Nat) (f : Port → Port) : (s.modPort p f).worlds = s.worlds := rfl
@[simp] theorem State.modPort_tamper (p : Nat) (f : Port → Port) : (s.modPort p f).tamper = s.tamper := rfl
@[simp] theorem State.modPort_er (p : Nat) (f : Port → Port) : (s.modPort p f).er = s.er := rfl
@[simp] theorem State.modPort_ports (p : Nat) (f : Port → Port) : (s.modPort p f).ports = s.ports.modify p f := rfl
@[simp] theorem State.modPort_hier (p : Nat) (f : Port → Port) : (s.modPort p f).hier = s.hier := rfl
@[simp] theorem State.modPort_power (p : Nat) (f : Port → Port) : (s.modPort p f).power = s.power := rfl
@[simp] theorem State.modPort_renewal (p : Nat) (f : Port → Port) : (s.modPort p f).renewal = s.renewal := rfl

/-! ### State.modHier -/

@[simp] theorem State.modHier_pending (f : Hier → Hier) : (s.modHier f).pending = s.pending := rfl
@[simp] theorem State.modHier_glob (f : Hier → Hier) : (s.modHier f).glob = s.glob := rfl
@[simp] theorem State.modHier_md (f : Hier → Hier) : (s.modHier f).md = s.md := rfl
@[simp] theorem State.modHier_hp (f : Hier → Hier) : (s.modHier f).hp = s.hp := rfl
@[simp] theorem State.modHier_slices (f : Hier → Hier) : (s.modHier f).slices = s.slices := rfl
@[simp] theorem State.modHier_ints (f : Hier → Hier) : (s.modHier f).ints = s.ints := rfl
@[simp] theorem State.modHier_chs (f : Hier → Hier) : (s.modHier f).chs = s.chs := rfl
@[simp] theorem State.modHier_dist (f : Hier → Hier) : (s.modHier f).dist = s.dist := rfl
@[simp] theorem State.modHier_rng (f : Hier → Hier) : (s.modHier f).rng = s.rng := rfl
@[simp] theorem State.modHier_keys (f : Hier → Hier) : (s.modHier f).keys = s.keys := rfl
@[simp] theorem State.modHier_mail (f : Hier → Hier) : (s.modHier f).mail = s.mail := rfl
@[simp] theorem State.modHier_dual (f : Hier → Hier) : (s.modHier f).dual = s.dual := rfl
@[simp] theorem State.modHier_gate (f : Hier → Hier) : (s.modHier f).gate = s.gate := rfl
@[simp] theorem State.modHier_worlds (f : Hier → Hier) : (s.modHier f).worlds = s.worlds := rfl
@[simp] theorem State.modHier_tamper (f : Hier → Hier) : (s.modHier f).tamper = s.tamper := rfl
@[simp] theorem State.modHier_er (f : Hier → Hier) : (s.modHier f).er = s.er := rfl
@[simp] theorem State.modHier_ports (f : Hier → Hier) : (s.modHier f).ports = s.ports := rfl
@[simp] theorem State.modHier_hier (f : Hier → Hier) : (s.modHier f).hier = f s.hier := rfl
@[simp] theorem State.modHier_power (f : Hier → Hier) : (s.modHier f).power = s.power := rfl
@[simp] theorem State.modHier_renewal (f : Hier → Hier) : (s.modHier f).renewal = s.renewal := rfl

/-! ### State.modPower -/

@[simp] theorem State.modPower_pending (f : Power → Power) : (s.modPower f).pending = s.pending := rfl
@[simp] theorem State.modPower_glob (f : Power → Power) : (s.modPower f).glob = s.glob := rfl
@[simp] theorem State.modPower_md (f : Power → Power) : (s.modPower f).md = s.md := rfl
@[simp] theorem State.modPower_hp (f : Power → Power) : (s.modPower f).hp = s.hp := rfl
@[simp] theorem State.modPower_slices (f : Power → Power) : (s.modPower f).slices = s.slices := rfl
@[simp] theorem State.modPower_ints (f : Power → Power) : (s.modPower f).ints = s.ints := rfl
@[simp] theorem State.modPower_chs (f : Power → Power) : (s.modPower f).chs = s.chs := rfl
@[simp] theorem State.modPower_dist (f : Power → Power) : (s.modPower f).dist = s.dist := rfl
@[simp] theorem State.modPower_rng (f : Power → Power) : (s.modPower f).rng = s.rng := rfl
@[simp] theorem State.modPower_keys (f : Power → Power) : (s.modPower f).keys = s.keys := rfl
@[simp] theorem State.modPower_mail (f : Power → Power) : (s.modPower f).mail = s.mail := rfl
@[simp] theorem State.modPower_dual (f : Power → Power) : (s.modPower f).dual = s.dual := rfl
@[simp] theorem State.modPower_gate (f : Power → Power) : (s.modPower f).gate = s.gate := rfl
@[simp] theorem State.modPower_worlds (f : Power → Power) : (s.modPower f).worlds = s.worlds := rfl
@[simp] theorem State.modPower_tamper (f : Power → Power) : (s.modPower f).tamper = s.tamper := rfl
@[simp] theorem State.modPower_er (f : Power → Power) : (s.modPower f).er = s.er := rfl
@[simp] theorem State.modPower_ports (f : Power → Power) : (s.modPower f).ports = s.ports := rfl
@[simp] theorem State.modPower_hier (f : Power → Power) : (s.modPower f).hier = s.hier := rfl
@[simp] theorem State.modPower_power (f : Power → Power) : (s.modPower f).power = f s.power := rfl
@[simp] theorem State.modPower_renewal (f : Power → Power) : (s.modPower f).renewal = s.renewal := rfl

/-! ### State.modDom -/

@[simp] theorem State.modDom_pending (d : Nat) (f : Domain → Domain) : (s.modDom d f).pending = s.pending := rfl
@[simp] theorem State.modDom_glob (d : Nat) (f : Domain → Domain) : (s.modDom d f).glob = s.glob := rfl
@[simp] theorem State.modDom_md (d : Nat) (f : Domain → Domain) : (s.modDom d f).md = s.md := rfl
@[simp] theorem State.modDom_hp (d : Nat) (f : Domain → Domain) : (s.modDom d f).hp = s.hp := rfl
@[simp] theorem State.modDom_slices (d : Nat) (f : Domain → Domain) : (s.modDom d f).slices = s.slices := rfl
@[simp] theorem State.modDom_ints (d : Nat) (f : Domain → Domain) : (s.modDom d f).ints = s.ints := rfl
@[simp] theorem State.modDom_chs (d : Nat) (f : Domain → Domain) : (s.modDom d f).chs = s.chs := rfl
@[simp] theorem State.modDom_dist (d : Nat) (f : Domain → Domain) : (s.modDom d f).dist = s.dist := rfl
@[simp] theorem State.modDom_rng (d : Nat) (f : Domain → Domain) : (s.modDom d f).rng = s.rng := rfl
@[simp] theorem State.modDom_keys (d : Nat) (f : Domain → Domain) : (s.modDom d f).keys = s.keys := rfl
@[simp] theorem State.modDom_mail (d : Nat) (f : Domain → Domain) : (s.modDom d f).mail = s.mail := rfl
@[simp] theorem State.modDom_dual (d : Nat) (f : Domain → Domain) : (s.modDom d f).dual = s.dual := rfl
@[simp] theorem State.modDom_gate (d : Nat) (f : Domain → Domain) : (s.modDom d f).gate = s.gate := rfl
@[simp] theorem State.modDom_worlds (d : Nat) (f : Domain → Domain) : (s.modDom d f).worlds = s.worlds := rfl
@[simp] theorem State.modDom_tamper (d : Nat) (f : Domain → Domain) : (s.modDom d f).tamper = s.tamper := rfl
@[simp] theorem State.modDom_er (d : Nat) (f : Domain → Domain) : (s.modDom d f).er = s.er := rfl
@[simp] theorem State.modDom_ports (d : Nat) (f : Domain → Domain) : (s.modDom d f).ports = s.ports := rfl
@[simp] theorem State.modDom_hier (d : Nat) (f : Domain → Domain) : (s.modDom d f).hier = s.hier := rfl
@[simp] theorem State.modDom_renewal (d : Nat) (f : Domain → Domain) : (s.modDom d f).renewal = s.renewal := rfl

/-! ### State.modGrp -/

@[simp] theorem State.modGrp_pending (g : Nat) (f : Group → Group) : (s.modGrp g f).pending = s.pending := rfl
@[simp] theorem State.modGrp_glob (g : Nat) (f : Group → Group) : (s.modGrp g f).glob = s.glob := rfl
@[simp] theorem State.modGrp_md (g : Nat) (f : Group → Group) : (s.modGrp g f).md = s.md := rfl
@[simp] theorem State.modGrp_hp (g : Nat) (f : Group → Group) : (s.modGrp g f).hp = s.hp := rfl
@[simp] theorem State.modGrp_slices (g : Nat) (f : Group → Group) : (s.modGrp g f).slices = s.slices := rfl
@[simp] theorem State.modGrp_ints (g : Nat) (f : Group → Group) : (s.modGrp g f).ints = s.ints := rfl
@[simp] theorem State.modGrp_chs (g : Nat) (f : Group → Group) : (s.modGrp g f).chs = s.chs := rfl
@[simp] theorem State.modGrp_dist (g : Nat) (f : Group → Group) : (s.modGrp g f).dist = s.dist := rfl
@[simp] theorem State.modGrp_rng (g : Nat) (f : Group → Group) : (s.modGrp g f).rng = s.rng := rfl
@[simp] theorem State.modGrp_keys (g : Nat) (f : Group → Group) : (s.modGrp g f).keys = s.keys := rfl
@[simp] theorem State.modGrp_mail (g : Nat) (f : Group → Group) : (s.modGrp g f).mail = s.mail := rfl
@[simp] theorem State.modGrp_dual (g : Nat) (f : Group → Group) : (s.modGrp g f).dual = s.dual := rfl
@[simp] theorem State.modGrp_gate (g : Nat) (f : Group → Group) : (s.modGrp g f).gate = s.gate := rfl
@[simp] theorem State.modGrp_worlds (g : Nat) (f : Group → Group) : (s.modGrp g f).worlds = s.worlds := rfl
@[simp] theorem State.modGrp_tamper (g : Nat) (f : Group → Group) : (s.modGrp g f).tamper = s.tamper := rfl
@[simp] theorem State.modGrp_er (g : Nat) (f : Group → Group) : (s.modGrp g f).er = s.er := rfl
@[simp] theorem State.modGrp_ports (g : Nat) (f : Group → Group) : (s.modGrp g f).ports = s.ports := rfl
@[simp] theorem State.modGrp_hier (g : Nat) (f : Group → Group) : (s.modGrp g f).hier = s.hier := rfl
@[simp] theorem State.modGrp_renewal (g : Nat) (f : Group → Group) : (s.modGrp g f).renewal = s.renewal := rfl

/-! ### State.wakeNote -/

@[simp] theorem State.wakeNote_pending (d source : Nat) : (s.wakeNote d source).pending = s.pending := rfl
@[simp] theorem State.wakeNote_glob (d source : Nat) : (s.wakeNote d source).glob = s.glob := rfl
@[simp] theorem State.wakeNote_md (d source : Nat) : (s.wakeNote d source).md = s.md := rfl
@[simp] theorem State.wakeNote_hp (d source : Nat) : (s.wakeNote d source).hp = s.hp := rfl
@[simp] theorem State.wakeNote_slices (d source : Nat) : (s.wakeNote d source).slices = s.slices := rfl
@[simp] theorem State.wakeNote_ints (d source : Nat) : (s.wakeNote d source).ints = s.ints := rfl
@[simp] theorem State.wakeNote_chs (d source : Nat) : (s.wakeNote d source).chs = s.chs := rfl
@[simp] theorem State.wakeNote_dist (d source : Nat) : (s.wakeNote d source).dist = s.dist := rfl
@[simp] theorem State.wakeNote_rng (d source : Nat) : (s.wakeNote d source).rng = s.rng := rfl
@[simp] theorem State.wakeNote_keys (d source : Nat) : (s.wakeNote d source).keys = s.keys := rfl
@[simp] theorem State.wakeNote_mail (d source : Nat) : (s.wakeNote d source).mail = s.mail := rfl
@[simp] theorem State.wakeNote_dual (d source : Nat) : (s.wakeNote d source).dual = s.dual := rfl
@[simp] theorem State.wakeNote_gate (d source : Nat) : (s.wakeNote d source).gate = s.gate := rfl
@[simp] theorem State.wakeNote_worlds (d source : Nat) : (s.wakeNote d source).worlds = s.worlds := rfl
@[simp] theorem State.wakeNote_tamper (d source : Nat) : (s.wakeNote d source).tamper = s.tamper := rfl
@[simp] theorem State.wakeNote_er (d source : Nat) : (s.wakeNote d source).er = s.er := rfl
@[simp] theorem State.wakeNote_ports (d source : Nat) : (s.wakeNote d source).ports = s.ports := rfl
@[simp] theorem State.wakeNote_hier (d source : Nat) : (s.wakeNote d source).hier = s.hier := rfl
@[simp] theorem State.wakeNote_renewal (d source : Nat) : (s.wakeNote d source).renewal = s.renewal := rfl

/-! ### State.push -/

@[simp] theorem State.push_pending (o : Out) : (s.push o).pending = s.pending := rfl
@[simp] theorem State.push_glob (o : Out) : (s.push o).glob = s.glob := rfl
@[simp] theorem State.push_md (o : Out) : (s.push o).md = s.md := rfl
@[simp] theorem State.push_slices (o : Out) : (s.push o).slices = s.slices := rfl
@[simp] theorem State.push_ints (o : Out) : (s.push o).ints = s.ints := rfl
@[simp] theorem State.push_chs (o : Out) : (s.push o).chs = s.chs := rfl
@[simp] theorem State.push_dist (o : Out) : (s.push o).dist = s.dist := rfl
@[simp] theorem State.push_rng (o : Out) : (s.push o).rng = s.rng := rfl
@[simp] theorem State.push_keys (o : Out) : (s.push o).keys = s.keys := rfl
@[simp] theorem State.push_mail (o : Out) : (s.push o).mail = s.mail := rfl
@[simp] theorem State.push_dual (o : Out) : (s.push o).dual = s.dual := rfl
@[simp] theorem State.push_gate (o : Out) : (s.push o).gate = s.gate := rfl
@[simp] theorem State.push_worlds (o : Out) : (s.push o).worlds = s.worlds := rfl
@[simp] theorem State.push_tamper (o : Out) : (s.push o).tamper = s.tamper := rfl
@[simp] theorem State.push_er (o : Out) : (s.push o).er = s.er := rfl
@[simp] theorem State.push_ports (o : Out) : (s.push o).ports = s.ports := rfl
@[simp] theorem State.push_hier (o : Out) : (s.push o).hier = s.hier := rfl
@[simp] theorem State.push_power (o : Out) : (s.push o).power = s.power := rfl
@[simp] theorem State.push_renewal (o : Out) : (s.push o).renewal = s.renewal := rfl

/-! ### State.noteCause -/

@[simp] theorem State.noteCause_pending (b : Nat) : (s.noteCause b).pending = s.pending := rfl
@[simp] theorem State.noteCause_md (b : Nat) : (s.noteCause b).md = s.md := rfl
@[simp] theorem State.noteCause_hp (b : Nat) : (s.noteCause b).hp = s.hp := rfl
@[simp] theorem State.noteCause_slices (b : Nat) : (s.noteCause b).slices = s.slices := rfl
@[simp] theorem State.noteCause_ints (b : Nat) : (s.noteCause b).ints = s.ints := rfl
@[simp] theorem State.noteCause_chs (b : Nat) : (s.noteCause b).chs = s.chs := rfl
@[simp] theorem State.noteCause_dist (b : Nat) : (s.noteCause b).dist = s.dist := rfl
@[simp] theorem State.noteCause_rng (b : Nat) : (s.noteCause b).rng = s.rng := rfl
@[simp] theorem State.noteCause_keys (b : Nat) : (s.noteCause b).keys = s.keys := rfl
@[simp] theorem State.noteCause_mail (b : Nat) : (s.noteCause b).mail = s.mail := rfl
@[simp] theorem State.noteCause_dual (b : Nat) : (s.noteCause b).dual = s.dual := rfl
@[simp] theorem State.noteCause_gate (b : Nat) : (s.noteCause b).gate = s.gate := rfl
@[simp] theorem State.noteCause_worlds (b : Nat) : (s.noteCause b).worlds = s.worlds := rfl
@[simp] theorem State.noteCause_tamper (b : Nat) : (s.noteCause b).tamper = s.tamper := rfl
@[simp] theorem State.noteCause_er (b : Nat) : (s.noteCause b).er = s.er := rfl
@[simp] theorem State.noteCause_ports (b : Nat) : (s.noteCause b).ports = s.ports := rfl
@[simp] theorem State.noteCause_hier (b : Nat) : (s.noteCause b).hier = s.hier := rfl
@[simp] theorem State.noteCause_power (b : Nat) : (s.noteCause b).power = s.power := rfl
@[simp] theorem State.noteCause_renewal (b : Nat) : (s.noteCause b).renewal = s.renewal := rfl

/-! ### State.flushStart -/

@[simp] theorem State.flushStart_pending : (s.flushStart).pending = s.pending := rfl
@[simp] theorem State.flushStart_glob : (s.flushStart).glob = s.glob := rfl
@[simp] theorem State.flushStart_md : (s.flushStart).md = s.md := rfl
@[simp] theorem State.flushStart_hp : (s.flushStart).hp = s.hp := rfl
@[simp] theorem State.flushStart_slices : (s.flushStart).slices = s.slices := rfl
@[simp] theorem State.flushStart_ints : (s.flushStart).ints = s.ints := rfl
@[simp] theorem State.flushStart_chs : (s.flushStart).chs = s.chs := rfl
@[simp] theorem State.flushStart_dist : (s.flushStart).dist = s.dist := rfl
@[simp] theorem State.flushStart_rng : (s.flushStart).rng = s.rng := rfl
@[simp] theorem State.flushStart_keys : (s.flushStart).keys = s.keys := rfl
@[simp] theorem State.flushStart_mail : (s.flushStart).mail = s.mail := rfl
@[simp] theorem State.flushStart_dual : (s.flushStart).dual = s.dual := rfl
@[simp] theorem State.flushStart_gate : (s.flushStart).gate = s.gate := rfl
@[simp] theorem State.flushStart_worlds : (s.flushStart).worlds = s.worlds := rfl
@[simp] theorem State.flushStart_tamper : (s.flushStart).tamper = s.tamper := rfl
@[simp] theorem State.flushStart_ports : (s.flushStart).ports = s.ports := rfl
@[simp] theorem State.flushStart_hier : (s.flushStart).hier = s.hier := rfl
@[simp] theorem State.flushStart_power : (s.flushStart).power = s.power := rfl
@[simp] theorem State.flushStart_renewal : (s.flushStart).renewal = s.renewal := rfl

/-! ### State.zeroHalf -/

@[simp] theorem State.zeroHalf_pending (w : World) : (s.zeroHalf w).pending = s.pending := rfl
@[simp] theorem State.zeroHalf_glob (w : World) : (s.zeroHalf w).glob = s.glob := rfl
@[simp] theorem State.zeroHalf_md (w : World) : (s.zeroHalf w).md = s.md := rfl
@[simp] theorem State.zeroHalf_hp (w : World) : (s.zeroHalf w).hp = s.hp := rfl
@[simp] theorem State.zeroHalf_slices (w : World) : (s.zeroHalf w).slices = s.slices := rfl
@[simp] theorem State.zeroHalf_ints (w : World) : (s.zeroHalf w).ints = s.ints := rfl
@[simp] theorem State.zeroHalf_chs (w : World) : (s.zeroHalf w).chs = s.chs := rfl
@[simp] theorem State.zeroHalf_dist (w : World) : (s.zeroHalf w).dist = s.dist := rfl
@[simp] theorem State.zeroHalf_rng (w : World) : (s.zeroHalf w).rng = s.rng := rfl
@[simp] theorem State.zeroHalf_keys (w : World) : (s.zeroHalf w).keys = s.keys := rfl
@[simp] theorem State.zeroHalf_mail (w : World) : (s.zeroHalf w).mail = s.mail := rfl
@[simp] theorem State.zeroHalf_dual (w : World) : (s.zeroHalf w).dual = s.dual := rfl
@[simp] theorem State.zeroHalf_gate (w : World) : (s.zeroHalf w).gate = s.gate := rfl
@[simp] theorem State.zeroHalf_tamper (w : World) : (s.zeroHalf w).tamper = s.tamper := rfl
@[simp] theorem State.zeroHalf_er (w : World) : (s.zeroHalf w).er = s.er := rfl
@[simp] theorem State.zeroHalf_ports (w : World) : (s.zeroHalf w).ports = s.ports := rfl
@[simp] theorem State.zeroHalf_hier (w : World) : (s.zeroHalf w).hier = s.hier := rfl
@[simp] theorem State.zeroHalf_power (w : World) : (s.zeroHalf w).power = s.power := rfl
@[simp] theorem State.zeroHalf_renewal (w : World) : (s.zeroHalf w).renewal = s.renewal := rfl

/-! ### State.sramWrite -/

@[simp] theorem State.sramWrite_pending (a : Nat) (b : Bytes) : (s.sramWrite a b).pending = s.pending := rfl
@[simp] theorem State.sramWrite_glob (a : Nat) (b : Bytes) : (s.sramWrite a b).glob = s.glob := rfl
@[simp] theorem State.sramWrite_md (a : Nat) (b : Bytes) : (s.sramWrite a b).md = s.md := rfl
@[simp] theorem State.sramWrite_hp (a : Nat) (b : Bytes) : (s.sramWrite a b).hp = s.hp := rfl
@[simp] theorem State.sramWrite_slices (a : Nat) (b : Bytes) : (s.sramWrite a b).slices = s.slices := rfl
@[simp] theorem State.sramWrite_ints (a : Nat) (b : Bytes) : (s.sramWrite a b).ints = s.ints := rfl
@[simp] theorem State.sramWrite_chs (a : Nat) (b : Bytes) : (s.sramWrite a b).chs = s.chs := rfl
@[simp] theorem State.sramWrite_dist (a : Nat) (b : Bytes) : (s.sramWrite a b).dist = s.dist := rfl
@[simp] theorem State.sramWrite_rng (a : Nat) (b : Bytes) : (s.sramWrite a b).rng = s.rng := rfl
@[simp] theorem State.sramWrite_keys (a : Nat) (b : Bytes) : (s.sramWrite a b).keys = s.keys := rfl
@[simp] theorem State.sramWrite_mail (a : Nat) (b : Bytes) : (s.sramWrite a b).mail = s.mail := rfl
@[simp] theorem State.sramWrite_dual (a : Nat) (b : Bytes) : (s.sramWrite a b).dual = s.dual := rfl
@[simp] theorem State.sramWrite_gate (a : Nat) (b : Bytes) : (s.sramWrite a b).gate = s.gate := rfl
@[simp] theorem State.sramWrite_tamper (a : Nat) (b : Bytes) : (s.sramWrite a b).tamper = s.tamper := rfl
@[simp] theorem State.sramWrite_er (a : Nat) (b : Bytes) : (s.sramWrite a b).er = s.er := rfl
@[simp] theorem State.sramWrite_ports (a : Nat) (b : Bytes) : (s.sramWrite a b).ports = s.ports := rfl
@[simp] theorem State.sramWrite_hier (a : Nat) (b : Bytes) : (s.sramWrite a b).hier = s.hier := rfl
@[simp] theorem State.sramWrite_power (a : Nat) (b : Bytes) : (s.sramWrite a b).power = s.power := rfl
@[simp] theorem State.sramWrite_renewal (a : Nat) (b : Bytes) : (s.sramWrite a b).renewal = s.renewal := rfl

/-! ### State.modWorld -/

@[simp] theorem State.modWorld_pending (w : World) (f : WorldSt → WorldSt) : (s.modWorld w f).pending = s.pending := by cases w <;> rfl
@[simp] theorem State.modWorld_glob (w : World) (f : WorldSt → WorldSt) : (s.modWorld w f).glob = s.glob := by cases w <;> rfl
@[simp] theorem State.modWorld_md (w : World) (f : WorldSt → WorldSt) : (s.modWorld w f).md = s.md := by cases w <;> rfl
@[simp] theorem State.modWorld_hp (w : World) (f : WorldSt → WorldSt) : (s.modWorld w f).hp = s.hp := by cases w <;> rfl
@[simp] theorem State.modWorld_slices (w : World) (f : WorldSt → WorldSt) : (s.modWorld w f).slices = s.slices := by cases w <;> rfl
@[simp] theorem State.modWorld_ints (w : World) (f : WorldSt → WorldSt) : (s.modWorld w f).ints = s.ints := by cases w <;> rfl
@[simp] theorem State.modWorld_chs (w : World) (f : WorldSt → WorldSt) : (s.modWorld w f).chs = s.chs := by cases w <;> rfl
@[simp] theorem State.modWorld_dist (w : World) (f : WorldSt → WorldSt) : (s.modWorld w f).dist = s.dist := by cases w <;> rfl
@[simp] theorem State.modWorld_rng (w : World) (f : WorldSt → WorldSt) : (s.modWorld w f).rng = s.rng := by cases w <;> rfl
@[simp] theorem State.modWorld_keys (w : World) (f : WorldSt → WorldSt) : (s.modWorld w f).keys = s.keys := by cases w <;> rfl
@[simp] theorem State.modWorld_mail (w : World) (f : WorldSt → WorldSt) : (s.modWorld w f).mail = s.mail := by cases w <;> rfl
@[simp] theorem State.modWorld_dual (w : World) (f : WorldSt → WorldSt) : (s.modWorld w f).dual = s.dual := by cases w <;> rfl
@[simp] theorem State.modWorld_gate (w : World) (f : WorldSt → WorldSt) : (s.modWorld w f).gate = s.gate := by cases w <;> rfl
@[simp] theorem State.modWorld_tamper (w : World) (f : WorldSt → WorldSt) : (s.modWorld w f).tamper = s.tamper := by cases w <;> rfl
@[simp] theorem State.modWorld_er (w : World) (f : WorldSt → WorldSt) : (s.modWorld w f).er = s.er := by cases w <;> rfl
@[simp] theorem State.modWorld_ports (w : World) (f : WorldSt → WorldSt) : (s.modWorld w f).ports = s.ports := by cases w <;> rfl
@[simp] theorem State.modWorld_hier (w : World) (f : WorldSt → WorldSt) : (s.modWorld w f).hier = s.hier := by cases w <;> rfl
@[simp] theorem State.modWorld_power (w : World) (f : WorldSt → WorldSt) : (s.modWorld w f).power = s.power := by cases w <;> rfl
@[simp] theorem State.modWorld_renewal (w : World) (f : WorldSt → WorldSt) : (s.modWorld w f).renewal = s.renewal := by cases w <;> rfl

/-! ### Lengths and elements -/

@[simp] theorem State.modCh_length (n : Nat) (f : Channel → Channel) : (s.modCh n f).chs.length = s.chs.length := List.length_modify ..
@[simp] theorem State.modPort_length (n : Nat) (f : Port → Port) : (s.modPort n f).ports.length = s.ports.length := List.length_modify ..
@[simp] theorem State.modDom_length (n : Nat) (f : Domain → Domain) : (s.modDom n f).power.domains.length = s.power.domains.length := List.length_modify ..
@[simp] theorem State.modGrp_length (n : Nat) (f : Group → Group) : (s.modGrp n f).power.groups.length = s.power.groups.length := List.length_modify ..
@[simp] theorem State.modSrc_length (n : Nat) (f : TSource → TSource) : (s.modSrc n f).tamper.sources.length = s.tamper.sources.length := List.length_modify ..
@[simp] theorem State.modBank_length (n : Nat) (f : Bank → Bank) : (s.modBank n f).rng.banks.length = s.rng.banks.length := List.length_modify ..

/-- The channel changed is the one asked for, when it exists. -/
theorem State.ch_modCh {n : Nat} (f : Channel → Channel) (h : n < s.chs.length) : (s.modCh n f).ch n = f (s.ch n) := by
  simp [State.ch, List.getD_eq_getElem?_getD, h]

/-- Every other channel stays. -/
theorem State.ch_modCh_ne {n k : Nat} (f : Channel → Channel) (h : n ≠ k) : (s.modCh n f).ch k = s.ch k := by
  simp [State.ch, List.getD_eq_getElem?_getD, h]

/-- The port changed is the one asked for, when it exists. -/
theorem State.port_modPort {n : Nat} (f : Port → Port) (h : n < s.ports.length) : (s.modPort n f).port n = f (s.port n) := by
  simp [State.port, List.getD_eq_getElem?_getD, h]

/-- Every other port stays. -/
theorem State.port_modPort_ne {n k : Nat} (f : Port → Port) (h : n ≠ k) : (s.modPort n f).port k = s.port k := by
  simp [State.port, List.getD_eq_getElem?_getD, h]

/-- Two changes that agree on an element change a list alike. -/
theorem modify_congr {α : Type} {f g : α → α} : ∀ {l : List α} {n : Nat}, (∀ x, l[n]? = some x → f x = g x) → l.modify n f = l.modify n g
  | [], n, _ => by cases n <;> rfl
  | a :: l, 0, h => by simp [List.modify_zero_cons, h a rfl]
  | a :: l, n + 1, h => by
    have := modify_congr (f := f) (g := g) (l := l) (n := n) fun x hx => h x (by simpa using hx)
    simp [List.modify_succ_cons, this]

/-- Two changes that agree on a channel change the state alike. -/
theorem State.modCh_congr {n : Nat} {f g : Channel → Channel} (h : f (s.ch n) = g (s.ch n)) : s.modCh n f = s.modCh n g := by
  unfold State.modCh
  rw [modify_congr fun x hx => ?_]
  have : s.ch n = x := by simp [State.ch, List.getD_eq_getElem?_getD, hx]
  rw [← this, h]

/-- Two changes that agree on a port change the state alike. -/
theorem State.modPort_congr {n : Nat} {f g : Port → Port} (h : f (s.port n) = g (s.port n)) : s.modPort n f = s.modPort n g := by
  unfold State.modPort
  rw [modify_congr fun x hx => ?_]
  have : s.port n = x := by simp [State.port, List.getD_eq_getElem?_getD, hx]
  rw [← this, h]

/-- Two changes that agree on a slice change the state alike. -/
theorem State.modSlice_congr {n : Nat} {f g : Slice → Slice} (h : f (s.slice n) = g (s.slice n)) : s.modSlice n f = s.modSlice n g := by
  unfold State.modSlice; rw [h]

/-- Two changes that agree on a ring pair change the state alike. -/
theorem State.modRing_congr {n p : Nat} {f g : RingPair → RingPair} (h : ∀ r, (s.slice n).rings[p]? = some r → f r = g r) :
    s.modRing n p f = s.modRing n p g := by
  unfold State.modRing
  exact s.modSlice_congr (by simp only [modify_congr h])

end Sys2Proof.Machine
end

