-- ==== Sys2Proof/Laws/Ops.lean ====
section
/-! SUPPORT. What the shared operations leave as it was: messages, event records, the error log, and what follows of itself after a change. -/

namespace Sys2Proof.Machine

variable (s : State)

/-! ### Translations held -/

@[simp] theorem State.translate_pending (p a l : Nat) : (s.translate p a l).pending = s.pending := by
  simp only [State.translate]
@[simp] theorem State.translate_glob (p a l : Nat) : (s.translate p a l).glob = s.glob := by
  simp only [State.translate]
@[simp] theorem State.translate_md (p a l : Nat) : (s.translate p a l).md = s.md := by
  simp only [State.translate]
@[simp] theorem State.translate_slices (p a l : Nat) : (s.translate p a l).slices = s.slices := by
  simp only [State.translate]
@[simp] theorem State.translate_ints (p a l : Nat) : (s.translate p a l).ints = s.ints := by
  simp only [State.translate]
@[simp] theorem State.translate_chs (p a l : Nat) : (s.translate p a l).chs = s.chs := by
  simp only [State.translate]
@[simp] theorem State.translate_dist (p a l : Nat) : (s.translate p a l).dist = s.dist := by
  simp only [State.translate]
@[simp] theorem State.translate_rng (p a l : Nat) : (s.translate p a l).rng = s.rng := by
  simp only [State.translate]
@[simp] theorem State.translate_keys (p a l : Nat) : (s.translate p a l).keys = s.keys := by
  simp only [State.translate]
@[simp] theorem State.translate_mail (p a l : Nat) : (s.translate p a l).mail = s.mail := by
  simp only [State.translate]
@[simp] theorem State.translate_dual (p a l : Nat) : (s.translate p a l).dual = s.dual := by
  simp only [State.translate]
@[simp] theorem State.translate_gate (p a l : Nat) : (s.translate p a l).gate = s.gate := by
  simp only [State.translate]
@[simp] theorem State.translate_worlds (p a l : Nat) : (s.translate p a l).worlds = s.worlds := by
  simp only [State.translate]
@[simp] theorem State.translate_tamper (p a l : Nat) : (s.translate p a l).tamper = s.tamper := by
  simp only [State.translate]
@[simp] theorem State.translate_er (p a l : Nat) : (s.translate p a l).er = s.er := by
  simp only [State.translate]
@[simp] theorem State.translate_ports (p a l : Nat) : (s.translate p a l).ports = s.ports := by
  simp only [State.translate]
@[simp] theorem State.translate_hier (p a l : Nat) : (s.translate p a l).hier = s.hier := by
  simp only [State.translate]
@[simp] theorem State.translate_power (p a l : Nat) : (s.translate p a l).power = s.power := by
  simp only [State.translate]
@[simp] theorem State.translate_renewal (p a l : Nat) : (s.translate p a l).renewal = s.renewal := by
  simp only [State.translate]

/-! ### A wake begun -/

@[simp] theorem State.startWake_pending (d : Nat) (w : WakeSource) : (s.startWake d w).pending = s.pending := by
  unfold State.startWake; split <;> rfl
@[simp] theorem State.startWake_glob (d : Nat) (w : WakeSource) : (s.startWake d w).glob = s.glob := by
  unfold State.startWake; split <;> rfl
@[simp] theorem State.startWake_md (d : Nat) (w : WakeSource) : (s.startWake d w).md = s.md := by
  unfold State.startWake; split <;> rfl
@[simp] theorem State.startWake_hp (d : Nat) (w : WakeSource) : (s.startWake d w).hp = s.hp := by
  unfold State.startWake; split <;> rfl
@[simp] theorem State.startWake_slices (d : Nat) (w : WakeSource) : (s.startWake d w).slices = s.slices := by
  unfold State.startWake; split <;> rfl
@[simp] theorem State.startWake_ints (d : Nat) (w : WakeSource) : (s.startWake d w).ints = s.ints := by
  unfold State.startWake; split <;> rfl
@[simp] theorem State.startWake_chs (d : Nat) (w : WakeSource) : (s.startWake d w).chs = s.chs := by
  unfold State.startWake; split <;> rfl
@[simp] theorem State.startWake_dist (d : Nat) (w : WakeSource) : (s.startWake d w).dist = s.dist := by
  unfold State.startWake; split <;> rfl
@[simp] theorem State.startWake_rng (d : Nat) (w : WakeSource) : (s.startWake d w).rng = s.rng := by
  unfold State.startWake; split <;> rfl
@[simp] theorem State.startWake_keys (d : Nat) (w : WakeSource) : (s.startWake d w).keys = s.keys := by
  unfold State.startWake; split <;> rfl
@[simp] theorem State.startWake_mail (d : Nat) (w : WakeSource) : (s.startWake d w).mail = s.mail := by
  unfold State.startWake; split <;> rfl
@[simp] theorem State.startWake_dual (d : Nat) (w : WakeSource) : (s.startWake d w).dual = s.dual := by
  unfold State.startWake; split <;> rfl
@[simp] theorem State.startWake_gate (d : Nat) (w : WakeSource) : (s.startWake d w).gate = s.gate := by
  unfold State.startWake; split <;> rfl
@[simp] theorem State.startWake_worlds (d : Nat) (w : WakeSource) : (s.startWake d w).worlds = s.worlds := by
  unfold State.startWake; split <;> rfl
@[simp] theorem State.startWake_tamper (d : Nat) (w : WakeSource) : (s.startWake d w).tamper = s.tamper := by
  unfold State.startWake; split <;> rfl
@[simp] theorem State.startWake_er (d : Nat) (w : WakeSource) : (s.startWake d w).er = s.er := by
  unfold State.startWake; split <;> rfl
@[simp] theorem State.startWake_ports (d : Nat) (w : WakeSource) : (s.startWake d w).ports = s.ports := by
  unfold State.startWake; split <;> rfl
@[simp] theorem State.startWake_hier (d : Nat) (w : WakeSource) : (s.startWake d w).hier = s.hier := by
  unfold State.startWake; split <;> rfl
@[simp] theorem State.startWake_renewal (d : Nat) (w : WakeSource) : (s.startWake d w).renewal = s.renewal := by
  unfold State.startWake; split <;> rfl

/-! ### A vector sent or held -/

@[simp] theorem State.postVec_pending (v : Nat) : (s.postVec v).pending = s.pending := by
  unfold State.postVec; split <;> rfl
@[simp] theorem State.postVec_glob (v : Nat) : (s.postVec v).glob = s.glob := by
  unfold State.postVec; split <;> rfl
@[simp] theorem State.postVec_md (v : Nat) : (s.postVec v).md = s.md := by
  unfold State.postVec; split <;> rfl
@[simp] theorem State.postVec_slices (v : Nat) : (s.postVec v).slices = s.slices := by
  unfold State.postVec; split <;> rfl
@[simp] theorem State.postVec_ints (v : Nat) : (s.postVec v).ints = s.ints := by
  unfold State.postVec; split <;> rfl
@[simp] theorem State.postVec_chs (v : Nat) : (s.postVec v).chs = s.chs := by
  unfold State.postVec; split <;> rfl
@[simp] theorem State.postVec_dist (v : Nat) : (s.postVec v).dist = s.dist := by
  unfold State.postVec; split <;> rfl
@[simp] theorem State.postVec_rng (v : Nat) : (s.postVec v).rng = s.rng := by
  unfold State.postVec; split <;> rfl
@[simp] theorem State.postVec_keys (v : Nat) : (s.postVec v).keys = s.keys := by
  unfold State.postVec; split <;> rfl
@[simp] theorem State.postVec_mail (v : Nat) : (s.postVec v).mail = s.mail := by
  unfold State.postVec; split <;> rfl
@[simp] theorem State.postVec_dual (v : Nat) : (s.postVec v).dual = s.dual := by
  unfold State.postVec; split <;> rfl
@[simp] theorem State.postVec_gate (v : Nat) : (s.postVec v).gate = s.gate := by
  unfold State.postVec; split <;> rfl
@[simp] theorem State.postVec_worlds (v : Nat) : (s.postVec v).worlds = s.worlds := by
  unfold State.postVec; split <;> rfl
@[simp] theorem State.postVec_tamper (v : Nat) : (s.postVec v).tamper = s.tamper := by
  unfold State.postVec; split <;> rfl
@[simp] theorem State.postVec_er (v : Nat) : (s.postVec v).er = s.er := by
  unfold State.postVec; split <;> rfl
@[simp] theorem State.postVec_ports (v : Nat) : (s.postVec v).ports = s.ports := by
  unfold State.postVec; split <;> rfl
@[simp] theorem State.postVec_hier (v : Nat) : (s.postVec v).hier = s.hier := by
  unfold State.postVec; split <;> rfl
@[simp] theorem State.postVec_power (v : Nat) : (s.postVec v).power = s.power := by
  unfold State.postVec; split <;> rfl
@[simp] theorem State.postVec_renewal (v : Nat) : (s.postVec v).renewal = s.renewal := by
  unfold State.postVec; split <;> rfl

/-! ### The link power state -/

@[simp] theorem State.setLinkPm_pending (p : Nat) : (s.setLinkPm p).pending = s.pending := by
  unfold State.setLinkPm; split <;> simp
@[simp] theorem State.setLinkPm_md (p : Nat) : (s.setLinkPm p).md = s.md := by
  unfold State.setLinkPm; split <;> simp
@[simp] theorem State.setLinkPm_slices (p : Nat) : (s.setLinkPm p).slices = s.slices := by
  unfold State.setLinkPm; split <;> simp
@[simp] theorem State.setLinkPm_ints (p : Nat) : (s.setLinkPm p).ints = s.ints := by
  unfold State.setLinkPm; split <;> simp
@[simp] theorem State.setLinkPm_chs (p : Nat) : (s.setLinkPm p).chs = s.chs := by
  unfold State.setLinkPm; split <;> simp
@[simp] theorem State.setLinkPm_dist (p : Nat) : (s.setLinkPm p).dist = s.dist := by
  unfold State.setLinkPm; split <;> simp
@[simp] theorem State.setLinkPm_rng (p : Nat) : (s.setLinkPm p).rng = s.rng := by
  unfold State.setLinkPm; split <;> simp
@[simp] theorem State.setLinkPm_keys (p : Nat) : (s.setLinkPm p).keys = s.keys := by
  unfold State.setLinkPm; split <;> simp
@[simp] theorem State.setLinkPm_mail (p : Nat) : (s.setLinkPm p).mail = s.mail := by
  unfold State.setLinkPm; split <;> simp
@[simp] theorem State.setLinkPm_dual (p : Nat) : (s.setLinkPm p).dual = s.dual := by
  unfold State.setLinkPm; split <;> simp
@[simp] theorem State.setLinkPm_gate (p : Nat) : (s.setLinkPm p).gate = s.gate := by
  unfold State.setLinkPm; split <;> simp
@[simp] theorem State.setLinkPm_worlds (p : Nat) : (s.setLinkPm p).worlds = s.worlds := by
  unfold State.setLinkPm; split <;> simp
@[simp] theorem State.setLinkPm_tamper (p : Nat) : (s.setLinkPm p).tamper = s.tamper := by
  unfold State.setLinkPm; split <;> simp
@[simp] theorem State.setLinkPm_er (p : Nat) : (s.setLinkPm p).er = s.er := by
  unfold State.setLinkPm; split <;> simp
@[simp] theorem State.setLinkPm_ports (p : Nat) : (s.setLinkPm p).ports = s.ports := by
  unfold State.setLinkPm; split <;> simp
@[simp] theorem State.setLinkPm_hier (p : Nat) : (s.setLinkPm p).hier = s.hier := by
  unfold State.setLinkPm; split <;> simp
@[simp] theorem State.setLinkPm_power (p : Nat) : (s.setLinkPm p).power = s.power := by
  unfold State.setLinkPm; split <;> simp
@[simp] theorem State.setLinkPm_renewal (p : Nat) : (s.setLinkPm p).renewal = s.renewal := by
  unfold State.setLinkPm; split <;> simp

/-! ### The link woken for a TLP -/

@[simp] theorem State.linkExit_pending : (s.linkExit).pending = s.pending := by
  unfold State.linkExit; dsimp only; split
  · split
    · simp
    · split <;> simp
  · rfl
@[simp] theorem State.linkExit_md : (s.linkExit).md = s.md := by
  unfold State.linkExit; dsimp only; split
  · split
    · simp
    · split <;> simp
  · rfl
@[simp] theorem State.linkExit_slices : (s.linkExit).slices = s.slices := by
  unfold State.linkExit; dsimp only; split
  · split
    · simp
    · split <;> simp
  · rfl
@[simp] theorem State.linkExit_ints : (s.linkExit).ints = s.ints := by
  unfold State.linkExit; dsimp only; split
  · split
    · simp
    · split <;> simp
  · rfl
@[simp] theorem State.linkExit_chs : (s.linkExit).chs = s.chs := by
  unfold State.linkExit; dsimp only; split
  · split
    · simp
    · split <;> simp
  · rfl
@[simp] theorem State.linkExit_dist : (s.linkExit).dist = s.dist := by
  unfold State.linkExit; dsimp only; split
  · split
    · simp
    · split <;> simp
  · rfl
@[simp] theorem State.linkExit_rng : (s.linkExit).rng = s.rng := by
  unfold State.linkExit; dsimp only; split
  · split
    · simp
    · split <;> simp
  · rfl
@[simp] theorem State.linkExit_keys : (s.linkExit).keys = s.keys := by
  unfold State.linkExit; dsimp only; split
  · split
    · simp
    · split <;> simp
  · rfl
@[simp] theorem State.linkExit_mail : (s.linkExit).mail = s.mail := by
  unfold State.linkExit; dsimp only; split
  · split
    · simp
    · split <;> simp
  · rfl
@[simp] theorem State.linkExit_dual : (s.linkExit).dual = s.dual := by
  unfold State.linkExit; dsimp only; split
  · split
    · simp
    · split <;> simp
  · rfl
@[simp] theorem State.linkExit_gate : (s.linkExit).gate = s.gate := by
  unfold State.linkExit; dsimp only; split
  · split
    · simp
    · split <;> simp
  · rfl
@[simp] theorem State.linkExit_worlds : (s.linkExit).worlds = s.worlds := by
  unfold State.linkExit; dsimp only; split
  · split
    · simp
    · split <;> simp
  · rfl
@[simp] theorem State.linkExit_tamper : (s.linkExit).tamper = s.tamper := by
  unfold State.linkExit; dsimp only; split
  · split
    · simp
    · split <;> simp
  · rfl
@[simp] theorem State.linkExit_er : (s.linkExit).er = s.er := by
  unfold State.linkExit; dsimp only; split
  · split
    · simp
    · split <;> simp
  · rfl
@[simp] theorem State.linkExit_ports : (s.linkExit).ports = s.ports := by
  unfold State.linkExit; dsimp only; split
  · split
    · simp
    · split <;> simp
  · rfl
@[simp] theorem State.linkExit_hier : (s.linkExit).hier = s.hier := by
  unfold State.linkExit; dsimp only; split
  · split
    · simp
    · split <;> simp
  · rfl
@[simp] theorem State.linkExit_renewal : (s.linkExit).renewal = s.renewal := by
  unfold State.linkExit; dsimp only; split
  · split
    · simp
    · split <;> simp
  · rfl

/-! ### A TLP handed over -/

@[simp] theorem State.emit_pending (o : Out) : (s.emit o).pending = s.pending := by
  unfold State.emit; dsimp only; split <;> simp
@[simp] theorem State.emit_md (o : Out) : (s.emit o).md = s.md := by
  unfold State.emit; dsimp only; split <;> simp
@[simp] theorem State.emit_slices (o : Out) : (s.emit o).slices = s.slices := by
  unfold State.emit; dsimp only; split <;> simp
@[simp] theorem State.emit_ints (o : Out) : (s.emit o).ints = s.ints := by
  unfold State.emit; dsimp only; split <;> simp
@[simp] theorem State.emit_chs (o : Out) : (s.emit o).chs = s.chs := by
  unfold State.emit; dsimp only; split <;> simp
@[simp] theorem State.emit_dist (o : Out) : (s.emit o).dist = s.dist := by
  unfold State.emit; dsimp only; split <;> simp
@[simp] theorem State.emit_rng (o : Out) : (s.emit o).rng = s.rng := by
  unfold State.emit; dsimp only; split <;> simp
@[simp] theorem State.emit_keys (o : Out) : (s.emit o).keys = s.keys := by
  unfold State.emit; dsimp only; split <;> simp
@[simp] theorem State.emit_mail (o : Out) : (s.emit o).mail = s.mail := by
  unfold State.emit; dsimp only; split <;> simp
@[simp] theorem State.emit_dual (o : Out) : (s.emit o).dual = s.dual := by
  unfold State.emit; dsimp only; split <;> simp
@[simp] theorem State.emit_gate (o : Out) : (s.emit o).gate = s.gate := by
  unfold State.emit; dsimp only; split <;> simp
@[simp] theorem State.emit_worlds (o : Out) : (s.emit o).worlds = s.worlds := by
  unfold State.emit; dsimp only; split <;> simp
@[simp] theorem State.emit_tamper (o : Out) : (s.emit o).tamper = s.tamper := by
  unfold State.emit; dsimp only; split <;> simp
@[simp] theorem State.emit_er (o : Out) : (s.emit o).er = s.er := by
  unfold State.emit; dsimp only; split <;> simp
@[simp] theorem State.emit_ports (o : Out) : (s.emit o).ports = s.ports := by
  unfold State.emit; dsimp only; split <;> simp
@[simp] theorem State.emit_hier (o : Out) : (s.emit o).hier = s.hier := by
  unfold State.emit; dsimp only; split <;> simp
@[simp] theorem State.emit_renewal (o : Out) : (s.emit o).renewal = s.renewal := by
  unfold State.emit; dsimp only; split <;> simp

/-! ### A vector raised -/

@[simp] theorem State.raiseVec_pending (v : Nat) : (s.raiseVec v).pending = s.pending := by
  unfold State.raiseVec; split <;> simp
@[simp] theorem State.raiseVec_md (v : Nat) : (s.raiseVec v).md = s.md := by
  unfold State.raiseVec; split <;> simp
@[simp] theorem State.raiseVec_slices (v : Nat) : (s.raiseVec v).slices = s.slices := by
  unfold State.raiseVec; split <;> simp
@[simp] theorem State.raiseVec_ints (v : Nat) : (s.raiseVec v).ints = s.ints := by
  unfold State.raiseVec; split <;> simp
@[simp] theorem State.raiseVec_chs (v : Nat) : (s.raiseVec v).chs = s.chs := by
  unfold State.raiseVec; split <;> simp
@[simp] theorem State.raiseVec_dist (v : Nat) : (s.raiseVec v).dist = s.dist := by
  unfold State.raiseVec; split <;> simp
@[simp] theorem State.raiseVec_rng (v : Nat) : (s.raiseVec v).rng = s.rng := by
  unfold State.raiseVec; split <;> simp
@[simp] theorem State.raiseVec_keys (v : Nat) : (s.raiseVec v).keys = s.keys := by
  unfold State.raiseVec; split <;> simp
@[simp] theorem State.raiseVec_mail (v : Nat) : (s.raiseVec v).mail = s.mail := by
  unfold State.raiseVec; split <;> simp
@[simp] theorem State.raiseVec_dual (v : Nat) : (s.raiseVec v).dual = s.dual := by
  unfold State.raiseVec; split <;> simp
@[simp] theorem State.raiseVec_gate (v : Nat) : (s.raiseVec v).gate = s.gate := by
  unfold State.raiseVec; split <;> simp
@[simp] theorem State.raiseVec_worlds (v : Nat) : (s.raiseVec v).worlds = s.worlds := by
  unfold State.raiseVec; split <;> simp
@[simp] theorem State.raiseVec_tamper (v : Nat) : (s.raiseVec v).tamper = s.tamper := by
  unfold State.raiseVec; split <;> simp
@[simp] theorem State.raiseVec_er (v : Nat) : (s.raiseVec v).er = s.er := by
  unfold State.raiseVec; split <;> simp
@[simp] theorem State.raiseVec_ports (v : Nat) : (s.raiseVec v).ports = s.ports := by
  unfold State.raiseVec; split <;> simp
@[simp] theorem State.raiseVec_hier (v : Nat) : (s.raiseVec v).hier = s.hier := by
  unfold State.raiseVec; split <;> simp
@[simp] theorem State.raiseVec_renewal (v : Nat) : (s.raiseVec v).renewal = s.renewal := by
  unfold State.raiseVec; split <;> simp

/-! ### A cause raised -/

@[simp] theorem State.raiseCause_pending (b : Nat) : (s.raiseCause b).pending = s.pending := by
  unfold State.raiseCause; simp
@[simp] theorem State.raiseCause_md (b : Nat) : (s.raiseCause b).md = s.md := by
  unfold State.raiseCause; simp
@[simp] theorem State.raiseCause_slices (b : Nat) : (s.raiseCause b).slices = s.slices := by
  unfold State.raiseCause; simp
@[simp] theorem State.raiseCause_ints (b : Nat) : (s.raiseCause b).ints = s.ints := by
  unfold State.raiseCause; simp
@[simp] theorem State.raiseCause_chs (b : Nat) : (s.raiseCause b).chs = s.chs := by
  unfold State.raiseCause; simp
@[simp] theorem State.raiseCause_dist (b : Nat) : (s.raiseCause b).dist = s.dist := by
  unfold State.raiseCause; simp
@[simp] theorem State.raiseCause_rng (b : Nat) : (s.raiseCause b).rng = s.rng := by
  unfold State.raiseCause; simp
@[simp] theorem State.raiseCause_keys (b : Nat) : (s.raiseCause b).keys = s.keys := by
  unfold State.raiseCause; simp
@[simp] theorem State.raiseCause_mail (b : Nat) : (s.raiseCause b).mail = s.mail := by
  unfold State.raiseCause; simp
@[simp] theorem State.raiseCause_dual (b : Nat) : (s.raiseCause b).dual = s.dual := by
  unfold State.raiseCause; simp
@[simp] theorem State.raiseCause_gate (b : Nat) : (s.raiseCause b).gate = s.gate := by
  unfold State.raiseCause; simp
@[simp] theorem State.raiseCause_worlds (b : Nat) : (s.raiseCause b).worlds = s.worlds := by
  unfold State.raiseCause; simp
@[simp] theorem State.raiseCause_tamper (b : Nat) : (s.raiseCause b).tamper = s.tamper := by
  unfold State.raiseCause; simp
@[simp] theorem State.raiseCause_er (b : Nat) : (s.raiseCause b).er = s.er := by
  unfold State.raiseCause; simp
@[simp] theorem State.raiseCause_ports (b : Nat) : (s.raiseCause b).ports = s.ports := by
  unfold State.raiseCause; simp
@[simp] theorem State.raiseCause_hier (b : Nat) : (s.raiseCause b).hier = s.hier := by
  unfold State.raiseCause; simp
@[simp] theorem State.raiseCause_renewal (b : Nat) : (s.raiseCause b).renewal = s.renewal := by
  unfold State.raiseCause; simp

/-! ### A slice interrupt -/

@[simp] theorem State.sliceInt_pending (e n : Nat) : (s.sliceInt e n).pending = s.pending := by
  unfold State.sliceInt; dsimp only; split
  · split <;> simp
  · rfl
@[simp] theorem State.sliceInt_md (e n : Nat) : (s.sliceInt e n).md = s.md := by
  unfold State.sliceInt; dsimp only; split
  · split <;> simp
  · rfl
@[simp] theorem State.sliceInt_slices (e n : Nat) : (s.sliceInt e n).slices = s.slices := by
  unfold State.sliceInt; dsimp only; split
  · split <;> simp
  · rfl
@[simp] theorem State.sliceInt_chs (e n : Nat) : (s.sliceInt e n).chs = s.chs := by
  unfold State.sliceInt; dsimp only; split
  · split <;> simp
  · rfl
@[simp] theorem State.sliceInt_dist (e n : Nat) : (s.sliceInt e n).dist = s.dist := by
  unfold State.sliceInt; dsimp only; split
  · split <;> simp
  · rfl
@[simp] theorem State.sliceInt_rng (e n : Nat) : (s.sliceInt e n).rng = s.rng := by
  unfold State.sliceInt; dsimp only; split
  · split <;> simp
  · rfl
@[simp] theorem State.sliceInt_keys (e n : Nat) : (s.sliceInt e n).keys = s.keys := by
  unfold State.sliceInt; dsimp only; split
  · split <;> simp
  · rfl
@[simp] theorem State.sliceInt_mail (e n : Nat) : (s.sliceInt e n).mail = s.mail := by
  unfold State.sliceInt; dsimp only; split
  · split <;> simp
  · rfl
@[simp] theorem State.sliceInt_dual (e n : Nat) : (s.sliceInt e n).dual = s.dual := by
  unfold State.sliceInt; dsimp only; split
  · split <;> simp
  · rfl
@[simp] theorem State.sliceInt_gate (e n : Nat) : (s.sliceInt e n).gate = s.gate := by
  unfold State.sliceInt; dsimp only; split
  · split <;> simp
  · rfl
@[simp] theorem State.sliceInt_worlds (e n : Nat) : (s.sliceInt e n).worlds = s.worlds := by
  unfold State.sliceInt; dsimp only; split
  · split <;> simp
  · rfl
@[simp] theorem State.sliceInt_tamper (e n : Nat) : (s.sliceInt e n).tamper = s.tamper := by
  unfold State.sliceInt; dsimp only; split
  · split <;> simp
  · rfl
@[simp] theorem State.sliceInt_er (e n : Nat) : (s.sliceInt e n).er = s.er := by
  unfold State.sliceInt; dsimp only; split
  · split <;> simp
  · rfl
@[simp] theorem State.sliceInt_ports (e n : Nat) : (s.sliceInt e n).ports = s.ports := by
  unfold State.sliceInt; dsimp only; split
  · split <;> simp
  · rfl
@[simp] theorem State.sliceInt_hier (e n : Nat) : (s.sliceInt e n).hier = s.hier := by
  unfold State.sliceInt; dsimp only; split
  · split <;> simp
  · rfl
@[simp] theorem State.sliceInt_renewal (e n : Nat) : (s.sliceInt e n).renewal = s.renewal := by
  unfold State.sliceInt; dsimp only; split
  · split <;> simp
  · rfl

/-! ### One record written -/

@[simp] theorem State.writeRec_pending (typ src grade : Nat) (m : Bool) (b : Bytes) : (s.writeRec typ src grade m b).pending = s.pending := by
  unfold State.writeRec; dsimp only; split <;> split <;> simp [State.flushStart]
@[simp] theorem State.writeRec_md (typ src grade : Nat) (m : Bool) (b : Bytes) : (s.writeRec typ src grade m b).md = s.md := by
  unfold State.writeRec; dsimp only; split <;> split <;> simp [State.flushStart]
@[simp] theorem State.writeRec_slices (typ src grade : Nat) (m : Bool) (b : Bytes) : (s.writeRec typ src grade m b).slices = s.slices := by
  unfold State.writeRec; dsimp only; split <;> split <;> simp [State.flushStart]
@[simp] theorem State.writeRec_ints (typ src grade : Nat) (m : Bool) (b : Bytes) : (s.writeRec typ src grade m b).ints = s.ints := by
  unfold State.writeRec; dsimp only; split <;> split <;> simp [State.flushStart]
@[simp] theorem State.writeRec_chs (typ src grade : Nat) (m : Bool) (b : Bytes) : (s.writeRec typ src grade m b).chs = s.chs := by
  unfold State.writeRec; dsimp only; split <;> split <;> simp [State.flushStart]
@[simp] theorem State.writeRec_dist (typ src grade : Nat) (m : Bool) (b : Bytes) : (s.writeRec typ src grade m b).dist = s.dist := by
  unfold State.writeRec; dsimp only; split <;> split <;> simp [State.flushStart]
@[simp] theorem State.writeRec_rng (typ src grade : Nat) (m : Bool) (b : Bytes) : (s.writeRec typ src grade m b).rng = s.rng := by
  unfold State.writeRec; dsimp only; split <;> split <;> simp [State.flushStart]
@[simp] theorem State.writeRec_keys (typ src grade : Nat) (m : Bool) (b : Bytes) : (s.writeRec typ src grade m b).keys = s.keys := by
  unfold State.writeRec; dsimp only; split <;> split <;> simp [State.flushStart]
@[simp] theorem State.writeRec_mail (typ src grade : Nat) (m : Bool) (b : Bytes) : (s.writeRec typ src grade m b).mail = s.mail := by
  unfold State.writeRec; dsimp only; split <;> split <;> simp [State.flushStart]
@[simp] theorem State.writeRec_dual (typ src grade : Nat) (m : Bool) (b : Bytes) : (s.writeRec typ src grade m b).dual = s.dual := by
  unfold State.writeRec; dsimp only; split <;> split <;> simp [State.flushStart]
@[simp] theorem State.writeRec_gate (typ src grade : Nat) (m : Bool) (b : Bytes) : (s.writeRec typ src grade m b).gate = s.gate := by
  unfold State.writeRec; dsimp only; split <;> split <;> simp [State.flushStart]
@[simp] theorem State.writeRec_worlds (typ src grade : Nat) (m : Bool) (b : Bytes) : (s.writeRec typ src grade m b).worlds = s.worlds := by
  unfold State.writeRec; dsimp only; split <;> split <;> simp [State.flushStart]
@[simp] theorem State.writeRec_tamper (typ src grade : Nat) (m : Bool) (b : Bytes) : (s.writeRec typ src grade m b).tamper = s.tamper := by
  unfold State.writeRec; dsimp only; split <;> split <;> simp [State.flushStart]
@[simp] theorem State.writeRec_ports (typ src grade : Nat) (m : Bool) (b : Bytes) : (s.writeRec typ src grade m b).ports = s.ports := by
  unfold State.writeRec; dsimp only; split <;> split <;> simp [State.flushStart]
@[simp] theorem State.writeRec_hier (typ src grade : Nat) (m : Bool) (b : Bytes) : (s.writeRec typ src grade m b).hier = s.hier := by
  unfold State.writeRec; dsimp only; split <;> split <;> simp [State.flushStart]
@[simp] theorem State.writeRec_renewal (typ src grade : Nat) (m : Bool) (b : Bytes) : (s.writeRec typ src grade m b).renewal = s.renewal := by
  unfold State.writeRec; dsimp only; split <;> split <;> simp [State.flushStart]

/-! ### The LOST record -/

@[simp] theorem State.writeLost_pending : (s.writeLost).pending = s.pending := by
  unfold State.writeLost; split
  · split <;> simp
  · rfl
@[simp] theorem State.writeLost_md : (s.writeLost).md = s.md := by
  unfold State.writeLost; split
  · split <;> simp
  · rfl
@[simp] theorem State.writeLost_slices : (s.writeLost).slices = s.slices := by
  unfold State.writeLost; split
  · split <;> simp
  · rfl
@[simp] theorem State.writeLost_ints : (s.writeLost).ints = s.ints := by
  unfold State.writeLost; split
  · split <;> simp
  · rfl
@[simp] theorem State.writeLost_chs : (s.writeLost).chs = s.chs := by
  unfold State.writeLost; split
  · split <;> simp
  · rfl
@[simp] theorem State.writeLost_dist : (s.writeLost).dist = s.dist := by
  unfold State.writeLost; split
  · split <;> simp
  · rfl
@[simp] theorem State.writeLost_rng : (s.writeLost).rng = s.rng := by
  unfold State.writeLost; split
  · split <;> simp
  · rfl
@[simp] theorem State.writeLost_keys : (s.writeLost).keys = s.keys := by
  unfold State.writeLost; split
  · split <;> simp
  · rfl
@[simp] theorem State.writeLost_mail : (s.writeLost).mail = s.mail := by
  unfold State.writeLost; split
  · split <;> simp
  · rfl
@[simp] theorem State.writeLost_dual : (s.writeLost).dual = s.dual := by
  unfold State.writeLost; split
  · split <;> simp
  · rfl
@[simp] theorem State.writeLost_gate : (s.writeLost).gate = s.gate := by
  unfold State.writeLost; split
  · split <;> simp
  · rfl
@[simp] theorem State.writeLost_worlds : (s.writeLost).worlds = s.worlds := by
  unfold State.writeLost; split
  · split <;> simp
  · rfl
@[simp] theorem State.writeLost_tamper : (s.writeLost).tamper = s.tamper := by
  unfold State.writeLost; split
  · split <;> simp
  · rfl
@[simp] theorem State.writeLost_ports : (s.writeLost).ports = s.ports := by
  unfold State.writeLost; split
  · split <;> simp
  · rfl
@[simp] theorem State.writeLost_hier : (s.writeLost).hier = s.hier := by
  unfold State.writeLost; split
  · split <;> simp
  · rfl
@[simp] theorem State.writeLost_renewal : (s.writeLost).renewal = s.renewal := by
  unfold State.writeLost; split
  · split <;> simp
  · rfl

/-! ### An event recorded -/

@[simp] theorem State.recordM_pending (typ src grade : Nat) (m : Bool) (b : Bytes) : (s.recordM typ src grade m b).pending = s.pending := by
  simp [State.recordM]
@[simp] theorem State.recordM_md (typ src grade : Nat) (m : Bool) (b : Bytes) : (s.recordM typ src grade m b).md = s.md := by
  simp [State.recordM]
@[simp] theorem State.recordM_slices (typ src grade : Nat) (m : Bool) (b : Bytes) : (s.recordM typ src grade m b).slices = s.slices := by
  simp [State.recordM]
@[simp] theorem State.recordM_ints (typ src grade : Nat) (m : Bool) (b : Bytes) : (s.recordM typ src grade m b).ints = s.ints := by
  simp [State.recordM]
@[simp] theorem State.recordM_chs (typ src grade : Nat) (m : Bool) (b : Bytes) : (s.recordM typ src grade m b).chs = s.chs := by
  simp [State.recordM]
@[simp] theorem State.recordM_dist (typ src grade : Nat) (m : Bool) (b : Bytes) : (s.recordM typ src grade m b).dist = s.dist := by
  simp [State.recordM]
@[simp] theorem State.recordM_rng (typ src grade : Nat) (m : Bool) (b : Bytes) : (s.recordM typ src grade m b).rng = s.rng := by
  simp [State.recordM]
@[simp] theorem State.recordM_keys (typ src grade : Nat) (m : Bool) (b : Bytes) : (s.recordM typ src grade m b).keys = s.keys := by
  simp [State.recordM]
@[simp] theorem State.recordM_mail (typ src grade : Nat) (m : Bool) (b : Bytes) : (s.recordM typ src grade m b).mail = s.mail := by
  simp [State.recordM]
@[simp] theorem State.recordM_dual (typ src grade : Nat) (m : Bool) (b : Bytes) : (s.recordM typ src grade m b).dual = s.dual := by
  simp [State.recordM]
@[simp] theorem State.recordM_gate (typ src grade : Nat) (m : Bool) (b : Bytes) : (s.recordM typ src grade m b).gate = s.gate := by
  simp [State.recordM]
@[simp] theorem State.recordM_worlds (typ src grade : Nat) (m : Bool) (b : Bytes) : (s.recordM typ src grade m b).worlds = s.worlds := by
  simp [State.recordM]
@[simp] theorem State.recordM_tamper (typ src grade : Nat) (m : Bool) (b : Bytes) : (s.recordM typ src grade m b).tamper = s.tamper := by
  simp [State.recordM]
@[simp] theorem State.recordM_ports (typ src grade : Nat) (m : Bool) (b : Bytes) : (s.recordM typ src grade m b).ports = s.ports := by
  simp [State.recordM]
@[simp] theorem State.recordM_hier (typ src grade : Nat) (m : Bool) (b : Bytes) : (s.recordM typ src grade m b).hier = s.hier := by
  simp [State.recordM]
@[simp] theorem State.recordM_renewal (typ src grade : Nat) (m : Bool) (b : Bytes) : (s.recordM typ src grade m b).renewal = s.renewal := by
  simp [State.recordM]

/-! ### An event recorded -/

@[simp] theorem State.record_pending (typ src grade : Nat) (b : Bytes) : (s.record typ src grade b).pending = s.pending := by
  simp [State.record]
@[simp] theorem State.record_md (typ src grade : Nat) (b : Bytes) : (s.record typ src grade b).md = s.md := by
  simp [State.record]
@[simp] theorem State.record_slices (typ src grade : Nat) (b : Bytes) : (s.record typ src grade b).slices = s.slices := by
  simp [State.record]
@[simp] theorem State.record_ints (typ src grade : Nat) (b : Bytes) : (s.record typ src grade b).ints = s.ints := by
  simp [State.record]
@[simp] theorem State.record_chs (typ src grade : Nat) (b : Bytes) : (s.record typ src grade b).chs = s.chs := by
  simp [State.record]
@[simp] theorem State.record_dist (typ src grade : Nat) (b : Bytes) : (s.record typ src grade b).dist = s.dist := by
  simp [State.record]
@[simp] theorem State.record_rng (typ src grade : Nat) (b : Bytes) : (s.record typ src grade b).rng = s.rng := by
  simp [State.record]
@[simp] theorem State.record_keys (typ src grade : Nat) (b : Bytes) : (s.record typ src grade b).keys = s.keys := by
  simp [State.record]
@[simp] theorem State.record_mail (typ src grade : Nat) (b : Bytes) : (s.record typ src grade b).mail = s.mail := by
  simp [State.record]
@[simp] theorem State.record_dual (typ src grade : Nat) (b : Bytes) : (s.record typ src grade b).dual = s.dual := by
  simp [State.record]
@[simp] theorem State.record_gate (typ src grade : Nat) (b : Bytes) : (s.record typ src grade b).gate = s.gate := by
  simp [State.record]
@[simp] theorem State.record_worlds (typ src grade : Nat) (b : Bytes) : (s.record typ src grade b).worlds = s.worlds := by
  simp [State.record]
@[simp] theorem State.record_tamper (typ src grade : Nat) (b : Bytes) : (s.record typ src grade b).tamper = s.tamper := by
  simp [State.record]
@[simp] theorem State.record_ports (typ src grade : Nat) (b : Bytes) : (s.record typ src grade b).ports = s.ports := by
  simp [State.record]
@[simp] theorem State.record_hier (typ src grade : Nat) (b : Bytes) : (s.record typ src grade b).hier = s.hier := by
  simp [State.record]
@[simp] theorem State.record_renewal (typ src grade : Nat) (b : Bytes) : (s.record typ src grade b).renewal = s.renewal := by
  simp [State.record]

/-! ### The CHANNEL record -/

@[simp] theorem State.recordChannel_pending (n : Nat) (o w : ChState) : (s.recordChannel n o w).pending = s.pending := by
  simp [State.recordChannel]
@[simp] theorem State.recordChannel_md (n : Nat) (o w : ChState) : (s.recordChannel n o w).md = s.md := by
  simp [State.recordChannel]
@[simp] theorem State.recordChannel_slices (n : Nat) (o w : ChState) : (s.recordChannel n o w).slices = s.slices := by
  simp [State.recordChannel]
@[simp] theorem State.recordChannel_ints (n : Nat) (o w : ChState) : (s.recordChannel n o w).ints = s.ints := by
  simp [State.recordChannel]
@[simp] theorem State.recordChannel_chs (n : Nat) (o w : ChState) : (s.recordChannel n o w).chs = s.chs := by
  simp [State.recordChannel]
@[simp] theorem State.recordChannel_dist (n : Nat) (o w : ChState) : (s.recordChannel n o w).dist = s.dist := by
  simp [State.recordChannel]
@[simp] theorem State.recordChannel_rng (n : Nat) (o w : ChState) : (s.recordChannel n o w).rng = s.rng := by
  simp [State.recordChannel]
@[simp] theorem State.recordChannel_keys (n : Nat) (o w : ChState) : (s.recordChannel n o w).keys = s.keys := by
  simp [State.recordChannel]
@[simp] theorem State.recordChannel_mail (n : Nat) (o w : ChState) : (s.recordChannel n o w).mail = s.mail := by
  simp [State.recordChannel]
@[simp] theorem State.recordChannel_dual (n : Nat) (o w : ChState) : (s.recordChannel n o w).dual = s.dual := by
  simp [State.recordChannel]
@[simp] theorem State.recordChannel_gate (n : Nat) (o w : ChState) : (s.recordChannel n o w).gate = s.gate := by
  simp [State.recordChannel]
@[simp] theorem State.recordChannel_worlds (n : Nat) (o w : ChState) : (s.recordChannel n o w).worlds = s.worlds := by
  simp [State.recordChannel]
@[simp] theorem State.recordChannel_tamper (n : Nat) (o w : ChState) : (s.recordChannel n o w).tamper = s.tamper := by
  simp [State.recordChannel]
@[simp] theorem State.recordChannel_ports (n : Nat) (o w : ChState) : (s.recordChannel n o w).ports = s.ports := by
  simp [State.recordChannel]
@[simp] theorem State.recordChannel_hier (n : Nat) (o w : ChState) : (s.recordChannel n o w).hier = s.hier := by
  simp [State.recordChannel]
@[simp] theorem State.recordChannel_renewal (n : Nat) (o w : ChState) : (s.recordChannel n o w).renewal = s.renewal := by
  simp [State.recordChannel]

/-! ### The RNG record -/

@[simp] theorem State.recordRng_pending (w e : Nat) : (s.recordRng w e).pending = s.pending := by
  simp [State.recordRng]
@[simp] theorem State.recordRng_md (w e : Nat) : (s.recordRng w e).md = s.md := by
  simp [State.recordRng]
@[simp] theorem State.recordRng_slices (w e : Nat) : (s.recordRng w e).slices = s.slices := by
  simp [State.recordRng]
@[simp] theorem State.recordRng_ints (w e : Nat) : (s.recordRng w e).ints = s.ints := by
  simp [State.recordRng]
@[simp] theorem State.recordRng_chs (w e : Nat) : (s.recordRng w e).chs = s.chs := by
  simp [State.recordRng]
@[simp] theorem State.recordRng_dist (w e : Nat) : (s.recordRng w e).dist = s.dist := by
  simp [State.recordRng]
@[simp] theorem State.recordRng_rng (w e : Nat) : (s.recordRng w e).rng = s.rng := by
  simp [State.recordRng]
@[simp] theorem State.recordRng_keys (w e : Nat) : (s.recordRng w e).keys = s.keys := by
  simp [State.recordRng]
@[simp] theorem State.recordRng_mail (w e : Nat) : (s.recordRng w e).mail = s.mail := by
  simp [State.recordRng]
@[simp] theorem State.recordRng_dual (w e : Nat) : (s.recordRng w e).dual = s.dual := by
  simp [State.recordRng]
@[simp] theorem State.recordRng_gate (w e : Nat) : (s.recordRng w e).gate = s.gate := by
  simp [State.recordRng]
@[simp] theorem State.recordRng_worlds (w e : Nat) : (s.recordRng w e).worlds = s.worlds := by
  simp [State.recordRng]
@[simp] theorem State.recordRng_tamper (w e : Nat) : (s.recordRng w e).tamper = s.tamper := by
  simp [State.recordRng]
@[simp] theorem State.recordRng_ports (w e : Nat) : (s.recordRng w e).ports = s.ports := by
  simp [State.recordRng]
@[simp] theorem State.recordRng_hier (w e : Nat) : (s.recordRng w e).hier = s.hier := by
  simp [State.recordRng]
@[simp] theorem State.recordRng_renewal (w e : Nat) : (s.recordRng w e).renewal = s.renewal := by
  simp [State.recordRng]

/-! ### An error of the host port -/

@[simp] theorem State.hpError_pending (b cause code : Nat) (w : Bool) (bar sl a : Nat) : (s.hpError b cause code w bar sl a).pending = s.pending := by
  simp [State.hpError]
@[simp] theorem State.hpError_md (b cause code : Nat) (w : Bool) (bar sl a : Nat) : (s.hpError b cause code w bar sl a).md = s.md := by
  simp [State.hpError]
@[simp] theorem State.hpError_slices (b cause code : Nat) (w : Bool) (bar sl a : Nat) : (s.hpError b cause code w bar sl a).slices = s.slices := by
  simp [State.hpError]
@[simp] theorem State.hpError_ints (b cause code : Nat) (w : Bool) (bar sl a : Nat) : (s.hpError b cause code w bar sl a).ints = s.ints := by
  simp [State.hpError]
@[simp] theorem State.hpError_chs (b cause code : Nat) (w : Bool) (bar sl a : Nat) : (s.hpError b cause code w bar sl a).chs = s.chs := by
  simp [State.hpError]
@[simp] theorem State.hpError_dist (b cause code : Nat) (w : Bool) (bar sl a : Nat) : (s.hpError b cause code w bar sl a).dist = s.dist := by
  simp [State.hpError]
@[simp] theorem State.hpError_rng (b cause code : Nat) (w : Bool) (bar sl a : Nat) : (s.hpError b cause code w bar sl a).rng = s.rng := by
  simp [State.hpError]
@[simp] theorem State.hpError_keys (b cause code : Nat) (w : Bool) (bar sl a : Nat) : (s.hpError b cause code w bar sl a).keys = s.keys := by
  simp [State.hpError]
@[simp] theorem State.hpError_mail (b cause code : Nat) (w : Bool) (bar sl a : Nat) : (s.hpError b cause code w bar sl a).mail = s.mail := by
  simp [State.hpError]
@[simp] theorem State.hpError_dual (b cause code : Nat) (w : Bool) (bar sl a : Nat) : (s.hpError b cause code w bar sl a).dual = s.dual := by
  simp [State.hpError]
@[simp] theorem State.hpError_gate (b cause code : Nat) (w : Bool) (bar sl a : Nat) : (s.hpError b cause code w bar sl a).gate = s.gate := by
  simp [State.hpError]
@[simp] theorem State.hpError_worlds (b cause code : Nat) (w : Bool) (bar sl a : Nat) : (s.hpError b cause code w bar sl a).worlds = s.worlds := by
  simp [State.hpError]
@[simp] theorem State.hpError_tamper (b cause code : Nat) (w : Bool) (bar sl a : Nat) : (s.hpError b cause code w bar sl a).tamper = s.tamper := by
  simp [State.hpError]
@[simp] theorem State.hpError_er (b cause code : Nat) (w : Bool) (bar sl a : Nat) : (s.hpError b cause code w bar sl a).er = s.er := by
  simp [State.hpError]
@[simp] theorem State.hpError_ports (b cause code : Nat) (w : Bool) (bar sl a : Nat) : (s.hpError b cause code w bar sl a).ports = s.ports := by
  simp [State.hpError]
@[simp] theorem State.hpError_hier (b cause code : Nat) (w : Bool) (bar sl a : Nat) : (s.hpError b cause code w bar sl a).hier = s.hier := by
  simp [State.hpError]
@[simp] theorem State.hpError_renewal (b cause code : Nat) (w : Bool) (bar sl a : Nat) : (s.hpError b cause code w bar sl a).renewal = s.renewal := by
  simp [State.hpError]

/-! ### A list of numbers done in order -/

/-- What every step of a list leaves alone, the list leaves alone. -/
theorem State.each_keeps {α : Type} (g : State → α) (f : Nat → State → State) (h : ∀ n t, g (f n t) = g t) (l : List Nat) : g (s.each l f) = g s := by
  induction l generalizing s with
  | nil => rfl
  | cons n r ih => exact (ih (f n s)).trans (h n s)

/-! ### The mode brought up to date -/

@[simp] theorem State.refreshMode_pending (w : Nat) : (s.refreshMode w).pending = s.pending := by
  unfold State.refreshMode; dsimp only; split <;> split <;> first | rfl | simp
@[simp] theorem State.refreshMode_slices (w : Nat) : (s.refreshMode w).slices = s.slices := by
  unfold State.refreshMode; dsimp only; split <;> split <;> first | rfl | simp
@[simp] theorem State.refreshMode_ints (w : Nat) : (s.refreshMode w).ints = s.ints := by
  unfold State.refreshMode; dsimp only; split <;> split <;> first | rfl | simp
@[simp] theorem State.refreshMode_chs (w : Nat) : (s.refreshMode w).chs = s.chs := by
  unfold State.refreshMode; dsimp only; split <;> split <;> first | rfl | simp
@[simp] theorem State.refreshMode_dist (w : Nat) : (s.refreshMode w).dist = s.dist := by
  unfold State.refreshMode; dsimp only; split <;> split <;> first | rfl | simp
@[simp] theorem State.refreshMode_rng (w : Nat) : (s.refreshMode w).rng = s.rng := by
  unfold State.refreshMode; dsimp only; split <;> split <;> first | rfl | simp
@[simp] theorem State.refreshMode_keys (w : Nat) : (s.refreshMode w).keys = s.keys := by
  unfold State.refreshMode; dsimp only; split <;> split <;> first | rfl | simp
@[simp] theorem State.refreshMode_mail (w : Nat) : (s.refreshMode w).mail = s.mail := by
  unfold State.refreshMode; dsimp only; split <;> split <;> first | rfl | simp
@[simp] theorem State.refreshMode_dual (w : Nat) : (s.refreshMode w).dual = s.dual := by
  unfold State.refreshMode; dsimp only; split <;> split <;> first | rfl | simp
@[simp] theorem State.refreshMode_gate (w : Nat) : (s.refreshMode w).gate = s.gate := by
  unfold State.refreshMode; dsimp only; split <;> split <;> first | rfl | simp
@[simp] theorem State.refreshMode_worlds (w : Nat) : (s.refreshMode w).worlds = s.worlds := by
  unfold State.refreshMode; dsimp only; split <;> split <;> first | rfl | simp
@[simp] theorem State.refreshMode_tamper (w : Nat) : (s.refreshMode w).tamper = s.tamper := by
  unfold State.refreshMode; dsimp only; split <;> split <;> first | rfl | simp
@[simp] theorem State.refreshMode_ports (w : Nat) : (s.refreshMode w).ports = s.ports := by
  unfold State.refreshMode; dsimp only; split <;> split <;> first | rfl | simp
@[simp] theorem State.refreshMode_hier (w : Nat) : (s.refreshMode w).hier = s.hier := by
  unfold State.refreshMode; dsimp only; split <;> split <;> first | rfl | simp
@[simp] theorem State.refreshMode_renewal (w : Nat) : (s.refreshMode w).renewal = s.renewal := by
  unfold State.refreshMode; dsimp only; split <;> split <;> first | rfl | simp

/-! ### The promise brought up to date -/

@[simp] theorem State.refreshPromise_pending : (s.refreshPromise).pending = s.pending := by
  unfold State.refreshPromise; dsimp only; split
  · split <;> simp
  · rfl
@[simp] theorem State.refreshPromise_slices : (s.refreshPromise).slices = s.slices := by
  unfold State.refreshPromise; dsimp only; split
  · split <;> simp
  · rfl
@[simp] theorem State.refreshPromise_ints : (s.refreshPromise).ints = s.ints := by
  unfold State.refreshPromise; dsimp only; split
  · split <;> simp
  · rfl
@[simp] theorem State.refreshPromise_chs : (s.refreshPromise).chs = s.chs := by
  unfold State.refreshPromise; dsimp only; split
  · split <;> simp
  · rfl
@[simp] theorem State.refreshPromise_dist : (s.refreshPromise).dist = s.dist := by
  unfold State.refreshPromise; dsimp only; split
  · split <;> simp
  · rfl
@[simp] theorem State.refreshPromise_rng : (s.refreshPromise).rng = s.rng := by
  unfold State.refreshPromise; dsimp only; split
  · split <;> simp
  · rfl
@[simp] theorem State.refreshPromise_keys : (s.refreshPromise).keys = s.keys := by
  unfold State.refreshPromise; dsimp only; split
  · split <;> simp
  · rfl
@[simp] theorem State.refreshPromise_mail : (s.refreshPromise).mail = s.mail := by
  unfold State.refreshPromise; dsimp only; split
  · split <;> simp
  · rfl
@[simp] theorem State.refreshPromise_dual : (s.refreshPromise).dual = s.dual := by
  unfold State.refreshPromise; dsimp only; split
  · split <;> simp
  · rfl
@[simp] theorem State.refreshPromise_gate : (s.refreshPromise).gate = s.gate := by
  unfold State.refreshPromise; dsimp only; split
  · split <;> simp
  · rfl
@[simp] theorem State.refreshPromise_worlds : (s.refreshPromise).worlds = s.worlds := by
  unfold State.refreshPromise; dsimp only; split
  · split <;> simp
  · rfl
@[simp] theorem State.refreshPromise_tamper : (s.refreshPromise).tamper = s.tamper := by
  unfold State.refreshPromise; dsimp only; split
  · split <;> simp
  · rfl
@[simp] theorem State.refreshPromise_ports : (s.refreshPromise).ports = s.ports := by
  unfold State.refreshPromise; dsimp only; split
  · split <;> simp
  · rfl
@[simp] theorem State.refreshPromise_hier : (s.refreshPromise).hier = s.hier := by
  unfold State.refreshPromise; dsimp only; split
  · split <;> simp
  · rfl
@[simp] theorem State.refreshPromise_renewal : (s.refreshPromise).renewal = s.renewal := by
  unfold State.refreshPromise; dsimp only; split
  · split <;> simp
  · rfl

/-! ### PART_DEGRADED brought up to date -/

@[simp] theorem State.refreshPartition_pending (n : Nat) : (State.refreshPartition n s).pending = s.pending := by
  unfold State.refreshPartition; dsimp only; split <;> simp
@[simp] theorem State.refreshPartition_md (n : Nat) : (State.refreshPartition n s).md = s.md := by
  unfold State.refreshPartition; dsimp only; split <;> simp
@[simp] theorem State.refreshPartition_ints (n : Nat) : (State.refreshPartition n s).ints = s.ints := by
  unfold State.refreshPartition; dsimp only; split <;> simp
@[simp] theorem State.refreshPartition_chs (n : Nat) : (State.refreshPartition n s).chs = s.chs := by
  unfold State.refreshPartition; dsimp only; split <;> simp
@[simp] theorem State.refreshPartition_dist (n : Nat) : (State.refreshPartition n s).dist = s.dist := by
  unfold State.refreshPartition; dsimp only; split <;> simp
@[simp] theorem State.refreshPartition_rng (n : Nat) : (State.refreshPartition n s).rng = s.rng := by
  unfold State.refreshPartition; dsimp only; split <;> simp
@[simp] theorem State.refreshPartition_keys (n : Nat) : (State.refreshPartition n s).keys = s.keys := by
  unfold State.refreshPartition; dsimp only; split <;> simp
@[simp] theorem State.refreshPartition_mail (n : Nat) : (State.refreshPartition n s).mail = s.mail := by
  unfold State.refreshPartition; dsimp only; split <;> simp
@[simp] theorem State.refreshPartition_dual (n : Nat) : (State.refreshPartition n s).dual = s.dual := by
  unfold State.refreshPartition; dsimp only; split <;> simp
@[simp] theorem State.refreshPartition_gate (n : Nat) : (State.refreshPartition n s).gate = s.gate := by
  unfold State.refreshPartition; dsimp only; split <;> simp
@[simp] theorem State.refreshPartition_worlds (n : Nat) : (State.refreshPartition n s).worlds = s.worlds := by
  unfold State.refreshPartition; dsimp only; split <;> simp
@[simp] theorem State.refreshPartition_tamper (n : Nat) : (State.refreshPartition n s).tamper = s.tamper := by
  unfold State.refreshPartition; dsimp only; split <;> simp
@[simp] theorem State.refreshPartition_ports (n : Nat) : (State.refreshPartition n s).ports = s.ports := by
  unfold State.refreshPartition; dsimp only; split <;> simp
@[simp] theorem State.refreshPartition_hier (n : Nat) : (State.refreshPartition n s).hier = s.hier := by
  unfold State.refreshPartition; dsimp only; split <;> simp
@[simp] theorem State.refreshPartition_renewal (n : Nat) : (State.refreshPartition n s).renewal = s.renewal := by
  unfold State.refreshPartition; dsimp only; split <;> simp

@[simp] theorem State.refreshPartitions_pending : (s.refreshPartitions).pending = s.pending := by
  exact s.each_keeps State.pending _ (fun n t => t.refreshPartition_pending n) _
@[simp] theorem State.refreshPartitions_md : (s.refreshPartitions).md = s.md := by
  exact s.each_keeps State.md _ (fun n t => t.refreshPartition_md n) _
@[simp] theorem State.refreshPartitions_ints : (s.refreshPartitions).ints = s.ints := by
  exact s.each_keeps State.ints _ (fun n t => t.refreshPartition_ints n) _
@[simp] theorem State.refreshPartitions_chs : (s.refreshPartitions).chs = s.chs := by
  exact s.each_keeps State.chs _ (fun n t => t.refreshPartition_chs n) _
@[simp] theorem State.refreshPartitions_dist : (s.refreshPartitions).dist = s.dist := by
  exact s.each_keeps State.dist _ (fun n t => t.refreshPartition_dist n) _
@[simp] theorem State.refreshPartitions_rng : (s.refreshPartitions).rng = s.rng := by
  exact s.each_keeps State.rng _ (fun n t => t.refreshPartition_rng n) _
@[simp] theorem State.refreshPartitions_keys : (s.refreshPartitions).keys = s.keys := by
  exact s.each_keeps State.keys _ (fun n t => t.refreshPartition_keys n) _
@[simp] theorem State.refreshPartitions_mail : (s.refreshPartitions).mail = s.mail := by
  exact s.each_keeps State.mail _ (fun n t => t.refreshPartition_mail n) _
@[simp] theorem State.refreshPartitions_dual : (s.refreshPartitions).dual = s.dual := by
  exact s.each_keeps State.dual _ (fun n t => t.refreshPartition_dual n) _
@[simp] theorem State.refreshPartitions_gate : (s.refreshPartitions).gate = s.gate := by
  exact s.each_keeps State.gate _ (fun n t => t.refreshPartition_gate n) _
@[simp] theorem State.refreshPartitions_worlds : (s.refreshPartitions).worlds = s.worlds := by
  exact s.each_keeps State.worlds _ (fun n t => t.refreshPartition_worlds n) _
@[simp] theorem State.refreshPartitions_tamper : (s.refreshPartitions).tamper = s.tamper := by
  exact s.each_keeps State.tamper _ (fun n t => t.refreshPartition_tamper n) _
@[simp] theorem State.refreshPartitions_ports : (s.refreshPartitions).ports = s.ports := by
  exact s.each_keeps State.ports _ (fun n t => t.refreshPartition_ports n) _
@[simp] theorem State.refreshPartitions_hier : (s.refreshPartitions).hier = s.hier := by
  exact s.each_keeps State.hier _ (fun n t => t.refreshPartition_hier n) _
@[simp] theorem State.refreshPartitions_renewal : (s.refreshPartitions).renewal = s.renewal := by
  exact s.each_keeps State.renewal _ (fun n t => t.refreshPartition_renewal n) _

/-! ### Voltages brought in line -/

@[simp] theorem State.lowerPoint_pending (n : Nat) : (State.lowerPoint n s).pending = s.pending := by
  unfold State.lowerPoint; dsimp only; split
  · split
    · split <;> rfl
    · split <;> rfl
  · rfl
@[simp] theorem State.lowerPoint_glob (n : Nat) : (State.lowerPoint n s).glob = s.glob := by
  unfold State.lowerPoint; dsimp only; split
  · split
    · split <;> rfl
    · split <;> rfl
  · rfl
@[simp] theorem State.lowerPoint_md (n : Nat) : (State.lowerPoint n s).md = s.md := by
  unfold State.lowerPoint; dsimp only; split
  · split
    · split <;> rfl
    · split <;> rfl
  · rfl
@[simp] theorem State.lowerPoint_hp (n : Nat) : (State.lowerPoint n s).hp = s.hp := by
  unfold State.lowerPoint; dsimp only; split
  · split
    · split <;> rfl
    · split <;> rfl
  · rfl
@[simp] theorem State.lowerPoint_slices (n : Nat) : (State.lowerPoint n s).slices = s.slices := by
  unfold State.lowerPoint; dsimp only; split
  · split
    · split <;> rfl
    · split <;> rfl
  · rfl
@[simp] theorem State.lowerPoint_ints (n : Nat) : (State.lowerPoint n s).ints = s.ints := by
  unfold State.lowerPoint; dsimp only; split
  · split
    · split <;> rfl
    · split <;> rfl
  · rfl
@[simp] theorem State.lowerPoint_chs (n : Nat) : (State.lowerPoint n s).chs = s.chs := by
  unfold State.lowerPoint; dsimp only; split
  · split
    · split <;> rfl
    · split <;> rfl
  · rfl
@[simp] theorem State.lowerPoint_dist (n : Nat) : (State.lowerPoint n s).dist = s.dist := by
  unfold State.lowerPoint; dsimp only; split
  · split
    · split <;> rfl
    · split <;> rfl
  · rfl
@[simp] theorem State.lowerPoint_rng (n : Nat) : (State.lowerPoint n s).rng = s.rng := by
  unfold State.lowerPoint; dsimp only; split
  · split
    · split <;> rfl
    · split <;> rfl
  · rfl
@[simp] theorem State.lowerPoint_keys (n : Nat) : (State.lowerPoint n s).keys = s.keys := by
  unfold State.lowerPoint; dsimp only; split
  · split
    · split <;> rfl
    · split <;> rfl
  · rfl
@[simp] theorem State.lowerPoint_mail (n : Nat) : (State.lowerPoint n s).mail = s.mail := by
  unfold State.lowerPoint; dsimp only; split
  · split
    · split <;> rfl
    · split <;> rfl
  · rfl
@[simp] theorem State.lowerPoint_dual (n : Nat) : (State.lowerPoint n s).dual = s.dual := by
  unfold State.lowerPoint; dsimp only; split
  · split
    · split <;> rfl
    · split <;> rfl
  · rfl
@[simp] theorem State.lowerPoint_gate (n : Nat) : (State.lowerPoint n s).gate = s.gate := by
  unfold State.lowerPoint; dsimp only; split
  · split
    · split <;> rfl
    · split <;> rfl
  · rfl
@[simp] theorem State.lowerPoint_worlds (n : Nat) : (State.lowerPoint n s).worlds = s.worlds := by
  unfold State.lowerPoint; dsimp only; split
  · split
    · split <;> rfl
    · split <;> rfl
  · rfl
@[simp] theorem State.lowerPoint_tamper (n : Nat) : (State.lowerPoint n s).tamper = s.tamper := by
  unfold State.lowerPoint; dsimp only; split
  · split
    · split <;> rfl
    · split <;> rfl
  · rfl
@[simp] theorem State.lowerPoint_er (n : Nat) : (State.lowerPoint n s).er = s.er := by
  unfold State.lowerPoint; dsimp only; split
  · split
    · split <;> rfl
    · split <;> rfl
  · rfl
@[simp] theorem State.lowerPoint_ports (n : Nat) : (State.lowerPoint n s).ports = s.ports := by
  unfold State.lowerPoint; dsimp only; split
  · split
    · split <;> rfl
    · split <;> rfl
  · rfl
@[simp] theorem State.lowerPoint_hier (n : Nat) : (State.lowerPoint n s).hier = s.hier := by
  unfold State.lowerPoint; dsimp only; split
  · split
    · split <;> rfl
    · split <;> rfl
  · rfl
@[simp] theorem State.lowerPoint_renewal (n : Nat) : (State.lowerPoint n s).renewal = s.renewal := by
  unfold State.lowerPoint; dsimp only; split
  · split
    · split <;> rfl
    · split <;> rfl
  · rfl

@[simp] theorem State.writeGroup_pending (g : Nat) : (State.writeGroup g s).pending = s.pending := by
  unfold State.writeGroup; dsimp only; split <;> rfl
@[simp] theorem State.writeGroup_glob (g : Nat) : (State.writeGroup g s).glob = s.glob := by
  unfold State.writeGroup; dsimp only; split <;> rfl
@[simp] theorem State.writeGroup_md (g : Nat) : (State.writeGroup g s).md = s.md := by
  unfold State.writeGroup; dsimp only; split <;> rfl
@[simp] theorem State.writeGroup_hp (g : Nat) : (State.writeGroup g s).hp = s.hp := by
  unfold State.writeGroup; dsimp only; split <;> rfl
@[simp] theorem State.writeGroup_slices (g : Nat) : (State.writeGroup g s).slices = s.slices := by
  unfold State.writeGroup; dsimp only; split <;> rfl
@[simp] theorem State.writeGroup_ints (g : Nat) : (State.writeGroup g s).ints = s.ints := by
  unfold State.writeGroup; dsimp only; split <;> rfl
@[simp] theorem State.writeGroup_chs (g : Nat) : (State.writeGroup g s).chs = s.chs := by
  unfold State.writeGroup; dsimp only; split <;> rfl
@[simp] theorem State.writeGroup_dist (g : Nat) : (State.writeGroup g s).dist = s.dist := by
  unfold State.writeGroup; dsimp only; split <;> rfl
@[simp] theorem State.writeGroup_rng (g : Nat) : (State.writeGroup g s).rng = s.rng := by
  unfold State.writeGroup; dsimp only; split <;> rfl
@[simp] theorem State.writeGroup_keys (g : Nat) : (State.writeGroup g s).keys = s.keys := by
  unfold State.writeGroup; dsimp only; split <;> rfl
@[simp] theorem State.writeGroup_mail (g : Nat) : (State.writeGroup g s).mail = s.mail := by
  unfold State.writeGroup; dsimp only; split <;> rfl
@[simp] theorem State.writeGroup_dual (g : Nat) : (State.writeGroup g s).dual = s.dual := by
  unfold State.writeGroup; dsimp only; split <;> rfl
@[simp] theorem State.writeGroup_gate (g : Nat) : (State.writeGroup g s).gate = s.gate := by
  unfold State.writeGroup; dsimp only; split <;> rfl
@[simp] theorem State.writeGroup_worlds (g : Nat) : (State.writeGroup g s).worlds = s.worlds := by
  unfold State.writeGroup; dsimp only; split <;> rfl
@[simp] theorem State.writeGroup_tamper (g : Nat) : (State.writeGroup g s).tamper = s.tamper := by
  unfold State.writeGroup; dsimp only; split <;> rfl
@[simp] theorem State.writeGroup_er (g : Nat) : (State.writeGroup g s).er = s.er := by
  unfold State.writeGroup; dsimp only; split <;> rfl
@[simp] theorem State.writeGroup_ports (g : Nat) : (State.writeGroup g s).ports = s.ports := by
  unfold State.writeGroup; dsimp only; split <;> rfl
@[simp] theorem State.writeGroup_hier (g : Nat) : (State.writeGroup g s).hier = s.hier := by
  unfold State.writeGroup; dsimp only; split <;> rfl
@[simp] theorem State.writeGroup_renewal (g : Nat) : (State.writeGroup g s).renewal = s.renewal := by
  unfold State.writeGroup; dsimp only; split <;> rfl

@[simp] theorem State.raisePoint_pending (n : Nat) : (State.raisePoint n s).pending = s.pending := by
  unfold State.raisePoint; dsimp only; split
  · split <;> rfl
  · rfl
@[simp] theorem State.raisePoint_glob (n : Nat) : (State.raisePoint n s).glob = s.glob := by
  unfold State.raisePoint; dsimp only; split
  · split <;> rfl
  · rfl
@[simp] theorem State.raisePoint_md (n : Nat) : (State.raisePoint n s).md = s.md := by
  unfold State.raisePoint; dsimp only; split
  · split <;> rfl
  · rfl
@[simp] theorem State.raisePoint_hp (n : Nat) : (State.raisePoint n s).hp = s.hp := by
  unfold State.raisePoint; dsimp only; split
  · split <;> rfl
  · rfl
@[simp] theorem State.raisePoint_slices (n : Nat) : (State.raisePoint n s).slices = s.slices := by
  unfold State.raisePoint; dsimp only; split
  · split <;> rfl
  · rfl
@[simp] theorem State.raisePoint_ints (n : Nat) : (State.raisePoint n s).ints = s.ints := by
  unfold State.raisePoint; dsimp only; split
  · split <;> rfl
  · rfl
@[simp] theorem State.raisePoint_chs (n : Nat) : (State.raisePoint n s).chs = s.chs := by
  unfold State.raisePoint; dsimp only; split
  · split <;> rfl
  · rfl
@[simp] theorem State.raisePoint_dist (n : Nat) : (State.raisePoint n s).dist = s.dist := by
  unfold State.raisePoint; dsimp only; split
  · split <;> rfl
  · rfl
@[simp] theorem State.raisePoint_rng (n : Nat) : (State.raisePoint n s).rng = s.rng := by
  unfold State.raisePoint; dsimp only; split
  · split <;> rfl
  · rfl
@[simp] theorem State.raisePoint_keys (n : Nat) : (State.raisePoint n s).keys = s.keys := by
  unfold State.raisePoint; dsimp only; split
  · split <;> rfl
  · rfl
@[simp] theorem State.raisePoint_mail (n : Nat) : (State.raisePoint n s).mail = s.mail := by
  unfold State.raisePoint; dsimp only; split
  · split <;> rfl
  · rfl
@[simp] theorem State.raisePoint_dual (n : Nat) : (State.raisePoint n s).dual = s.dual := by
  unfold State.raisePoint; dsimp only; split
  · split <;> rfl
  · rfl
@[simp] theorem State.raisePoint_gate (n : Nat) : (State.raisePoint n s).gate = s.gate := by
  unfold State.raisePoint; dsimp only; split
  · split <;> rfl
  · rfl
@[simp] theorem State.raisePoint_worlds (n : Nat) : (State.raisePoint n s).worlds = s.worlds := by
  unfold State.raisePoint; dsimp only; split
  · split <;> rfl
  · rfl
@[simp] theorem State.raisePoint_tamper (n : Nat) : (State.raisePoint n s).tamper = s.tamper := by
  unfold State.raisePoint; dsimp only; split
  · split <;> rfl
  · rfl
@[simp] theorem State.raisePoint_er (n : Nat) : (State.raisePoint n s).er = s.er := by
  unfold State.raisePoint; dsimp only; split
  · split <;> rfl
  · rfl
@[simp] theorem State.raisePoint_ports (n : Nat) : (State.raisePoint n s).ports = s.ports := by
  unfold State.raisePoint; dsimp only; split
  · split <;> rfl
  · rfl
@[simp] theorem State.raisePoint_hier (n : Nat) : (State.raisePoint n s).hier = s.hier := by
  unfold State.raisePoint; dsimp only; split
  · split <;> rfl
  · rfl
@[simp] theorem State.raisePoint_renewal (n : Nat) : (State.raisePoint n s).renewal = s.renewal := by
  unfold State.raisePoint; dsimp only; split
  · split <;> rfl
  · rfl

@[simp] theorem State.startTest_pending (n : Nat) : (State.startTest n s).pending = s.pending := by
  unfold State.startTest; dsimp only; split <;> rfl
@[simp] theorem State.startTest_glob (n : Nat) : (State.startTest n s).glob = s.glob := by
  unfold State.startTest; dsimp only; split <;> rfl
@[simp] theorem State.startTest_md (n : Nat) : (State.startTest n s).md = s.md := by
  unfold State.startTest; dsimp only; split <;> rfl
@[simp] theorem State.startTest_hp (n : Nat) : (State.startTest n s).hp = s.hp := by
  unfold State.startTest; dsimp only; split <;> rfl
@[simp] theorem State.startTest_slices (n : Nat) : (State.startTest n s).slices = s.slices := by
  unfold State.startTest; dsimp only; split <;> rfl
@[simp] theorem State.startTest_ints (n : Nat) : (State.startTest n s).ints = s.ints := by
  unfold State.startTest; dsimp only; split <;> rfl
@[simp] theorem State.startTest_dist (n : Nat) : (State.startTest n s).dist = s.dist := by
  unfold State.startTest; dsimp only; split <;> rfl
@[simp] theorem State.startTest_rng (n : Nat) : (State.startTest n s).rng = s.rng := by
  unfold State.startTest; dsimp only; split <;> rfl
@[simp] theorem State.startTest_keys (n : Nat) : (State.startTest n s).keys = s.keys := by
  unfold State.startTest; dsimp only; split <;> rfl
@[simp] theorem State.startTest_mail (n : Nat) : (State.startTest n s).mail = s.mail := by
  unfold State.startTest; dsimp only; split <;> rfl
@[simp] theorem State.startTest_dual (n : Nat) : (State.startTest n s).dual = s.dual := by
  unfold State.startTest; dsimp only; split <;> rfl
@[simp] theorem State.startTest_gate (n : Nat) : (State.startTest n s).gate = s.gate := by
  unfold State.startTest; dsimp only; split <;> rfl
@[simp] theorem State.startTest_worlds (n : Nat) : (State.startTest n s).worlds = s.worlds := by
  unfold State.startTest; dsimp only; split <;> rfl
@[simp] theorem State.startTest_tamper (n : Nat) : (State.startTest n s).tamper = s.tamper := by
  unfold State.startTest; dsimp only; split <;> rfl
@[simp] theorem State.startTest_er (n : Nat) : (State.startTest n s).er = s.er := by
  unfold State.startTest; dsimp only; split <;> rfl
@[simp] theorem State.startTest_ports (n : Nat) : (State.startTest n s).ports = s.ports := by
  unfold State.startTest; dsimp only; split <;> rfl
@[simp] theorem State.startTest_hier (n : Nat) : (State.startTest n s).hier = s.hier := by
  unfold State.startTest; dsimp only; split <;> rfl
@[simp] theorem State.startTest_power (n : Nat) : (State.startTest n s).power = s.power := by
  unfold State.startTest; dsimp only; split <;> rfl
@[simp] theorem State.startTest_renewal (n : Nat) : (State.startTest n s).renewal = s.renewal := by
  unfold State.startTest; dsimp only; split <;> rfl

@[simp] theorem State.refreshPower_pending : (s.refreshPower).pending = s.pending := by
  unfold State.refreshPower
  exact ((State.each_keeps _ State.pending _ (fun n t => t.startTest_pending n) _).trans
    (State.each_keeps _ State.pending _ (fun n t => t.raisePoint_pending n) _)).trans
    ((State.each_keeps _ State.pending _ (fun g t => t.writeGroup_pending g) _).trans
    (State.each_keeps _ State.pending _ (fun n t => t.lowerPoint_pending n) _))
@[simp] theorem State.refreshPower_glob : (s.refreshPower).glob = s.glob := by
  unfold State.refreshPower
  exact ((State.each_keeps _ State.glob _ (fun n t => t.startTest_glob n) _).trans
    (State.each_keeps _ State.glob _ (fun n t => t.raisePoint_glob n) _)).trans
    ((State.each_keeps _ State.glob _ (fun g t => t.writeGroup_glob g) _).trans
    (State.each_keeps _ State.glob _ (fun n t => t.lowerPoint_glob n) _))
@[simp] theorem State.refreshPower_md : (s.refreshPower).md = s.md := by
  unfold State.refreshPower
  exact ((State.each_keeps _ State.md _ (fun n t => t.startTest_md n) _).trans
    (State.each_keeps _ State.md _ (fun n t => t.raisePoint_md n) _)).trans
    ((State.each_keeps _ State.md _ (fun g t => t.writeGroup_md g) _).trans
    (State.each_keeps _ State.md _ (fun n t => t.lowerPoint_md n) _))
@[simp] theorem State.refreshPower_hp : (s.refreshPower).hp = s.hp := by
  unfold State.refreshPower
  exact ((State.each_keeps _ State.hp _ (fun n t => t.startTest_hp n) _).trans
    (State.each_keeps _ State.hp _ (fun n t => t.raisePoint_hp n) _)).trans
    ((State.each_keeps _ State.hp _ (fun g t => t.writeGroup_hp g) _).trans
    (State.each_keeps _ State.hp _ (fun n t => t.lowerPoint_hp n) _))
@[simp] theorem State.refreshPower_slices : (s.refreshPower).slices = s.slices := by
  unfold State.refreshPower
  exact ((State.each_keeps _ State.slices _ (fun n t => t.startTest_slices n) _).trans
    (State.each_keeps _ State.slices _ (fun n t => t.raisePoint_slices n) _)).trans
    ((State.each_keeps _ State.slices _ (fun g t => t.writeGroup_slices g) _).trans
    (State.each_keeps _ State.slices _ (fun n t => t.lowerPoint_slices n) _))
@[simp] theorem State.refreshPower_ints : (s.refreshPower).ints = s.ints := by
  unfold State.refreshPower
  exact ((State.each_keeps _ State.ints _ (fun n t => t.startTest_ints n) _).trans
    (State.each_keeps _ State.ints _ (fun n t => t.raisePoint_ints n) _)).trans
    ((State.each_keeps _ State.ints _ (fun g t => t.writeGroup_ints g) _).trans
    (State.each_keeps _ State.ints _ (fun n t => t.lowerPoint_ints n) _))
@[simp] theorem State.refreshPower_dist : (s.refreshPower).dist = s.dist := by
  unfold State.refreshPower
  exact ((State.each_keeps _ State.dist _ (fun n t => t.startTest_dist n) _).trans
    (State.each_keeps _ State.dist _ (fun n t => t.raisePoint_dist n) _)).trans
    ((State.each_keeps _ State.dist _ (fun g t => t.writeGroup_dist g) _).trans
    (State.each_keeps _ State.dist _ (fun n t => t.lowerPoint_dist n) _))
@[simp] theorem State.refreshPower_rng : (s.refreshPower).rng = s.rng := by
  unfold State.refreshPower
  exact ((State.each_keeps _ State.rng _ (fun n t => t.startTest_rng n) _).trans
    (State.each_keeps _ State.rng _ (fun n t => t.raisePoint_rng n) _)).trans
    ((State.each_keeps _ State.rng _ (fun g t => t.writeGroup_rng g) _).trans
    (State.each_keeps _ State.rng _ (fun n t => t.lowerPoint_rng n) _))
@[simp] theorem State.refreshPower_keys : (s.refreshPower).keys = s.keys := by
  unfold State.refreshPower
  exact ((State.each_keeps _ State.keys _ (fun n t => t.startTest_keys n) _).trans
    (State.each_keeps _ State.keys _ (fun n t => t.raisePoint_keys n) _)).trans
    ((State.each_keeps _ State.keys _ (fun g t => t.writeGroup_keys g) _).trans
    (State.each_keeps _ State.keys _ (fun n t => t.lowerPoint_keys n) _))
@[simp] theorem State.refreshPower_mail : (s.refreshPower).mail = s.mail := by
  unfold State.refreshPower
  exact ((State.each_keeps _ State.mail _ (fun n t => t.startTest_mail n) _).trans
    (State.each_keeps _ State.mail _ (fun n t => t.raisePoint_mail n) _)).trans
    ((State.each_keeps _ State.mail _ (fun g t => t.writeGroup_mail g) _).trans
    (State.each_keeps _ State.mail _ (fun n t => t.lowerPoint_mail n) _))
@[simp] theorem State.refreshPower_dual : (s.refreshPower).dual = s.dual := by
  unfold State.refreshPower
  exact ((State.each_keeps _ State.dual _ (fun n t => t.startTest_dual n) _).trans
    (State.each_keeps _ State.dual _ (fun n t => t.raisePoint_dual n) _)).trans
    ((State.each_keeps _ State.dual _ (fun g t => t.writeGroup_dual g) _).trans
    (State.each_keeps _ State.dual _ (fun n t => t.lowerPoint_dual n) _))
@[simp] theorem State.refreshPower_gate : (s.refreshPower).gate = s.gate := by
  unfold State.refreshPower
  exact ((State.each_keeps _ State.gate _ (fun n t => t.startTest_gate n) _).trans
    (State.each_keeps _ State.gate _ (fun n t => t.raisePoint_gate n) _)).trans
    ((State.each_keeps _ State.gate _ (fun g t => t.writeGroup_gate g) _).trans
    (State.each_keeps _ State.gate _ (fun n t => t.lowerPoint_gate n) _))
@[simp] theorem State.refreshPower_worlds : (s.refreshPower).worlds = s.worlds := by
  unfold State.refreshPower
  exact ((State.each_keeps _ State.worlds _ (fun n t => t.startTest_worlds n) _).trans
    (State.each_keeps _ State.worlds _ (fun n t => t.raisePoint_worlds n) _)).trans
    ((State.each_keeps _ State.worlds _ (fun g t => t.writeGroup_worlds g) _).trans
    (State.each_keeps _ State.worlds _ (fun n t => t.lowerPoint_worlds n) _))
@[simp] theorem State.refreshPower_tamper : (s.refreshPower).tamper = s.tamper := by
  unfold State.refreshPower
  exact ((State.each_keeps _ State.tamper _ (fun n t => t.startTest_tamper n) _).trans
    (State.each_keeps _ State.tamper _ (fun n t => t.raisePoint_tamper n) _)).trans
    ((State.each_keeps _ State.tamper _ (fun g t => t.writeGroup_tamper g) _).trans
    (State.each_keeps _ State.tamper _ (fun n t => t.lowerPoint_tamper n) _))
@[simp] theorem State.refreshPower_er : (s.refreshPower).er = s.er := by
  unfold State.refreshPower
  exact ((State.each_keeps _ State.er _ (fun n t => t.startTest_er n) _).trans
    (State.each_keeps _ State.er _ (fun n t => t.raisePoint_er n) _)).trans
    ((State.each_keeps _ State.er _ (fun g t => t.writeGroup_er g) _).trans
    (State.each_keeps _ State.er _ (fun n t => t.lowerPoint_er n) _))
@[simp] theorem State.refreshPower_ports : (s.refreshPower).ports = s.ports := by
  unfold State.refreshPower
  exact ((State.each_keeps _ State.ports _ (fun n t => t.startTest_ports n) _).trans
    (State.each_keeps _ State.ports _ (fun n t => t.raisePoint_ports n) _)).trans
    ((State.each_keeps _ State.ports _ (fun g t => t.writeGroup_ports g) _).trans
    (State.each_keeps _ State.ports _ (fun n t => t.lowerPoint_ports n) _))
@[simp] theorem State.refreshPower_hier : (s.refreshPower).hier = s.hier := by
  unfold State.refreshPower
  exact ((State.each_keeps _ State.hier _ (fun n t => t.startTest_hier n) _).trans
    (State.each_keeps _ State.hier _ (fun n t => t.raisePoint_hier n) _)).trans
    ((State.each_keeps _ State.hier _ (fun g t => t.writeGroup_hier g) _).trans
    (State.each_keeps _ State.hier _ (fun n t => t.lowerPoint_hier n) _))
@[simp] theorem State.refreshPower_renewal : (s.refreshPower).renewal = s.renewal := by
  unfold State.refreshPower
  exact ((State.each_keeps _ State.renewal _ (fun n t => t.startTest_renewal n) _).trans
    (State.each_keeps _ State.renewal _ (fun n t => t.raisePoint_renewal n) _)).trans
    ((State.each_keeps _ State.renewal _ (fun g t => t.writeGroup_renewal g) _).trans
    (State.each_keeps _ State.renewal _ (fun n t => t.lowerPoint_renewal n) _))

/-! ### What follows of itself after a change -/

@[simp] theorem State.settle_pending (u : State) : (s.settle u).pending = s.pending := by
  simp [State.settle]
@[simp] theorem State.settle_ints (u : State) : (s.settle u).ints = s.ints := by
  simp [State.settle]
@[simp] theorem State.settle_dist (u : State) : (s.settle u).dist = s.dist := by
  simp [State.settle]
@[simp] theorem State.settle_rng (u : State) : (s.settle u).rng = s.rng := by
  simp [State.settle]
@[simp] theorem State.settle_keys (u : State) : (s.settle u).keys = s.keys := by
  simp [State.settle]
@[simp] theorem State.settle_mail (u : State) : (s.settle u).mail = s.mail := by
  simp [State.settle]
@[simp] theorem State.settle_dual (u : State) : (s.settle u).dual = s.dual := by
  simp [State.settle]
@[simp] theorem State.settle_gate (u : State) : (s.settle u).gate = s.gate := by
  simp [State.settle]
@[simp] theorem State.settle_worlds (u : State) : (s.settle u).worlds = s.worlds := by
  simp [State.settle]
@[simp] theorem State.settle_tamper (u : State) : (s.settle u).tamper = s.tamper := by
  simp [State.settle]
@[simp] theorem State.settle_ports (u : State) : (s.settle u).ports = s.ports := by
  simp [State.settle]
@[simp] theorem State.settle_hier (u : State) : (s.settle u).hier = s.hier := by
  simp [State.settle]
@[simp] theorem State.settle_renewal (u : State) : (s.settle u).renewal = s.renewal := by
  simp [State.settle]

/-! ### The event recorder's number -/

/-- A record written takes one number. -/
@[simp] theorem State.writeRec_nextSeq (typ src grade : Nat) (m : Bool) (b : Bytes) :
    (s.writeRec typ src grade m b).er.nextSeq = s.er.nextSeq + 1 := by
  have hp : ∀ (r : Recorder) (x : Record), (r.put x).nextSeq = r.nextSeq := fun r x => by unfold Recorder.put; split <;> rfl
  unfold State.writeRec; dsimp only
  split <;> split <;> simp [hp, Recorder.takeSeq, State.flushStart]

/-- The LOST record takes a number or none: none is taken back. -/
theorem State.writeLost_nextSeq_le : s.er.nextSeq ≤ s.writeLost.er.nextSeq := by
  unfold State.writeLost
  split
  · split
    · simp
    · exact Nat.le_refl _
  · exact Nat.le_refl _

/-- An event takes the number after a LOST record that is due. -/
@[simp] theorem State.recordM_nextSeq (typ src grade : Nat) (m : Bool) (b : Bytes) :
    (s.recordM typ src grade m b).er.nextSeq = s.recordSeq + 1 := by simp [State.recordM, State.recordSeq]

/-- An event takes the number after a LOST record that is due. -/
@[simp] theorem State.record_nextSeq (typ src grade : Nat) (b : Bytes) : (s.record typ src grade b).er.nextSeq = s.recordSeq + 1 := by
  simp [State.record]

/-- The number an event takes is none taken before. -/
theorem State.nextSeq_le_recordSeq : s.er.nextSeq ≤ s.recordSeq := s.writeLost_nextSeq_le

/-- With nothing lost an event takes the next number. -/
theorem State.recordSeq_eq (h : s.er.lostRange = none) : s.recordSeq = s.er.nextSeq := by
  simp [State.recordSeq, State.writeLost, h]

/-! ### Causes of vector 0, 2 and 3 -/

/-- A cause stays set while another is noted. -/
theorem State.noteCause_keeps {i b : Nat} (h : s.glob.irqCause.getLsbD i = true) : (s.noteCause b).glob.irqCause.getLsbD i = true := by
  simp [State.noteCause, h]

/-- A cause stays set while the link's power state changes. -/
theorem State.setLinkPm_keeps {i p : Nat} (h : s.glob.irqCause.getLsbD i = true) : (s.setLinkPm p).glob.irqCause.getLsbD i = true := by
  unfold State.setLinkPm
  split
  · exact h
  · rw [State.postVec_glob]; exact State.noteCause_keeps _ h

/-- A cause stays set while the link wakes. -/
theorem State.linkExit_keeps {i : Nat} (h : s.glob.irqCause.getLsbD i = true) : s.linkExit.glob.irqCause.getLsbD i = true := by
  have h0 := s.setLinkPm_keeps (p := 0) h
  unfold State.linkExit; dsimp only
  split
  · split
    · exact h0
    · split
      · exact h0
      · exact h0
  · exact h

/-- A cause stays set while a vector is raised. -/
theorem State.raiseVec_keeps {i v : Nat} (h : s.glob.irqCause.getLsbD i = true) : (s.raiseVec v).glob.irqCause.getLsbD i = true := by
  unfold State.raiseVec
  rw [State.postVec_glob]
  split
  · exact s.linkExit_keeps h
  · exact h

/-- Raising a cause sets its bit (R592). -/
theorem State.raiseCause_bit {b : Nat} (h : b < 4) : (s.raiseCause b).glob.irqCause.getLsbD b = true := by
  unfold State.raiseCause
  refine State.raiseVec_keeps _ ?_
  have : b = 0 ∨ b = 1 ∨ b = 2 ∨ b = 3 := by omega
  rcases this with rfl | rfl | rfl | rfl <;> simp [State.noteCause]

end Sys2Proof.Machine
end

