-- ==== Sys2Proof/Tests/Slice0.lean ====
section
/-! SUPPORT. The model's own tests: an ill-formed command for each check of WellFormed, and for each statement a state and operands that meet the
premises of every clause together. Where a premise asks the answer of an algorithm that Config leaves open, the witness takes that answer as a premise. -/

namespace Sys2Proof.Tests

set_option maxRecDepth 50000
set_option Elab.async false

open Sys2Proof Sys2Proof.Machine

/-! ### States of the tests -/

/-- A given answer is the answer. -/
theorem some_of {α : Type} (o : Option α) (d : α) (h : o.isSome = true) : o = some (o.getD d) := by
  cases o with
  | none => cases h
  | some a => rfl

/-- The first of a left answer. -/
def leftD {α β : Type} (x : α ⊕ β) (d : α) : α := match x with | .inl a => a | .inr _ => d
/-- The right answer. -/
def rightD {α β : Type} (x : α ⊕ β) (d : β) : β := match x with | .inl _ => d | .inr b => b

/-- A left answer is its answer. -/
theorem left_of {α β : Type} (x : α ⊕ β) (d : α) (h : x.isLeft = true) : x = .inl (leftD x d) := by
  cases x with
  | inl a => rfl
  | inr b => cases h

/-- A right answer is its answer. -/
theorem right_of {α β : Type} (x : α ⊕ β) (d : β) (h : x.isRight = true) : x = .inr (rightD x d) := by
  cases x with
  | inr a => rfl
  | inl b => cases h

/-- An image of kind `k`. -/
def image (k : Nat) : Image :=
  { kind := k, version := 1, svn := 1, bodyLen := 0, bodyDigest := [], measurement := [], signerDigest := [], sigOk := true, mcFloor := 0,
    worldCfg := 0xFF, session1Ow := false, tRegions := 64, extensions := [(0x8000, 0, 100)], nextSigner := [] }

/-- Slice 42 with one armed ring pair. -/
def slice42 : Slice :=
  { num := 42, state := .active, inst := 1, pasid := 7, rpCount := 1, keyQuota := 10, weight := 1, drbgShare := 10, keyset := zeros 32,
    rings := [{ armed := true, sqBase := 4096, cqBase := 8192, sqLog2 := 6, cqLog2 := 6 }] }

/-- A device in service, in DEVELOPMENT, with slice 42 and an open session in the first manager mailbox; the admission table lets the host reach
the three BARs and the channels the host's memory. -/
def base0 : State :=
  { glob := { uptimeMs := 100000 }
    md := { mode := .full, startup := false, promiseOn := true }
    hp := { dlUp := true, ready := true, perst := false, speed := 7, width := 16, flit := true }
    slices := [slice42]
    chs := List.replicate 36 { st := .service, creditLimit := 8, svcRate := 1024, entered := true, mcState := .active }
    dist := { medianRate := 1024 }
    rng := { source := .service, cd0 := { st := .seeded }, cd1 := { st := .seeded }, gens := List.replicate 36 { st := .seeded } }
    keys := { lc := .development, root := some [], sik := some [] }
    mail := { boxes := [{ num := 4096, session := true }] }
    gate := { st := .opened, measuring := false }
    worlds := { regions := [(3, lockedRegion 0x40000000 24 0xC001B), (4, lockedRegion 0x44000000 26 0xC001B), (5, lockedRegion 0x48000000 25 0xC001B),
                            (6, lockedRegion 0x4000000000 36 0x300603)]
                tw := { up := true, image := some (image 1) }, ow := { up := true, image := some (image 2) } }
    renewal := { kind := 1, ready := true, initDone := true } }

/-- That device, the slice's master key in its row. -/
def base : State := { base0 with slices := [base0.withSmk slice42 (some (zeros 32))] }

/-- A command packet's header. -/
def header (op : Nat) (body : Bytes) (challenge part count : Nat) : Bytes :=
  let h := leBytes 2 op ++ [1, 0] ++ leBytes 4 9 ++ leBytes 4 body.length ++ zeros 4 ++ leBytes 8 challenge ++ leBytes 2 part ++ leBytes 2 count ++ zeros 4
  putAt h 0xC (leBytes 4 (crc32c (h ++ body)))

/-- The packet of `op` submitted in the first manager mailbox of `s`. -/
def asked (op : Nat) (body : Bytes) (s : State := base) (challenge : Nat := 0) (part count : Nat := 0) : State :=
  State.modMail (fun m => { m with goOrder := [4096] })
    (s.modBox 4096 fun b => { b with hdr := header op body challenge part count, body := body, st := .submitted })

/-- The packet a ready command runs with. -/
def readyQ (c : Caller) (k : Cmd) (s : State) : Packet :=
  let h := (s.presented c).getD ([], [])
  let p := mkPacket h.1 h.2 k.data
  let u := (s.accept c).meetAssembly c p
  let v := if u.asksQuorum c k p && !u.laterPart c k p then u.consume c else u
  if k.parts = .multi then v.wholePacket c p else p

/-- The state a ready command runs in. -/
def readyT (c : Caller) (k : Cmd) (s : State) : State :=
  let h := (s.presented c).getD ([], [])
  let p := mkPacket h.1 h.2 k.data
  let u := (s.accept c).meetAssembly c p
  ((if u.asksQuorum c k p && !u.laterPart c k p then u.consume c else u).endAssembly c).checkReads k (u.who c) (readyQ c k s)

/-- The checks of a packet but for the digest it is bound to, as one truth value. -/
def readyB (c : Caller) (k : Cmd) (s : State) : Bool :=
  let h := (s.presented c).getD ([], [])
  let p := mkPacket h.1 h.2 k.data
  let u := (s.accept c).meetAssembly c p
  let needs := u.asksQuorum c k p && !u.laterPart c k p
  let v := if needs then u.consume c else u
  (s.presented c).isSome && s.mayAccept c && (headerFault h.1 h.2).isNone && p.opcode == k.op && (!u.boxClosed c || u.md.mode == .zeroised) &&
  !((u.md.mode == .zeroised && !k.zOk && !(u.who c == .card && k.op == 0x211)) || (u.md.alarm && k.alarmBar)) &&
  k.auth u (u.who c) (u.ruling c k p) && !(gateBarred k.op && isGate c) && (!needs || (u.quorumFault c p).isNone) &&
  (k.bodyFault v (u.asksQuorum c k p) (u.laterPart c k p) p).isNone && !v.wasDiscarded c p && !k.partFault v c p && !(v.keys.lc == .blank && k.blankBar) &&
  (k.parts != .multi || p.part + 1 == Nat.max 1 p.partCount)

/-- Whether the packet needs a quorum. -/
def needsQ (c : Caller) (k : Cmd) (s : State) : Bool :=
  let h := (s.presented c).getD ([], [])
  ((s.accept c).meetAssembly c (mkPacket h.1 h.2 k.data)).asksQuorum c k (mkPacket h.1 h.2 k.data)

/-- The digest the packet's challenge is bound to. -/
def boundTo (c : Caller) (k : Cmd) (s : State) : Bytes :=
  let h := (s.presented c).getD ([], [])
  let p := mkPacket h.1 h.2 k.data
  let u := (s.accept c).meetAssembly c p
  (if u.asksQuorum c k p && !u.laterPart c k p then u.consume c else u).boundDigest c

theorem ready_with (c : Caller) (k : Cmd) (s : State) (h : readyB c k s = true) (hd : needsQ c k s = true → (readyQ c k s).digest = boundTo c k s) :
    Ready c k s (readyQ c k s) (readyT c k s) := by
  unfold readyB readyT readyQ needsQ boundTo at *
  unfold Ready
  dsimp only at h hd ⊢
  generalize hx : (s.presented c).getD ([], []) = x at h hd ⊢
  simp only [Bool.and_eq_true] at h
  obtain ⟨⟨⟨⟨⟨⟨⟨⟨⟨⟨⟨⟨⟨h0, h1⟩, h2⟩, h3⟩, h4⟩, h5⟩, h6⟩, h7⟩, h8⟩, h9⟩, h10⟩, h11⟩, h12⟩, h13⟩ := h
  have hp : s.presented c = some (x.1, x.2) := by rw [some_of _ ([], []) h0, hx]
  refine ⟨x.1, x.2, hp, h1, by simpa using h2, ?_⟩
  generalize mkPacket x.1 x.2 k.data = p at *
  generalize State.meetAssembly c p (s.accept c) = u at *
  refine ⟨by simpa using h3, fun hx => by simp only [hx, Bool.not_true, Bool.false_or] at h4; simpa using h4, by simpa only [Bool.not_eq_true'] using h5, h6, by simpa only [Bool.not_eq_true'] using h7, ?_,
    by simpa using h9, by simpa using h10, by simpa using h11, (by cases ha : u.asksQuorum c k p <;> cases hl : u.laterPart c k p <;> simp_all <;> exact fun e => h12.resolve_left fun f => f e), fun hk => by simpa [hk] using h13, rfl, hd, rfl⟩
  intro hn
  rw [hn] at h8
  simpa using h8

theorem ready_of (c : Caller) (k : Cmd) (s : State) (h : (readyB c k s && !needsQ c k s) = true) :
    Ready c k s (readyQ c k s) (readyT c k s) := by
  simp only [Bool.and_eq_true, Bool.not_eq_true'] at h
  exact ready_with c k s h.1 fun hn => by rw [h.2] at hn; cases hn

/-- A manager mailbox's caller. -/
abbrev mgr : Caller := .mbx 4096

/-- A packet under a live challenge with its two approvals, in the first manager mailbox of `s`. -/
def askedWith (h body : Bytes) (op : Nat) (s : State) : State :=
  { s with
    mail := { s.mail with boxes := [{ num := 4096, session := true, hdr := h, body := body, st := .submitted }], goOrder := [4096] }
    dual := { s.dual with
      m := 2
      chal := { id := 7, live := true, mailbox := 4096, opcode := op, approved := 3, m := 2, enrolled := 3,
                digest := (mkPacket (padTo 32 h) body false).digest } } }

/-- The packet of `op` so submitted. -/
def askedQ (op : Nat) (body : Bytes) (s : State := base) : State := askedWith (header op body 7 0 0) body op s

theorem bound_eq (k : Cmd) (h body : Bytes) (op : Nat) (s : State) :
    (readyQ mgr k (askedWith h body op s)).digest = boundTo mgr k (askedWith h body op s) := by
  have hp : (askedWith h body op s).presented mgr = some (padTo 32 h, body) := rfl
  have hm (p : Packet) : State.meetAssembly mgr p ((askedWith h body op s).accept mgr) = (askedWith h body op s).accept mgr := rfl
  have ha : ((askedWith h body op s).accept mgr).assembly mgr = none := rfl
  have hb : ((askedWith h body op s).accept mgr).dual.chal.digest = (mkPacket (padTo 32 h) body false).digest := rfl
  have h48 (x : Bytes) : padTo 48 (sha384 x) = sha384 x := by
    have hl : (sha384 x).length = 48 := by simp [sha384, Machine.hash, DigestCtx.final, funcLen, Config.prim]
    simp only [padTo, hl, Nat.sub_self, zeros, List.replicate_zero, List.append_nil]
    exact List.take_of_length_le (Nat.le_of_eq hl)
  unfold readyQ boundTo
  simp only [hp, Option.getD_some, hm]
  generalize hu : (askedWith h body op s).accept mgr = u at *
  generalize (u.asksQuorum mgr k (mkPacket (padTo 32 h) body k.data) && !u.laterPart mgr k (mkPacket (padTo 32 h) body k.data)) = b
  have hc : (u.consume mgr).assembly mgr = none := ha
  have hd : (u.consume mgr).dual.chal.digest = (mkPacket (padTo 32 h) body false).digest := hb
  cases b <;> simp only [State.boundDigest, State.wholePacket, ha, hb, hc, hd, List.nil_append, if_true, if_false, Bool.false_eq_true] <;>
    simp only [mkPacket, commandDigest, h48] <;> split <;> rfl

theorem ready_q (k : Cmd) (op : Nat) (body : Bytes) (s : State) (h : readyB mgr k (askedQ op body s) = true) :
    Ready mgr k (askedQ op body s) (readyQ mgr k (askedQ op body s)) (readyT mgr k (askedQ op body s)) :=
  ready_with _ _ _ h fun _ => bound_eq k _ body op s


/-- `base` with another host port. -/
def withHp (f : HostPort → HostPort) (s : State := base) : State := { s with hp := f s.hp }

/-- A descriptor of `n` bytes. -/
def desc (op : Nat) (n : Nat := 0) : Desc :=
  { opcode := op, variant := 0, srcCount := 0, dstCount := 0, keyHandle := 0, srcAddr := 0x10000, dstAddr := 0x20000, length := n, order := false,
    chainNext := false, ext := false, auxLen := 0, auxAddr := 0, out2Addr := 0, inline := [], reservedSet := false, blobAddr := 0,
    extReservedSet := false }

/-- A NOP. -/
def nop : Desc := { desc 0 with srcAddr := 0, dstAddr := 0 }

/-- A digest with SHA-256 of `n` bytes. -/
def dig (n : Nat) : Desc := { desc 8 n with variant := 1, dstAddr := 0, out2Addr := 0x30000 }

/-- A context of slice 42, of descriptor `d`. -/
def ctx (d : Desc) (p : Phase := .issued) : Ctx :=
  { id := 0, owner := .slice, slice := 42, inst := 1, rp := 0, sqIndex := 0, pasid := 7, desc := d, src := [{ addr := 0x10000, len := d.length }],
    dst := [{ addr := 0x20000, len := d.length }], hdr := [], epoch := 0, phase := p, home := some 0, segs := [], nextSeg := 0, image := [], crcRun := 0,
    aux := none, out2In := none, reads := [], iv := [], held := [], outBuf := [], out2Buf := [], key := none, inChain := false, firstLink := true,
    chain0 := none, pkBlinded := false, queued := none, runs := 0, rerun := false, priority := false, spilledRec := false, paceGrew := false, executed := true, status := .done,
    detail := 0, bytes := 0, result := 0 }

/-- `base` with one context. -/
def withCtx (c : Ctx) (s : State := base) : State := { s with dist := { s.dist with nextCtx := 1, ctxs := [c] } }

/-- `base` with another ring pair 0 of slice 42. -/
def withRing (f : RingPair → RingPair) (s : State := base) : State := s.modRing 42 0 f

/-- Ring pair 0 of slice 42. -/
def ringOf (s : State) : RingPair := (s.ring? 42 0).getD {}

/-- `base` with a descriptor fetched in that ring pair. -/
def fetched (d : Desc) (fault : Option Nat := none) : State :=
  withRing fun r => { r with sqTail := 1, fetched := some { addr := 4096, pasid := 7, desc := d, src := [{ addr := 0x10000, len := d.length }],
                                                            dst := [{ addr := 0x20000, len := d.length }], listBad := false, listFault := fault, hdr := [],
                                                            hdrFault := none } }

/-- The fetched descriptor. -/
def fetchedOf (s : State) : Fetched := ((ringOf s).fetched).getD { addr := 0, pasid := 0, desc := desc 0, src := [], dst := [], listBad := false, listFault := none, hdr := [], hdrFault := none }

/-- What the reads of a descriptor brought. -/
def arrival (fault : Option Nat) (list : Option Nat := none) : Arrival :=
  { entry := [], ext := [], srcList := [], dstList := [], hdr := [], entryFault := fault, listFault := list, hdrFault := none }

/-- A chain context open since `t`. -/
def chain (t : Nat) : Chain :=
  { opcode := 8, variant := 0, keyHandle := 0, sum := 0, image := [], crcRun := 0, iv := [], inline := [], auxLen := 0, expected := [], failed := false,
    abandoned := false, openSince := some t }

/-- The entry of a NOP. -/
def nopEntry : Bytes := zeros 64

/-- The device with one entry submitted, none of whose reads is admitted. -/
def noReads : State := { withRing (fun r => { r with sqTail := 1 }) with worlds := { base.worlds with regions := [(6, lockedRegion 0x4000000000 36 0)] } }

/-- `base` with another channel `n`. -/
def withCh (n : Nat) (f : Channel → Channel) (s : State := base) : State := s.modCh n f

/-- `base` with a unit of type `u` received on port 0, which is UP. -/
def unitIn (u : Nat) (s : State := base) : State :=
  s.modPort 0 fun x => { x with en := true, st := .up, rx := [{ utype := u, hops := 0, dst := 0, src := 0, bodyLen := 0, xid := 5, part := 0, partCount := 1, reserved := false }] }

/-- The state once that unit is taken. -/
def tookUnit (u : Nat) (s : State := base) : State := ((unitIn u s).takeUnit 0 u).getD s

/-- A key of a domain slot. -/
def domKey : Key :=
  { scope := 2, slice := 0, slot := 3, rows := 1, cls := 1, param := 0, len := 16, material := zeros 16, origin := 0, anySlice := false, usage := 0xFFFFFFFF,
    modes := 0xFFFF, dkVersion := 1, keyId := 0, created := 0, bad := false, shadow := false, serial := 9 }

/-- A work unit of descriptor `d`'s opcode without a key, or under `slot`. -/
def work (slot : Option Nat := none) : WorkReq :=
  { xid := 5, origin := 1, entry := [8, 1] ++ zeros 62, source := [], aux := [], out2 := [], slot := slot, serial := 9 }

/-- A result unit. -/
def result : WorkResult := { xid := 5, status := 0, detail := 0, bytes := 0, result := 0, output := [], out2 := [], paceGrew := false }

/-- A segment whose input has arrived. -/
def seg : Seg := { k := 0, turn := 0, data := some [], ran := false }

/-- A context on channel 0 with such a segment. -/
def running1 (d : Desc) : Ctx := { ctx d with segs := [seg] }
/-- An answer is the pair of its parts. -/
theorem some_pair {α β : Type} (o : Option (α × β)) (d : α × β) (h : o.isSome = true) : o = some ((o.getD d).1, (o.getD d).2) := some_of o d h

/-- What an unwrapping gives. -/
def unwrapped : Bytes × Nat := (unwrapKey 16 [] []).getD ([], 0)

/-- A saturated device with a descriptor that may spill. -/
def spillReady : State :=
  let s := fetched (dig 64)
  { s with dist := { s.dist with spillEn := true, ports := 0xFFFFF }, chs := s.chs.map fun c => { c with creditLimit := 0 }
           slices := s.slices.map fun x => { x with spillOk := true }, ports := s.ports.map fun p => { p with st := .up } }

/-- A device that accepts spilled work. -/
def accepting : State := { base with dist := { base.dist with spillAccept := true } }

/-- A device that holds a domain key. -/
def holding : State := { base with keys := { base.keys with keys := [domKey] } }

/-- A remote operation. -/
def remote5 : Remote := { xid := 5, ctx := 0, holder := 1, tried := [1], since := 99000 }

/-- A device that awaits it. -/
def asking : State :=
  let s := withCtx (ctx (dig 64) (.remote 1 0))
  { s with dist := { s.dist with remotes := [remote5] } }

/-- A blob of slice 42 whose key has no material. -/
def blob : Bytes := leBytes 2 1 ++ zeros 6 ++ leBytes 4 (42 + 2 ^ 12 + Lc.code .development * 2 ^ 24) ++ leBytes 4 40 ++ zeros 128

/-- A context that waits for it. -/
def waiting : Ctx := { ctx (dig 64) .waitBlob with hdr := blob.take 64 }

/-- A device whose current domain key has the version the blob names. -/
def blobState : State :=
  { withCtx waiting with
    keys := { base.keys with dks := [{ version := 0, state := 1, lc := Lc.code .development, domainId := [], createdSeq := 0, dk := [] }] } }

theorem passes_self (t : RowTag) : t.passes t = true := by simp [RowTag.passes]

theorem blob_checked : blobState.blobCheck waiting blob.length = blobState.linkExit.translate 7 0 blob.length := if_pos (passes_self _)

theorem blob_smk : (blobState.linkExit.translate 7 0 blob.length).smkFor ((blobState.linkExit.translate 7 0 blob.length).slice 42) 0 = some (zeros 32) := by
  have h : (blobState.linkExit.translate 7 0 blob.length).smkPasses ((blobState.linkExit.translate 7 0 blob.length).slice 42) = true := passes_self _
  unfold State.smkFor State.smkOk
  rw [if_pos (by decide +kernel), h]
  rfl

/-- The key in it. -/
def inBlob : Key := (openBlob (zeros 32) blob).getD domKey

/-- A key of an RSA or other class whose modulus, where it has one, has 8 bytes. -/
def pkKey (cls len : Nat) : Key := { domKey with cls := cls, len := len, material := List.replicate 64 255 }

/-- A PK_OP on channel 0 whose draws are made. -/
def pkCtx (op : Nat) (inline : Bytes) (aux : Bytes) (key : Option Key) (src : Bytes) : Ctx :=
  { ctx { desc 0x10 src.length with variant := op, inline := padTo 16 inline, keyHandle := if key.isSome then 5 else 0 } with
    segs := [{ k := 0, turn := 0, data := some src, ran := false }], aux := some aux, out2In := some [], key := key, iv := zeros 400 }

/-- A device whose channel 0 holds it, its inputs in an input region. -/
def withPk (c : Ctx) (src : Bytes) : State := withCtx c (withCh 0 fun ch => { ch with regIn := [(0, c.pkInputs src)] })

/-- The state its draws leave. -/
def pkDrawn (c : Ctx) (src : Bytes) : State := ((((withPk c src).pkStand 0 c src).mcChecked 0).pkDrawAll 0 src 5).1

/-- An operation begins where its public checks pass. -/
theorem begins_of (op : Nat) (c : Ctx) (src : Bytes) (h : Runs (withPk c src) 0 0x10 c { k := 0, turn := 0, data := some src, ran := false } src)
    (h1 : c.home = some 0 ∧ c.desc.pkOp = op ∧ ((withPk c src).pkHead 0).map (·.id) = some c.id ∧
      ((((withPk c src).ch 0).regIn.any fun e => e.1 == c.id) = true) ∧ c.out2In.isSome = true ∧
      (((withPk c src).pkStand 0 c src).mcChecked 0).pkTurn 0 c = true)
    (h2 : (c.pkIn src).publicCheck = none)
    (h3 : ((((withPk c src).pkStand 0 c src).mcChecked 0).pkDrawAll 0 src 5).2 = true) :
    PkBegins (withPk c src) op 0 0 src (pkDrawn c src) :=
  ⟨c, _, h, h1.1, h1.2.1, h1.2.2.1, h1.2.2.2.1, fun _ => h1.2.2.2.2.1, h2, h1.2.2.2.2.2, Prod.ext rfl h3⟩

/-- An RSA public key of 8 bytes. -/
def rsaPub : Bytes := List.replicate 8 255 ++ [0, 1, 0, 1]

/-- Three words of operands. -/
def words3 : Bytes := List.replicate 8 255 ++ zeros 7 ++ [2] ++ zeros 7 ++ [3]

/-- A running operation. -/
def run1 : PkRun :=
  { ctx := 0, paced := false, blinded := false, b := 1, p := 1, part := 0, computed := false, overrun := false, realNs := 0, status := .done, out := [],
    out2 := [], result := 0, crtFault := false, accepted := true, wiping := false }

/-- The packet of `op` submitted in slice 42's own mailbox. -/
def askedS (op : Nat) (body : Bytes) (s : State := base) : State :=
  s.modBox 42 fun b => { b with hdr := header op body 0 0 0, body := body, st := .submitted }

/-- Slice 42's caller. -/
abbrev own : Caller := .mbx 42

/-- A parameter block and data. -/
def withData (params data : Bytes) : Bytes := padTo 128 params ++ data

/-- A key in slot 5 of slice 42. -/
def ownKey (cls len : Nat) : Key :=
  base.seal { domKey with scope := 1, slice := 42, slot := 5, cls := cls, len := len, material := zeros len, dkVersion := 0 }

/-- A device that holds it. -/
def keyed (cls len : Nat) : State := { base with keys := { base.keys with keys := [ownKey cls len], dks := blobState.keys.dks } }

/-- Its handle. -/
def handle : Bytes := leBytes 4 (2 ^ 30 + 42 * 2 ^ 18 + 5)

/-- Raw bits that pass the health tests. -/
def goodRaw : Bytes := (List.range 128).map fun i => BitVec.ofNat 8 (0x5A + 37 * i + i * i)

/-- `base` with its banks in a state and with blocks in the buffer. -/
def bankAt (st : BankState) (l : List Bytes) : State := { base with rng := { base.rng with banks := List.replicate 4 { st := st }, buffer := l } }

/-- The bytes of a draw. -/
def bytesOf : Drawn → Bytes
  | .bytes b => b
  | _ => []

/-- A draw of the open world's port. -/
def portDraw (s : State) (n : Nat) : Drawn × State :=
  State.draw (portInst .ow) (n % 128) false (.port .ow (n % 128) false)
    (s.modWorld .ow fun x => { x with drawLen := n % 128, drawValid := false, drawData := zeros 64 })

/-- `base` with no generator seeded. -/
def unseeded : State := { base with rng := { base.rng with cd0 := {}, cd1 := {}, gens := List.replicate 36 {} } }

/-- A device whose manager opens a session. -/
def opening : State :=
  let s := asked 3 (withData (zeros 32 ++ [1]) (zeros 96))
  { s with mail := { s.mail with cred := some (1, []), boxes := s.mail.boxes.map fun b => { b with nonce := some (zeros 32, 50000) } } }

/-- No ring pair found is armed. -/
theorem armed_of (o : Option RingPair) (h : o.all (fun r => !r.armed) = true) : ∀ r, o = some r → r.armed = false := by
  intro r hr
  subst hr
  simpa using h

/-- KEY_GENERATE's parameters: a generic AES key of slice 42. -/
def genBody : Bytes := layInts [(1, 1), (1, 1), (1, 0), (2, 16), (4, 0), (2, 0), (1, 0), (2, 0), (8, 77)]

/-- A slice's parameters: PASID 9, one ring pair, one interrupt entry. -/
def specBody : List (Fld × Bytes) :=
  [(.int 4, leBytes 4 9), (.int 1, [1]), (.int 1, [1]), (.str 64, List.replicate 64 0xFF), (.int 4, leBytes 4 10), (.int 2, leBytes 2 1),
   (.int 4, leBytes 4 10), (.int 1, [0]), (.int 8, zeros 8), (.int 1, [0]), (.int 1, [0])]

/-- Slice 42 in another state. -/
def sliceAs (st : SliceState) (s : State := base) : State := s.modSlice 42 fun x => { x with state := st }

/-- Slice 42 with its ring pair not armed. -/
def disarmed : State := withRing fun _ => {}

/-- RING_ARM's parameters. -/
def armBody : Bytes := layInts [(2, 42), (1, 0), (8, 4096), (1, 6), (8, 8192), (1, 16), (1, 1)]

/-- A running command of the manager. -/
def job (op : Nat) (body : Bytes) (kind : JobKind := .draw) : Job :=
  { caller := mgr, opcode := op, hdr := header op body 0 0 0, body := body, digest := [], kind := kind, since := 0, challenge := 0, status := .done,
    detail := 0, reply := [], obj := 0 }

/-- `base` once n bytes have been drawn for a caller's command. -/
def drawnFor (c : Caller) (n : Nat) (s : State := base) : State := { s with rng := { s.rng with served := [(c, zeros n)] } }

/-- `s` with that command running. -/
def withJob (j : Job) (s : State := base) : State := { s with mail := { s.mail with running := [j] } }

/-- A caller's running command. -/
def jobOf (c : Caller) (op : Nat) (body : Bytes) : Job := { job op body with caller := c }

/-- What a run that ends DONE gives. -/
def doneD : Ran → Bytes × Nat × State
  | .done _ _ b o t => (b, o, t)
  | _ => ([], 0, base)

/-- A run ends DONE. -/
def isDone : Ran → Bool
  | .done st d _ _ _ => st == .done && d == 0
  | _ => false

/-- It ends with what it gives. -/
theorem done_of (x : Ran) (h : isDone x = true) : x = .done .done 0 (doneD x).1 (doneD x).2.1 (doneD x).2.2 := by
  cases x with
  | done st d b o t => simp only [isDone, Bool.and_eq_true, beq_iff_eq] at h; rw [h.1, h.2]; rfl
  | part _ _ _ _ => cases h
  | hold _ _ _ _ => cases h

/-- A wrapped key submitted by slice 42. -/
def importing : State := askedS 0x201 (withData (handle ++ [0, 0, 0, 0] ++ zeros 6) (zeros 64)) (keyed 1 32)

/-- The manager saves a domain key. -/
def savingDom : State :=
  asked 0x205 (leBytes 4 (2 ^ 31 + 3)) { base with keys := { base.keys with keys := [base.seal domKey], dks := blobState.keys.dks } }

/-- A blob submitted by slice 42. -/
def loading : State := askedS 0x206 (zeros 128 ++ blob.take 104) (keyed 1 32)

/-- SLICE_CREATE's parameters for slice 43. -/
def createBody : Bytes := layBytes ((.int 2, leBytes 2 43) :: specBody)

/-- SLICE_MODIFY's parameters for slice 42, with no field selected. -/
def modifyBody : Bytes := layBytes ((.int 2, leBytes 2 42) :: (.int 2, leBytes 2 0) :: specBody)

/-- An extension command submitted. -/
def extAsked : State :=
  let s := asked 0x8000 []
  { s with mail := { s.mail with ext := [(0x8000, 0, 100)] } }

/-- Custodians 0 to 2 enrolled, a challenge of an opcode live, with no approval yet. -/
def enrolledState : State :=
  { base with dual := { base.dual with
      custodians := List.replicate 3 { alg := 1, key := zeros 96, digest := zeros 48 } ++ List.replicate 13 {}
      chal := { id := 7, live := true, mailbox := 4096, opcode := 0x307, m := 2, enrolled := 7 } } }

/-- Both cells in place. -/
def cells (open_ : Bool := false) (present : BitVec 2 := 3) : State :=
  { base with tamper := { base.tamper with cellPresent := present, cellRange := 3 }, dual := { base.dual with winOpen := open_ } }

/-- Card port 1 in a step. -/
def cardAt (st : CardStep) : State :=
  { base with dual := { base.dual with cards := [{}, { present := true, active := true, vcc := true, step := st }] } }

/-- What a measurement of one region found. -/
def gateRead (r : RegionRead := some (zeros 4)) : GateRead := { regions := [r], manifest := none, recRegions := [r], recManifest := none, measureMs := 40 }

/-- A policy over one region that accepts `allow`, and its recovery image where `recAllow` has it. -/
def policyWith (mode failAction : Nat) (allow recAllow : List Bytes) : Policy :=
  { mode := mode, failAction := failAction, accept := 0, wp := true, svnFloor := 0, regions := [⟨0, 0, 4⟩], signer := [], manifestFlash := 0,
    manifestOffset := 0, allow := allow, recRegions := [⟨1, 0, 4⟩], recAllow := recAllow, raw := [] }

/-- The measured digest of the region as flash `f` holds it. -/
def found (f : Nat) : Bytes := (composite true [⟨f, 0, 4⟩] [some (zeros 4)]).getD []

/-- A device whose gate measures under a policy. -/
def measuring (p : Option Policy) (perst fromPerst : Bool) : State :=
  { base with gate := { base.gate with st := .measuring, measuring := true, inForce := p, fromPerst := fromPerst, partOffset := 0x100000 },
              hp := { base.hp with perst := perst } }

/-- `base` with a device partition from 1 MiB on. -/
def parted : State := { base with gate := { base.gate with partOffset := 0x100000 } }

/-- The 1,312 bytes of a policy of a mode over one region. -/
def policyBytes (mode : Nat) : Bytes :=
  padTo 1312 ([1, 0] ++ leBytes 1 mode ++ [0, 0, 0, 1, 0] ++ zeros 8 ++ layInts [(1, 0), (1, 0), (2, 0), (4, 0), (4, 4096), (4, 0)])

/-- Eight BOOT_RECORD events of record 5 in the log. -/
def bootRun : State :=
  { base with er := { base.er with nextSeq := 9, log := (List.range 8).map fun i =>
      ⟨i + 1, 0x60, 1, 0, 0, false, leBytes 1 i ++ (if i = 0 then zeros 4 ++ leBytes 4 5 ++ zeros 24 else zeros 32)⟩ } }

/-- `base` with another recorder. -/
def erWith (f : Recorder → Recorder) : State := { base with er := f base.er }

/-- A record. -/
def record1 : Record := ⟨1, 0x10, 2, 0, 0, false, []⟩

/-- A world that has sent `n` notes in this second. -/
def noted (n : Nat) : State := { base with worlds := { base.worlds with ow := { base.worlds.ow with fwNotes := List.replicate n 100000 } } }

/-- The trusted world's core down, its image kept. -/
def twDown : State := { base with worlds := { base.worlds with tw := { base.worlds.tw with up := false } } }

/-- `base` with another power state of domain `n`. -/
def domAt (n : Nat) (p : PState) : State := { base with power := { base.power with domains := base.power.domains.modify n fun d => { d with pstate := p } } }

/-- A cell in place or none. -/
def fitted (b : BitVec 2) : State := { base with tamper := { base.tamper with cellPresent := b } }

/-- Both worlds on their way back. -/
def restarting : State :=
  { base with worlds := { base.worlds with
      tw := { base.worlds.tw with up := false, inProgress := true, image := some { image 1 with measurement := [1] } }
      ow := { base.worlds.ow with up := false, inProgress := true, image := some { image 2 with measurement := [2] } } } }

/-- An admission entry of every permission. -/
def entry (addr : Nat) (perms : BitVec 24 := 0xFFFFFF) (lock : Bool := false) : Region16 := { sizeLog2 := 20, valid := true, base := addr, perms := perms, lock := lock }

/-- The admission table with one entry at a place. -/
def admitted (addr : Nat) (lock : Bool := false) (n : Nat := 0) : State := { base with worlds := { base.worlds with regions := [(n, entry addr 0xFFFFFF lock)] } }

/-- A commit of the trusted world asked for. -/
def committing (e : Region16) : State := { base with worlds := { base.worlds with tw := { base.worlds.tw with admCommit := true, shadows := [(0, e)] } } }

/-- A debug request with its CHECK. -/
def dbg (op space size addr : Nat) (data : BitVec 64 := 0) : DbgReq :=
  let r : DbgReq := ⟨space, size, addr, data, 0⟩
  { r with check := BitVec.ofNat 8 (dbgCheck (DbgReq.bitList op r)) }

/-- `base` with another source, on main power or on a cell. -/
def srcAs (i : Nat) (f : TSource → TSource) (main : Bool := true) (now : Nat := 5000) : State :=
  { base with tamper := { base.tamper with sources := base.tamper.sources.modify i f, mainPower := main, tahrMs := now } }

/-- `base` with another domain. -/
def domAs (n : Nat) (f : Domain → Domain) (s : State := base) : State := { s with power := { s.power with domains := s.power.domains.modify n f } }

/-- `base` with another group regulator. -/
def grpAs (g : Nat) (f : Group → Group) : State := { base with power := { base.power with groups := base.power.groups.modify g f } }

/-- A power request's parameters. -/
def pwrBody (d mask allow loopEn op : Nat) : Bytes :=
  layInts [(2, d), (2, mask), (1, allow), (1, loopEn), (1, op), (2, 1024), (1, 3), (2, 100), (2, 1000), (1, 0)]

/-- A world's request port loaded. -/
def porting (w : World) (b : Bytes) (busy : Bool := false) : State := base.modWorld w fun x => { x with powerReq := b, powerBusy := busy }

/-- A microcode image whose body is empty. -/
def mcImage : Image := { image 3 with bodyDigest := sha384 [] }

/-- Channel 35 under microcode update, the last of its batch. -/
def updating : State :=
  { withCh 35 (fun c => { c with mcState := .updating }) with renewal := { base.renewal with bnActive := true, bnImage := some mcImage, bnLeft := [35] } }

/-- A fabric port with a power state agreed. -/
def agreedPort (p : PState) : State :=
  domAs 40 (fun d => { d with pstate := .idle, idleSince := 0 }) { base with ports := base.ports.modify 0 fun x => { x with st := .up, agreed := some p } }

/-- The last part of a command in the first manager mailbox, behind the parts `l`; `h` is its header. -/
def lastPart (h body : Bytes) (op : Nat) (l : List Bytes) : State :=
  { base with mail := { base.mail with
      boxes := [{ num := 4096, session := true, hdr := h, body := body, st := .submitted,
                  assembly := some { opcode := op, parts := l, partCount := l.length + 1, challenge := fieldLe (padTo 32 h) 0x10 8, at_ := 0,
                                     digest := commandDigest (fieldLe (padTo 32 h) 0 2) (fieldLe (padTo 32 h) 0x1A 2)
                                       (l ++ [padTo (bits (fieldLe (padTo 32 h) 8 4) 0 13) body]) } }]
      goOrder := [4096] } }

/-- The packet its command runs with. -/
theorem last_ready (k : Cmd) (h body : Bytes) (op : Nat) (l : List Bytes) (hr : readyB mgr k (lastPart h body op l) = true)
    (ho : fieldLe (padTo 32 h) 0 2 = op) (hp : 0 < fieldLe (padTo 32 h) 0x18 2) (hk : k.parts = .multi) (hd : k.data = true)
    (hn : k.keys = fun _ => []) (hm' : k.readsSmk = false) :
    ∃ q t, Ready mgr k (lastPart h body op l) q t ∧ t.renewal = base.renewal ∧ t.worlds = base.worlds ∧ t.mail.running = [] ∧ t.chs = base.chs ∧
      q.data = (l ++ [padTo (bits (fieldLe (padTo 32 h) 8 4) 0 13) body]).flatMap (·.drop 128) := by
  have hpr : (lastPart h body op l).presented mgr = some (padTo 32 h, body) := rfl
  have hm : State.meetAssembly mgr (mkPacket (padTo 32 h) body k.data) ((lastPart h body op l).accept mgr) = (lastPart h body op l).accept mgr := by
    have h1 : (mkPacket (padTo 32 h) body k.data).opcode = op := ho
    have h2 : 0 < (mkPacket (padTo 32 h) body k.data).part := hp
    unfold State.meetAssembly
    have h3 : (((lastPart h body op l).accept mgr).asmBox mgr) = some 4096 := rfl
    simp only [h3]
    have h4 : ((((lastPart h body op l).accept mgr).box 4096).assembly) = ((lastPart h body op l).box 4096).assembly := rfl
    simp only [h4]
    have h5 : ((lastPart h body op l).box 4096).assembly.map (·.opcode) = some op := rfl
    cases h6 : ((lastPart h body op l).box 4096).assembly with
    | none => rfl
    | some a => rw [h6] at h5; simp only [Option.map_some, Option.some.injEq] at h5; simp only [h5, h1, h2, and_self, if_true]
  have hl : ((lastPart h body op l).accept mgr).laterPart mgr k (mkPacket (padTo 32 h) body k.data) = true := by
    have h2 : decide (0 < (mkPacket (padTo 32 h) body k.data).part) = true := decide_eq_true hp
    unfold State.laterPart
    rw [hk, h2]
    rfl
  have hq : readyQ mgr k (lastPart h body op l) =
      ((lastPart h body op l).accept mgr).wholePacket mgr (mkPacket (padTo 32 h) body k.data) := by
    unfold readyQ
    simp only [hpr, Option.getD_some, hm, hl, Bool.not_true, Bool.and_false, Bool.false_eq_true, if_false, hk, if_true]
  have ht : readyT mgr k (lastPart h body op l) = ((lastPart h body op l).accept mgr).endAssembly mgr := by
    have hc (q : Packet) (s : State) (w : Who) : s.checkReads k w q = s := by
      unfold State.checkReads
      rw [hn, hm']
      cases w <;> rfl
    unfold readyT
    simp only [hpr, Option.getD_some, hm, hl, hc, Bool.not_true, Bool.and_false, Bool.false_eq_true, if_false]
  refine ⟨_, _, ready_with _ _ _ hr fun _ => ?_, ?_, ?_, ?_, ?_, ?_⟩
  · unfold boundTo
    simp only [hpr, Option.getD_some, hm, hl, Bool.not_true, Bool.and_false, Bool.false_eq_true, if_false, hq]
    rfl
  · rw [ht]; rfl
  · rw [ht]; rfl
  · rw [ht]; rfl
  · rw [ht]; rfl
  · rw [hq]
    unfold State.wholePacket mkPacket
    rw [hd]
    rfl

/-- The first 3,968 bytes of an image of kind `k` with an empty body. -/
def imgHead (k : Nat) : Bytes :=
  ascii "ZVIM" ++ leBytes 1 k ++ [1] ++ leBytes 1 (if k = 2 then 1 else 3) ++ [0] ++ leBytes 4 5 ++ leBytes 4 1 ++ zeros 4 ++ zeros 3948

/-- The first two parts of its command, and the body of the last. -/
def imgParts (k : Nat) : List Bytes := [zeros 128 ++ imgHead k, zeros (128 + 3968)]

/-- The device with the last part submitted. -/
def renewing (op k : Nat) (challenge : Nat := 0) : State := lastPart (header op (zeros 640) challenge 2 3) (zeros 640) op (imgParts k)

/-- The image's bytes. -/
def imgData (k : Nat) : Bytes := imgHead k ++ (zeros 3968 ++ zeros 512)

theorem img_data (k : Nat) : (imgParts k ++ [padTo 640 (zeros 640)]).flatMap (·.drop 128) = imgData k := by
  have h1 : (zeros 128 ++ imgHead k).drop 128 = imgHead k := List.drop_left' (by simp [zeros])
  have h2 : (zeros (128 + 3968)).drop 128 = zeros 3968 := by simp [zeros]
  have h3 : (padTo 640 (zeros 640)).drop 128 = zeros 512 := by simp [padTo, zeros]
  simp only [imgParts, imgData, List.cons_append, List.nil_append, List.flatMap_cons, List.flatMap_nil, h1, h2, h3, List.append_nil]

/-- The image qualifies where its signatures verify. -/
theorem img_fits (k : Nat) (t : State) (hr : t.renewal = base.renewal) (hw : t.worlds = base.worlds) (hs : (imageOf (imgData k)).sigOk = true)
    (hh : headerOk (imgData k) = true) (hl : ((imgData k).length != 256 + fieldLe (imgData k) 0x10 4 + 8192) = false)
    (hi : ((imageOf (imgData k)).kind != k || bodyMax k < (imageOf (imgData k)).bodyLen || (k != 2 && 63 < (imageOf (imgData k)).svn) ||
      (imageOf (imgData k)).svn < base.floorOf k) = false) : t.updateFault k (imgData k) = none := by
  have hf : t.floorOf k = base.floorOf k := by unfold State.floorOf State.mcFloor; rw [hr, hw]
  have hg : t.signerRecorded = false := by unfold State.signerRecorded; rw [hr]; rfl
  unfold State.updateFault State.imageFault
  rw [hf, hi, hg, hs, hh, hl]
  simp

/-- The last part of an image's command is ready, and its image qualifies where its signatures verify. -/
theorem renewing_ready (k : Cmd) (op n challenge : Nat) (hs : (imageOf (imgData n)).sigOk = true) (hr : readyB mgr k (renewing op n challenge) = true)
    (ho : fieldLe (padTo 32 (header op (zeros 640) challenge 2 3)) 0 2 = op)
    (hp : 0 < fieldLe (padTo 32 (header op (zeros 640) challenge 2 3)) 0x18 2)
    (hb : bits (fieldLe (padTo 32 (header op (zeros 640) challenge 2 3)) 8 4) 0 13 = 640) (hk : k.parts = .multi) (hd : k.data = true)
    (hn : k.keys = fun _ => []) (hm : k.readsSmk = false) (hh : headerOk (imgData n) = true) (hl : ((imgData n).length != 256 + fieldLe (imgData n) 0x10 4 + 8192) = false)
    (hi : ((imageOf (imgData n)).kind != n || bodyMax n < (imageOf (imgData n)).bodyLen || (n != 2 && 63 < (imageOf (imgData n)).svn) ||
      (imageOf (imgData n)).svn < base.floorOf n) = false) :
    ∃ q t, Ready mgr k (renewing op n challenge) q t ∧ (∀ l, t.jobOn l 0 = false) ∧ t.updateFault n q.data = none ∧ t.renewal.bnActive = false := by
  obtain ⟨q, t, h, h1, h2, h3, _, h5⟩ := last_ready k _ _ op (imgParts n) hr ho hp hk hd hn hm
  refine ⟨q, t, h, fun l => ?_, ?_, ?_⟩
  · unfold State.jobOn; rw [h3]; rfl
  · rw [h5, hb, img_data]; exact img_fits n t h1 h2 hs hh hl hi
  · rw [h1]; rfl

/-- An image qualifies in `base` where its signatures verify. -/
theorem img_ok (k : Nat) (hs : (imageOf (imgData k)).sigOk = true) (hh : headerOk (imgData k) = true)
    (hl : ((imgData k).length != 256 + fieldLe (imgData k) 0x10 4 + 8192) = false)
    (hi : ((imageOf (imgData k)).kind != k || bodyMax k < (imageOf (imgData k)).bodyLen || (k != 2 && 63 < (imageOf (imgData k)).svn) ||
      (imageOf (imgData k)).svn < base.floorOf k) = false) : base.updateFault k (imgData k) = none := img_fits k base rfl rfl hs hh hl hi

/-- The trusted world on its way back, its image to be read again from flash, one copy in the directory. -/
def rereading : State :=
  { restarting with
    worlds := { restarting.worlds with tw := { restarting.worlds.tw with reread := true } }
    renewal := { base.renewal with
      dir := some { slot := 0, seq := 1, partOffset := 0, entries := [{ kind := 1, copy := 0, state := 1, offset := 0, length := 0, version := 1, svn := 1 }] } } }

theorem reread_best (hs : (imageOf (imgData 1)).sigOk = true) :
    rereading.bestImage 1 (rereading.flashCopies [imgData 1]) = some (imageOf (imgData 1), 0) := by
  have hf : imageForm 1 (imgData 1) = true := by decide +kernel
  have hc : rereading.flashCopies [imgData 1] = [(imageOf (imgData 1), 0)] := by
    simp [State.flashCopies, Directory.copiesOf, rereading, hf]
  have hi : rereading.imageFault 1 (imageOf (imgData 1)) = none := by
    unfold State.imageFault
    rw [hs, if_neg (by decide +kernel), if_neg (by decide +kernel)]
  simp only [hc, State.bestImage, List.foldl_cons, List.foldl_nil, hi, Option.isSome_none, Bool.false_eq_true, if_false]

/-- `base` with another fabric port `p`. -/
def portAs (p : Nat) (f : Port → Port) (s : State := base) : State := { s with ports := s.ports.modify p f }

/-- A port that is up. -/
def upPort (p : Nat) (f : Port → Port := id) (s : State := base) : State := portAs p (fun x => f { x with en := true, st := .up, lanes := 0xF, width := 3 }) s

/-- `s` with another role in the hierarchy. -/
def roleAs (f : Hier → Hier) (s : State := base) : State := { s with hier := f s.hier }

/-- A peer's parameters. -/
def peerInit (kind : Nat) (retained : Bool := false) : PeerInit :=
  { kind := kind, dev := 5, width := 3, credits := [512, 1024, 8192, 512], sessionId := 0, retained := retained, keyPhase := false, crcOk := true, role := 3,
    domainId := List.replicate 16 0 }

/-- The outcome of a peer's AUTH frames. -/
def peerAuth : PeerAuth := { crcOk := true, chain := [], exchange := [], sig := [], ecdh := zeros 48, kemOwn := zeros 32, kemPeer := zeros 32 }

/-- A frame. -/
def frame (seq : Nat := 0) (tag : Bool := true) : Frame :=
  { vc := 1, keyPhase := false, nak := false, len := 0, seq := seq, ack := 0, credits := [0, 0, 0, 0], txCtrLo := 1, reserved := false, tagOk := tag, units := [],
    pwr := none }

/-- The state once a frame is taken. -/
def took (p : Nat) (f : Frame) (ctl : Bool) (s : State) : State := (s.takeFrame p f ctl).1

/-- A change of the domain's parameters. -/
def change (serial : Nat) (committed : Bool) (term : Nat := 3) : Change := { term := term, serial := serial, kind := .param [1, 2, 3] 50, committed := committed }

/-- The active Lead of a domain of three level-1 devices, with its domain key. -/
def lead (s : State := base) : State :=
  roleAs (fun h => { h with role := 3, activeLead := true, state := 4, level := 0, term := 3, level1 := [1, 2, 3], device := 9 }) s

/-- Its domain key. -/
def withDk (s : State) : State := { s with keys := { s.keys with dks := [{ version := 1, state := 1, lc := Lc.code .development, domainId := zeros 16, createdSeq := 1, dk := zeros 32 }] } }

/-- A member. -/
def member (f : Hier → Hier := id) : State := roleAs fun h => f { h with role := 1, term := 3, level := 2, state := 4, device := 7 }

/-- A quorum packet at the active Lead. -/
def leadAsk (op : Nat) (body : Bytes) (dk : Bool) : State := askedQ op body (if dk then withDk lead else lead)

/-- FAB_ROLE_SET's parameters: the role Member alone. -/
def roleBody : Bytes :=
  layBytes [(.int 2, [1, 0]), (.int 1, [1]), (.int 2, [7, 0]), (.str 16, zeros 16), (.int 1, [0]), (.int 1, [0]), (.int 1, [0]), (.arr 2 16, zeros 32), (.int 2, [0, 0]), (.int 8, zeros 8), (.int 1, [0])]

/-- A next state. -/
def nextD (o : Host.Outcome State Fault Refusal) : State := match o with | .next t => t | _ => base

/-- A step answers a next state. -/
def isNext (o : Host.Outcome State Fault Refusal) : Bool := match o with | .next _ => true | _ => false

/-- It answers it. -/
theorem next_of (o : Host.Outcome State Fault Refusal) (h : isNext o = true) : o = .next (nextD o) := by
  cases o with
  | next t => rfl
  | fault f => cases h
  | refused r => cases h

/-- A sound state whose front command fuses RETIRED. -/
def retiring : State := { askedQ 0x211 (withData [4] []) { base with chs := State.reset.chs } with pending := [.lcTransition mgr, .erFlushDone] }

/-- What start-up finds: an empty directory. -/
def bootInfo : BootInfo := { gateMode := 0, dir := zeros 4096, copies := [], rootDigestOk := true, cellA := true, cellB := true, vaultLinkOk := true }

/-! ### Ill-formed commands: the first number beyond each check's range, or a byte string a byte too long or too short, beside one that passes -/

theorem test_chOk : Instr.wf (.drainTimeout 36) = false ∧ Instr.wf (.drainTimeout 35) = true := by decide
theorem test_sliceNoOk : Instr.wf (.sliceFenceEnd 4096) = false ∧ Instr.wf (.sliceFenceEnd 4095) = true := by decide
theorem test_rpOk : Instr.wf (.restart 0 64) = false ∧ Instr.wf (.restart 0 63) = true := by decide
theorem test_portOk : Instr.wf (.retrain 20) = false ∧ Instr.wf (.retrain 19) = true := by decide
theorem test_bankOk : Instr.wf (.bankWarmupEnd ⟨4, zeros 128⟩) = false ∧ Instr.wf (.bankWarmupEnd ⟨3, zeros 128⟩) = true := by decide
theorem test_instOk : Instr.wf (.drbgReseed 38) = false ∧ Instr.wf (.drbgReseed 37) = true := by decide
theorem test_coreOk : Instr.wf (.service 4) = false ∧ Instr.wf (.service 3) = true := by decide
theorem test_cellNoOk : Instr.wf (.cellArm 2) = false ∧ Instr.wf (.cellArm 1) = true := by decide
theorem test_srcOk : Instr.wf (.sourceRearm 32) = false ∧ Instr.wf (.sourceRearm 31) = true := by decide
theorem test_cardOk : Instr.wf (.cardInsert 2) = false ∧ Instr.wf (.cardInsert 1) = true := by decide
theorem test_slotOk : Instr.wf (.call 8) = false ∧ Instr.wf (.call 7) = true := by decide
theorem test_grpOk : Instr.wf (.regulatorSettled 4 800) = false ∧ Instr.wf (.regulatorSettled 3 800) = true := by decide
theorem test_boxOk : Instr.wf (.mbxGo 4112) = false ∧ Instr.wf (.mbxGo 4111) = true := by decide
theorem test_sessionOk : Instr.wf (.sessionAbsorb 0 2) = false ∧ Instr.wf (.sessionAbsorb 0 1) = true := by decide
theorem test_domOk : Instr.wf (.sleepEntry 62) = false ∧ Instr.wf (.sleepEntry 61) = true := by decide
theorem test_devOk : Instr.wf (.beatAck 0 16384 0) = false ∧ Instr.wf (.beatAck 0 16383 0) = true := by decide
theorem test_u16 : Instr.wf (.sqTail 0 0 65536) = false ∧ Instr.wf (.sqTail 0 0 65535) = true := by decide
theorem test_accessLenOk : Instr.wf (.serowAccess 0 .user .read 0 [0, 0, 0]) = false ∧ Instr.wf (.serowAccess 0 .user .read 0 [0, 0]) = true := by decide
theorem test_writeLenOk : Instr.wf (.registerWrite (.serow 0 .machine) 0 []) = false ∧ Instr.wf (.registerWrite (.serow 0 .machine) 0 [0]) = true := by decide
theorem test_offOk : Instr.wf (.registerWrite (.serow 0 .machine) (2 ^ 48) [0]) = false ∧
    Instr.wf (.registerWrite (.serow 0 .machine) (2 ^ 48 - 1) [0]) = true := by decide
theorem test_viaWf : Instr.wf (.registerWrite (.serow 4 .machine) 0 [0]) = false ∧ Instr.wf (.registerWrite (.serow 3 .machine) 0 [0]) = true := by decide
theorem test_callerWf : Instr.wf (.devInfo (.mbx 4112)) = false ∧ Instr.wf (.devInfo (.gate 8)) = false ∧ Instr.wf (.devInfo (.card 2)) = false ∧
    Instr.wf (.devInfo (.gate 7)) = true := by decide
theorem test_stagedWf : Instr.wf (.stagedCommitApply (.port 20)) = false ∧ Instr.wf (.stagedCommitApply (.port 19)) = true := by decide
theorem test_speedOk : Instr.wf (.hostLinkTrained 8 16 true) = false ∧ Instr.wf (.hostLinkTrained 0 16 true) = false ∧
    Instr.wf (.hostLinkTrained 7 16 true) = true := by decide
theorem test_widthOk : Instr.wf (.hostLinkTrained 7 3 true) = false ∧ Instr.wf (.hostLinkTrained 7 1 true) = true := by decide
theorem test_laneFaultWf : Instr.wf (.laneGroupFail (.laneGroup 36)) = false ∧ Instr.wf (.laneGroupFail (.laneGroup 35)) = true := by decide
theorem test_faultUnitWf : Instr.wf (.integrityFail (.channel 36)) = false ∧ Instr.wf (.integrityFail .vaultLink) = true := by decide
theorem test_vectorOk : Instr.wf (.msixTableWrite 2048 0 0 true) = false ∧ Instr.wf (.msixTableWrite 2047 0 0 true) = true := by decide
theorem test_intOk : Instr.wf (.mask 8192 true) = false ∧ Instr.wf (.mask 8191 true) = true := by decide
theorem test_arrivalWf : Arrival.wf { arrival none with entry := zeros 65 } = false ∧ Arrival.wf { arrival none with entry := zeros 64 } = true := by decide
theorem test_workResultWf : WorkResult.wf { xid := 0, status := 256, detail := 0, bytes := 0, result := 0, output := [], out2 := [], paceGrew := false } = false ∧
    WorkResult.wf { xid := 0, status := 255, detail := 255, bytes := 0, result := 0, output := [], out2 := [], paceGrew := false } = true := by decide
theorem test_workReqWf : WorkReq.wf { (work none) with entry := zeros 63 } = false ∧ WorkReq.wf { (work none) with entry := zeros 64 } = true := by decide
theorem test_feedOk : Instr.wf (.feed 0 0 [0, 0, 0]) = false ∧ Instr.wf (.feed 0 0 [0, 0, 0, 0]) = true := by decide
theorem test_lastOk : Instr.wf (.lastCnt 0 0 16) = false ∧ Instr.wf (.lastCnt 0 0 15) = true := by decide
theorem test_swOk : Instr.wf (.cardResponse 0 65536 []) = false ∧ Instr.wf (.cardResponse 0 65535 []) = true := by decide
theorem test_digestOk : Instr.wf (.twRestartComplete ⟨zeros 47, []⟩) = false ∧ Instr.wf (.twRestartComplete ⟨zeros 48, []⟩) = true := by decide
theorem test_gateReadWf : Instr.wf (.gateVerdict { gateRead with manifest := some (zeros 4097) }) = false ∧
    Instr.wf (.gateVerdict { gateRead with manifest := some (zeros 4096) }) = true := by decide +kernel
theorem test_flashOk : Instr.wf (.hostFlashAccess 2 0 1 .read) = false ∧ Instr.wf (.hostFlashAccess 1 0 1 .read) = true := by decide
theorem test_replyOk : Instr.wf (.extensionReply 0 256 0 []) = false ∧ Instr.wf (.extensionReply 0 255 255 []) = true := by decide
theorem test_addrOk : Instr.wf (.serowAccess 0 .user .read (2 ^ 48) [0]) = false ∧ Instr.wf (.serowAccess 0 .user .read (2 ^ 48 - 1) [0]) = true := by decide
theorem test_dbgReqWf : Instr.wf (.dbgStatus ⟨4, 0, 0, 0, 0⟩) = false ∧ Instr.wf (.dbgStatus ⟨3, 3, 2 ^ 48 - 1, 0, 0⟩) = true := by decide
theorem test_scopeOk : Instr.wf (.tamperEvent 0 64 true) = false ∧ Instr.wf (.tamperEvent 0 63 true) = true := by decide
theorem test_noteOk : Instr.wf (.fwNoteRequest .ow (zeros 41)) = false ∧ Instr.wf (.fwNoteRequest .ow (zeros 40)) = true := by decide
theorem test_imageLenOk (b : Bytes) (h : b.length = 256 + 0x400000 + 8193) : Instr.wf (.pldmActivateFirmware b) = false := by
  simp [Instr.wf, imageLenOk, h]
theorem test_bootInfoWf : Instr.wf (.mainSuppliesGood { bootInfo with dir := zeros 4095 }) = false ∧ Instr.wf (.mainSuppliesGood bootInfo) = true := by
  decide +kernel
theorem test_pasidOk : Instr.wf (.atsInvalidate 0 (some (2 ^ 20)) 0 1) = false ∧ Instr.wf (.atsInvalidate 0 (some (2 ^ 20 - 1)) 0 1) = true := by decide
theorem test_barOk : Instr.wf (.barAccessRefused 1 0 4 false) = false ∧ Instr.wf (.barAccessRefused 2 0 4 false) = true := by decide
theorem test_rawOk : Instr.wf (.bankBlock 0 (zeros 127)) = false ∧ Instr.wf (.bankBlock 0 (zeros 128)) = true := by decide
theorem test_drawOk : Instr.wf (.drawRequest .tw 128 false) = false ∧ Instr.wf (.drawRequest .tw 127 false) = true := by decide
theorem test_peerInitWf : Instr.wf (.linkInit 0 { peerInit 0 with dev := 16384 }) = false ∧ Instr.wf (.linkInit 0 (peerInit 0)) = true := by decide
theorem test_peerAuthWf : Instr.wf (.auth 0 { peerAuth with ecdh := zeros 47 }) = false ∧ Instr.wf (.auth 0 peerAuth) = true := by decide
theorem test_frameWf : Instr.wf (.data 0 { frame with vc := 4 }) = false ∧ Instr.wf (.data 0 (frame 65535)) = true := by decide
theorem test_idOk : Instr.wf (.hello 0 1 0 (zeros 15) [] 0 0 0 false) = false ∧ Instr.wf (.hello 0 1 0 (zeros 16) [] 0 0 0 false) = true := by decide
theorem test_changeWf : Instr.wf (.change 0 ⟨0, 1, .dkStage 1 (zeros 31), false⟩) = false ∧
    Instr.wf (.change 0 ⟨0, 1, .dkStage 1 (zeros 32), false⟩) = true := by decide
theorem test_syncBodyWf : Instr.wf (.sync 0 (.changes [⟨0, 1, .dkNew [] [], true⟩])) = false ∧ Instr.wf (.sync 0 (.changes [])) = true := by decide
theorem test_recordOk : Instr.wf (.record 0 5 [zeros 63]) = false ∧ Instr.wf (.record 0 5 [zeros 64]) = true := by decide
theorem test_laneOk : Instr.wf (.laneMarginFail 0 4) = false ∧ Instr.wf (.laneMarginFail 0 3) = true := by decide
theorem test_pmOk : Instr.wf (.hostLinkPmChange 6) = false ∧ Instr.wf (.hostLinkPmChange 5) = true := by decide

/-! ### Words and single steps -/

/-- No row of the table gives bits: no word spells a command. -/
theorem test_no_word (nbits w : Nat) : decodeTableWord nbits w = none := rfl

/-- CHECK of the shortest request, a STATUS of all zeros, is the CRC of zeros: 0 (R454). -/
theorem test_check_of_zeros : dbgCheck (DbgReq.bitList 0 ⟨0, 0, 0, 0, 0⟩) = 0 := by decide +kernel

/-- The check values of the thirteen presets (the table of R230). -/
theorem test_crc_presets :
    (List.range 13).map (fun i => (crcPreset (i + 1)).map fun p => crcFinal p (crcRun p p.init (ascii "123456789"))) =
      [some 0xCBF43926, some 0xE3069283, some 0xFC891918, some 0x0376E6E7, some 0x29B1, some 0x2189, some 0xBB3D, some 0xD0DB,
       some 0x995DC9BBDF1939FA, some 0x6C40DF5F0B497347, some 0xF4, some 0x21CF02, some 0x19] := by decide +kernel

/-- LC_PERSONALISE in BLANK fuses DEVELOPMENT in one step (R310, R312). -/
theorem test_personalise :
    (nextD (exec (.lcPersonalise mgr) (asked 0x210 (layBytes [(.int 1, [1]), (.int 2, zeros 2), (.int 2, zeros 2), (.str 64, zeros 64)])
      { base with keys := { base.keys with lc := .blank } }))).keys.lc = .development := by decide +kernel

/-- A watchdog of the open world restarts that world alone (R436). -/
theorem test_watchdog : let t := nextD (exec (.watchdogExpire 3) base); t.worlds.ow.up = false ∧ t.worlds.tw.up = true := by decide +kernel

/-- An access of a core into the other world's SRAM faults and is logged (R447). -/
theorem test_other_world : (nextD (exec (.serowAccess 3 .machine .read 0x80000000 (zeros 8)) base)).worlds.ow.admFault.valid = true := by decide +kernel

/-- A packet with a bad CRC is refused DESC_MALFORMED, its command not run (R362). -/
theorem test_bad_crc :
    let s := base.modBox 4096 fun b => { b with hdr := putAt (header 0x1 [] 0 0 0) 0xC (zeros 4), st := .submitted }
    (nextD (exec (.commandReply mgr) (s.modMail fun m => { m with goOrder := [4096] }))).box 4096 ≠ s.box 4096 := by decide +kernel

/-! ### For each statement, states and operands that meet the premises of its clauses -/

theorem witness_HostLinkCommands :
    (∃ (_ : LinkLossKind) (s : State), s.hp.dlUp = true) ∧
    (∃ (s : State), s.hp.dlUp = true ∧ s.hp.ready = false ∧ s.hp.perst = false) ∧
    (∃ (width : ℕ) (_ : Bool) (s : State), s.renewal.initDone = true ∧ s.hp.perst = false ∧ width = 16) ∧
    (∃ (speed : ℕ) (width : ℕ) (_ : Bool) (s : State), s.renewal.initDone = true ∧ s.hp.perst = false ∧ 1 ≤ speed ∧ speed < 7 ∧ width ∈ [1, 2, 4, 8,
      16]) ∧
    (∃ (s : State), s.hp.perst = false) ∧
    (∃ (s : State), s.hp.perst = true ∧ s.gate.st ≠ .hostReset) ∧
    (∃ (s : State) (v : ℕ), s.hp.perst = true ∧ s.gate.st = .hostReset ∧ s.gate.verdictIn = some v) ∧
    (∃ (s : State), s.hp.dlUp = true ∧ s.hp.d3hot = false) ∧
    (∃ (s : State), s.hp.d3hot = true) ∧
    (∃ (s : State) (pm : ℕ), pm ≤ 5 ∧ s.hp.dlUp = true ∧ s.hp.d3hot = false ∧ s.asleep 60 = false) :=
  ⟨
    ⟨.lost, base, by decide +kernel⟩,
    ⟨withHp fun h => { h with ready := false }, by decide +kernel⟩,
    ⟨16, true, withHp fun h => { h with dlUp := false }, by decide +kernel⟩,
    ⟨1, 1, false, withHp fun h => { h with dlUp := false }, by decide +kernel⟩,
    ⟨base, by decide +kernel⟩,
    ⟨withHp fun h => { h with perst := true }, by decide +kernel⟩,
    ⟨{ withHp (fun h => { h with perst := true }) with gate := { st := .hostReset, verdictIn := some 0 } }, 0, by decide +kernel⟩,
    ⟨base, by decide +kernel⟩,
    ⟨withHp fun h => { h with d3hot := true }, by decide +kernel⟩,
    ⟨base, 5, by decide +kernel⟩⟩

theorem witness_HostTransactionCommands :
    (∃ (tag : ℕ) (_ : Option ℕ) (_ : ℕ) (_ : ℕ) (s : State), s.hp.dlUp = true ∧ s.hp.atsPend.length < 32 ∧ s.hp.atsPend.any (·.tag == tag) = false) ∧
    (∃ (tag : ℕ) (e : AtsPend) (s : State), s.hp.atsPend.find? (·.tag == tag) = some e ∧ e.waits.all s.readGone = true) ∧
    (∃ (ctx : ℕ) (part : DmaPart) (_ : Bytes) (c : Ctx) (s : State), (s.readDone ctx part).ctx? ctx = some c ∧ c.reads.contains part = true) ∧
    (∃ (_ : BitVec 6) (s : State), s.barsUp = true ∧ s.refusal 0 0x10008 4 true = none) ∧
    (∃ (t : Transport) (m : MctpMsg) (_ : Bytes) (s : State), (t = .mctpI3c ∨ (t = .mctpVdm ∧ s.hp.dlUp = true)) ∧ m ≠ .other ∧ s.worlds.ow.up =
      true) ∧
    (∃ (t : Transport) (eid : ℕ) (s : State), (t = .mctpI3c ∨ (t = .mctpVdm ∧ s.hp.dlUp = true)) ∧ s.worlds.ow.up = true ∧ 1 ≤ eid ∧ eid < 0xFF) ∧
    (∃ (t : Transport) (_ : MctpMsg) (_ : Bytes) (s : State), (t = .mctpI3c ∨ (t = .mctpVdm ∧ s.hp.dlUp = true)) ∧ s.worlds.ow.up = false) :=
  ⟨
    ⟨0, none, 0, 1, base, by decide +kernel⟩,
    ⟨3, ⟨3, none, 0, 1, []⟩, withHp fun h => { h with atsPend := [⟨3, none, 0, 1, []⟩] }, by decide +kernel⟩,
    ⟨0, .aux, [], { ctx (desc 8) with reads := [.aux] }, withCtx { ctx (desc 8) with reads := [.aux] }, by decide +kernel⟩,
    ⟨0, base, by decide +kernel⟩,
    ⟨.mctpVdm, .control, [], base, by decide +kernel⟩,
    ⟨.mctpI3c, 254, base, by decide +kernel⟩,
    ⟨.mctpI3c, .control, [], { base with worlds := {} }, by decide +kernel⟩⟩

theorem witness_MaskSendsThePendingMessage :
    ∃ (entry : ℕ) (s : State), entry < Config.poolInts ∧ s.barsUp = true ∧ s.refusal 4 (0x3000000 + 16 * entry + 0xC) 4 true = none :=
    ⟨8191, base, by decide +kernel⟩

theorem witness_RegisterCommands :
    (∃ (core : ℕ) (priv : Priv) (off : ℕ) (_ : Bytes) (b : Blk) (s : State), core < 4 ∧ (s.world (s.coreWorld core)).up = true ∧ s.admits (.core
      (s.coreWorld core) priv) .write off = true ∧ blockAt off = some b) ∧
    (∃ (s : State), s.dist.commitBit = true) ∧
    (∃ (p : ℕ) (s : State), (s.port p).commitBit = true ∧ (s.port p).txq = [] ∧ (s.port p).replay = [] ∧ (s.port p).rx = []) ∧
    (∃ (bar : ℕ) (off : ℕ) (len : ℕ) (write : Bool) (cause : ℕ) (s : State), s.barsUp = true ∧ off + len ≤ barSize bar ∧ s.refusal bar off len write
      = some cause) ∧
    (∃ (vector : ℕ) (_ : ℕ) (_ : Nat) (_ : Bool) (s : State), vector < 2048 ∧ s.barsUp = true) ∧
    (∃ (bar : ℕ) (off : ℕ) (len : ℕ) (s : State), s.barsUp = true ∧ off + len ≤ barSize bar ∧ s.refusal bar off len false = none) :=
  ⟨
    ⟨2, .machine, 0x82000000, [], .sram .ow, base, by decide +kernel⟩,
    ⟨{ base with dist := { commitBit := true } }, by decide +kernel⟩,
    ⟨19, base.modPort 19 fun x => { x with commitBit := true }, by decide +kernel⟩,
    ⟨0, 0xEFFFF8, 8, true, 1, { base with worlds := {} }, by decide +kernel⟩,
    ⟨2047, 0, 0, true, base, by decide +kernel⟩,
    ⟨4, 0x3FFFFFC, 4, base, by decide +kernel⟩⟩

theorem witness_SubmissionTailDoorbell :
    ∃ (slice : ℕ) (rp : ℕ) (_ : ℕ) (s : State) (r : RingPair), s.barsUp = true ∧ ringOff slice rp 0 + 4 ≤ barSize 2 ∧ s.refusal 2 (ringOff slice rp
      0) 4 true = none ∧ s.doorbellOk slice rp = true ∧ s.ring? slice rp = some r :=
    ⟨42, 0, 0, base, ringOf base, by decide +kernel⟩

theorem witness_RingCommands :
    (∃ (slice : ℕ) (rp : ℕ) (value : ℕ) (s : State) (r : RingPair), s.barsUp = true ∧ ringOff slice rp 0x10 + 4 ≤ barSize 2 ∧ s.refusal 2 (ringOff
      slice rp 0x10) 4 true = none ∧ s.doorbellOk slice rp = true ∧ s.ring? slice rp = some r ∧ value < r.cqSize ∧ (value + r.cqSize - r.cqHead) %
      r.cqSize ≤ (r.cqTail + r.cqSize - r.cqHead) % r.cqSize) ∧
    (∃ (slice : ℕ) (rp : ℕ) (s : State) (r : RingPair), s.barsUp = true ∧ ringOff slice rp 0x28 + 4 ≤ barSize 2 ∧ s.refusal 2 (ringOff slice rp 0x28)
      4 true = none ∧ s.doorbellOk slice rp = true ∧ s.ring? slice rp = some r ∧ r.stopped = true) ∧
    (∃ (slice : ℕ) (rp : ℕ) (a : Arrival) (s : State) (r : RingPair), s.ring? slice rp = some r ∧ s.dmaOk = true ∧ (s.slice slice).state ≠ .fenced ∧
      s.pasidFenced slice = false ∧ a.entryFault = none ∧ r.canFetch (Arrival.fetched a).desc.ext = true ∧ (let f := Arrival.fetched a;
      (let x := s.slice slice; (let bad := a.listFault <|> s.spansRefused f.desc.listSpans; s.spansRefused (r.entrySpans f.desc) = none ∧ (bad = none
      ∨ s.earlyChecks x r f.desc ≠ none))))) ∧
    (∃ (slice : ℕ) (rp : ℕ) (a : Arrival) (s : State) (r : RingPair), s.ring? slice rp = some r ∧ s.dmaOk = true ∧ (s.slice slice).state ≠ .fenced ∧
      s.pasidFenced slice = false ∧ a.entryFault = none ∧ r.canFetch (Arrival.fetched a).desc.ext = true ∧ (let f := Arrival.fetched a;
      (let x := s.slice slice; (let bad := a.listFault <|> s.spansRefused f.desc.listSpans; ∃ (addr : ℕ), s.spansRefused (r.entrySpans f.desc) = none
      ∧ bad = some addr ∧ s.earlyChecks x r f.desc = none)))) ∧
    (∃ (slice : ℕ) (rp : ℕ) (a : Arrival) (s : State) (r : RingPair), s.ring? slice rp = some r ∧ s.dmaOk = true ∧ (s.slice slice).state ≠ .fenced ∧
      s.pasidFenced slice = false ∧ a.entryFault = none ∧ r.canFetch (Arrival.fetched a).desc.ext = true ∧ (let f := Arrival.fetched a; ∃ (addr : ℕ),
      s.spansRefused (r.entrySpans f.desc) = some addr)) ∧
    (∃ (slice : ℕ) (rp : ℕ) (a : Arrival) (addr : ℕ) (s : State) (r : RingPair), s.ring? slice rp = some r ∧ s.dmaOk = true ∧ (s.slice slice).state ≠
      .fenced ∧ s.pasidFenced slice = false ∧ a.entryFault = some addr ∧ r.canFetch false = true) ∧
    (∃ (slice : ℕ) (rp : ℕ) (s : State) (r : RingPair) (f : Fetched), s.ring? slice rp = some r ∧ r.fetched = some f ∧ s.dmaOk = true ∧ s.mayDecide
      (s.slice slice) rp r f = true ∧ s.admitChecks (s.slice slice) r f = none ∧ f.listFault = none ∧ f.desc.opcode = 0) ∧
    (∃ (slice : ℕ) (rp : ℕ) (s : State) (r : RingPair) (f : Fetched) (n : ℕ) (t : State), s.ring? slice rp = some r ∧ r.fetched = some f ∧ s.dmaOk =
      true ∧ s.mayDecide (s.slice slice) rp r f = true ∧ s.admitChecks (s.slice slice) r f = none ∧ f.listFault = none ∧ f.desc.opcode ≠ 0 ∧
      s.pickHome (s.newCtx (s.slice slice) rp r f) ((s.openFor (s.slice slice) f.desc).filter fun n => !s.priorityWaits n) = some n ∧ s.drr n slice
      (f.work rp) = some t) ∧
    (∃ (slice : ℕ) (rp : ℕ) (s : State) (r : RingPair) (f : Fetched) (addr : ℕ), s.ring? slice rp = some r ∧ r.fetched = some f ∧ s.dmaOk = true ∧
      s.mayDecide (s.slice slice) rp r f = true ∧ s.earlyChecks (s.slice slice) r f.desc = none ∧ f.listFault = some addr) ∧
    (∃ (slice : ℕ) (rp : ℕ) (s : State) (r : RingPair) (f : Fetched) (st : Status) (detail : ℕ) (bytes : ℕ) (result : ℕ), s.ring? slice rp = some r ∧
      r.fetched = some f ∧ s.dmaOk = true ∧ s.mayDecide (s.slice slice) rp r f = true ∧ s.admitChecks (s.slice slice) r f = some (st, detail, bytes,
      result) ∧ st ≠ .dmaFault ∧ f.listFault = none) ∧
    (∃ (ctx : ℕ) (c : Ctx) (s : State), s.ctx? ctx = some c ∧ c.desc.opcode = 0 ∧ c.phase = .ready) ∧
    (∃ (ctx : ℕ) (c : Ctx) (r : RingPair) (s : State), s.ctx? ctx = some c ∧ c.owner = .slice ∧ s.ring? c.slice c.rp = some r ∧ c.phase = .finished ∧
      s.dmaOk = true ∧ s.pasidFenced c.slice = false ∧ (r.stopped = false ∨ r.stopCause ≠ 3) ∧ s.linkFirst c = true ∧ s.dmaRefused .write (r.cqBase +
      32 * r.cqTail) 32 = none) ∧
    (∃ (ctx : ℕ) (c : Ctx) (r : RingPair) (_ : ℕ) (s : State), s.ctx? ctx = some c ∧ c.owner = .slice ∧ s.ring? c.slice c.rp = some r ∧ c.phase =
      .finished ∧ s.dmaOk = true ∧ s.pasidFenced c.slice = false ∧ (r.stopped = false ∨ r.stopCause ≠ 3) ∧ s.linkFirst c = true) ∧
    (∃ (slice : ℕ) (rp : ℕ) (r : RingPair) (h : Chain) (since : ℕ) (s : State), s.ring? slice rp = some r ∧ r.chain = some h ∧ h.openSince = some
      since ∧ r.chainOpen = true ∧ (s.slice slice).state = .active ∧ since + 1000 ≤ s.glob.uptimeMs) :=
  ⟨
    ⟨42, 0, 0, base, ringOf base, by decide +kernel⟩,
    ⟨42, 0, withRing (fun r => { r with stopped := true }), ringOf (withRing fun r => { r with stopped := true }), by decide +kernel⟩,
    ⟨42, 0, arrival none, withRing (fun r => { r with sqTail := 1 }), ringOf (withRing (fun r => { r with sqTail := 1 })), by decide +kernel⟩,
    ⟨42, 0, { arrival none (some 9) with entry := nopEntry }, withRing (fun r => { r with sqTail := 1 }), ringOf (withRing (fun r => { r with sqTail := 1 })), by decide +kernel, by decide +kernel, by decide +kernel, by decide +kernel, by decide +kernel, by decide +kernel, 9, by decide +kernel⟩,
    ⟨42, 0, arrival none, noReads, ringOf noReads, by decide +kernel, by decide +kernel, by decide +kernel, by decide +kernel, by decide +kernel, by decide +kernel, 4096, by decide +kernel⟩,
    ⟨42, 0, arrival (some 5), 5, withRing (fun r => { r with sqTail := 1 }), ringOf (withRing (fun r => { r with sqTail := 1 })), by decide +kernel⟩,
    ⟨42, 0, fetched nop, ringOf (fetched nop), fetchedOf (fetched nop), by decide +kernel⟩,
    ⟨42, 0, fetched (dig 64), ringOf (fetched (dig 64)), fetchedOf (fetched (dig 64)), 0, ((fetched (dig 64)).drr 0 42 ((fetchedOf (fetched (dig 64))).work 0)).getD base, by decide +kernel, by decide +kernel, by decide +kernel, by decide +kernel, by decide +kernel, by decide +kernel, by decide +kernel, by decide +kernel, some_of _ _ (by decide +kernel)⟩,
    ⟨42, 0, fetched nop (some 9), ringOf (fetched nop (some 9)), fetchedOf (fetched nop (some 9)), 9, by decide +kernel⟩,
    ⟨42, 0, fetched (desc 0x70), ringOf (fetched (desc 0x70)), fetchedOf (fetched (desc 0x70)), .descMalformed, 1, 0, 0, by decide +kernel⟩,
    ⟨0, ctx (desc 0) .ready, withCtx (ctx (desc 0) .ready), by decide +kernel⟩,
    ⟨0, ctx (desc 8) .finished, ringOf base, withCtx (ctx (desc 8) .finished), by decide +kernel⟩,
    ⟨0, ctx (desc 8) .finished, ringOf base, 0, withCtx (ctx (desc 8) .finished), by decide +kernel⟩,
    ⟨42, 0, ringOf (withRing fun r => { r with chain := some (chain 99000) }), chain 99000, 99000, withRing fun r => { r with chain := some (chain 99000) }, by decide +kernel⟩⟩

theorem witness_LaneGroupFailureFences :
    (∃ (ch : ℕ) (_ : State), ch < 36) ∧
    (∃ (n : Nat) (_ : Nat) (s : State), n < s.chs.length ∧ (s.ch n).st ≠ .failed) ∧
    (∃ (n : Nat) (_ : Nat) (k : Nat) (_ : State), k ≠ n) :=
  ⟨
    ⟨35, base, by decide +kernel⟩,
    ⟨35, 2, base, by decide +kernel⟩,
    ⟨3, 0, 1, base, by decide +kernel⟩⟩

theorem witness_ChannelCommands :
    (∃ (ctx : ℕ) (_ : Bool) (c : Ctx) (n : ℕ) (s : State), s.ctx? ctx = some c ∧ s.dmaOk = true ∧ s.target c = some n ∧ ((s.dom n).pstate = .run ∨
      (s.dom n).pstate = .idle) ∧ (c.priority = true ∨ c.queued.isSome = true ∨ c.isLocal = false)) ∧
    (∃ (ctx : ℕ) (_ : Bool) (c : Ctx) (n : ℕ) (t : State) (s : State), s.ctx? ctx = some c ∧ s.dmaOk = true ∧ s.target c = some n ∧ ((s.dom n).pstate
      = .run ∨ (s.dom n).pstate = .idle) ∧ c.priority = false ∧ c.queued = none ∧ c.isLocal = true ∧ s.drr n c.slice c.work = some t) ∧
    (∃ (ctx : ℕ) (c : Ctx) (g : Seg) (gs : List Seg) (s : State), s.ctx? ctx = some c ∧ c.segs = g :: gs ∧ g.ran = true ∧ c.phase = .issued) ∧
    (∃ (ctx : ℕ) (c : Ctx) (n : ℕ) (s : State), s.ctx? ctx = some c ∧ c.home = some n ∧ s.barred n c = true ∧ c.desc.cut = true ∧ c.segs = [] ∧ 1 ≤
      c.nextSeg ∧ (c.phase = .issued ∨ c.phase = .ready) ∧ c.desc.holdBytes = 0) ∧
    (∃ (ch : ℕ) (s : State), ch < 36 ∧ (s.ch ch).st = .slow ∧ (s.ch ch).opMinAt + 20 ≤ s.glob.uptimeMs) ∧
    (∃ (ch : ℕ) (s : State), ch < 36 ∧ (s.ch ch).st = .slow ∧ (s.ch ch).deferred = false ∧ (s.ch ch).slowSince + 100 ≤ s.glob.uptimeMs ∧
      s.drainForbidden ch = false) ∧
    (∃ (ch : ℕ) (s : State), ch < 36 ∧ (s.ch ch).st = .slow ∧ (s.ch ch).deferred = false ∧ (s.ch ch).slowSince + 100 ≤ s.glob.uptimeMs ∧
      s.drainForbidden ch = true) ∧
    (∃ (ch : ℕ) (s : State), ch < 36 ∧ (s.ch ch).st = .draining ∧ (∀ x ∈ s.chCtxs ch, x.phase = .finished) ∧ (s.ch ch).pkRun = none) ∧
    (∃ (ch : ℕ) (_ : FenceCause) (_ : State), ch < 36) ∧
    (∃ (ch : ℕ) (s : State), ch < 36 ∧ (s.ch ch).st = .selftest ∧ (s.ch ch).test = .settle ∧ (s.ch ch).testSince + 20 ≤ s.glob.uptimeMs) :=
  ⟨
    ⟨0, true, { ctx (dig 64) .ready with priority := true }, 0, withCtx { ctx (dig 64) .ready with priority := true }, by decide +kernel⟩,
    ⟨0, true, ctx (dig 64) .ready, 0, ((withCtx (ctx (dig 64) .ready)).drr 0 42 (ctx (dig 64) .ready).work).getD base, withCtx (ctx (dig 64) .ready), by decide +kernel, by decide +kernel, by decide +kernel, by decide +kernel, by decide +kernel, by decide +kernel, by decide +kernel, some_of _ _ (by decide +kernel)⟩,
    ⟨0, { ctx (dig 64) with segs := [{ seg with ran := true }] }, { seg with ran := true }, [], withCtx { ctx (dig 64) with segs := [{ seg with ran := true }] }, by decide +kernel⟩,
    ⟨0, { ctx { desc 2 99999 with variant := 1 } with nextSeg := 1 }, 0, withCtx { ctx { desc 2 99999 with variant := 1 } with nextSeg := 1 } (withCh 0 fun c => { c with st := .draining }), by decide +kernel⟩,
    ⟨35, withCh 35 fun c => { c with st := .slow, slowSince := 5, opMinAt := 5 }, by decide +kernel⟩,
    ⟨35, withCh 35 fun c => { c with st := .slow, slowSince := 5, opMinAt := 5 }, by decide +kernel⟩,
    ⟨35, { withCh 35 (fun c => { c with st := .slow, slowSince := 5, opMinAt := 5 }) with chs := List.replicate 4 {} ++ List.replicate 32 { st := .slow, slowSince := 5 }, md := { mode := .full } }, by decide +kernel⟩,
    ⟨35, withCh 35 fun c => { c with st := .draining }, by decide +kernel⟩,
    ⟨35, .integrity, base, by decide +kernel⟩,
    ⟨35, withCh 35 fun c => { c with st := .selftest, test := .settle, testSince := 99980 }, by decide +kernel⟩⟩

theorem witness_RepairAndServiceWindow :
    (∃ (ch : ℕ) (s : State), ch < 36 ∧ (s.ch ch).st = .scrub ∧ 3 ≤ s.fences24 ch) ∧
    (∃ (ch : ℕ) (s : State), ch < 36 ∧ (s.ch ch).st = .scrub ∧ s.fences24 ch < 3 ∧ (s.ch ch).cfHold = false ∧ (s.ch ch).a2Hold = []) ∧
    (∃ (ch : ℕ) (s : State), ch < 36 ∧ (s.ch ch).st = .selftest ∧ (s.ch ch).test = .run ∧ s.genReady ch = true) ∧
    (∃ (ch : ℕ) (katOk : Bool) (rateOk : Bool) (s : State), ch < 36 ∧ (s.ch ch).st = .selftest ∧ (s.ch ch).test = .run ∧ (katOk = false ∨ rateOk =
      false)) ∧
    (∃ (_ : List ChMeas) (s : State), s.tamper.mainPower = true) :=
  ⟨
    ⟨0, withCh 0 fun c => { c with st := .scrub, fences := [1, 2, 3] }, by decide +kernel⟩,
    ⟨35, withCh 35 fun c => { c with st := .scrub, fences := [1, 2] }, by decide +kernel⟩,
    ⟨35, withCh 35 fun c => { c with st := .selftest, test := .run }, by decide +kernel⟩,
    ⟨0, false, true, withCh 0 fun c => { c with st := .selftest, test := .run }, by decide +kernel⟩,
    ⟨[], base, by decide +kernel⟩⟩

theorem witness_SpillAndRemoteCommands :
    (∃ (slice : ℕ) (rp : ℕ) (port : ℕ) (r : RingPair) (f : Fetched) (s : State), s.ring? slice rp = some r ∧ r.fetched = some f ∧ s.dist.spillEn =
      true ∧ s.saturated = true ∧ (s.slice slice).spillOk = true ∧ (s.slice slice).partition = false ∧ s.dist.ports.getLsbD port = true ∧ (s.port
      port).st = .up ∧ s.dmaOk = true ∧ s.mayDecide (s.slice slice) rp r f = true ∧ s.admitChecks (s.slice slice) r f = none ∧ s.mayTravel (s.slice
      slice) r f.desc = true) ∧
    (∃ (port : ℕ) (w : WorkReq) (k : Option Key) (t : State) (s : State), s.takeUnit port 0x20 = some t ∧ t.sameKey w = some k ∧ t.dist.spillAccept =
      true ∧ t.keepMode = false ∧ t.idleShared (WorkReq.toDesc w) = true) ∧
    (∃ (port : ℕ) (w : WorkReq) (t : State) (s : State), s.takeUnit port 0x20 = some t ∧ t.sameKey w = none) ∧
    (∃ (port : ℕ) (w : WorkResult) (c : Ctx) (t : State) (s : State), s.takeUnit port 0x21 = some t ∧ t.spilledCtx port w.xid = some c ∧ s.dmaOk =
      true) ∧
    (∃ (port : ℕ) (xid : ℕ) (c : Ctx) (t : State) (s : State), s.takeUnit port 0x22 = some t ∧ t.spilledCtx port xid = some c) ∧
    (∃ (port : ℕ) (w : WorkReq) (k : Key) (t : State) (s : State), s.takeUnit port 0x28 = some t ∧ t.sameKey w = some (some k) ∧ t.keepMode = false) ∧
    (∃ (port : ℕ) (w : WorkResult) (r : Remote) (c : Ctx) (t : State) (s : State), s.takeUnit port 0x29 = some t ∧ t.remote? w.xid = some r ∧
      (t.modDist fun d => { d with remotes := d.remotes.filter (·.xid != w.xid) }).ctx? r.ctx = some c ∧ c.phase ≠ .finished ∧ s.dmaOk = true) ∧
    (∃ (port : ℕ) (xid : ℕ) (r : Remote) (t : State) (s : State), s.takeUnit port 0x2A = some t ∧ t.remote? xid = some r) ∧
    (∃ (xid : ℕ) (r : Remote) (s : State), s.remote? xid = some r ∧ r.since + s.hier.remoteTimeoutMs ≤ s.glob.uptimeMs) :=
  ⟨
    ⟨42, 0, 19, ringOf spillReady, fetchedOf spillReady, spillReady, by decide +kernel⟩,
    ⟨0, work, none, tookUnit 0x20 accepting, unitIn 0x20 accepting, some_of _ _ (by decide +kernel), by decide +kernel⟩,
    ⟨0, work (some 3), tookUnit 0x20, unitIn 0x20, some_of _ _ (by decide +kernel), by decide +kernel⟩,
    ⟨0, result, ctx (dig 64) (.spilled 0 5), tookUnit 0x21 (withCtx (ctx (dig 64) (.spilled 0 5))), unitIn 0x21 (withCtx (ctx (dig 64) (.spilled 0 5))), some_of _ _ (by decide +kernel), by decide +kernel⟩,
    ⟨0, 5, ctx (dig 64) (.spilled 0 5), tookUnit 0x22 (withCtx (ctx (dig 64) (.spilled 0 5))), unitIn 0x22 (withCtx (ctx (dig 64) (.spilled 0 5))), some_of _ _ (by decide +kernel), by decide +kernel⟩,
    ⟨0, work (some 3), domKey, tookUnit 0x28 holding, unitIn 0x28 holding, some_of _ _ (by decide +kernel), by decide +kernel⟩,
    ⟨0, result, remote5, ctx (dig 64) (.remote 1 0), tookUnit 0x29 asking, unitIn 0x29 asking, some_of _ _ (by decide +kernel), by decide +kernel⟩,
    ⟨0, 5, remote5, tookUnit 0x2A asking, unitIn 0x2A asking, some_of _ _ (by decide +kernel), by decide +kernel⟩,
    ⟨5, remote5, asking, by decide +kernel⟩⟩

theorem witness_CipherOperationsComplete :
    (∃ (ctx : ℕ) (c : Ctx) (g : Seg) (data : Bytes) (s : State), Runs s ctx 1 c g data ∧ (c.needsIv && c.imported.isNone) = false ∧ steals
      c.cipherJob.mode = false ∧ g.k + 1 = c.desc.segCount ∧ c.desc.chainNext = false) ∧
    (∃ (ctx : ℕ) (c : Ctx) (g : Seg) (data : Bytes) (s : State), Runs s ctx 1 c g data ∧ (c.needsIv && c.imported.isNone) = false ∧ steals
      c.cipherJob.mode = false ∧ g.k + 1 ≠ c.desc.segCount) ∧
    (∃ (ctx : ℕ) (c : Ctx) (g : Seg) (data : Bytes) (s : State), Runs s ctx 2 c g data ∧ c.desc.aead = false ∧ c.desc.isHeld = false ∧ steals
      c.cipherJob.mode = false ∧ g.k + 1 = c.desc.segCount) ∧
    (∃ (ctx : ℕ) (c : Ctx) (g : Seg) (data : Bytes) (s : State), Runs s ctx 2 c g data ∧ c.desc.aead = false ∧ c.desc.isHeld = false ∧ steals
      c.cipherJob.mode = false ∧ g.k + 1 ≠ c.desc.segCount) ∧
    (∃ (ctx : ℕ) (c : Ctx) (g : Seg) (data : Bytes) (s : State), Runs s ctx 2 c g data ∧ c.desc.aead = true ∧ c.desc.isHeld = true ∧
      (c.desc.chainNext = true ∨ c.out2In.isSome = true) ∧ g.k + 1 ≠ c.desc.segCount) ∧
    (∃ (ctx : ℕ) (c : Ctx) (g : Seg) (data : Bytes) (s : State), Runs s ctx 3 c g data ∧ c.desc.mode = 16) ∧
    ((Config.primCheck .wrapIntegrity [leBytes 1 16, [], []] = true) → ∃ (ctx : ℕ) (c : Ctx) (g : Seg) (data : Bytes) (plain : Bytes) (mli : ℕ) (s :
      State), Runs s ctx 4 c g data ∧ c.desc.mode = 16 ∧ unwrapKey c.desc.mode ((c.key.map (·.material)).getD []) data = some (plain, mli)) ∧
    ((Config.primCheck .wrapIntegrity [leBytes 1 16, [], []] = false) → ∃ (ctx : ℕ) (c : Ctx) (g : Seg) (data : Bytes) (s : State), Runs s ctx 4 c g
      data ∧ unwrapKey c.desc.mode ((c.key.map (·.material)).getD []) data = none) :=
  ⟨
    ⟨0, running1 { desc 1 64 with variant := 1 }, seg, [], withCtx (running1 { desc 1 64 with variant := 1 }), by unfold Runs; decide +kernel⟩,
    ⟨0, running1 { desc 1 999999 with variant := 1 }, seg, [], withCtx (running1 { desc 1 999999 with variant := 1 }), by unfold Runs; decide +kernel⟩,
    ⟨0, running1 { desc 2 64 with variant := 1 }, seg, [], withCtx (running1 { desc 2 64 with variant := 1 }), by unfold Runs; decide +kernel⟩,
    ⟨0, running1 { desc 2 999999 with variant := 1 }, seg, [], withCtx (running1 { desc 2 999999 with variant := 1 }), by unfold Runs; decide +kernel⟩,
    ⟨0, { running1 { desc 2 100000 with variant := 8 } with out2In := some [] }, seg, [], withCtx { running1 { desc 2 100000 with variant := 8 } with out2In := some [] }, by unfold Runs; decide +kernel⟩,
    ⟨0, running1 { desc 3 64 with variant := 16 }, seg, [], withCtx (running1 { desc 3 64 with variant := 16 }), by unfold Runs; decide +kernel⟩,
    fun h => ⟨0, running1 { desc 4 64 with variant := 16 }, seg, [], unwrapped.1, unwrapped.2, withCtx (running1 { desc 4 64 with variant := 16 }), (by unfold Runs; decide +kernel), by decide +kernel, some_pair (unwrapKey 16 [] []) ([], 0) (by simp only [unwrapKey, h, if_true]; rfl)⟩,
    fun h => ⟨0, running1 { desc 4 64 with variant := 16 }, seg, [], withCtx (running1 { desc 4 64 with variant := 16 }), (by unfold Runs; decide +kernel), (by show unwrapKey 16 [] [] = none; simp only [unwrapKey, h, if_false, Bool.false_eq_true])⟩⟩

theorem witness_DigestCheckAndRandomComplete :
    (∃ (ctx : ℕ) (c : Ctx) (g : Seg) (data : Bytes) (s : State), Runs s ctx 8 c g data ∧ g.k + 1 = c.desc.segCount ∧ c.desc.chainNext = false) ∧
    (∃ (ctx : ℕ) (c : Ctx) (g : Seg) (data : Bytes) (s : State), Runs s ctx 8 c g data ∧ g.k + 1 ≠ c.desc.segCount) ∧
    (∃ (ctx : ℕ) (c : Ctx) (g : Seg) (data : Bytes) (s : State), Runs s ctx 9 c g data ∧ g.k + 1 = c.desc.segCount ∧ c.desc.chainNext = false ∧
      c.desc.verify = false) ∧
    (∃ (ctx : ℕ) (c : Ctx) (g : Seg) (data : Bytes) (s : State), Runs s ctx 9 c g data ∧ g.k + 1 = c.desc.segCount ∧ c.desc.chainNext = false ∧
      c.desc.verify = true) ∧
    (∃ (ctx : ℕ) (c : Ctx) (g : Seg) (data : Bytes) (s : State), Runs s ctx 10 c g data ∧ g.k = 0 ∧ c.desc.segCount = 1 ∧ c.imported = none ∧
      c.desc.chainNext = false ∧ bit c.desc.variant 5 = false) ∧
    (∃ (ctx : ℕ) (c : Ctx) (g : Seg) (t : State) (s : State), s.ctx? ctx = some c ∧ c.desc.opcode = 0x18 ∧ s.runnable c = true ∧ c.segs.find? (fun g
      => !g.ran) = some g ∧ c.iv = [] ∧ g.k + 1 = c.desc.segCount ∧ s.ctxDraw c (c.desc.segLen g.k) (bit c.desc.variant 0) = (t, true)) :=
  ⟨
    ⟨0, running1 (dig 64), seg, [], withCtx (running1 (dig 64)), by unfold Runs; decide +kernel⟩,
    ⟨0, running1 (dig 999999), seg, [], withCtx (running1 (dig 999999)), by unfold Runs; decide +kernel⟩,
    ⟨0, running1 { desc 9 64 with variant := 1 }, seg, [], withCtx (running1 { desc 9 64 with variant := 1 }), by unfold Runs; decide +kernel⟩,
    ⟨0, running1 { desc 9 64 with variant := 0x11 }, seg, [], withCtx (running1 { desc 9 64 with variant := 0x11 }), by unfold Runs; decide +kernel⟩,
    ⟨0, running1 { desc 10 64 with variant := 1 }, seg, [], withCtx (running1 { desc 10 64 with variant := 1 }), by unfold Runs; decide +kernel⟩,
    ⟨0, running1 (desc 0x18 64), seg, ((withCtx (running1 (desc 0x18 64))).ctxDraw (running1 (desc 0x18 64)) 64 false).1, withCtx (running1 (desc 0x18 64)), by decide +kernel, by decide +kernel, by decide +kernel, by decide +kernel, by decide +kernel, by decide +kernel, rfl⟩⟩

theorem witness_BlobUnwrapCompletes :
    (∃ (ctx : ℕ) (c : Ctx) (s : State), s.ctx? ctx = some c ∧ c.phase = .waitBlob ∧ s.dmaOk = true ∧ s.worlds.tw.up = true) ∧
    (∃ (ctx : ℕ) (c : Ctx) (b : Bytes) (s : State), s.ctx? ctx = some c ∧ c.phase = .waitBlob ∧ s.dmaOk = true ∧ s.worlds.tw.up = true ∧
      (let u := s.blobCheck c b.length; (u.blobRead c (some b)).bind (u.openBlobOf c) = none)) ∧
    (Config.primCheck .gcmTag [zeros 32, sub blob 0x10 12, putAt (sub blob 0 64) 0x20 (zeros 16), sub blob 64 (bits (fieldLe blob 4 4) 0 14 + 40),
      sub blob 0x20 16] = true → ∃ (ctx : ℕ) (c : Ctx) (b : Bytes) (wk : Bytes) (k : Key) (n : ℕ) (s : State), s.ctx? ctx = some c ∧ c.phase =
      .waitBlob ∧ s.dmaOk = true ∧ s.worlds.tw.up = true ∧ c.home = some n ∧ (let u := s.blobCheck c b.length; u.dmaRefused .read c.desc.blobAddr
      b.length = none ∧ blobFits c.hdr b c.slice = true ∧ fieldLe b 0xB 1 = u.keys.lc.code ∧ u.smkFor (u.slice c.slice) (fieldLe b 0xA 1) = some wk ∧
      openBlob wk b = some k)) :=
  ⟨
    ⟨0, ctx (dig 64) .waitBlob, withCtx (ctx (dig 64) .waitBlob), by decide +kernel⟩,
    ⟨0, ctx (dig 64) .waitBlob, [], withCtx (ctx (dig 64) .waitBlob), by decide +kernel⟩,
    fun h => ⟨0, waiting, blob, zeros 32, inBlob, 0, blobState, by decide +kernel, by decide +kernel, by decide +kernel, by decide +kernel, by decide +kernel, (by rw [blob_checked]; decide +kernel), by decide +kernel, (by rw [blob_checked]; decide +kernel), (by rw [blob_checked]; exact blob_smk), some_of _ _ (by unfold openBlob; rw [if_pos h]; rfl)⟩⟩

theorem witness_SessionCommands :
    (∃ (ch : ℕ) (sn : ℕ) (ctrl : BitVec 32) (s : State), sessionNo ch sn = true ∧ s.asleep ch = false ∧ (s.ch ch).inService = true ∧ ((s.ch
      ch).session sn).isOpen = false ∧ (((s.ch ch).session sn).withCtrl ctrl).engineCrc = false ∧ (((s.ch ch).session sn).withCtrl ctrl).funcOk =
      true) ∧
    (∃ (ch : ℕ) (sn : ℕ) (_ : BitVec 32) (s : State), sessionNo ch sn = true ∧ s.asleep ch = false ∧ ((s.ch ch).session sn).isOpen = true) ∧
    (∃ (ch : ℕ) (sn : ℕ) (_ : BitVec 32) (s : State), sessionNo ch sn = true ∧ s.asleep ch = false ∧ ((s.ch ch).session sn).isOpen = false ∧ (s.ch
      ch).inService = false) ∧
    (∃ (ch : ℕ) (sn : ℕ) (_ : State), sessionNo ch sn = true) ∧
    (∃ (ch : ℕ) (sn : ℕ) (s : State), sessionNo ch sn = true ∧ s.asleep ch = false ∧ ((s.ch ch).session sn).isOpen = true ∧ ((s.ch ch).session
      sn).busy = false) ∧
    (∃ (ch : ℕ) (sn : ℕ) (s : State), sessionNo ch sn = true ∧ s.asleep ch = false ∧ (s.ch ch).inService = true ∧ ((s.ch ch).session sn).isOpen =
      false ∧ ((s.ch ch).session sn).engineCrc = false ∧ ((s.ch ch).session sn).funcOk = true ∧ ((s.ch ch).session sn).imageOk = true) ∧
    (∃ (ch : ℕ) (sn : ℕ) (s : State), sessionNo ch sn = true ∧ s.asleep ch = false ∧ (s.ch ch).inService = true ∧ ((s.ch ch).session sn).isOpen =
      false ∧ ((s.ch ch).session sn).imageOk = false) ∧
    (∃ (ch : ℕ) (sn : ℕ) (s : State), sessionNo ch sn = true ∧ s.asleep ch = false ∧ 1 ≤ ((s.ch ch).session sn).cmpLen ∧ ((s.ch ch).session
      sn).cmpLen ≤ 64) ∧
    (∃ (ch : ℕ) (sn : ℕ) (data : Bytes) (s : State), sessionNo ch sn = true ∧ s.asleep ch = false ∧ ((s.ch ch).session sn).isOpen = true ∧
      data.length ∈ [1, 2, 4, 8]) ∧
    (∃ (ch : ℕ) (sn : ℕ) (n : ℕ) (s : State), sessionNo ch sn = true ∧ s.asleep ch = false ∧ ((s.ch ch).session sn).isOpen = true ∧ n ≤ 8 ∧ ((s.ch
      ch).session sn).fed + ((s.ch ch).session sn).waiting.length + n = ((s.ch ch).session sn).declLen) ∧
    (∃ (ch : ℕ) (sn : ℕ) (n : ℕ) (s : State), sessionNo ch sn = true ∧ s.asleep ch = false ∧ ((s.ch ch).session sn).isOpen = true ∧ n ≤ 8 ∧ ((s.ch
      ch).session sn).fed + ((s.ch ch).session sn).waiting.length + n ≠ ((s.ch ch).session sn).declLen) ∧
    (∃ (ch : ℕ) (sn : ℕ) (_ : BitVec 64) (_ : State), sessionNo ch sn = true) ∧
    (∃ (ch : ℕ) (sn : ℕ) (s : State), sessionNo ch sn = true ∧ ((s.ch ch).session sn).isOpen = true ∧ ((s.ch ch).session sn).waiting ≠ []) ∧
    (∃ (ch : ℕ) (s : State), s.asleep ch = true) :=
  ⟨
    ⟨35, 1, 0x100, base, by decide +kernel⟩,
    ⟨35, 1, 0, withCh 35 fun c => { c with session1 := { isOpen := true, declLen := 8, func := 1 } }, by decide +kernel⟩,
    ⟨35, 1, 0, withCh 35 fun c => { c with st := .failed }, by decide +kernel⟩,
    ⟨35, 1, withCh 35 fun c => { c with session1 := { isOpen := true, declLen := 8, func := 1 } }, by decide +kernel⟩,
    ⟨35, 1, withCh 35 fun c => { c with session1 := { isOpen := true, declLen := 8, func := 1 } }, by decide +kernel⟩,
    ⟨35, 1, withCh 35 fun c => { c with session1 := { func := 1, image := [1, 0, 1, 0, 0, 0, 0, 0] } }, by decide +kernel⟩,
    ⟨35, 1, withCh 35 fun c => { c with session1 := { func := 1, cmpLen := 64 } }, by decide +kernel⟩,
    ⟨35, 1, withCh 35 fun c => { c with session1 := { func := 1, cmpLen := 64 } }, by decide +kernel⟩,
    ⟨35, 1, zeros 8, withCh 35 fun c => { c with session1 := { isOpen := true, declLen := 8, func := 1 } }, by decide +kernel⟩,
    ⟨35, 1, 8, withCh 35 fun c => { c with session1 := { isOpen := true, declLen := 8, func := 1 } }, by decide +kernel⟩,
    ⟨35, 1, 0, withCh 35 fun c => { c with session1 := { isOpen := true, declLen := 8, func := 1 } }, by decide +kernel⟩,
    ⟨35, 1, 0, base, by decide +kernel⟩,
    ⟨35, 1, withCh 35 fun c => { c with session1 := { isOpen := true, waiting := [1] } }, by decide +kernel⟩,
    ⟨35, base.modDom 35 fun d => { d with pstate := .sleep }, by decide +kernel⟩⟩

theorem witness_PublicKeyOperations :
    (∃ (ctx : ℕ) (n : ℕ) (src : Bytes) (s : State) (t : State), PkBegins s 0x01 ctx n src t) ∧
    (∃ (ctx : ℕ) (n : ℕ) (src : Bytes) (s : State) (t : State), PkBegins s 0x02 ctx n src t) ∧
    (∃ (ctx : ℕ) (n : ℕ) (src : Bytes) (s : State) (t : State), PkBegins s 0x03 ctx n src t) ∧
    (∃ (ctx : ℕ) (n : ℕ) (src : Bytes) (s : State) (t : State), PkBegins s 0x04 ctx n src t) ∧
    (∃ (ctx : ℕ) (n : ℕ) (src : Bytes) (s : State) (t : State), PkBegins s 0x05 ctx n src t) ∧
    (∃ (ctx : ℕ) (n : ℕ) (src : Bytes) (s : State) (t : State), PkBegins s 0x06 ctx n src t) ∧
    (∃ (ctx : ℕ) (n : ℕ) (src : Bytes) (s : State) (t : State), PkBegins s 0x07 ctx n src t) ∧
    (∃ (ctx : ℕ) (n : ℕ) (src : Bytes) (s : State) (t : State), PkBegins s 0x08 ctx n src t) ∧
    (∃ (ctx : ℕ) (n : ℕ) (src : Bytes) (s : State) (t : State), PkBegins s 0x10 ctx n src t) ∧
    (((pkCtx 17 [1] (zeros 64) none (zeros 32)).pkIn (zeros 32)).publicCheck = none → ∃ (ctx : ℕ) (n : ℕ) (src : Bytes) (s : State) (t : State),
      PkBegins s 0x11 ctx n src t) ∧
    (∃ (ctx : ℕ) (n : ℕ) (src : Bytes) (s : State) (t : State), PkBegins s 0x12 ctx n src t) ∧
    (∃ (ctx : ℕ) (n : ℕ) (src : Bytes) (s : State) (t : State), PkBegins s 0x14 ctx n src t) ∧
    (((pkCtx 21 [6] (zeros 32) none []).pkIn []).publicCheck = none → ∃ (ctx : ℕ) (n : ℕ) (src : Bytes) (s : State) (t : State), PkBegins s 0x15 ctx
      n src t) ∧
    (((pkCtx 32 [1] [] none (zeros 800)).pkIn (zeros 800)).publicCheck = none → ∃ (ctx : ℕ) (n : ℕ) (src : Bytes) (s : State) (t : State), PkBegins s
      0x20 ctx n src t) ∧
    (∃ (ctx : ℕ) (n : ℕ) (src : Bytes) (s : State) (t : State), PkBegins s 0x21 ctx n src t) ∧
    (∃ (ctx : ℕ) (n : ℕ) (src : Bytes) (s : State) (t : State), PkBegins s 0x22 ctx n src t) ∧
    (((pkCtx 35 [1] (zeros 1312) none []).pkIn []).publicCheck = none → ∃ (ctx : ℕ) (n : ℕ) (src : Bytes) (s : State) (t : State), PkBegins s 0x23
      ctx n src t) ∧
    (∃ (ctx : ℕ) (n : ℕ) (src : Bytes) (s : State) (t : State), PkBegins s 0x30 ctx n src t) ∧
    (∃ (ctx : ℕ) (n : ℕ) (src : Bytes) (s : State) (t : State), PkBegins s 0x31 ctx n src t) ∧
    (∃ (ctx : ℕ) (n : ℕ) (src : Bytes) (s : State) (t : State), PkBegins s 0x32 ctx n src t) ∧
    (∃ (ctx : ℕ) (n : ℕ) (src : Bytes) (s : State) (t : State), PkBegins s 0x33 ctx n src t) ∧
    (∃ (ch : ℕ) (_ : ℕ) (r : PkRun) (s : State), (s.ch ch).pkRun = some r ∧ r.wiping = false ∧ r.computed = false ∧ r.paced = false ∧ s.pkWithheld r
      = false) ∧
    (∃ (ch : ℕ) (_ : ℕ) (r : PkRun) (s : State), (s.ch ch).pkRun = some r ∧ r.wiping = false ∧ r.computed = false ∧ r.paced = true) ∧
    (∃ (ch : ℕ) (r : PkRun) (s : State), (s.ch ch).pkRun = some r ∧ r.wiping = false ∧ r.paced = true ∧ r.overrun = false ∧ r.computed = true ∧
      s.pkWithheld r = false ∧ (s.ch ch).targetChanged = false) ∧
    (∃ (ch : ℕ) (r : PkRun) (s : State), (s.ch ch).pkRun = some r ∧ r.wiping = false ∧ r.paced = true ∧ r.overrun = false ∧ r.computed = false ∧
      s.pkWithheld r = false) ∧
    (∃ (ch : ℕ) (r : PkRun) (c : Ctx) (s : State), (s.ch ch).pkRun = some r ∧ s.ctx? r.ctx = some c ∧ r.wiping = false ∧ r.paced = true ∧ r.overrun =
      true ∧ r.computed = true ∧ s.pkWithheld r = false) ∧
    (∃ (ch : ℕ) (r : PkRun) (c : Ctx) (s : State), (s.ch ch).pkRun = some r ∧ s.ctx? r.ctx = some c ∧ r.wiping = false ∧ r.paced = true ∧ r.overrun =
      true ∧ r.computed = false ∧ s.pkWithheld r = false) ∧
    (∃ (ch : ℕ) (r : PkRun) (s : State), (s.ch ch).pkRun = some r ∧ r.wiping = true) :=
  ⟨
    ⟨0, 0, (zeros 7 ++ [1]), withPk (pkCtx 1 [0, 0, 1, 0] rsaPub none (zeros 7 ++ [1])) (zeros 7 ++ [1]), pkDrawn (pkCtx 1 [0, 0, 1, 0] rsaPub none (zeros 7 ++ [1])) (zeros 7 ++ [1]), begins_of 1 (pkCtx 1 [0, 0, 1, 0] rsaPub none (zeros 7 ++ [1])) (zeros 7 ++ [1]) (by unfold Runs; decide +kernel) (by decide +kernel) (by decide +kernel) (by decide +kernel)⟩,
    ⟨0, 0, (zeros 7 ++ [1]), withPk (pkCtx 2 [] [] (some (pkKey 5 32)) (zeros 7 ++ [1])) (zeros 7 ++ [1]), pkDrawn (pkCtx 2 [] [] (some (pkKey 5 32)) (zeros 7 ++ [1])) (zeros 7 ++ [1]), begins_of 2 (pkCtx 2 [] [] (some (pkKey 5 32)) (zeros 7 ++ [1])) (zeros 7 ++ [1]) (by unfold Runs; decide +kernel) (by decide +kernel) (by decide +kernel) (by decide +kernel)⟩,
    ⟨0, 0, (zeros 28), withPk (pkCtx 3 [0, 1] [] (some (pkKey 5 900)) (zeros 28)) (zeros 28), pkDrawn (pkCtx 3 [0, 1] [] (some (pkKey 5 900)) (zeros 28)) (zeros 28), begins_of 3 (pkCtx 3 [0, 1] [] (some (pkKey 5 900)) (zeros 28)) (zeros 28) (by unfold Runs; decide +kernel) (by decide +kernel) (by decide +kernel) (by decide +kernel)⟩,
    ⟨0, 0, (zeros 28), withPk (pkCtx 4 [0, 1] [] (some (pkKey 5 900)) (zeros 28)) (zeros 28), pkDrawn (pkCtx 4 [0, 1] [] (some (pkKey 5 900)) (zeros 28)) (zeros 28), begins_of 4 (pkCtx 4 [0, 1] [] (some (pkKey 5 900)) (zeros 28)) (zeros 28) (by unfold Runs; decide +kernel) (by decide +kernel) (by decide +kernel) (by decide +kernel)⟩,
    ⟨0, 0, (zeros 28), withPk (pkCtx 5 [0, 1, 1, 0] rsaPub none (zeros 28)) (zeros 28), pkDrawn (pkCtx 5 [0, 1, 1, 0] rsaPub none (zeros 28)) (zeros 28), begins_of 5 (pkCtx 5 [0, 1, 1, 0] rsaPub none (zeros 28)) (zeros 28) (by unfold Runs; decide +kernel) (by decide +kernel) (by decide +kernel) (by decide +kernel)⟩,
    ⟨0, 0, (zeros 28), withPk (pkCtx 6 [0, 1, 1, 0] rsaPub none (zeros 28)) (zeros 28), pkDrawn (pkCtx 6 [0, 1, 1, 0] rsaPub none (zeros 28)) (zeros 28), begins_of 6 (pkCtx 6 [0, 1, 1, 0] rsaPub none (zeros 28)) (zeros 28) (by unfold Runs; decide +kernel) (by decide +kernel) (by decide +kernel) (by decide +kernel)⟩,
    ⟨0, 0, (zeros 7 ++ [1]), withPk (pkCtx 7 [0, 1] [] (some (pkKey 5 32)) (zeros 7 ++ [1])) (zeros 7 ++ [1]), pkDrawn (pkCtx 7 [0, 1] [] (some (pkKey 5 32)) (zeros 7 ++ [1])) (zeros 7 ++ [1]), begins_of 7 (pkCtx 7 [0, 1] [] (some (pkKey 5 32)) (zeros 7 ++ [1])) (zeros 7 ++ [1]) (by unfold Runs; decide +kernel) (by decide +kernel) (by decide +kernel) (by decide +kernel)⟩,
    ⟨0, 0, [], withPk (pkCtx 8 [0, 1, 32, 0] (List.replicate 256 255 ++ [0, 1, 0, 1]) none []) [], pkDrawn (pkCtx 8 [0, 1, 32, 0] (List.replicate 256 255 ++ [0, 1, 0, 1]) none []) [], begins_of 8 (pkCtx 8 [0, 1, 32, 0] (List.replicate 256 255 ++ [0, 1, 0, 1]) none []) [] (by unfold Runs; decide +kernel) (by decide +kernel) (by decide +kernel) (by decide +kernel)⟩,
    ⟨0, 0, (zeros 32), withPk (pkCtx 16 [1, 1, 0, 0, 0, 0, 1] [] (some (pkKey 7 32)) (zeros 32)) (zeros 32), pkDrawn (pkCtx 16 [1, 1, 0, 0, 0, 0, 1] [] (some (pkKey 7 32)) (zeros 32)) (zeros 32), begins_of 16 (pkCtx 16 [1, 1, 0, 0, 0, 0, 1] [] (some (pkKey 7 32)) (zeros 32)) (zeros 32) (by unfold Runs; decide +kernel) (by decide +kernel) (by decide +kernel) (by decide +kernel)⟩,
    fun h => ⟨0, 0, (zeros 32), withPk (pkCtx 17 [1] (zeros 64) none (zeros 32)) (zeros 32), pkDrawn (pkCtx 17 [1] (zeros 64) none (zeros 32)) (zeros 32), begins_of 17 (pkCtx 17 [1] (zeros 64) none (zeros 32)) (zeros 32) (by unfold Runs; decide +kernel) (by decide +kernel) h (by decide +kernel)⟩,
    ⟨0, 0, (zeros 32), withPk (pkCtx 18 [4] [] (some (pkKey 7 32)) (zeros 32)) (zeros 32), pkDrawn (pkCtx 18 [4] [] (some (pkKey 7 32)) (zeros 32)) (zeros 32), begins_of 18 (pkCtx 18 [4] [] (some (pkKey 7 32)) (zeros 32)) (zeros 32) (by unfold Runs; decide +kernel) (by decide +kernel) (by decide +kernel) (by decide +kernel)⟩,
    ⟨0, 0, [], withPk (pkCtx 20 [6] [] (some (pkKey 7 32)) []) [], pkDrawn (pkCtx 20 [6] [] (some (pkKey 7 32)) []) [], begins_of 20 (pkCtx 20 [6] [] (some (pkKey 7 32)) []) [] (by unfold Runs; decide +kernel) (by decide +kernel) (by decide +kernel) (by decide +kernel)⟩,
    fun h => ⟨0, 0, [], withPk (pkCtx 21 [6] (zeros 32) none []) [], pkDrawn (pkCtx 21 [6] (zeros 32) none []) [], begins_of 21 (pkCtx 21 [6] (zeros 32) none []) [] (by unfold Runs; decide +kernel) (by decide +kernel) h (by decide +kernel)⟩,
    fun h => ⟨0, 0, (zeros 800), withPk (pkCtx 32 [1] [] none (zeros 800)) (zeros 800), pkDrawn (pkCtx 32 [1] [] none (zeros 800)) (zeros 800), begins_of 32 (pkCtx 32 [1] [] none (zeros 800)) (zeros 800) (by unfold Runs; decide +kernel) (by decide +kernel) h (by decide +kernel)⟩,
    ⟨0, 0, (zeros 768), withPk (pkCtx 33 [1] [] (some (pkKey 9 32)) (zeros 768)) (zeros 768), pkDrawn (pkCtx 33 [1] [] (some (pkKey 9 32)) (zeros 768)) (zeros 768), begins_of 33 (pkCtx 33 [1] [] (some (pkKey 9 32)) (zeros 768)) (zeros 768) (by unfold Runs; decide +kernel) (by decide +kernel) (by decide +kernel) (by decide +kernel)⟩,
    ⟨0, 0, [], withPk (pkCtx 34 [1] [] (some (pkKey 9 32)) []) [], pkDrawn (pkCtx 34 [1] [] (some (pkKey 9 32)) []) [], begins_of 34 (pkCtx 34 [1] [] (some (pkKey 9 32)) []) [] (by unfold Runs; decide +kernel) (by decide +kernel) (by decide +kernel) (by decide +kernel)⟩,
    fun h => ⟨0, 0, [], withPk (pkCtx 35 [1] (zeros 1312) none []) [], pkDrawn (pkCtx 35 [1] (zeros 1312) none []) [], begins_of 35 (pkCtx 35 [1] (zeros 1312) none []) [] (by unfold Runs; decide +kernel) (by decide +kernel) h (by decide +kernel)⟩,
    ⟨0, 0, words3, withPk (pkCtx 48 [0, 0, 1, 0] [] none words3) words3, pkDrawn (pkCtx 48 [0, 0, 1, 0] [] none words3) words3, begins_of 48 (pkCtx 48 [0, 0, 1, 0] [] none words3) words3 (by unfold Runs; decide +kernel) (by decide +kernel) (by decide +kernel) (by decide +kernel)⟩,
    ⟨0, 0, words3, withPk (pkCtx 49 [0, 0, 1, 0] [] none words3) words3, pkDrawn (pkCtx 49 [0, 0, 1, 0] [] none words3) words3, begins_of 49 (pkCtx 49 [0, 0, 1, 0] [] none words3) words3 (by unfold Runs; decide +kernel) (by decide +kernel) (by decide +kernel) (by decide +kernel)⟩,
    ⟨0, 0, (words3.take 16), withPk (pkCtx 50 [0, 0, 1, 0] [] none (words3.take 16)) (words3.take 16), pkDrawn (pkCtx 50 [0, 0, 1, 0] [] none (words3.take 16)) (words3.take 16), begins_of 50 (pkCtx 50 [0, 0, 1, 0] [] none (words3.take 16)) (words3.take 16) (by unfold Runs; decide +kernel) (by decide +kernel) (by decide +kernel) (by decide +kernel)⟩,
    ⟨0, 0, words3, withPk (pkCtx 51 [0, 0, 1, 0] [] none words3) words3, pkDrawn (pkCtx 51 [0, 0, 1, 0] [] none words3) words3, begins_of 51 (pkCtx 51 [0, 0, 1, 0] [] none words3) words3 (by unfold Runs; decide +kernel) (by decide +kernel) (by decide +kernel) (by decide +kernel)⟩,
    ⟨0, 5, run1, withCh 0 (fun c => { c with pkRun := some run1 }), by decide +kernel⟩,
    ⟨0, 5, { run1 with paced := true }, withCh 0 (fun c => { c with pkRun := some { run1 with paced := true } }), by decide +kernel⟩,
    ⟨0, { run1 with paced := true, computed := true }, withCh 0 (fun c => { c with pkRun := some { run1 with paced := true, computed := true } }), by decide +kernel⟩,
    ⟨0, { run1 with paced := true }, withCh 0 (fun c => { c with pkRun := some { run1 with paced := true } }), by decide +kernel⟩,
    ⟨0, { run1 with paced := true, overrun := true, computed := true }, ctx (desc 0x10), withCh 0 (fun c => { c with pkRun := some { run1 with paced := true, overrun := true, computed := true } }) (withCtx (ctx (desc 0x10))), by decide +kernel⟩,
    ⟨0, { run1 with paced := true, overrun := true }, ctx (desc 0x10), withCh 0 (fun c => { c with pkRun := some { run1 with paced := true, overrun := true } }) (withCtx (ctx (desc 0x10))), by decide +kernel⟩,
    ⟨0, { run1 with wiping := true }, withCh 0 (fun c => { c with pkRun := some { run1 with wiping := true } }), by decide +kernel⟩⟩

theorem witness_EntropyCommands :
    (∃ (bank : ℕ) (raw : Bytes) (s : State), (s.bank bank).st = .warmup ∧ (s.bank bank).rctFails? ((rawBits raw).take warmupBits) = false) ∧
    (∃ (bank : ℕ) (raw : Bytes) (s : State), (s.bank bank).st = .test ∧ (s.bank bank).healthy (rawBits raw) = true) ∧
    (∃ (bank : ℕ) (raw : Bytes) (s : State), (s.bank bank).st = .service ∧ (s.bank bank).healthy (rawBits raw) = true ∧ s.rng.buffer.length <
      Config.entropyBlocks) ∧
    (∃ (bank : ℕ) (raw : Bytes) (s : State), (s.bank bank).st = .service ∧ (s.bank bank).healthy (rawBits raw) = true ∧ Config.entropyBlocks ≤
      s.rng.buffer.length) ∧
    (∃ (bank : ℕ) (_ : Bytes) (s : State), (s.bank bank).st = .capture ∧ s.rng.captureLeft ≠ 0 ∧ s.dmaOk = true) ∧
    (∃ (bank : ℕ) (raw : Bytes) (count : ℕ) (s : State), (s.bank bank).st = .service ∧ (s.bank bank).healthy ((rawBits raw).take count) = false ∧
      s.seeding = false ∧ s.rng.selftest = [] ∧ s.mail.running = []) ∧
    (∃ (inst : ℕ) (b1 : Bytes) (b2 : Bytes) (rest : List Bytes) (s : State), s.rng.buffer = b1 :: b2 :: rest ∧ s.nextSeed = some inst ∧ inst ≠ 0 ∧
      s.wantsReseed 0 = false ∧ s.keys.root.isSome = true) ∧
    (∃ (inst : ℕ) (b : Bytes) (rest : List Bytes) (s : State), s.rng.buffer = b :: rest ∧ s.reseedTurn inst = true ∧ s.keys.root.isSome = true) :=
  ⟨
    ⟨3, goodRaw, { base with rng := { base.rng with banks := List.replicate 4 { st := .warmup } } }, by decide +kernel⟩,
    ⟨3, goodRaw, { base with rng := { base.rng with banks := List.replicate 4 { st := .test } } }, by decide +kernel⟩,
    ⟨3, goodRaw, bankAt .service [], by decide +kernel⟩,
    ⟨3, goodRaw, bankAt .service (List.replicate 64 []), by decide +kernel⟩,
    ⟨3, goodRaw, { bankAt .capture [] with rng := { (bankAt .capture []).rng with captureLeft := 1024 } }, by decide +kernel⟩,
    ⟨0, zeros 128, 1024, bankAt .service [], by decide +kernel⟩,
    ⟨37, [], [], [], { base with rng := { base.rng with buffer := [[], []], gens := List.replicate 35 { st := .seeded } ++ [{ st := .unseeded }] } }, by decide +kernel⟩,
    ⟨37, [], [], { base with rng := { base.rng with buffer := [[]], due := [37] } }, by decide +kernel⟩⟩

theorem witness_DrawPortAndEntropyPackets :
    (∃ (w : World) (len : ℕ) (_ : Bool) (s : State), (s.world w).up = true ∧ (s.world w).drawBusy = false ∧ (len % 128 = 0 ∨ 64 < len % 128)) ∧
    (∃ (w : World) (len : ℕ) (pr : Bool) (s : State), (s.world w).up = true ∧ (s.world w).drawBusy = false ∧
      (let s0 := s.modWorld w fun x => { x with drawLen := len % 128, drawValid := false, drawData := zeros 64 }; ∃ (b : Bytes) (t : State), 1 ≤ len
      % 128 ∧ len % 128 ≤ 64 ∧ s0.draw (portInst w) (len % 128) pr (.port w (len % 128) pr) = (.bytes b, t))) ∧
    (∃ (w : World) (len : ℕ) (pr : Bool) (s : State), (s.world w).up = true ∧ (s.world w).drawBusy = false ∧
      (let s0 := s.modWorld w fun x => { x with drawLen := len % 128, drawValid := false, drawData := zeros 64 }; ∃ (t : State), 1 ≤ len % 128 ∧ len
      % 128 ≤ 64 ∧ s0.draw (portInst w) (len % 128) pr (.port w (len % 128) pr) = (.waits, t))) ∧
    (∃ (c : Caller) (s : State) (p : Packet) (t : State), Ready c rngPersonaliseCmd s p t) ∧
    (∃ (c : Caller) (s : State) (p : Packet) (t : State), Ready c rngReseedCmd s p t ∧ t.rng.source ≠ .failed) ∧
    (∃ (c : Caller) (s : State) (p : Packet) (t : State), Ready c rngRecoverCmd s p t ∧ t.jobOn (conflicts 0x11A) 0 = false) ∧
    (∃ (c : Caller) (s : State) (p : Packet) (t : State), Ready c rngSelftestCmd s p t ∧ t.jobOn (conflicts 0x11B) 0 = false ∧ t.rng.source ≠
      .failed) ∧
    (∃ (c : Caller) (s : State) (p : Packet) (t : State), Ready c rngRawCaptureCmd s p t ∧ t.jobOn (conflicts 0x11C) 0 = false) :=
  ⟨
    ⟨.ow, 65, true, base, by decide +kernel⟩,
    ⟨.ow, 64, false, base, by decide +kernel, by decide +kernel, bytesOf (portDraw base 64).1, (portDraw base 64).2, by decide +kernel, by decide +kernel, rfl⟩,
    ⟨.ow, 1, false, unseeded, by decide +kernel, by decide +kernel, (portDraw unseeded 1).2, by decide +kernel, by decide +kernel, rfl⟩,
    ⟨mgr, asked 0x119 (zeros 32), _, _, ready_of _ _ _ (by decide +kernel)⟩,
    ⟨mgr, asked 0x118 (leBytes 8 3), _, _, ready_of _ _ _ (by decide +kernel), by decide +kernel⟩,
    ⟨mgr, asked 0x11A [], _, _, ready_of _ _ _ (by decide +kernel), by decide +kernel⟩,
    ⟨mgr, asked 0x11B [], _, _, ready_of _ _ _ (by decide +kernel), by decide +kernel⟩,
    ⟨mgr, asked 0x11C ([3] ++ zeros 3 ++ leBytes 4 1024 ++ zeros 8), _, _, ready_of _ _ _ (by decide +kernel), by decide +kernel⟩⟩

theorem witness_KeyMakingCommands :
    (∃ (c : Caller) (s : State) (p : Packet) (t : State), Ready c keyGenerateCmd s p t ∧ (let f := p.int generateFlds;
      (let slice := if f 0 = 2 then f 7 else (t.who c).sliceNo; publicClass (f 1) = false ∧ classLen (f 1) (f 2) (f 3) = true ∧ usageOk (f 1) (f 0)
      (f 4) (f 5) = true ∧ (t.freeRun (f 0) slice (rowsFor (f 3)) (f 1 = 4 && rowsFor (f 3) = 2)).isSome = true ∧ t.rowsAllowed (f 0) slice (rowsFor
      (f 3)) = true ∧ t.rng.served.find? (·.1 == c) = none ∧ ((t.gen 0).st = .seeded ∨ (t.gen 0).st = .stretched) ∧ (t.gen 0).waiting.length <
      Config.waitList))) ∧
    (∃ (c : Caller) (j : Job) (s : State) (p : Packet) (t : State) (b : Bytes) (u : State) (h : ℕ) (body : Bytes) (v : State), Resumes c
      keyGenerateCmd j s p t ∧ (let f := p.int generateFlds; (let slice := if f 0 = 2 then f 7 else (t.who j.caller).sliceNo; publicClass (f 1) =
      false ∧ f 1 ≠ 2 ∧ f 1 ≠ 4 ∧ classLen (f 1) (f 2) (f 3) = true ∧ usageOk (f 1) (f 0) (f 4) (f 5) = true ∧ (t.freeRun (f 0) slice (rowsFor (f 3))
      false).isSome = true ∧ t.rowsAllowed (f 0) slice (rowsFor (f 3)) = true ∧ t.cmdDraw j.caller (drawLen (f 1) (f 2) (f 3)) true 0 = .inl (b, u) ∧
      (u.rsaEngine (f 1)).install
      { scope := f 0, slice := slice, cls := f 1, param := f 2, usage := f 4, modes := f 5, any := f 6 == 1, keyId := f 8, origin := 0, material := generated (f 1) (f 2) (f 3) b }
      = .done .done 0 body h v))) ∧
    (∀ (b : Bytes) (mli : Nat), openPackage (ownKey 1 32).material (readyQ own keyImportWrappedCmd (importing)).data = some (b, mli) → 40 ≤ mli → mli
      = 40 + bits (fieldLe b 0 4) 16 14 → ∃ (c : Caller) (s : State) (p : Packet) (t : State) (k : Key) (b : Bytes) (mli : ℕ), Ready c
      keyImportWrappedCmd s p t ∧ p.int importFlds 1 = 0 ∧ t.kek (t.who c) (p.int importFlds 0) 13 false = .inr k ∧ openPackage k.material p.data =
      some (b, mli) ∧ 40 ≤ mli ∧ mli = 40 + bits (fieldLe b 0 4) 16 14) ∧
    (∃ (c : Caller) (s : State) (p : Packet) (t : State), Ready c keyImportClearCmd s p t ∧ p.attrKey.len = p.data.length) ∧
    (∃ (c : Caller) (s : State) (p : Packet) (t : State) (k : Key) (label : Bytes) (info : Bytes) (z : Bytes), Ready c keyDeriveCmd s p t ∧
      t.namedHere (p.int deriveFlds 0) false = .inr k ∧ k.isBase = true ∧ p.int deriveFlds 1 ∈ [1, 2, 3, 4, 15] ∧ classLen (p.int deriveFlds 1)
      (p.int deriveFlds 2) (p.int deriveFlds 3) = true ∧ labelled (p.data.drop k.peerLen) = some (label, info) ∧ k.baseSecret (sub p.data 0
      k.peerLen) = .inr z) ∧
    (∀ k : Key, (readyT own keyLoadBlobCmd (loading)).openFor? 1 42 (readyQ own keyLoadBlobCmd (loading)).data = some k → ∃ (c : Caller) (s : State)
      (p : Packet) (t : State) (k : Key), Ready c keyLoadBlobCmd s p t ∧ p.data.length = 104 + bits (fieldLe p.data 4 4) 0 14 ∧ fieldLe p.data 0xC 4
      = bits (fieldLe p.data 4 4) 0 14 + 40 ∧ t.openFor? (t.who c).makes (t.who c).sliceNo p.data = some k) :=
  ⟨
    ⟨own, askedS 0x200 genBody, _, _, ready_of _ _ _ (by decide +kernel), by decide +kernel⟩,
    ⟨own, jobOf own 0x200 genBody, withJob (jobOf own 0x200 genBody) (drawnFor own 16), _, _, (leftD ((State.dropJob (jobOf own 0x200 genBody) (withJob (jobOf own 0x200 genBody) (drawnFor own 16))).cmdDraw own 16 true 0) ([], base)).1, (leftD ((State.dropJob (jobOf own 0x200 genBody) (withJob (jobOf own 0x200 genBody) (drawnFor own 16))).cmdDraw own 16 true 0) ([], base)).2, (doneD ((leftD ((State.dropJob (jobOf own 0x200 genBody) (withJob (jobOf own 0x200 genBody) (drawnFor own 16))).cmdDraw own 16 true 0) ([], base)).2.install { scope := 1, slice := 42, cls := 1, param := 0, usage := 0, modes := 0, any := false, keyId := 77, origin := 0, material := generated 1 0 16 (leftD ((State.dropJob (jobOf own 0x200 genBody) (withJob (jobOf own 0x200 genBody) (drawnFor own 16))).cmdDraw own 16 true 0) ([], base)).1 })).2.1, (doneD ((leftD ((State.dropJob (jobOf own 0x200 genBody) (withJob (jobOf own 0x200 genBody) (drawnFor own 16))).cmdDraw own 16 true 0) ([], base)).2.install { scope := 1, slice := 42, cls := 1, param := 0, usage := 0, modes := 0, any := false, keyId := 77, origin := 0, material := generated 1 0 16 (leftD ((State.dropJob (jobOf own 0x200 genBody) (withJob (jobOf own 0x200 genBody) (drawnFor own 16))).cmdDraw own 16 true 0) ([], base)).1 })).1, (doneD ((leftD ((State.dropJob (jobOf own 0x200 genBody) (withJob (jobOf own 0x200 genBody) (drawnFor own 16))).cmdDraw own 16 true 0) ([], base)).2.install { scope := 1, slice := 42, cls := 1, param := 0, usage := 0, modes := 0, any := false, keyId := 77, origin := 0, material := generated 1 0 16 (leftD ((State.dropJob (jobOf own 0x200 genBody) (withJob (jobOf own 0x200 genBody) (drawnFor own 16))).cmdDraw own 16 true 0) ([], base)).1 })).2.2, ⟨by decide +kernel, by decide +kernel, by decide +kernel, .inl ⟨by decide +kernel, by decide +kernel⟩, by decide +kernel, by decide +kernel, rfl, rfl⟩, by decide +kernel, by decide +kernel, by decide +kernel, by decide +kernel, by decide +kernel, by decide +kernel, by decide +kernel, left_of _ ([], base) (by decide +kernel), done_of ((leftD ((State.dropJob (jobOf own 0x200 genBody) (withJob (jobOf own 0x200 genBody) (drawnFor own 16))).cmdDraw own 16 true 0) ([], base)).2.install { scope := 1, slice := 42, cls := 1, param := 0, usage := 0, modes := 0, any := false, keyId := 77, origin := 0, material := generated 1 0 16 (leftD ((State.dropJob (jobOf own 0x200 genBody) (withJob (jobOf own 0x200 genBody) (drawnFor own 16))).cmdDraw own 16 true 0) ([], base)).1 }) (by decide +kernel)⟩,
    fun b mli ho h1 h2 => ⟨own, importing, _, _, ownKey 1 32, b, mli, ready_of _ _ _ (by decide +kernel), by decide +kernel, by decide +kernel, ho, h1, h2⟩,
    ⟨own, askedS 0x202 (withData { ownKey 1 16 with usage := 16, modes := 0 }.attrs (zeros 16)), _, _, ready_of _ _ _ (by decide +kernel), by decide +kernel⟩,
    ⟨own, askedS 0x207 (withData (handle ++ layInts [(1, 1), (1, 0), (2, 16), (4, 0), (2, 0), (8, 0)]) [1, 2, 1, 3]) (keyed 15 32), _, _, ownKey 15 32, [2], [3], zeros 32, ready_of _ _ _ (by decide +kernel), by decide +kernel⟩,
    fun k h => ⟨own, loading, _, _, k, ready_of _ _ _ (by decide +kernel), by decide +kernel, by decide +kernel, h⟩⟩

theorem witness_KeyReadingCommands :
    (∃ (c : Caller) (s : State) (p : Packet) (t : State) (k : Key) (e : Key), Ready c keyExportWrappedCmd s p t ∧ t.namedHere (p.int exportFlds 0)
      false = .inr k ∧ t.kek (t.who c) (p.int exportFlds 1) 12 false = .inr e ∧ k.usage.getLsbD 14 = true) ∧
    (∃ (c : Caller) (s : State) (p : Packet) (t : State) (k : Key) (b : Bytes), Ready c keyExportPublicCmd s p t ∧ t.namedHere (p.int keyFlds 0)
      false = .inr k ∧ k.public? = some b) ∧
    (∃ (c : Caller) (s : State) (p : Packet) (t : State) (k : Key) (wk : Bytes) (iv : Bytes) (u : State), Ready c keySaveBlobCmd s p t ∧ p.part = 0 ∧
      t.namedHere (p.int keyFlds 0) false = .inr k ∧ k.usage.getLsbD 15 = true ∧ t.wrapKey k.scope k.slice t.dkVersion = some wk ∧ t.cmdDraw c 12
      false (p.int keyFlds 0) = .inl (iv, u) ∧ (sealBlob wk iv u.dkVersion u.keys.lc.code k).length ≤ partBytes) ∧
    (∃ (c : Caller) (s : State) (p : Packet) (t : State) (k : Key), Ready c keyQueryCmd s p t ∧ t.named (p.int keyFlds 0) true false = .inr k) ∧
    (∃ (c : Caller) (s : State) (p : Packet) (t : State), Ready c keysetGetCmd s p t ∧ (t.slice (p.int sliceFlds 0)).exists_ = true) :=
  ⟨
    ⟨own, askedS 0x203 (handle ++ handle) (keyed 1 32), _, _, ownKey 1 32, ownKey 1 32, ready_of _ _ _ (by decide +kernel), by decide +kernel⟩,
    ⟨own, askedS 0x204 handle (keyed 8 64), _, _, ownKey 8 64, zeros 64, ready_of _ _ _ (by decide +kernel), by decide +kernel⟩,
    ⟨mgr, savingDom, _, _, base.seal domKey, ((readyT mgr keySaveBlobCmd (savingDom)).wrapKey 2 0 0).getD [], (leftD ((readyT mgr keySaveBlobCmd (savingDom)).cmdDraw mgr 12 false ((readyQ mgr keySaveBlobCmd (savingDom)).int keyFlds 0)) ([], base)).1, (leftD ((readyT mgr keySaveBlobCmd (savingDom)).cmdDraw mgr 12 false ((readyQ mgr keySaveBlobCmd (savingDom)).int keyFlds 0)) ([], base)).2, ready_of _ _ _ (by decide +kernel), by decide +kernel, by decide +kernel, by decide +kernel, some_of _ _ (by decide +kernel), left_of _ ([], base) (by decide +kernel), (by simp [sealBlob, Config.prim, putAt, leBytes, padTo, zeros, partBytes]; decide +kernel)⟩,
    ⟨own, askedS 0x20A handle (keyed 1 16), _, _, ownKey 1 16, ready_of _ _ _ (by decide +kernel), by decide +kernel⟩,
    ⟨mgr, asked 0x20B (leBytes 2 42), _, _, ready_of _ _ _ (by decide +kernel), by decide +kernel⟩⟩

theorem witness_KeyChangingCommands :
    (∃ (c : Caller) (s : State) (p : Packet) (t : State) (k : Key), Ready c keyDeleteCmd s p t ∧ t.jobOn (conflicts 0x208) (p.int keyFlds 0) = false
      ∧ t.named (p.int keyFlds 0) true false = .inr k ∧ k.scope ≠ 2) ∧
    (∃ (c : Caller) (s : State) (p : Packet) (t : State) (k : Key), Ready c keySetPolicyCmd s p t ∧ t.jobOn (conflicts 0x209) (p.int policyFlds 0) =
      false ∧ t.named (p.int policyFlds 0) false false = .inr k ∧ k.scope ≠ 2) ∧
    (∃ (c : Caller) (s : State) (p : Packet) (t : State), Ready c keysetSetCmd s p t ∧ (let n := p.int keysetFlds 0; (t.slice n).exists_ = true ∧
      t.keyUsed n = 0 ∧ t.keys.stage.any (·.slice == n) = false)) ∧
    (∃ (m : ℕ) (a : Assembly) (s : State), (s.box m).assembly = some a ∧ a.at_ + 1000 ≤ s.glob.uptimeMs) ∧
    (∃ (_ : List (ℕ × ℕ × ℕ)), ∃ (s : State), s.tamper.mainPower = true ∧ s.keys.sik.isSome = true ∧ s.keys.lastSweep + 1000 * s.keys.sweepS ≤
      s.glob.uptimeMs) ∧
    (∃ (s : State), s.keys.epochDue ≠ 0 ∧ s.keyDrained = true ∧ s.worlds.tw.up = true) :=
  ⟨
    ⟨own, askedS 0x208 handle (keyed 1 16), _, _, ownKey 1 16, ready_of _ _ _ (by decide +kernel), by decide +kernel⟩,
    ⟨own, askedS 0x209 (handle ++ leBytes 4 1 ++ leBytes 2 1 ++ [1]) (keyed 1 16), _, _, ownKey 1 16, ready_of _ _ _ (by decide +kernel), by decide +kernel⟩,
    ⟨mgr, asked 0x20C (layBytes [(.int 2, leBytes 2 42), (.str 32, zeros 32)]), _, _, ready_of _ _ _ (by decide +kernel), by decide +kernel⟩,
    ⟨42, { opcode := 0x202, parts := [], partCount := 2, challenge := 0, digest := [], at_ := 5 }, base.modBox 42 fun b => { b with assembly := some { opcode := 0x202, parts := [], partCount := 2, challenge := 0, digest := [], at_ := 5 } }, by decide +kernel⟩,
    ⟨[(1, 42, 5)], base, by decide +kernel⟩,
    ⟨{ base with keys := { base.keys with epochDue := 1 } }, by decide +kernel⟩⟩

theorem witness_LifecycleCommands :
    (∃ (c : Caller) (s : State) (p : Packet) (t : State) (lc : Lc), Ready c lcPersonaliseCmd s p t ∧ Lc.ofCode (p.int personaliseLcFlds 0) = some lc
      ∧ (lc = .development ∨ lc = .production)) ∧
    (∃ (c : Caller) (s : State) (p : Packet) (t : State) (lc : Lc), Ready c lcTransitionCmd s p t ∧ Lc.ofCode (p.int transitionFlds 0) = some lc ∧
      t.keys.lc.goesTo lc = true ∧ lc ≠ .returned ∧ lc ≠ t.keys.lc) :=
  ⟨
    ⟨mgr, asked 0x210 ([2, 0] ++ zeros 70) { base with keys := {} }, _, _, .production, ready_of _ _ _ (by decide +kernel), by decide +kernel⟩,
    ⟨mgr, askedQ 0x211 (withData [4] []), _, _, .retired, ready_q _ _ _ _ (by decide +kernel), by decide +kernel⟩⟩

theorem witness_ManagerCommands :
    (∃ (c : Caller) (s : State) (p : Packet) (t : State), Ready c devInfoCmd s p t) ∧
    (∃ (c : Caller) (s : State) (p : Packet) (t : State) (b : Bytes) (u : State), Ready c mgrChallengeCmd s p t ∧ t.cmdDraw c 32 false 0 = .inl (b,
      u)) ∧
    (sigVerifies 1 [] ((readyT mgr mgrOpenCmd (opening)).identityDigest ++ leBytes 2 (mgrBox mgr) ++ (readyQ mgr mgrOpenCmd (opening)).str
      mgrOpenFlds 0) (readyQ mgr mgrOpenCmd (opening)).data = true → ∃ (c : Caller) (s : State) (p : Packet) (t : State) (alg : ℕ) (key : Bytes) (at_
      : ℕ), Ready c mgrOpenCmd s p t ∧ t.mail.cred = some (alg, key) ∧ (t.box (mgrBox c)).nonce = some (p.str mgrOpenFlds 0, at_) ∧ t.glob.uptimeMs <
      at_ + 60000 ∧ p.int mgrOpenFlds 1 = alg ∧ sigVerifies alg key (t.identityDigest ++ leBytes 2 (mgrBox c) ++ p.str mgrOpenFlds 0) p.data = true) ∧
    (∃ (c : Caller) (s : State) (p : Packet) (t : State), Ready c mgrCloseCmd s p t) ∧
    (algKeyFault ((readyQ mgr mgrCredSetCmd (asked 5 (withData [1] (zeros 96)))).int [.int 1] 0) (readyQ mgr mgrCredSetCmd (asked 5 (withData [1]
      (zeros 96)))).data = none → ∃ (c : Caller) (s : State) (p : Packet) (t : State), Ready c mgrCredSetCmd s p t ∧ t.mail.cred = none ∧ algKeyFault
      (p.int [.int 1] 0) p.data = none) ∧
    (∃ (c : Caller) (s : State) (p : Packet) (t : State), Ready c devKeepCmd s p t) ∧
    (∃ (c : Caller) (s : State) (p : Packet) (t : State), Ready c devResumeCmd s p t) ∧
    (∃ (c : Caller) (s : State) (p : Packet) (t : State), Ready c devResumeAlarmCmd s p t ∧ (∀ x ∈ t.tamper.sources, x.a3Raised = true → x.alarmed =
      false) ∧ t.hier.role = 0 ∧ t.hier.activeLead = false) :=
  ⟨
    ⟨mgr, asked 1 [], _, _, ready_of _ _ _ (by decide +kernel)⟩,
    ⟨mgr, asked 2 [], _, _, (leftD ((readyT mgr mgrChallengeCmd (asked 2 [])).cmdDraw mgr 32 false 0) ([], base)).1, (leftD ((readyT mgr mgrChallengeCmd (asked 2 [])).cmdDraw mgr 32 false 0) ([], base)).2, ready_of _ _ _ (by decide +kernel), left_of _ ([], base) (by decide +kernel)⟩,
    fun h => ⟨mgr, opening, _, _, 1, [], 50000, ready_of _ _ _ (by decide +kernel), by decide +kernel, by decide +kernel, by decide +kernel, by decide +kernel, h⟩,
    ⟨mgr, asked 4 [], _, _, ready_of _ _ _ (by decide +kernel)⟩,
    fun h => ⟨mgr, asked 5 (withData [1] (zeros 96)), _, _, ready_of _ _ _ (by decide +kernel), by decide +kernel, h⟩,
    ⟨mgr, asked 8 [], _, _, ready_of _ _ _ (by decide +kernel)⟩,
    ⟨mgr, asked 9 [], _, _, ready_of _ _ _ (by decide +kernel)⟩,
    ⟨mgr, asked 0xA [], _, _, ready_of _ _ _ (by decide +kernel), by decide +kernel⟩⟩

theorem witness_SliceCommandsAccepted :
    (∃ (c : Caller) (s : State) (p : Packet) (t : State) (b : Bytes) (u : State), Ready c sliceCreateCmd s p t ∧ (let n := p.int createFlds 0;
      (let v := p.spec createFlds 1; (t.slice n).exists_ = false ∧ t.pasidBound n v.pasid = false ∧ t.sliceBusy n = false ∧ t.overQuota n v = false ∧
      v.excl = 0 ∧ t.cmdDraw c 32 false n = .inl (b, u)))) ∧
    (∃ (c : Caller) (s : State) (p : Packet) (t : State), Ready c sliceModifyCmd s p t ∧ (let n := p.int modifyFlds 0; (let x := t.slice n;
      (let v := x.spec.select (p.int modifyFlds 1) (p.spec modifyFlds 2); t.sliceShut n false = false ∧ v.malformed = false ∧ x.spec.ints ≤ v.ints ∧
      heldChange x x.spec v = false ∧ v.pasid = x.spec.pasid ∧ (∀ r ∈ x.rings.drop v.rp, r.armed = false) ∧ t.overQuota n v = false ∧ (∀ i < 36, bit
      v.excl i = true → bit x.spec.excl i = true))))) ∧
    (∃ (c : Caller) (s : State) (p : Packet) (t : State), Ready c sliceQuiesceCmd s p t ∧ (let n := p.int quiesceFlds 0; (t.slice n).state = .active
      ∧ t.sliceShut n false = false ∧ p.int quiesceFlds 1 = 0)) ∧
    (∃ (slice : ℕ) (s : State), (s.slice slice).state = .quiescing ∧ s.admitted slice = 0 ∧ s.dmaOutstanding slice = 0 ∧ s.cmdRunning slice = 0 ∧
      s.worlds.tw.up = true) ∧
    (∃ (c : Caller) (s : State) (p : Packet) (t : State), Ready c sliceResumeCmd s p t ∧ (t.slice (p.int sliceFlds 0)).state = .quiesced ∧
      t.sliceBusy (p.int sliceFlds 0) = false) ∧
    (∃ (c : Caller) (s : State) (p : Packet) (t : State), Ready c sliceResetCmd s p t ∧ (let n := p.int resetFlds 0; t.sliceShut n false = false ∧
      (p.int resetFlds 1 = 1 ∨ t.inFlight n = false))) ∧
    (∃ (c : Caller) (s : State) (p : Packet) (t : State), Ready c sliceRemoveCmd s p t ∧ (let n := p.int quiesceFlds 0; t.sliceShut n false = false ∧
      (p.int quiesceFlds 1 = 1 ∨ t.inFlight n = false))) ∧
    (∃ (c : Caller) (s : State) (p : Packet) (t : State), Ready c sliceQueryCmd s p t) :=
  ⟨
    ⟨mgr, asked 0x100 createBody, _, _, (leftD ((readyT mgr sliceCreateCmd (asked 0x100 createBody)).cmdDraw mgr 32 false ((readyQ mgr sliceCreateCmd (asked 0x100 createBody)).int createFlds 0)) ([], base)).1, (leftD ((readyT mgr sliceCreateCmd (asked 0x100 createBody)).cmdDraw mgr 32 false ((readyQ mgr sliceCreateCmd (asked 0x100 createBody)).int createFlds 0)) ([], base)).2, ready_of _ _ _ (by decide +kernel), by decide +kernel, by decide +kernel, by decide +kernel, by decide +kernel, by decide +kernel, left_of _ ([], base) (by decide +kernel)⟩,
    ⟨mgr, asked 0x101 modifyBody, _, _, ready_of _ _ _ (by decide +kernel), by decide +kernel⟩,
    ⟨mgr, asked 0x102 (leBytes 2 42 ++ [0]), _, _, ready_of _ _ _ (by decide +kernel), by decide +kernel⟩,
    ⟨42, sliceAs .quiescing, by decide +kernel⟩,
    ⟨mgr, asked 0x103 (leBytes 2 42) (sliceAs .quiesced), _, _, ready_of _ _ _ (by decide +kernel), by decide +kernel⟩,
    ⟨mgr, asked 0x104 (leBytes 2 42 ++ [0, 1]), _, _, ready_of _ _ _ (by decide +kernel), by decide +kernel⟩,
    ⟨mgr, asked 0x105 (leBytes 2 42 ++ [1]), _, _, ready_of _ _ _ (by decide +kernel), by decide +kernel⟩,
    ⟨mgr, asked 0x106 (leBytes 2 42), _, _, ready_of _ _ _ (by decide +kernel)⟩⟩

theorem witness_RingAndChannelCommandsAccepted :
    (∃ (c : Caller) (s : State) (p : Packet) (t : State), Ready c ringArmCmd s p t ∧ (let f := p.int ringArmFlds; t.ringShut (f 0) (f 1) (t.sliceBusy
      (f 0)) = none ∧ (∀ r, t.ring? (f 0) (f 1) = some r → r.armed = false) ∧ f 2 % 4096 = 0 ∧ f 4 % 4096 = 0 ∧ ringLog (f 3) = true ∧ ringLog (f 5)
      = true)) ∧
    (∃ (c : Caller) (s : State) (p : Packet) (t : State) (r : RingPair), Ready c ringDisarmCmd s p t ∧ (let n := p.int ringFlds 0;
      (let i := p.int ringFlds 1; t.ringShut n i (t.sliceBusy n) = none ∧ t.ring? n i = some r ∧ r.armed = true ∧ r.sqHead = r.sqTail ∧ t.ringCtxs n
      i = [] ∧ r.chainOpen = false))) ∧
    (∃ (c : Caller) (s : State) (p : Packet) (t : State) (r : RingPair), Ready c ringQueryCmd s p t ∧ t.ringShut (p.int ringFlds 0) (p.int ringFlds
      1) false = none ∧ t.ring? (p.int ringFlds 0) (p.int ringFlds 1) = some r) ∧
    (∃ (c : Caller) (s : State) (p : Packet) (t : State), Ready c chFenceCmd s p t ∧ (let n := p.int chFenceFlds 0; t.jobOn (conflicts 0x110) n =
      false ∧ ((t.ch n).st = .service ∨ (t.ch n).st = .slow))) ∧
    (∃ (c : Caller) (s : State) (p : Packet) (t : State), Ready c chReturnCmd s p t ∧ (let n := p.int chFlds 0; t.jobOn (conflicts 0x111) n = false ∧
      (t.ch n).a2Hold = [] ∧ (t.ch n).st = .failed)) :=
  ⟨
    ⟨mgr, asked 0x108 armBody disarmed, _, _, ready_of _ _ _ (by decide +kernel), by decide +kernel, armed_of _ (by decide +kernel), by decide +kernel⟩,
    ⟨mgr, asked 0x109 (leBytes 2 42 ++ [0]), _, _, ringOf base, ready_of _ _ _ (by decide +kernel), by decide +kernel⟩,
    ⟨mgr, asked 0x10A (leBytes 2 42 ++ [0]), _, _, ringOf base, ready_of _ _ _ (by decide +kernel), by decide +kernel⟩,
    ⟨mgr, asked 0x110 [35, 1], _, _, ready_of _ _ _ (by decide +kernel), by decide +kernel⟩,
    ⟨mgr, asked 0x111 [35] (withCh 35 fun c => { c with st := .failed }), _, _, ready_of _ _ _ (by decide +kernel), by decide +kernel⟩⟩

theorem witness_SliceCommitsAndFenceEnd :
    (∃ (c : Caller) (j : Job) (s : State) (p : Packet) (t : State) (b : Bytes) (u : State), Resumes c sliceCreateCmd j s p t ∧
      (let n := p.int createFlds 0; (let v := p.spec createFlds 1; (t.slice n).exists_ = false ∧ t.pasidBound n v.pasid = false ∧ t.overQuota n v =
      false ∧ t.cmdDraw j.caller 32 false n = .inl (b, u)))) ∧
    (∃ (c : Caller) (j : Job) (s : State) (p : Packet) (t : State), Resumes c sliceResumeCmd j s p t ∧ (t.slice (p.int sliceFlds 0)).state =
      .quiesced) ∧
    (∃ (c : Caller) (j : Job) (s : State) (p : Packet) (t : State), Resumes c sliceRemoveCmd j s p t) ∧
    (∃ (c : Caller) (j : Job) (s : State) (p : Packet) (t : State), Resumes c ringArmCmd j s p t ∧ (let f := p.int ringArmFlds; t.ringShut (f 0) (f
      1) false = none ∧ (∀ r, t.ring? (f 0) (f 1) = some r → r.armed = false) ∧ f 2 % 4096 = 0 ∧ f 4 % 4096 = 0 ∧ ringLog (f 3) = true ∧ ringLog (f
      5) = true)) ∧
    (∃ (c : Caller) (j : Job) (s : State) (p : Packet) (t : State) (r : RingPair), Resumes c ringDisarmCmd j s p t ∧ (let n := p.int ringFlds 0;
      (let i := p.int ringFlds 1; t.ringShut n i false = none ∧ t.ring? n i = some r ∧ r.armed = true ∧ r.sqHead = r.sqTail ∧ t.ringCtxs n i = [] ∧
      r.chainOpen = false))) ∧
    (∃ (slice : ℕ) (j : Job) (erase : Bool) (s : State), s.mail.running.find? (fun j => match j.kind with | .fence n _ => n == slice | _ => false) =
      some j ∧ j.kind = .fence slice erase ∧ (s.slice slice).state = .fenced ∧ s.dmaOutstanding slice = 0 ∧ s.cmdRunning slice = 0) :=
  ⟨
    ⟨mgr, job 0x100 createBody, withJob (job 0x100 createBody) (drawnFor mgr 32), _, _, (leftD ((State.dropJob (job 0x100 createBody) (withJob (job 0x100 createBody) (drawnFor mgr 32))).cmdDraw mgr 32 false (((job 0x100 createBody).packet false).int createFlds 0)) ([], base)).1, (leftD ((State.dropJob (job 0x100 createBody) (withJob (job 0x100 createBody) (drawnFor mgr 32))).cmdDraw mgr 32 false (((job 0x100 createBody).packet false).int createFlds 0)) ([], base)).2, ⟨by decide +kernel, by decide +kernel, by decide +kernel, .inl ⟨by decide +kernel, by decide +kernel⟩, by decide +kernel, by decide +kernel, rfl, rfl⟩, by decide +kernel, by decide +kernel, by decide +kernel, left_of _ ([], base) (by decide +kernel)⟩,
    ⟨mgr, job 0x103 (leBytes 2 42), withJob (job 0x103 (leBytes 2 42)) (sliceAs .quiesced), _, _, ⟨by decide +kernel, by decide +kernel, by decide +kernel, .inl ⟨by decide +kernel, by decide +kernel⟩, by decide +kernel, by decide +kernel, rfl, rfl⟩, by decide +kernel⟩,
    ⟨mgr, job 0x105 (leBytes 2 42 ++ [0]), withJob (job 0x105 (leBytes 2 42 ++ [0])), _, _, ⟨by decide +kernel, by decide +kernel, by decide +kernel, .inl ⟨by decide +kernel, by decide +kernel⟩, by decide +kernel, by decide +kernel, rfl, rfl⟩⟩,
    ⟨mgr, job 0x108 armBody, withJob (job 0x108 armBody) disarmed, _, _, ⟨by decide +kernel, by decide +kernel, by decide +kernel, .inl ⟨by decide +kernel, by decide +kernel⟩, by decide +kernel, by decide +kernel, rfl, rfl⟩, by decide +kernel, armed_of _ (by decide +kernel), by decide +kernel⟩,
    ⟨mgr, job 0x109 (leBytes 2 42 ++ [0]), withJob (job 0x109 (leBytes 2 42 ++ [0])), _, _, ringOf base, ⟨by decide +kernel, by decide +kernel, by decide +kernel, .inl ⟨by decide +kernel, by decide +kernel⟩, by decide +kernel, by decide +kernel, rfl, rfl⟩, by decide +kernel⟩,
    ⟨42, job 0x104 [] (.fence 42 true), true, withJob (job 0x104 [] (.fence 42 true)) (sliceAs .fenced), by decide +kernel⟩⟩

theorem witness_MailboxCommands :
    (∃ (m : ℕ) (s : State), m < Config.mailboxes ∧ s.barsUp = true ∧ s.refusal 4 (boxOff m + 0x40) 4 true = none ∧ (m < Config.mgrMailbox → (s.slice
      m).exists_ = true)) ∧
    (∃ (g : ℕ) (s : State), g < 8 ∧ s.worlds.ow.up = true) ∧
    (∃ (c : Caller) (j : Job) (t : State) (s : State), s.worlds.tw.up = true ∧ s.mail.running.find? (fun j => j.caller == c) = some j ∧ s.jobStep j =
      some t) ∧
    (∃ (m : ℕ) (hdr : Bytes) (area : Bytes) (a : ℕ) (limit : ℕ) (p : Packet) (t : State) (s : State), s.presented (.mbx m) = some (hdr, area) ∧
      s.extension (fieldLe hdr 0 2) = some (a, limit) ∧ Ready (.mbx m)
      { op := fieldLe hdr 0 2, auth := extAuth a, flds := [.str (bits (fieldLe hdr 8 4) 0 13)] } s p t ∧ t.worlds.ow.up = true) ∧
    (∃ (m : ℕ) (j : Job) (st : Status) (status : ℕ) (_ : ℕ) (_ : Bytes) (s : State), s.extJob m = some j ∧ s.worlds.ow.up = true ∧ Status.ofCode
      status = some st) ∧
    (∃ (m : ℕ) (j : Job) (a : ℕ) (limit : ℕ) (s : State), s.extJob m = some j ∧ s.extension j.opcode = some (a, limit) ∧ j.since + limit ≤
      s.glob.uptimeMs) :=
  ⟨
    ⟨42, base, by decide +kernel⟩,
    ⟨7, base, by decide +kernel⟩,
    ⟨mgr, job 0x103 (leBytes 2 42), (State.jobStep (job 0x103 (leBytes 2 42)) (withJob (job 0x103 (leBytes 2 42)))).getD base, withJob (job 0x103 (leBytes 2 42)), by decide +kernel, by decide +kernel, some_of _ _ (by decide +kernel)⟩,
    ⟨4096, padTo 32 (header 0x8000 [] 0 0 0), [], 0, 100, _, _, extAsked, by decide +kernel, by decide +kernel, ready_of _ _ _ (by decide +kernel), by decide +kernel⟩,
    ⟨4096, job 0x8000 [] .extension, .done, 0, 0, [], withJob (job 0x8000 [] .extension), by decide +kernel⟩,
    ⟨4096, job 0x8000 [] .extension, 0, 100, { withJob (job 0x8000 [] .extension) with mail := { base.mail with running := [job 0x8000 [] .extension], ext := [(0x8000, 0, 100)] } }, by decide +kernel⟩⟩

theorem witness_QuorumCommands :
    (∃ (c : Caller) (s : State) (p : Packet) (t : State) (b : Bytes) (u : State), Ready c quorumChallengeCmd s p t ∧ t.opcodeNeedsQuorum (p.int
      challengeFlds 1) = true ∧ p.int challengeFlds 0 < Config.mailboxes ∧ t.cmdDraw c 32 false 0 = .inl (b, u)) ∧
    (sigVerifies 1 (zeros 96) ((readyT mgr quorumApproveCmd (asked 0x301 (withData (layInts [(8, 7), (1, 0), (1, 1)]) (zeros 96))
      enrolledState)).approvalMessage 0) (zeros 96) = true → ∃ (c : Caller) (s : State) (p : Packet) (t : State), Ready c quorumApproveCmd s p t ∧
      t.dual.chal.live = true ∧ p.int approveFlds 0 = t.dual.chal.id ∧ t.dual.chal.mailbox ≠ 0xFFFE ∧ (let i := p.int approveFlds 1;
      (let x := t.dual.custodians.getD i {}; i < 16 ∧ x.alg ≠ 0 ∧ p.int approveFlds 2 = x.alg ∧ t.dual.chal.enrolled.getLsbD i = true ∧ sigVerifies
      x.alg x.key (t.approvalMessage i) p.data = true ∧ t.dual.chal.approved.getLsbD i = false))) ∧
    (algKeyFault 1 (zeros 96) = none → sigVerifies 1 (zeros 96) ((readyT mgr custodianEnrolCmd (asked 0x302 (withData (layBytes [(.int 1, [0]), (.int
      1, [1]), (.str 16, zeros 16)]) (zeros 192)))).enrolMessage 0 (sha384 (zeros 96))) (zeros 96) = true → ∃ (c : Caller) (s : State) (p : Packet)
      (t : State), Ready c custodianEnrolCmd s p t ∧ (let i := p.int enrolFlds 0; (let alg := p.int enrolFlds 1;
      (let key := p.data.take (algKey alg); (let d := sha384 key; (alg = 1 ∨ alg = 2) ∧ p.data.length = algKey alg + algSig alg ∧ i < 16 ∧
      t.enrolled.contains i = false ∧ t.enrolled.any (fun j => (t.dual.custodians.getD j {}).digest == d) = false ∧ algKeyFault alg key = none ∧
      sigVerifies alg key (t.enrolMessage i d) (p.data.drop (algKey alg)) = true))))) ∧
    (∃ (c : Caller) (s : State) (p : Packet) (t : State), Ready c custodianRemoveCmd s p t ∧ t.enrolled.contains (p.int [.int 1] 0) = true ∧ t.dual.m
      < t.enrolled.length) ∧
    (∃ (c : Caller) (s : State) (p : Packet) (t : State), Ready c quorumSetCmd s p t ∧ 2 ≤ p.int [.int 1] 0 ∧ p.int [.int 1] 0 ≤ 16 ∧ p.int [.int 1]
      0 ≤ t.enrolled.length) :=
  ⟨
    ⟨mgr, asked 0x300 (layBytes [(.int 2, leBytes 2 4096), (.int 2, leBytes 2 0x307), (.str 48, zeros 48)]), _, _, (leftD ((readyT mgr quorumChallengeCmd (asked 0x300 (layBytes [(.int 2, leBytes 2 4096), (.int 2, leBytes 2 0x307), (.str 48, zeros 48)]))).cmdDraw mgr 32 false 0) ([], base)).1, (leftD ((readyT mgr quorumChallengeCmd (asked 0x300 (layBytes [(.int 2, leBytes 2 4096), (.int 2, leBytes 2 0x307), (.str 48, zeros 48)]))).cmdDraw mgr 32 false 0) ([], base)).2, ready_of _ _ _ (by decide +kernel), by decide +kernel, by decide +kernel, left_of _ ([], base) (by decide +kernel)⟩,
    fun h => ⟨mgr, asked 0x301 (withData (layInts [(8, 7), (1, 0), (1, 1)]) (zeros 96)) enrolledState, _, _, ready_of _ _ _ (by decide +kernel), by decide +kernel, by decide +kernel, by decide +kernel, by decide +kernel, by decide +kernel, by decide +kernel, by decide +kernel, h, by decide +kernel⟩,
    fun h1 h2 => ⟨mgr, asked 0x302 (withData (layBytes [(.int 1, [0]), (.int 1, [1]), (.str 16, zeros 16)]) (zeros 192)), _, _, ready_of _ _ _ (by decide +kernel), by decide +kernel, by decide +kernel, by decide +kernel, by decide +kernel, by decide +kernel, h1, h2⟩,
    ⟨mgr, asked 0x303 [1] enrolledState, _, _, ready_of _ _ _ (by decide +kernel), by decide +kernel⟩,
    ⟨mgr, asked 0x304 [3] enrolledState, _, _, ready_of _ _ _ (by decide +kernel), by decide +kernel⟩⟩

theorem witness_WindowAndZeroise :
    (∃ (c : Caller) (s : State) (p : Packet) (t : State), Ready c cellWindowOpenCmd s p t ∧ (let d := p.int windowFlds 1; p.int windowFlds 0 ≤ 1 ∧ 60
      ≤ d ∧ d ≤ 3600 ∧ t.cellOk (1 - p.int windowFlds 0) = true ∧ t.dual.winOpen = false)) ∧
    (∃ (c : Caller) (s : State) (p : Packet) (t : State), Ready c cellWindowCloseCmd s p t ∧ (t.dual.winOpen = true → t.cellOk t.dual.winCell =
      true)) ∧
    (∃ (s : State), s.dual.winOpen = true ∧ s.dual.winLeftS = 0 ∧ s.tamper.mainPower = true ∧ s.cellOk s.dual.winCell = true) ∧
    (∃ (s : State), s.dual.winOpen = true ∧ s.dual.winLeftS = 0 ∧ s.tamper.mainPower = true ∧ s.cellOk s.dual.winCell = false) ∧
    (∃ (c : Caller) (s : State) (p : Packet) (t : State), Ready c zeroiseCmd s p t) ∧
    (∃ (s : State), s.dual.chal.live = true ∧ s.dual.chal.issued + 300000 ≤ s.glob.uptimeMs) ∧
    (∃ (s : State), s.dual.chal.live = true ∧ s.glob.uptimeMs < s.dual.chal.issued + 300000) :=
  ⟨
    ⟨mgr, askedQ 0x305 (layInts [(1, 0), (2, 60)]) cells, _, _, ready_q _ _ _ _ (by decide +kernel), by decide +kernel⟩,
    ⟨mgr, asked 0x306 [] (cells true), _, _, ready_of _ _ _ (by decide +kernel), by decide +kernel⟩,
    ⟨cells true, by decide +kernel⟩,
    ⟨cells true 0, by decide +kernel⟩,
    ⟨mgr, askedQ 0x307 [], _, _, ready_q _ _ _ _ (by decide +kernel)⟩,
    ⟨{ enrolledState with glob := { base.glob with uptimeMs := 300000 } }, by decide +kernel⟩,
    ⟨{ enrolledState with glob := { base.glob with uptimeMs := 299999 } }, by decide +kernel⟩⟩

theorem witness_CustodianCards :
    (∃ (p : ℕ) (s : State), p < 2 ∧ s.tamper.mainPower = true ∧ (s.card p).present = false) ∧
    (∃ (p : ℕ) (s : State), p < 2 ∧ (s.card p).present = true) ∧
    (∃ (p : ℕ) (s : State), p < 2 ∧ (s.card p).vcc = true) ∧
    (∃ (p : ℕ) (s : State), p < 2 ∧ (s.card p).step ≠ .none ∧ (s.card p).since + 30000 < s.glob.uptimeMs) ∧
    (∃ (p : ℕ) (_ : Bytes) (s : State), p < 2 ∧ s.worlds.tw.up = true ∧ (s.card p).step = .select) ∧
    (∃ (p : ℕ) (_ : Bytes) (s : State), p < 2 ∧ s.worlds.tw.up = true ∧ (s.card p).step = .identity) ∧
    (∃ (p : ℕ) (_ : Bytes) (s : State), p < 2 ∧ s.worlds.tw.up = true ∧ (s.card p).step = .proposal) ∧
    (∃ (p : ℕ) (_ : Bytes) (s : State), p < 2 ∧ s.worlds.tw.up = true ∧ (s.card p).step = .sign) ∧
    (∃ (p : ℕ) (sw : ℕ) (_ : Bytes) (s : State), p < 2 ∧ s.worlds.tw.up = true ∧ (s.card p).step ≠ .none ∧ sw ≠ 0x9000 ∧ ¬ ((s.card p).step =
      .proposal ∧ sw = 0x6A88)) ∧
    (∃ (_ : ℕ) (data : Bytes) (s : State), (let i := fieldLe data 0 1; data.length = 49 ∧ i < 16 ∧ (s.dual.custodians.getD i {}).alg ≠ 0 ∧
      (s.dual.custodians.getD i {}).digest = data.drop 1 ∧ s.dual.chal.live = false)) :=
  ⟨
    ⟨1, base, by decide +kernel⟩,
    ⟨1, cardAt .none, by decide +kernel⟩,
    ⟨1, cardAt .none, by decide +kernel⟩,
    ⟨1, cardAt .sign, by decide +kernel⟩,
    ⟨1, [], cardAt .select, by decide +kernel⟩,
    ⟨1, [], cardAt .identity, by decide +kernel⟩,
    ⟨1, [], cardAt .proposal, by decide +kernel⟩,
    ⟨1, [], cardAt .sign, by decide +kernel⟩,
    ⟨1, 0x6A82, [], cardAt .proposal, by decide +kernel⟩,
    ⟨1, 2 :: zeros 48, { enrolledState with dual := { enrolledState.dual with chal := {} } }, by decide +kernel⟩⟩

theorem witness_BootGate :
    (∃ (g : GateRead) (s : State), s.gate.measuring = true ∧ s.worlds.tw.up = true ∧ s.writesFirst = false ∧
      (let d := decide_ s.gate.twoFlash s.gate.inForce s.gate.removed g; (let mode := (s.gate.inForce.map (·.mode)).getD 0; opens d.verdict mode =
      false))) ∧
    (∃ (g : GateRead) (s : State), s.gate.measuring = true ∧ s.worlds.tw.up = true ∧ s.writesFirst = false ∧
      (let d := decide_ s.gate.twoFlash s.gate.inForce s.gate.removed g; (let mode := (s.gate.inForce.map (·.mode)).getD 0; opens d.verdict mode =
      true ∧ (s.gate.fromPerst = false ∨ s.hp.perst = false)))) ∧
    (∃ (g : GateRead) (s : State), s.gate.measuring = true ∧ s.worlds.tw.up = true ∧ s.writesFirst = false ∧
      (let d := decide_ s.gate.twoFlash s.gate.inForce s.gate.removed g; (let mode := (s.gate.inForce.map (·.mode)).getD 0; opens d.verdict mode =
      true ∧ s.gate.fromPerst = true ∧ s.hp.perst = true))) ∧
    (∃ (two : Bool) (p : Policy) (_ : List Region) (g : GateRead), p.judge two p.regions p.allow g.regions g.manifest = .accepted) ∧
    (∃ (two : Bool) (p : Policy) (_ : List Region) (g : GateRead), p.mode = 2 ∧ p.judge two p.regions p.allow g.regions g.manifest = .rejected) ∧
    (∃ (two : Bool) (p : Policy) (_ : List Region) (g : GateRead), p.mode = 2 ∧ p.judge two p.regions p.allow g.regions g.manifest = .flashError) ∧
    (∃ (two : Bool) (p : Policy) (_ : List Region) (g : GateRead), p.mode ≠ 2 ∧ p.failAction = 0 ∧ p.judge two p.regions p.allow g.regions g.manifest
      = .rejected) ∧
    (∃ (two : Bool) (p : Policy) (_ : List Region) (g : GateRead), p.mode ≠ 2 ∧ p.failAction ≠ 0 ∧ p.judge two p.regions p.allow g.regions g.manifest
      ≠ .accepted ∧ p.judge two p.recRegions p.recAllow g.recRegions g.recManifest = .accepted) ∧
    (∃ (_ : ℕ) (s : State), s.gate.st ≠ .opened) ∧
    (∃ (b : Bytes) (rest : List Bytes) (s : State), s.gate.unsigned = b :: rest ∧ s.worlds.tw.up = true) ∧
    (∃ (_ : Bytes) (s : State), s.aliasExists = true) ∧
    (∃ (flash : ℕ) (addr : ℕ) (len : ℕ) (op : FlashOp) (s : State) (f : ℕ), s.gate.st = .opened ∧ s.gate.reaches flash = some f ∧ s.gate.drops f addr
      len op = true) ∧
    (∃ (flash : ℕ) (addr : ℕ) (len : ℕ) (op : FlashOp) (s : State) (f : ℕ), s.gate.st = .opened ∧ s.gate.reaches flash = some f ∧ s.gate.drops f addr
      len op = false) ∧
    (∃ (flash : ℕ) (_ : ℕ) (_ : ℕ) (_ : FlashOp) (s : State), s.gate.st = .opened ∧ s.gate.reaches flash = none) ∧
    (∃ (g : Gate) (flash : ℕ) (addr : ℕ) (len : ℕ), g.inPartition flash addr len ≠ 0) ∧
    (∃ (g : Gate) (addr : ℕ) (len : ℕ), g.partOffset < addr + len) ∧
    (∃ (g : Gate), g.recovery = true ∧ g.espi = false) :=
  ⟨
    ⟨gateRead, measuring (some (policyWith 1 0 [] [])) false false, by decide +kernel⟩,
    ⟨gateRead, measuring none true false, by decide +kernel⟩,
    ⟨gateRead, measuring none true true, by decide +kernel⟩,
    ⟨true, policyWith 1 0 [found 0] [], [], gateRead, by simp [Policy.judge, policyWith, found, gateRead, composite, digests, (show (zeros 4).length = 4 from rfl)]⟩,
    ⟨true, policyWith 2 0 [] [], [], gateRead, by decide +kernel⟩,
    ⟨true, policyWith 2 0 [] [], [], gateRead none, by decide +kernel⟩,
    ⟨true, policyWith 1 0 [] [], [], gateRead, by decide +kernel⟩,
    ⟨true, policyWith 1 1 [] [found 1], [], gateRead, by decide +kernel, by decide +kernel, by decide +kernel, by simp [Policy.judge, policyWith, found, gateRead, composite, digests, (show (zeros 4).length = 4 from rfl)]⟩,
    ⟨3, measuring none true true, by decide +kernel⟩,
    ⟨zeros 160, [], { base with gate := { base.gate with unsigned := [zeros 160] } }, by decide +kernel⟩,
    ⟨[], base, by decide +kernel⟩,
    ⟨0, 0x100000, 1, .program, { base with gate := { base.gate with partOffset := 0x100000 } }, 0, by decide +kernel⟩,
    ⟨0, 0xFFFFF, 1, .program, { base with gate := { base.gate with partOffset := 0x100000 } }, 0, by decide +kernel⟩,
    ⟨1, 0, 1, .read, base, by decide +kernel⟩,
    ⟨{ partOffset := 4096 }, 0, 4095, 2, by decide +kernel⟩,
    ⟨{ partOffset := 4096 }, 4095, 2, by decide +kernel⟩,
    ⟨{ recovery := true }, by decide +kernel⟩⟩

theorem witness_AttestationCommands :
    (∃ (c : Caller) (s : State) (p : Packet) (t : State), Ready c imagePolicySetCmd s p t ∧ t.policyOk p.data = true ∧ (policyOf p.data).mode ≠ 0) ∧
    (∃ (c : Caller) (s : State) (p : Packet) (t : State), Ready c imagePolicySetCmd s p t ∧ t.policyOk p.data = true ∧ (policyOf p.data).mode = 0) ∧
    (∃ (c : Caller) (s : State) (p : Packet) (t : State), Ready c bootRecordGetCmd s p t ∧ p.int [.int 4] 0 = 0) ∧
    (∃ (c : Caller) (s : State) (p : Packet) (t : State) (b : Bytes), Ready c bootRecordGetCmd s p t ∧ p.int [.int 4] 0 ≠ 0 ∧ bootRecordOf (p.int
      [.int 4] 0) (t.er.held.filter (·.typ == 0x60)) = some b) ∧
    (∃ (c : Caller) (s : State) (p : Packet) (t : State), Ready c measurementsGetCmd s p t ∧ (p.int measurementsFlds 2 = 1 → t.aliasExists = true)) ∧
    (∃ (c : Caller) (s : State) (p : Packet) (t : State), Ready c identityGetCmd s p t ∧ (p.int [.int 1] 0 = 0 → t.aliasExists = true) ∧
      (let chain := t.certChain (p.int [.int 1] 0); (let count := Nat.max 1 ((chain.length + chainBytes - 1) / chainBytes); p.part < count))) ∧
    (∃ (tr : Transport) (_ : SpdmReq) (s : State), (tr = .mctpI3c ∨ s.hp.dlUp = true) ∧ s.worlds.tw.up = false ∧ s.worlds.tw.image.isSome = true) ∧
    (∃ (tr : Transport) (_ : SpdmReq) (s : State), (tr = .mctpI3c ∨ s.hp.dlUp = true) ∧ s.worlds.tw.up = true ∧ s.worlds.tw.image.isSome = true) :=
  ⟨
    ⟨mgr, askedQ 0x403 (withData [] (policyBytes 1)) parted, _, _, ready_q _ _ _ _ (by decide +kernel), by decide +kernel⟩,
    ⟨mgr, askedQ 0x403 (withData [] (policyBytes 0)) parted, _, _, ready_q _ _ _ _ (by decide +kernel), by decide +kernel⟩,
    ⟨mgr, asked 0x402 (zeros 4), _, _, ready_of _ _ _ (by decide +kernel), by decide +kernel⟩,
    ⟨mgr, asked 0x402 (leBytes 4 5) bootRun, _, _, (bootRecordOf 5 (bootRun.er.held.filter (·.typ == 0x60))).getD [], ready_of _ _ _ (by decide +kernel), by decide +kernel⟩,
    ⟨mgr, asked 0x401 (layBytes [(.int 2, [4, 0]), (.str 32, zeros 32), (.int 1, [1])]), _, _, ready_of _ _ _ (by decide +kernel), by decide +kernel⟩,
    ⟨mgr, asked 0x400 [0], _, _, ready_of _ _ _ (by decide +kernel), by decide +kernel, Nat.lt_of_lt_of_le Nat.zero_lt_one (Nat.le_max_left 1 _)⟩,
    ⟨.mctpI3c, .getVersion, twDown, by decide +kernel⟩,
    ⟨.doe, .keyExchange, base, by decide +kernel⟩⟩

theorem witness_RecorderCommands :
    (∃ (s : State), s.er.flushing = false ∧ s.er.buffer ≠ [] ∧ s.er.lastFlush + 10 ≤ s.glob.uptimeMs) ∧
    (∃ (s : State), s.er.flushing = true) ∧
    (∃ (a : ℕ) (b : ℕ) (s : State), s.er.lostRange = some (a, b) ∧ s.er.buffer.length < Config.erBuffer) ∧
    (∃ (_ : ℕ) (s : State), s.barsUp = true ∧ s.refusal 0 0xA0018 8 true = none) ∧
    (∃ (w : World) (_ : Bytes) (s : State), (s.world w).up = true ∧ ((s.world w).notesNow s.glob.uptimeMs).length < 1000) ∧
    (∃ (w : World) (_ : Bytes) (s : State), (s.world w).up = true ∧ 1000 ≤ ((s.world w).notesNow s.glob.uptimeMs).length) ∧
    (∃ (c : Caller) (s : State) (p : Packet) (t : State), Ready c erClearCmd s p t ∧ p.int [.int 8] 0 ≠ 0 ∧ p.int [.int 8] 0 < t.er.nextSeq) ∧
    (∃ (c : Caller) (s : State) (p : Packet) (t : State), Ready c erReadCmd s p t ∧ p.int erReadFlds 1 ≤ 62 ∧ (p.int erReadFlds 2 = 1 → t.aliasExists
      = true) ∧ (let f := p.int erReadFlds; (let l := (t.er.held.filter fun r => f 0 ≤ r.seq).take (f 1); ∃ (r : Record) (rest : List Record), l = r
      :: rest))) :=
  ⟨
    ⟨erWith fun r => { r with buffer := [record1], lastFlush := 99990 }, by decide +kernel⟩,
    ⟨erWith fun r => { r with flushing := true }, by decide +kernel⟩,
    ⟨3, 4, erWith fun r => { r with lostRange := some (3, 4) }, by decide +kernel⟩,
    ⟨0, base, by decide +kernel⟩,
    ⟨.ow, [], noted 999, by decide +kernel⟩,
    ⟨.ow, [], noted 1000, by decide +kernel⟩,
    ⟨mgr, askedQ 0x501 (leBytes 8 8) bootRun, _, _, ready_q _ _ _ _ (by decide +kernel), by decide +kernel⟩,
    ⟨mgr, asked 0x500 (layBytes [(.int 8, leBytes 8 0), (.int 2, leBytes 2 62), (.int 1, [0]), (.str 32, zeros 32)]) bootRun, _, _, ready_of _ _ _ (by decide +kernel), by decide +kernel, by decide +kernel, (bootRun.er.held.headD record1), bootRun.er.held.tail, by decide +kernel⟩⟩

theorem witness_MainPowerLoss :
    (∃ (s : State), s.tamper.mainPower = true ∧ s.power.failPin = false) ∧
    (∃ (s : State), s.tamper.mainPower = true) ∧
    (∃ (s : State), s.tamper.mainPower = true ∧ s.tamper.cellPresent ≠ 0) ∧
    (∃ (s : State), s.tamper.mainPower = true ∧ s.tamper.cellPresent = 0) :=
  ⟨
    ⟨base, by decide +kernel⟩,
    ⟨base, by decide +kernel⟩,
    ⟨fitted 1, by decide +kernel⟩,
    ⟨fitted 0, by decide +kernel⟩⟩

theorem witness_WorldFaults :
    (∃ (core : ℕ) (s : State), core < 4 ∧ (s.world (s.coreWorld core)).up = true) ∧
    (∃ (core : ℕ) (s : State), core < 4 ∧ (s.world (s.coreWorld core)).up = true ∧ s.coreAsleep core = false ∧ s.worlds.serviced.getD core 0 +
      s.watchPeriod core ≤ s.glob.uptimeMs) ∧
    (∃ (core : ℕ) (s : State), core < 4 ∧ s.glob.uptimeMs < s.worlds.serviced.getD core 0 + s.watchPeriod core) ∧
    (∃ (_ : World) (_ : ℕ) (s : State), s.worlds.tw.up = true ∧ s.worlds.ow.up = true) ∧
    (∃ (w : World) (_ : ℕ) (s : State), s.worlds.tw.up = true ∧ s.worlds.ow.up = true ∧ w = .tw) :=
  ⟨
    ⟨3, base, by decide +kernel⟩,
    ⟨3, base, by decide +kernel⟩,
    ⟨3, { base with glob := {} }, by decide +kernel⟩,
    ⟨.ow, 2, base, by decide +kernel⟩,
    ⟨.tw, 2, base, by decide +kernel⟩⟩

theorem witness_WorldRestartsComplete :
    (∃ (i : Image) (_ : List Bytes) (s : State), s.worlds.tw.image = some i ∧ s.worlds.tw.inProgress = true ∧ s.worlds.tw.waitFlash = false ∧
      s.worlds.tw.reread = false) ∧
    ((imageOf (imgData 1)).sigOk = true → ∃ (i : Image) (j : Image) (copy : ℕ) (_ : Bytes) (copies : List Bytes) (s : State), s.worlds.tw.image =
      some i ∧ s.worlds.tw.inProgress = true ∧ s.worlds.tw.waitFlash = false ∧ s.worlds.tw.reread = true ∧ s.bestImage 1 (s.flashCopies copies) =
      some (j, copy)) ∧
    (∃ (i : Image) (m : Bytes) (_ : List Bytes) (s : State), s.worlds.tw.image = some i ∧ s.worlds.tw.inProgress = true ∧ s.worlds.tw.waitFlash =
      false ∧ s.worlds.tw.reread = false ∧ m ≠ i.measurement ∧ s.worlds.tw.prevImage = none) ∧
    (∃ (i : Image) (_ : List Bytes) (s : State), s.worlds.ow.image = some i ∧ s.worlds.ow.inProgress = true ∧ s.worlds.ow.waitFlash = false ∧
      s.worlds.ow.reread = false ∧ s.renewal.newAssign = none) ∧
    (∃ (i : Image) (m : Bytes) (_ : List Bytes) (s : State), s.worlds.ow.image = some i ∧ s.worlds.ow.inProgress = true ∧ s.worlds.ow.waitFlash =
      false ∧ s.worlds.ow.reread = false ∧ s.renewal.newAssign = none ∧ s.worlds.ow.prevImage = none ∧ m ≠ i.measurement) ∧
    (∃ (c : Caller) (s : State) (p : Packet) (t : State), Ready c worldStatusCmd s p t) :=
  ⟨
    ⟨{ image 1 with measurement := [1] }, [], restarting, by decide +kernel⟩,
    fun h => ⟨{ image 1 with measurement := [1] }, imageOf (imgData 1), 0, [], [imgData 1], rereading, by decide +kernel, by decide +kernel, by decide +kernel, by decide +kernel, reread_best h⟩,
    ⟨{ image 1 with measurement := [1] }, [], [], restarting, by decide +kernel⟩,
    ⟨{ image 2 with measurement := [2] }, [], restarting, by decide +kernel⟩,
    ⟨{ image 2 with measurement := [2] }, [], [], restarting, by decide +kernel⟩,
    ⟨mgr, asked 0xA00 [], _, _, ready_of _ _ _ (by decide +kernel)⟩⟩

theorem witness_SerowAccess :
    (∃ (core : ℕ) (priv : Priv) (t : AccessType) (addr : ℕ) (_ : Bytes) (s : State) (b : Blk), core < 4 ∧ (s.world (s.coreWorld core)).up = true ∧
      s.admits (.core (s.coreWorld core) priv) t addr = true ∧ blockAt addr = some b ∧ b ≠ .trusted ∧ b ≠ .management ∧ s.blockOff b = false) ∧
    (∃ (core : ℕ) (priv : Priv) (t : AccessType) (addr : ℕ) (_ : Bytes) (s : State), core < 4 ∧ (s.world (s.coreWorld core)).up = true ∧ s.admits
      (.core (s.coreWorld core) priv) t addr = false) ∧
    (∃ (core : ℕ) (priv : Priv) (t : AccessType) (addr : ℕ) (_ : Bytes) (s : State) (b : Blk), core < 4 ∧ (s.world (s.coreWorld core)).up = true ∧
      s.admits (.core (s.coreWorld core) priv) t addr = true ∧ blockAt addr = some b ∧ b ≠ .trusted ∧ b ≠ .management ∧ s.blockOff b = true ∧ ¬ (t =
      .write ∧ b.isSession = true)) ∧
    (∃ (s : State) (_ : Master) (_ : AccessType) (a : ℕ) (b : Blk) (i : ℕ) (e : Region16), blockAt a = some b ∧ s.regionAt a = some (i, e)) ∧
    (∃ (s : State) (_ : AccessType) (a : ℕ) (b : Blk) (_ : World), blockAt a = some b ∧ s.regionAt a = none) ∧
    (∃ (core : ℕ) (priv : Priv) (t : AccessType) (addr : ℕ) (_ : Bytes) (s : State), core < 4 ∧ (s.world (s.coreWorld core)).up = true ∧ s.admits
      (.core (s.coreWorld core) priv) t addr = true ∧ blockAt addr = some .trusted) ∧
    (∃ (core : ℕ) (priv : Priv) (t : AccessType) (addr : ℕ) (_ : Bytes) (s : State), core < 4 ∧ (s.world (s.coreWorld core)).up = true ∧ s.admits
      (.core (s.coreWorld core) priv) t addr = true ∧ blockAt addr = some .management) :=
  ⟨
    ⟨3, .machine, .write, 0x83FFFFF8, zeros 8, base, .sram .ow, by decide +kernel⟩,
    ⟨3, .machine, .read, 0x81FFFFFF, zeros 1, base, by decide +kernel⟩,
    ⟨0, .machine, .read, 0x10080000, zeros 8, domAt 36 .sleep, .timer 0, by decide +kernel⟩,
    ⟨admitted 0x82000000, .host, .read, 0x820FFFFF, .sram .ow, 0, entry 0x82000000, by decide +kernel⟩,
    ⟨base, .read, 0x82000000, .sram .ow, .ow, by decide +kernel⟩,
    ⟨0, .supervisor, .read, 0x17FFFFFF, [0], base, by decide +kernel⟩,
    ⟨2, .machine, .read, 0x1600FFFF, [0], base, by decide +kernel⟩⟩

theorem witness_AdmissionCommit :
    (∃ (w : World) (s : State), (s.world w).up = true) ∧
    (∃ (w : World) (s : State), (s.world w).admCommit = true ∧
      (let shadows := (s.world w).shadows.filter fun p => !(assocD s.worlds.regions p.1 {}).lock; (let table := withShadows s.worlds.regions shadows;
      s.commitBad table shadows = none))) ∧
    (∃ (w : World) (s : State), (s.world w).admCommit = true ∧
      (let shadows := (s.world w).shadows.filter fun p => !(assocD s.worlds.regions p.1 {}).lock; (let table := withShadows s.worlds.regions shadows;
      ∃ (c : ℕ) (i : ℕ), s.commitBad table shadows = some (c, i)))) ∧
    (∃ (_ : State), ∃ (table : List (ℕ × Region16)), ∃ (i : ℕ) (j : ℕ), i ≠ j ∧ (assocD table i {}).overlaps (assocD table j {}) = true ∧ j ∈
      table.map (·.1)) :=
  ⟨
    ⟨.tw, base, by decide +kernel⟩,
    ⟨.tw, committing (entry 0x82000000), by decide +kernel⟩,
    ⟨.tw, committing { entry 0x82000000 with sizeLog2 := 11 }, by decide +kernel, 3, 0, by decide +kernel⟩,
    ⟨base, [(0, entry 0x82000000), (1, entry 0x820FF000)], 0, 1, by decide +kernel⟩⟩

theorem witness_DebugAccess :
    (∃ (_ : ℕ) (_ : DbgReq) (_ : State → State) (s : State), s.keys.lc = .retired) ∧
    (∃ (op : ℕ) (r : DbgReq) (_ : State → State) (s : State), s.keys.lc ≠ .retired ∧ r.check.toNat ≠ dbgCheck (DbgReq.bitList op r)) ∧
    (∃ (r : DbgReq) (s : State), s.keys.lc ≠ .retired ∧ r.check.toNat = dbgCheck (DbgReq.bitList 0 r) ∧ DbgReq.malformed r = false ∧ s.worlds.dbgBus
      = none) ∧
    (∃ (r : DbgReq) (s : State), s.keys.lc ≠ .retired ∧ r.check.toNat = dbgCheck (DbgReq.bitList 1 r) ∧ DbgReq.malformed r = false ∧ s.worlds.dbgBus
      = none) ∧
    (∃ (r : DbgReq) (s : State), s.keys.lc ≠ .retired ∧ r.check.toNat = dbgCheck (DbgReq.bitList 2 r) ∧ DbgReq.malformed r = false ∧ s.worlds.dbgBus
      = none) ∧
    (∃ (r : DbgReq) (s : State), s.keys.lc ≠ .retired ∧ r.check.toNat = dbgCheck (DbgReq.bitList 3 r) ∧ DbgReq.malformed r = false) ∧
    (∃ (_ : Bool) (_ : BitVec 64) (op : ℕ) (a : ℕ) (s : State), s.worlds.dbgBus = some (op, a)) ∧
    (∃ (_ : ℕ) (r : DbgReq) (s : State) (i : ℕ) (e : Region16), s.regionAt r.addr = some (i, e) ∧ s.regionWorld i = .tw ∧ e.lock = true ∧ r.space % 4
      = 1) :=
  ⟨
    ⟨1, dbg 1 1 3 0, fun t => t, { base with keys := { base.keys with lc := .retired } }, by decide +kernel⟩,
    ⟨1, { dbg 1 1 3 0 with check := (dbg 1 1 3 0).check + 1 }, fun t => t, base, by decide +kernel⟩,
    ⟨dbg 0 1 3 0, base, by decide +kernel⟩,
    ⟨dbg 1 1 3 0x82000008, base, by decide +kernel⟩,
    ⟨dbg 2 1 3 0x82000008 0xFFFFFFFFFFFFFFFF, base, by decide +kernel⟩,
    ⟨dbg 3 0 2 0, base, by decide +kernel⟩,
    ⟨true, 0, 1, 0x82000000, { base with worlds := { base.worlds with dbgBus := some (1, 0x82000000) } }, by decide +kernel⟩,
    ⟨1, dbg 1 1 3 0x82000008, admitted 0x82000000 true, 0, entry 0x82000000 0xFFFFFF true, by decide +kernel⟩⟩

theorem witness_TamperCommands :
    (∃ (src : ℕ) (_ : ℕ) (s : State), src ≠ 5 ∧ src ≠ 6 ∧ (sourceClass src ≠ 1 ∨ s.tamper.mainPower = true)) ∧
    (∃ (src : ℕ) (_ : ℕ) (s : State), src ≠ 5 ∧ src ≠ 6 ∧ (s.src src).asserted = true) ∧
    (∃ (i : ℕ) (_ : ℕ) (s : State), s.senses i = false) ∧
    (∃ (i : ℕ) (_ : ℕ) (s : State), s.senses i = true ∧ (s.src i).alarmed = true) ∧
    (∃ (src : ℕ) (s : State), ((s.src src).asserted = true ∨ (s.src src).alarmed = true)) ∧
    (∃ (src : ℕ) (s : State), src < s.tamper.sources.length ∧ (s.src src).alarmed = true) ∧
    (∃ (src : ℕ) (s : State), (s.src src).throttle = true ∧ (s.src src).alarmed = false ∧ 1000 ≤ s.sinceMs (s.src src).rearmedAt) ∧
    (∃ (src : ℕ) (s : State), (s.src src).fencing = true ∧ (s.src src).alarmed = false ∧ 100 ≤ s.sinceMs (s.src src).rearmedAt) ∧
    (∃ (cell : ℕ) (s : State), cell < 2 ∧ s.tamper.cellPresent.getLsbD cell = true ∧ s.tamper.cellRange.getLsbD cell = true ∧
      s.tamper.cellArmed.getLsbD cell = false ∧ s.keys.lc ≠ .blank ∧ 1000 ≤ s.sinceMs (s.tamper.cellSince.getD cell 0)) ∧
    (∃ (cell : ℕ) (s : State), cell < 2 ∧ s.tamper.cellRange.getLsbD cell = true) ∧
    (∃ (cell : ℕ) (s : State), cell < 2 ∧ s.tamper.cellRange.getLsbD cell = false) ∧
    (∃ (_ : BitVec 8) (s : State), s.tamper.mainPower = false) ∧
    (∃ (_ : BitVec 8) (s : State), s.tamper.mainPower = true) ∧
    (∃ (c : Caller) (s : State) (p : Packet) (t : State), Ready c tamperStatusCmd s p t) ∧
    (∃ (c : Caller) (s : State) (p : Packet) (t : State), Ready c tamperConfigCmd s p t ∧ t.tamperRefused (p.int tamperFlds) = false ∧ p.int
      tamperFlds 1 = 0) ∧
    (∃ (c : Caller) (s : State) (p : Packet) (t : State), Ready c tamperConfigCmd s p t ∧ t.tamperRefused (p.int tamperFlds) = false ∧ p.int
      tamperFlds 1 ≠ 0) :=
  ⟨
    ⟨9, 36, base, by decide +kernel⟩,
    ⟨9, 36, srcAs 9 (fun t => { t with asserted := true, alarmed := true }), by decide +kernel⟩,
    ⟨5, 36, base, by decide +kernel⟩,
    ⟨31, 36, srcAs 31 (fun t => { t with asserted := true, alarmed := true }), by decide +kernel⟩,
    ⟨9, srcAs 9 (fun t => { t with asserted := true, alarmed := true }), by decide +kernel⟩,
    ⟨31, srcAs 31 (fun t => { t with asserted := true, alarmed := true }), by decide +kernel⟩,
    ⟨9, srcAs 9 (fun t => { t with throttle := true, rearmedAt := 4000 }), by decide +kernel⟩,
    ⟨9, srcAs 9 (fun t => { t with fencing := true, rearmedAt := 4900 }), by decide +kernel⟩,
    ⟨1, { base with tamper := { base.tamper with cellPresent := 2, cellRange := 2, cellArmed := 0, tahrMs := 1000 } }, by decide +kernel⟩,
    ⟨1, { base with tamper := { base.tamper with cellPresent := 2, cellRange := 2, cellArmed := 0, tahrMs := 1000 } }, by decide +kernel⟩,
    ⟨0, { base with tamper := { base.tamper with cellPresent := 2, cellRange := 2, cellArmed := 0, tahrMs := 1000 } }, by decide +kernel⟩,
    ⟨0xFF, srcAs 0 id false, by decide +kernel⟩,
    ⟨0, base, by decide +kernel⟩,
    ⟨mgr, asked 0x600 [], _, _, ready_of _ _ _ (by decide +kernel)⟩,
    ⟨mgr, askedQ 0x601 (layInts [(1, 9), (2, 0), (1, 0), (1, 1), (4, 0), (1, 0), (4, 0), (1, 0), (2, 0)]), _, _, ready_q _ _ _ _ (by decide +kernel), by decide +kernel⟩,
    ⟨mgr, askedQ 0x601 (layInts [(1, 9), (2, 2), (1, 0), (1, 1), (4, 0), (1, 0), (4, 0), (1, 0), (2, 0)]), _, _, ready_q _ _ _ _ (by decide +kernel), by decide +kernel⟩⟩

theorem witness_AlarmCompletes :
    (∃ (i : ℕ) (_ : ℕ) (s : State), s.senses i = true ∧ i < s.tamper.sources.length ∧ (s.src i).alarmed = false ∧
      (let times := ((s.src i).times.filter fun x => s.sinceMs x < s.limitW (s.src i)) ++ [s.tamper.tahrMs]; times.length < s.limitN (s.src i))) ∧
    (∃ (i : ℕ) (_ : ℕ) (s : State), s.senses i = true ∧ i < s.tamper.sources.length ∧ (s.src i).alarmed = false ∧
      (let times := ((s.src i).times.filter fun x => s.sinceMs x < s.limitW (s.src i)) ++ [s.tamper.tahrMs]; s.limitN (s.src i) ≤ times.length)) ∧
    (∃ (i : ℕ) (_ : ℕ) (s : State), s.senses i = true ∧ i < s.tamper.sources.length ∧ (s.src i).alarmed = false ∧ ∃ (g : ℕ), g ≤ s.gradeInForce) :=
  ⟨
    ⟨16, 36, srcAs 16 (fun t => { t with n := 2 }), by decide +kernel⟩,
    ⟨16, 36, srcAs 16 (fun t => { t with n := 2, windowMs := 1000, times := [4001] }), by decide +kernel⟩,
    ⟨16, 36, srcAs 16 (fun t => { t with n := 2, windowMs := 1000, times := [4001] }), by decide +kernel, by decide +kernel, by decide +kernel, 0, by decide +kernel⟩⟩

theorem witness_PowerRequests :
    (∃ (c : Caller) (s : State) (p : Packet) (t : State), Ready c pwrDomainSetCmd s p t ∧ (let f := pwrInt p.params; (let u := t.pwrApply .ow f;
      t.pwrFault .ow f = none ∧ ((u.grp (groupOf (f 0))).setMv = (t.grp (groupOf (f 0))).setMv ∨ 36 ≤ f 0)))) ∧
    (∃ (c : Caller) (s : State) (p : Packet) (t : State), Ready c pwrDomainSetCmd s p t ∧ (let f := pwrInt p.params; (let u := t.pwrApply .ow f;
      t.pwrFault .ow f = none ∧ (u.grp (groupOf (f 0))).setMv ≠ (t.grp (groupOf (f 0))).setMv ∧ f 0 < 36))) ∧
    (∃ (c : Caller) (s : State) (p : Packet) (t : State), Ready c pwrStatusCmd s p t ∧ p.int [.int 2] 0 = 0xFFFF) ∧
    (∃ (c : Caller) (s : State) (p : Packet) (t : State), Ready c pwrStatusCmd s p t ∧ p.int [.int 2] 0 ≤ 61 ∧ p.int [.int 2] 0 ≠ 60) ∧
    (∃ (w : World) (s : State), (s.world w).up = true ∧ (s.world w).powerBusy = true) ∧
    (∃ (w : World) (s : State) (st : Status) (n : ℕ), (s.world w).up = true ∧ (s.world w).powerBusy = false ∧ gapsZero pwrFlds 32 (padTo 32 (s.world
      w).powerReq) = true ∧ pwrInt (padTo 32 (s.world w).powerReq) 1 < 256 ∧ s.pwrFault w (pwrInt (padTo 32 (s.world w).powerReq)) = some (st, n)) ∧
    (∃ (w : World) (s : State), (s.world w).up = true ∧ (s.world w).powerBusy = false ∧ (gapsZero pwrFlds 32 (padTo 32 (s.world w).powerReq) = false
      ∨ 256 ≤ pwrInt (padTo 32 (s.world w).powerReq) 1)) ∧
    (∃ (w : World) (s : State), (s.world w).up = true ∧ (s.world w).powerBusy = false ∧ gapsZero pwrFlds 32 (padTo 32 (s.world w).powerReq) = true ∧
      pwrInt (padTo 32 (s.world w).powerReq) 1 < 256 ∧ s.pwrFault w (pwrInt (padTo 32 (s.world w).powerReq)) = none) :=
  ⟨
    ⟨mgr, asked 0x800 (pwrBody 61 1 3 0 0), _, _, ready_of _ _ _ (by decide +kernel), by decide +kernel⟩,
    ⟨mgr, asked 0x800 (pwrBody 35 6 0 0 7), _, _, ready_of _ _ _ (by decide +kernel), by decide +kernel⟩,
    ⟨mgr, asked 0x801 [0xFF, 0xFF], _, _, ready_of _ _ _ (by decide +kernel), by decide +kernel⟩,
    ⟨mgr, asked 0x801 [61, 0], _, _, ready_of _ _ _ (by decide +kernel), by decide +kernel⟩,
    ⟨.ow, porting .ow [] true, by decide +kernel⟩,
    ⟨.ow, porting .ow (pwrBody 60 1 0 0 0), .inputRange, 2, by decide +kernel⟩,
    ⟨.ow, porting .ow (List.replicate 32 0xFF), by decide +kernel⟩,
    ⟨.tw, porting .tw (pwrBody 36 1 1 0 0), by decide +kernel⟩⟩

theorem witness_PowerStatesAndRegulators :
    (∃ (d : ℕ) (s : State), s.mayEnter d .sleep = true) ∧
    (∃ (d : ℕ) (s : State), s.mayEnter d .deep = true) ∧
    (∃ (d : ℕ) (p : PState) (s : State), s.mayEnter d p = true) ∧
    (∃ (n : ℕ) (s : State), n < 36 ∧ n < s.chs.length) ∧
    (∃ (s : State), s.power.offRequest = true ∧ s.mayOff = true ∧ s.tamper.mainPower = true) ∧
    (∃ (d : ℕ) (src : WakeSource) (s : State), d < 61 ∧ wakesKind src (domKind d) = true ∧ s.asleep d = true ∧ (s.dom d).waking = none) ∧
    (∃ (d : ℕ) (src : WakeSource) (_ : State), (61 ≤ d ∨ wakesKind src (domKind d) = false)) ∧
    (∃ (d : ℕ) (w : WakeSource) (s : State), s.asleep d = true ∧ (s.dom d).waking = some w ∧ domKind d = .channel) ∧
    (∃ (d : ℕ) (w : WakeSource) (s : State), s.asleep d = true ∧ (s.dom d).waking = some w ∧ domKind d = .core) ∧
    (∃ (d : ℕ) (w : WakeSource) (s : State), s.asleep d = true ∧ (s.dom d).waking = some w ∧ domKind d = .fabric) ∧
    (∃ (d : ℕ) (w : WakeSource) (s : State), s.asleep d = true ∧ (s.dom d).waking = some w ∧ domKind d = .host) ∧
    (∃ (win : Bool) (s : State), (win = false ∨ s.power.wakeLevel = true) ∧ (s.dom 61).pstate = .off) ∧
    (∃ (s : State), s.power.wakeLevel = false) ∧
    (∃ (g : ℕ) (mv : ℕ) (s : State), g < 4 ∧ (s.grp g).settled = false ∧ (s.grp g).fault = false ∧ (s.grp g).setMv ≤ mv + 10 ∧ mv ≤ (s.grp g).setMv +
      10) ∧
    (∃ (g : ℕ) (mv : ℕ) (s : State), g < 4 ∧ (s.grp g).settled = false ∧ (s.grp g).setMv + 10 < mv) ∧
    (∃ (g : ℕ) (_ : ℕ) (s : State), g < 4 ∧ (s.grp g).fault = false) ∧
    (∃ (g : ℕ) (mv : ℕ) (s : State), g < 4 ∧ (s.grp g).fault = true ∧ (s.grp g).near mv = true) ∧
    (∃ (g : ℕ) (mv : ℕ) (s : State), g < 4 ∧ (s.grp g).fault = true ∧ (s.grp g).near mv = false) ∧
    (∃ (g : ℕ) (_ : ℕ) (_ : ℕ) (_ : State), g < 4) ∧
    (∃ (g : ℕ) (_ : ℕ) (s : State), g < s.power.groups.length) :=
  ⟨
    ⟨35, domAs 35 (fun d => { d with pstate := .idle, idleSince := 0 }), by decide +kernel⟩,
    ⟨39, domAs 39 (fun d => { d with allowOw := .deep, allowTw := .deep }), by decide +kernel⟩,
    ⟨40, .sleep, agreedPort .sleep, by decide +kernel⟩,
    ⟨35, base, by decide +kernel⟩,
    ⟨{ base with md := { base.md with manager := true }, slices := [], power := { base.power with offRequest := true } }, by decide +kernel⟩,
    ⟨60, .hostLink, domAs 60 fun d => { d with pstate := .deep }, by decide +kernel⟩,
    ⟨61, .hostLink, base, by decide +kernel⟩,
    ⟨35, .internal, domAs 35 fun x => { x with pstate := .deep, waking := some .internal }, by decide +kernel⟩,
    ⟨39, .internal, domAs 39 fun x => { x with pstate := .sleep, waking := some .internal }, by decide +kernel⟩,
    ⟨59, .internal, domAs 59 fun x => { x with pstate := .deep, waking := some .internal }, by decide +kernel⟩,
    ⟨60, .internal, domAs 60 fun x => { x with pstate := .deep, waking := some .internal }, by decide +kernel⟩,
    ⟨false, domAs 61 fun d => { d with pstate := .off }, by decide +kernel⟩,
    ⟨{ base with power := { base.power with wakeLevel := false } }, by decide +kernel⟩,
    ⟨3, 790, base, by decide +kernel⟩,
    ⟨3, 811, base, by decide +kernel⟩,
    ⟨3, 0, base, by decide +kernel⟩,
    ⟨3, 810, grpAs 3 fun g => { g with fault := true }, by decide +kernel⟩,
    ⟨3, 811, grpAs 3 fun g => { g with fault := true }, by decide +kernel⟩,
    ⟨3, 800, 100, base, by decide +kernel⟩,
    ⟨3, 800, base, by decide +kernel⟩⟩

theorem witness_RenewalAndStartup :
    ((imageOf (imgData 1)).sigOk = true → ∃ (c : Caller) (s : State) (p : Packet) (t : State), Ready c fwUpdateCmd s p t ∧ t.jobOn (conflicts 0x900)
      0 = false ∧ t.updateFault 1 p.data = none) ∧
    ((imageOf (imgData 2)).sigOk = true → ∃ (c : Caller) (s : State) (p : Packet) (t : State), Ready c owUpdateCmd s p t ∧ t.jobOn (conflicts 0x902)
      0 = false ∧ t.updateFault 2 p.data = none) ∧
    ((imageOf (imgData 3)).sigOk = true → ∃ (c : Caller) (s : State) (p : Packet) (t : State), Ready c mcUpdateCmd s p t ∧ t.updateFault 3 p.data =
      none ∧ t.renewal.bnActive = false) ∧
    (∃ (s : State), s.renewal.twTrial = true ∧ s.worlds.tw.up = true ∧ s.renewal.trialSince + 10000 ≤ s.glob.uptimeMs) ∧
    (∃ (s : State), s.glob.uptimeMs < s.renewal.trialSince + 10000) ∧
    (∃ (ch : ℕ) (image : Bytes) (_ : Bool) (s : State) (i : Image) (l : List ℕ), s.worlds.tw.up = true ∧ ch < 36 ∧ s.renewal.bnActive = true ∧
      s.renewal.bnImage = some i ∧ s.renewal.bnLeft = ch :: l ∧ (s.ch ch).pkRun = none ∧ (s.ch ch).mcState = .updating ∧ Image.written i image =
      true) ∧
    ((imageOf (imgData 3)).sigOk = true → ∃ (b : Bytes) (s : State), s.worlds.ow.up = true ∧ s.worlds.tw.up = true ∧ (imageOf b).kind = 3 ∧
      s.updateFault 3 b = none ∧ s.renewal.bnActive = false) ∧
    (∃ (b : Bytes) (s : State) (st : Status), s.worlds.ow.up = true ∧ s.worlds.tw.up = true ∧ ((imageOf b).kind = 2 ∨ (imageOf b).kind = 3) ∧
      s.updateFault (imageOf b).kind b = some st) ∧
    (∃ (s : State), s.writeDue 3 = true ∧ s.gate.st ≠ .opened ∧ s.worlds.tw.up = true) ∧
    (∃ (kind : ℕ) (s : State), s.writeDue kind = true ∧ s.gate.st ≠ .opened ∧ s.worlds.tw.up = true) ∧
    (∃ (kind : ℕ) (_ : Bool) (s : State), (s.gate.st = .opened ∨ s.writeDue kind = false)) ∧
    (∃ (_ : Bytes) (s : State), s.awaitsSupplies = true) ∧
    (∃ (_ : Bytes) (s : State), s.renewal.kind ≠ 0) ∧
    (∃ (s : State), s.renewal.ready = false ∧ s.readyHolds = true) ∧
    (∃ (s : State), s.readyHolds = false) :=
  ⟨
    fun h => Exists.elim (renewing_ready fwUpdateCmd 0x900 1 7 h (by decide +kernel) (by decide +kernel) (by decide +kernel) (by decide +kernel) rfl rfl rfl rfl (by decide +kernel) (by decide +kernel) (by decide +kernel)) fun q e => Exists.elim e fun t e => ⟨mgr, renewing 0x900 1 7, q, t, e.1, e.2.1 _, e.2.2.1⟩,
    fun h => Exists.elim (renewing_ready owUpdateCmd 0x902 2 0 h (by decide +kernel) (by decide +kernel) (by decide +kernel) (by decide +kernel) rfl rfl rfl rfl (by decide +kernel) (by decide +kernel) (by decide +kernel)) fun q e => Exists.elim e fun t e => ⟨mgr, renewing 0x902 2 0, q, t, e.1, e.2.1 _, e.2.2.1⟩,
    fun h => Exists.elim (renewing_ready mcUpdateCmd 0x901 3 0 h (by decide +kernel) (by decide +kernel) (by decide +kernel) (by decide +kernel) rfl rfl rfl rfl (by decide +kernel) (by decide +kernel) (by decide +kernel)) fun q e => Exists.elim e fun t e => ⟨mgr, renewing 0x901 3 0, q, t, e.1, e.2.2.1, e.2.2.2⟩,
    ⟨{ base with renewal := { base.renewal with twTrial := true, trialSince := 90000 } }, by decide +kernel⟩,
    ⟨{ base with renewal := { base.renewal with trialSince := 90001 } }, by decide +kernel⟩,
    ⟨35, [], true, updating, mcImage, [], by decide +kernel, by decide +kernel, by decide +kernel, rfl, by decide +kernel, by decide +kernel, by decide +kernel, beq_self_eq_true _⟩,
    fun h => ⟨imgData 3, base, by decide +kernel, by decide +kernel, by decide +kernel, img_ok 3 h (by decide +kernel) (by decide +kernel) (by decide +kernel), by decide +kernel⟩,
    ⟨ascii "ZVIM" ++ [3], base, .descMalformed, by decide +kernel⟩,
    ⟨{ base with renewal := { base.renewal with mcPending := true }, gate := { base.gate with st := .measuring } }, by decide +kernel⟩,
    ⟨3, { base with renewal := { base.renewal with mcPending := true }, gate := { base.gate with st := .measuring } }, by decide +kernel⟩,
    ⟨1, false, base, by decide +kernel⟩,
    ⟨[], State.reset, by decide +kernel⟩,
    ⟨[], base, by decide +kernel⟩,
    ⟨{ base with renewal := { base.renewal with ready := false, recordDone := true } }, by decide +kernel⟩,
    ⟨State.reset, by decide +kernel⟩⟩

theorem witness_FabricBringUp :
    (∃ (p : ℕ) (s : State), p < 20 ∧ (s.port p).en = false ∧ s.barsUp = true ∧ s.refusal 0 (0xB0000 + 0x40 * p) 4 true = none) ∧
    (∃ (p : ℕ) (s : State), p < 20 ∧ (s.port p).en = true ∧ s.barsUp = true ∧ s.refusal 0 (0xB0000 + 0x40 * p) 4 true = none) ∧
    (∃ (p : ℕ) (s : State), (s.port p).en = true ∧ (s.port p).st = .down ∧ s.broughtUp p = true ∧ s.portAsleep p = false) ∧
    (∃ (p : ℕ) (s : State), p < 20 ∧ (s.port p).st = .up ∧ s.barsUp = true ∧ s.refusal 0 (0xB0000 + 0x40 * p) 4 true = none) ∧
    (∃ (p : ℕ) (s : State), p < 20 ∧ ((s.port p).st = .align ∨ (s.port p).st = .auth) ∧ s.barsUp = true ∧ s.refusal 0 (0xB0000 + 0x40 * p) 4 true =
      none) ∧
    (∃ (p : ℕ) (s : State), p < s.ports.length ∧ (s.port p).st = .train ∧ (s.port p).fullTrain = true ∧ (s.port p).maxWidth = 2) ∧
    (∃ (p : ℕ) (s : State), (s.port p).st = .train) ∧
    (∃ (p : ℕ) (i : PeerInit) (s : State), (s.port p).st = .align ∧ (s.port p).cause ≠ 2 ∧ i.crcOk = true ∧ s.pairOk p i = false) ∧
    (∃ (p : ℕ) (i : PeerInit) (s : State), (s.port p).st = .align ∧ (s.port p).cause ≠ 2 ∧ i.crcOk = true ∧ s.pairOk p i = true ∧ s.retainable p i =
      true) ∧
    (∃ (p : ℕ) (i : PeerInit) (s : State), (s.port p).st = .align ∧ (s.port p).cause ≠ 2 ∧ i.crcOk = true ∧ s.pairOk p i = true ∧ s.retainable p i =
      false) ∧
    (∃ (p : ℕ) (s : State), (s.port p).st = .align ∧ (s.port p).cause = 2 ∧ (s.port p).authSince + 1000 ≤ s.glob.uptimeMs) ∧
    (∃ (p : ℕ) (s : State), p < 20 ∧ s.portAsleep p = true ∧ (s.dom (40 + p)).waking = none) :=
  ⟨
    ⟨19, base, by decide +kernel⟩,
    ⟨19, upPort 19, by decide +kernel⟩,
    ⟨19, portAs 19 (fun x => { x with en := true }), by decide +kernel⟩,
    ⟨19, upPort 19, by decide +kernel⟩,
    ⟨19, portAs 19 (fun x => { x with en := true, st := .auth }), by decide +kernel⟩,
    ⟨19, portAs 19 (fun x => { x with en := true, st := .train }), by decide +kernel⟩,
    ⟨19, portAs 19 (fun x => { x with en := true, st := .train }), by decide +kernel⟩,
    ⟨19, peerInit 1, portAs 19 (fun x => { x with en := true, st := .align }), by decide +kernel⟩,
    ⟨19, peerInit 2 true, portAs 19 (fun x => { x with en := true, st := .align, session := true, downSince := 99950 }), by decide +kernel⟩,
    ⟨19, peerInit 2, portAs 19 (fun x => { x with en := true, st := .align }), by decide +kernel⟩,
    ⟨19, portAs 19 (fun x => { x with en := true, st := .align, cause := 2, authSince := 99000 }), by decide +kernel⟩,
    ⟨19, domAs 59 fun d => { d with pstate := .sleep }, by decide +kernel⟩⟩

theorem witness_FabricSession :
    ((portAs 19 (fun x => { x with en := true, st := .auth })).authFault peerAuth = none → ∃ (p : ℕ) (a : PeerAuth) (s : State), (s.port p).st =
      .auth ∧ (s.port p).cause ≠ 3 ∧ a.crcOk = true ∧ s.worlds.tw.up = true ∧ s.authFault a = none) ∧
    (∃ (p : ℕ) (a : PeerAuth) (s : State) (c : ℕ), (s.port p).st = .auth ∧ (s.port p).cause ≠ 3 ∧ a.crcOk = true ∧ s.worlds.tw.up = true ∧
      s.authFault a = some c) ∧
    (∃ (_ : PeerAuth) (x : Port) (own : ℕ) (_ : ℕ), own ≠ x.peerDev) ∧
    (∃ (p : ℕ) (s : State), (s.port p).st = .auth ∧ (s.port p).cause = 3 ∧ (s.port p).authSince + 1000 ≤ s.glob.uptimeMs) ∧
    (∃ (p : ℕ) (s : State), p < s.ports.length ∧ (s.port p).st = .up ∧ 2 ^ 32 ≤ (s.port p).txCtr ∧ (s.port p).txCtr < 2 ^ 34) ∧
    (∃ (p : ℕ) (f : Frame) (s : State) (s1 : State), (s.port p).st = .up ∧ s.takeFrame p f true = (s1, true) ∧ (s1.port p).st = .up) :=
  ⟨
    fun h => ⟨19, peerAuth, portAs 19 (fun x => { x with en := true, st := .auth }), by decide +kernel, by decide +kernel, by decide +kernel, by decide +kernel, h⟩,
    ⟨19, peerAuth, portAs 19 (fun x => { x with en := true, st := .auth }) { base with keys := { base.keys with root := none } }, 4, by decide +kernel⟩,
    ⟨peerAuth, { peerDev := 2 }, 1, 0, by decide +kernel⟩,
    ⟨19, portAs 19 (fun x => { x with en := true, st := .auth, cause := 3, authSince := 99000 }), by decide +kernel⟩,
    ⟨19, upPort 19 (fun x => { x with txCtr := 2 ^ 32 }), by decide +kernel⟩,
    ⟨19, frame, upPort 19, took 19 frame true (upPort 19), by decide +kernel, rfl, by decide +kernel⟩⟩

theorem witness_FabricFramesAndTimers :
    (∃ (_ : ℕ) (f : Frame) (_ : Bool) (_ : State), f.tagOk = false) ∧
    (∃ (p : ℕ) (f : Frame) (ctl : Bool) (s : State), f.tagOk = true ∧ (s.port p).phaseOk f = true ∧ f.reserved = false ∧ f.len ≤ 128 ∧ (ctl = true →
      f.len = 0) ∧ f.nak = false) ∧
    (∃ (p : ℕ) (f : Frame) (s : State) (s1 : State), (s.port p).st = .up ∧ s.takeFrame p f false = (s1, true) ∧ (s1.port p).st = .up ∧ f.seq < 65536
      ∧ f.seq = (s1.port p).rxSeq ∧ frameCredits f.len ≤ (s1.port p).rxCredits.getD f.vc 0) ∧
    (∃ (p : ℕ) (f : Frame) (s : State) (s1 : State), (s.port p).st = .up ∧ s.takeFrame p f false = (s1, true) ∧ (s1.port p).st = .up ∧ (s1.port
      p).rxSeq < f.seq ∧ f.seq < 32768) ∧
    (∃ (p : ℕ) (f : Frame) (s : State) (s1 : State), (s.port p).st = .up ∧ s.takeFrame p f false = (s1, false)) ∧
    (∃ (p : ℕ) (f : Frame) (s : State) (s1 : State), (s.port p).st = .up ∧ s.takeFrame p f true = (s1, true) ∧ (s1.port p).st = .up ∧ f.pwr = none) ∧
    (∃ (p : ℕ) (s : State), (s.port p).st = .up) ∧
    (∃ (p : ℕ) (s : State), (s.port p).st = .up ∧ (s.port p).gap = true) ∧
    (∃ (p : ℕ) (s : State), (s.port p).st = .up ∧ (s.port p).rxAny = true) ∧
    (∃ (p : ℕ) (lane : ℕ) (s : State), (s.port p).st = .up ∧ (s.port p).lanes.getLsbD lane = true) ∧
    (∃ (p : ℕ) (s : State), p < s.ports.length ∧ (s.port p).st = .up) :=
  ⟨
    ⟨19, frame 0 false, true, upPort 19, by decide +kernel⟩,
    ⟨19, frame, true, upPort 19, by decide +kernel⟩,
    ⟨19, frame 65535, upPort 19 (fun x => { x with rxSeq := 65535 }), took 19 (frame 65535) false (upPort 19 (fun x => { x with rxSeq := 65535 })), by decide +kernel, rfl, by decide +kernel⟩,
    ⟨19, frame 1, upPort 19, took 19 (frame 1) false (upPort 19), by decide +kernel, rfl, by decide +kernel⟩,
    ⟨19, frame 0 false, upPort 19, took 19 (frame 0 false) false (upPort 19), by decide +kernel, rfl⟩,
    ⟨19, frame, upPort 19, took 19 frame true (upPort 19), by decide +kernel, rfl, by decide +kernel⟩,
    ⟨19, upPort 19, by decide +kernel⟩,
    ⟨19, upPort 19 (fun x => { x with gap := true }), by decide +kernel⟩,
    ⟨19, upPort 19 (fun x => { x with rxAny := true }), by decide +kernel⟩,
    ⟨19, 3, upPort 19, by decide +kernel⟩,
    ⟨19, upPort 19, by decide +kernel⟩⟩

theorem witness_HierarchyLeadCommands :
    (∃ (p : ℕ) (_ : ℕ) (dev : ℕ) (dom : Bytes) (ident : Bytes) (_ : ℕ) (_ : ℕ) (_ : ℕ) (_ : Bool) (s : State) (s1 : State), s.takeUnit p 0x01 = some
      s1 ∧ s1.hier.role ≠ 0 ∧ dom = s1.hier.domainId ∧ dev = s1.hier.device ∧ ident ≠ s1.identityDigest) ∧
    (∃ (p : ℕ) (_ : ℕ) (dev : ℕ) (dom : Bytes) (_ : Bytes) (_ : ℕ) (_ : ℕ) (_ : ℕ) (_ : Bool) (s : State) (s1 : State), s.takeUnit p 0x01 = some s1 ∧
      s1.hier.role ≠ 0 ∧ dom = s1.hier.domainId ∧ dev ≠ s1.hier.device ∧ s1.hier.activeLead = false) ∧
    (∃ (p : ℕ), ∃ (_ : List (ℕ × Bool)), ∃ (s : State) (s1 : State), s.takeUnit p 0x02 = some s1 ∧ portKind p = 0) ∧
    (∃ (p : ℕ) (term : ℕ) (_ : ℕ) (_ : ℕ) (s : State) (s1 : State), s.takeUnit p 0x03 = some s1 ∧ s1.hier.role = 1 ∧ s1.hier.level ≠ 1 ∧ term =
      s1.hier.term ∧ s1.hier.activeLead = false) ∧
    (∃ (p : ℕ) (term : ℕ) (_ : ℕ) (_ : ℕ) (s : State) (s1 : State), s.takeUnit p 0x03 = some s1 ∧ s1.hier.role ≠ 0 ∧ term < s1.hier.term) ∧
    (∃ (p : ℕ) (dev : ℕ) (s : State) (s1 : State), s.takeUnit p 0x04 = some s1 ∧ s1.hier.activeLead = true ∧ s1.hier.level1.contains dev = true) ∧
    (∃ (s : State), s.hier.activeLead = true ∧ s.hier.beatSent + 50 ≤ s.glob.uptimeMs) ∧
    (∃ (s : State), s.hier.activeLead = true ∧ s.leaseAcks < s.hier.majority) ∧
    (∃ (s : State), s.hier.majority ≤ s.leaseAcks) ∧
    (∃ (s : State), s.hier.role = 3 ∧ s.hier.activeLead = false ∧ s.hier.lastBeat + 400 ≤ s.glob.uptimeMs) ∧
    (∃ (p : ℕ) (term : ℕ) (_ : ℕ) (s : State) (s1 : State), s.takeUnit p 0x05 = some s1 ∧ s1.hier.level = 1 ∧ s1.hier.role ≠ 3 ∧ s1.hier.lastBeat +
      300 ≤ s1.glob.uptimeMs ∧ s1.hier.votedTerms.contains term = false ∧ s1.hier.term < term) ∧
    (∃ (p : ℕ) (term : ℕ) (_ : ℕ) (s : State) (s1 : State), s.takeUnit p 0x05 = some s1 ∧ (s1.hier.votedTerms.contains term = true ∨ term ≤
      s1.hier.term)) ∧
    (∃ (p : ℕ) (dev : ℕ) (term : ℕ) (_ : Option Change) (s : State) (s1 : State), s.takeUnit p 0x06 = some s1 ∧ s1.hier.role = 3 ∧ s1.hier.candidate
      = some term ∧ s1.hier.level1.contains dev = true ∧ s1.hier.votes.contains dev = false ∧ s1.hier.majority ≤ s1.hier.votes.length + 1) ∧
    (∃ (s : State), s.hier.role ≠ 0 ∧ s.hier.activeLead = false ∧ s.hier.state ≠ 1 ∧ s.hier.lastAnyBeat + 1000 ≤ s.glob.uptimeMs) :=
  ⟨
    ⟨0, 1, 7, List.replicate 16 0, [], 0, 0, 0, false, unitIn 0x01 member, tookUnit 0x01 member, some_of _ _ (by decide +kernel), by decide +kernel⟩,
    ⟨0, 1, 8, List.replicate 16 0, [], 0, 0, 0, false, unitIn 0x01 member, tookUnit 0x01 member, some_of _ _ (by decide +kernel), by decide +kernel⟩,
    ⟨0, [], unitIn 0x02 base, tookUnit 0x02 base, some_of _ _ (by decide +kernel), by decide +kernel⟩,
    ⟨0, 3, 9, 0, unitIn 0x03 member, tookUnit 0x03 member, some_of _ _ (by decide +kernel), by decide +kernel⟩,
    ⟨0, 2, 9, 0, unitIn 0x03 member, tookUnit 0x03 member, some_of _ _ (by decide +kernel), by decide +kernel⟩,
    ⟨0, 3, unitIn 0x04 lead, tookUnit 0x04 lead, some_of _ _ (by decide +kernel), by decide +kernel⟩,
    ⟨lead, by decide +kernel⟩,
    ⟨lead, by decide +kernel⟩,
    ⟨roleAs (fun h => { h with beatAcks := [(1, 100000), (2, 99701)] }) lead, by decide +kernel⟩,
    ⟨roleAs (fun h => { h with role := 3 }), by decide +kernel⟩,
    ⟨0, 4, 0, unitIn 0x05 (member fun h => { h with level := 1 }), tookUnit 0x05 (member fun h => { h with level := 1 }), some_of _ _ (by decide +kernel), by decide +kernel⟩,
    ⟨0, 3, 0, unitIn 0x05 (member fun h => { h with votedTerms := [3] }), tookUnit 0x05 (member fun h => { h with votedTerms := [3] }), some_of _ _ (by decide +kernel), by decide +kernel⟩,
    ⟨0, 2, 4, none, unitIn 0x06 (roleAs (fun h => { h with activeLead := false, candidate := some 4, votes := [1] }) lead), tookUnit 0x06 (roleAs (fun h => { h with activeLead := false, candidate := some 4, votes := [1] }) lead), some_of _ _ (by decide +kernel), by decide +kernel⟩,
    ⟨member, by decide +kernel⟩⟩

theorem witness_HierarchyChangesAndRecords :
    (∃ (p : ℕ) (c : Change) (s : State) (s1 : State), s.takeUnit p 0x10 = some s1 ∧ s1.hier.role ≠ 0 ∧ s1.hier.activeLead = false ∧ s1.hier.term ≤
      c.term ∧ c.committed = true ∧ c.serial ≤ s1.hier.applied + 1) ∧
    (∃ (p : ℕ) (c : Change) (s : State) (s1 : State), s.takeUnit p 0x10 = some s1 ∧ s1.hier.role ≠ 0 ∧ s1.hier.activeLead = false ∧ s1.hier.term ≤
      c.term ∧ c.committed = true ∧ s1.hier.applied + 1 < c.serial) ∧
    (∃ (p : ℕ) (c : Change) (s : State) (s1 : State), s.takeUnit p 0x10 = some s1 ∧ s1.hier.role ≠ 0 ∧ s1.hier.activeLead = false ∧ s1.hier.term ≤
      c.term ∧ (let s2 := s1.modHier fun h => { h with term := Nat.max h.term c.term }; c.committed = false ∧ (s1.hier.level = 1 ∨ s1.hier.role = 3)
      ∧ s1.hier.applied < c.serial ∧ s2.heldByAlarm c = false)) ∧
    (∃ (c : Change) (s : State), c.serial ≠ s.hier.applied + 1) ∧
    (∃ (p : ℕ) (term : ℕ) (serial : ℕ) (c : Change) (s : State) (s1 : State), s.takeUnit p 0x11 = some s1 ∧ (s1.hier.role = 1 ∨ s1.hier.role = 2) ∧
      s1.hier.activeLead = false ∧ s1.hier.term ≤ term ∧ serial = s1.hier.applied + 1 ∧ s1.hier.pendings.find? (fun c => c.serial == serial && c.term
      == term) = some c) ∧
    (∃ (p : ℕ) (_ : ℕ) (_ : List ℕ) (s : State) (s1 : State), s.takeUnit p 0x12 = some s1 ∧ s1.hier.activeLead = true) ∧
    (∃ (s : State) (at_ : ℕ) (v : ℕ) (dk : Bytes), s.hier.stageAt = some at_ ∧ s.keys.staged = some (v, dk) ∧ s.hier.activeLead = true ∧
      s.hier.pendings = [] ∧ 1000 * s.hier.stageWaitS ≤ s.glob.uptimeMs - at_) ∧
    (∃ (p : ℕ) (_ : ℕ) (serial : ℕ) (s : State) (s1 : State), s.takeUnit p 0x13 = some s1 ∧ s1.hier.activeLead = true ∧ ((s1.hier.log.head?.map
      (·.serial)).getD (s1.hier.applied + 1)) ≤ serial + 1) ∧
    (∃ (p : ℕ) (_ : List Change) (s : State) (s1 : State), s.takeUnit p 0x14 = some s1 ∧ s1.hier.role ≠ 0 ∧ s1.hier.activeLead = false ∧
      s1.tamper.latch ≠ 3) ∧
    (∃ (p : ℕ) (_ : ℕ) (_ : Bytes) (s : State) (s1 : State), s.takeUnit p 0x30 = some s1 ∧ s1.hier.activeLead = true ∧ s1.hier.aggFull = false) ∧
    (∃ (p : ℕ) (_ : ℕ) (_ : Bytes) (s : State) (s1 : State), s.takeUnit p 0x30 = some s1 ∧ s1.hier.activeLead = true ∧ s1.hier.aggFull = true) ∧
    (∃ (_ : ℕ) (s : State), s.hier.activeLead = false ∧ s.barsUp = true ∧ s.refusal 0 0xC0040 4 true = none) ∧
    (∃ (p : ℕ) (_ : ℕ) (s : State) (s1 : State), s.takeUnit p 0x31 = some s1) :=
  ⟨
    ⟨0, change 1 true, unitIn 0x10 member, tookUnit 0x10 member, some_of _ _ (by decide +kernel), by decide +kernel⟩,
    ⟨0, change 2 true, unitIn 0x10 member, tookUnit 0x10 member, some_of _ _ (by decide +kernel), by decide +kernel⟩,
    ⟨0, change 1 false, unitIn 0x10 (member fun h => { h with level := 1 }), tookUnit 0x10 (member fun h => { h with level := 1 }), some_of _ _ (by decide +kernel), by decide +kernel⟩,
    ⟨change 2 true, base, by decide +kernel⟩,
    ⟨0, 3, 1, change 1 false, unitIn 0x11 (member fun h => { h with pendings := [change 1 false] }), tookUnit 0x11 (member fun h => { h with pendings := [change 1 false] }), some_of _ _ (by decide +kernel), by decide +kernel⟩,
    ⟨0, 1, [1, 2], unitIn 0x12 lead, tookUnit 0x12 lead, some_of _ _ (by decide +kernel), by decide +kernel⟩,
    ⟨roleAs (fun h => { h with stageAt := some 0, stageWaitS := 1 }) { lead with keys := { base.keys with staged := some (2, zeros 32) } }, 0, 2, zeros 32, by decide +kernel⟩,
    ⟨0, 5, 1, unitIn 0x13 lead, tookUnit 0x13 lead, some_of _ _ (by decide +kernel), by decide +kernel⟩,
    ⟨0, [change 1 true], unitIn 0x14 member, tookUnit 0x14 member, some_of _ _ (by decide +kernel), by decide +kernel⟩,
    ⟨0, 5, zeros 64, unitIn 0x30 lead, tookUnit 0x30 lead, some_of _ _ (by decide +kernel), by decide +kernel⟩,
    ⟨0, 5, zeros 64, unitIn 0x30 (roleAs (fun h => { h with aggTail := 1023 }) lead), tookUnit 0x30 (roleAs (fun h => { h with aggTail := 1023 }) lead), some_of _ _ (by decide +kernel), by decide +kernel⟩,
    ⟨1023, base, by decide +kernel⟩,
    ⟨0, 9, unitIn 0x31 base, tookUnit 0x31 base, some_of _ _ (by decide +kernel)⟩⟩

theorem witness_HierarchyPacketCommands :
    (∃ (c : Caller) (s : State) (p : Packet) (t : State), Ready c fabStatusCmd s p t) ∧
    (∃ (c : Caller) (s : State) (p : Packet) (t : State), Ready c fabRoleSetCmd s p t ∧ t.ports.any (·.en) = false ∧ t.roleRange p (t.roleReq p) =
      false ∧ t.hier.activeLead = false ∧ (t.hier.holder = false ∨ (t.roleReq p).holder ≠ 0 ∨ (t.roleReq p).role = 3)) ∧
    (∃ (c : Caller) (s : State) (p : Packet) (t : State), Ready c dkCreateCmd s p t ∧ t.jobOn (conflicts 0x702) 0 = false ∧ t.keys.dks = [] ∧ p.str
      dkCreateFlds 0 = t.hier.domainId ∧ ((t.gen 0).st = .seeded ∨ (t.gen 0).st = .stretched) ∧ t.rng.served.find? (·.1 == c) = none ∧ (t.gen
      0).waiting.length < Config.waitList) ∧
    (∃ (c : Caller) (j : Job) (s : State) (p : Packet) (t : State) (dk : Bytes) (u : State), Resumes c dkCreateCmd j s p t ∧ t.keys.dks = [] ∧ p.str
      dkCreateFlds 0 = t.hier.domainId ∧ t.cmdDraw j.caller 32 true 0 = .inl (dk, u)) ∧
    (∃ (c : Caller) (s : State) (p : Packet) (t : State), Ready c dkRolloverCmd s p t ∧ t.dkVersion ≠ 255 ∧ t.dkVersion ≠ 0 ∧ t.rolling = false ∧
      ((t.gen 0).st = .seeded ∨ (t.gen 0).st = .stretched) ∧ t.rng.served.find? (·.1 == c) = none ∧ (t.gen 0).waiting.length < Config.waitList) ∧
    (∃ (c : Caller) (j : Job) (s : State) (p : Packet) (t : State) (dk : Bytes) (u : State), Resumes c dkRolloverCmd j s p t ∧ t.dkVersion ≠ 255 ∧
      t.dkVersion ≠ 0 ∧ t.rolling = false ∧ t.cmdDraw j.caller 32 true 0 = .inl (dk, u)) ∧
    (∃ (c : Caller) (s : State) (p : Packet) (t : State) (e : DkEntry), Ready c dkStatusCmd s p t ∧ t.keys.dks = [e]) :=
  ⟨
    ⟨mgr, asked 0x700 [], _, _, ready_of _ _ _ (by decide +kernel)⟩,
    ⟨mgr, asked 0x701 roleBody, _, _, ready_of _ _ _ (by decide +kernel), by decide +kernel⟩,
    ⟨mgr, leadAsk 0x702 (zeros 16) false, _, _, ready_q _ _ _ _ (by decide +kernel), by decide +kernel⟩,
    ⟨mgr, jobOf mgr 0x702 (zeros 16), withJob (jobOf mgr 0x702 (zeros 16)) (drawnFor mgr 32 lead), _, _, (leftD ((State.dropJob (jobOf mgr 0x702 (zeros 16)) (withJob (jobOf mgr 0x702 (zeros 16)) (drawnFor mgr 32 lead))).cmdDraw mgr 32 true 0) ([], base)).1, (leftD ((State.dropJob (jobOf mgr 0x702 (zeros 16)) (withJob (jobOf mgr 0x702 (zeros 16)) (drawnFor mgr 32 lead))).cmdDraw mgr 32 true 0) ([], base)).2, ⟨by decide +kernel, by decide +kernel, by decide +kernel, .inl ⟨by decide +kernel, by decide +kernel⟩, by decide +kernel, by decide +kernel, rfl, rfl⟩, by decide +kernel, by decide +kernel, left_of _ ([], base) (by decide +kernel)⟩,
    ⟨mgr, leadAsk 0x703 (layInts [(4, 0), (4, 600)]) true, _, _, ready_q _ _ _ _ (by decide +kernel), by decide +kernel⟩,
    ⟨mgr, jobOf mgr 0x703 (layInts [(4, 0), (4, 600)]), withJob (jobOf mgr 0x703 (layInts [(4, 0), (4, 600)])) (drawnFor mgr 32 (withDk lead)), _, _, (leftD ((State.dropJob (jobOf mgr 0x703 (layInts [(4, 0), (4, 600)])) (withJob (jobOf mgr 0x703 (layInts [(4, 0), (4, 600)])) (drawnFor mgr 32 (withDk lead)))).cmdDraw mgr 32 true 0) ([], base)).1, (leftD ((State.dropJob (jobOf mgr 0x703 (layInts [(4, 0), (4, 600)])) (withJob (jobOf mgr 0x703 (layInts [(4, 0), (4, 600)])) (drawnFor mgr 32 (withDk lead)))).cmdDraw mgr 32 true 0) ([], base)).2, ⟨by decide +kernel, by decide +kernel, by decide +kernel, .inl ⟨by decide +kernel, by decide +kernel⟩, by decide +kernel, by decide +kernel, rfl, rfl⟩, by decide +kernel, by decide +kernel, by decide +kernel, left_of _ ([], base) (by decide +kernel)⟩,
    ⟨mgr, asked 0x704 [] (withDk base), _, _, { version := 1, state := 1, lc := Lc.code .development, domainId := zeros 16, createdSeq := 1, dk := zeros 32 }, ready_of _ _ _ (by decide +kernel), by decide +kernel⟩⟩

theorem witness_ErrorLogHoldsTheFirst :
    (∃ (b : Nat) (_ : Nat) (_ : Nat) (_ : Bool) (_ : Nat) (_ : Nat) (_ : Nat) (s : State), b < 5 ∧ s.hp.errStatus = 0) ∧
    (∃ (b : Nat) (_ : Nat) (_ : Nat) (_ : Bool) (_ : Nat) (_ : Nat) (_ : Nat) (s : State), b < 5 ∧ s.hp.errStatus ≠ 0) ∧
    (∃ (b : Nat) (_ : Nat) (_ : Nat) (_ : Bool) (_ : Nat) (_ : Nat) (_ : Nat) (s : State), b < 5 ∧ s.barsUp = true ∧ s.refusal 0 0x10008 4 true =
      none) :=
  ⟨
    ⟨4, 0x21, 3, true, 2, 42, 0x1000, base, by decide +kernel⟩,
    ⟨4, 0x21, 3, true, 2, 42, 0x1000, { base with hp := { base.hp with errStatus := 1 } }, by decide +kernel⟩,
    ⟨4, 0x21, 3, true, 2, 42, 0x1000, base, by decide +kernel⟩⟩

theorem witness_DefaultMap :
    (∃ (_ : World) (_ : Priv) (_ : AccessType) (a : Nat) (b : Blk) (s : State), blockAt a = some b ∧ s.regionAt a = none) ∧
    (∃ (w : World) (p : Priv) (t : AccessType) (a : Nat) (b : Blk) (s : State), blockAt a = some b ∧ s.regionAt a = none ∧ ∃ (core : ℕ) (_ : Bytes),
      core < 4 ∧ s.coreWorld core = w ∧ (s.world w).up = true ∧ s.admits (.core w p) t a = false) :=
  ⟨
    ⟨.ow, .machine, .read, 0x83FFFFFF, .sram .ow, base, by decide +kernel⟩,
    ⟨.ow, .machine, .read, 0x81FFFFFF, .sram .tw, base, by decide +kernel, by decide +kernel, 3, [], by decide +kernel⟩⟩

theorem witness_LogReplacesTheOldest :
    ∃ (s : State), s.er.flushing = true :=
    ⟨erWith fun r => { r with flushing := true, buffer := [record1], log := [record1] }, by decide +kernel⟩

theorem witness_ModeIsTheMostRestrictive :
    (∃ (before : State) (s : State), (let t := s.settle before; t.md.zeroised = true)) ∧
    (∃ (before : State) (s : State), (let t := s.settle before; t.md.zeroised = false ∧ (t.md.startup = true ∨ t.md.manager = true ∨ t.md.noChannel =
      true ∨ t.md.alarm = true))) ∧
    (∃ (before : State) (s : State), (let t := s.settle before; t.md.zeroised = false ∧ t.md.startup = false ∧ t.md.manager = false ∧ t.md.noChannel
      = false ∧ t.md.alarm = false)) :=
  ⟨
    ⟨base, { base with md := { base.md with zeroised := true } }, by decide +kernel⟩,
    ⟨base, { base with md := { base.md with alarm := true } }, by decide +kernel⟩,
    ⟨base, base, by decide +kernel⟩⟩

theorem witness_CreateRefusedWhenBound :
    ∃ (c : Caller) (s : State) (p : Packet) (t : State), Ready c sliceCreateCmd s p t ∧ (let n := p.int createFlds 0; ((t.slice n).exists_ = true ∨
      t.pasidBound n (p.spec createFlds 1).pasid = true)) :=
    ⟨mgr, asked 0x100 (layBytes ((.int 2, leBytes 2 42) :: specBody)), _, _, ready_of _ _ _ (by decide +kernel), by decide +kernel⟩

theorem witness_StepKeepsSound :
    ∃ (s : State) (t : State), Sound s ∧ step s = .next t :=
    ⟨retiring, nextD (step retiring), (by unfold Sound Recorder.reserved; decide +kernel), next_of _ (by decide +kernel)⟩

theorem witness_StepNeverTakesBack :
    ∃ (s : State) (t : State), Sound s ∧ step s = .next t :=
    ⟨retiring, nextD (step retiring), (by unfold Sound Recorder.reserved; decide +kernel), next_of _ (by decide +kernel)⟩

end Sys2Proof.Tests
end

section
/-! PROOFS of the architecture family: the device mode (R30), and the fence of a lane group or a die bridge (R13). -/

namespace Sys2Proof.Machine

variable (s : State)

/-! ### A channel read after an update -/

/-- A channel reads alike in two states with the same channels. -/
theorem State.ch_congr {s t : State} (h : t.chs = s.chs) (k : Nat) : t.ch k = s.ch k := by simp [State.ch, h]

/-- Two changes of a channel that agree on what is read of it read alike, on whichever channel they are made. -/
theorem State.ch_modCh_agree {α : Type} (g : Channel → α) {f f' : Channel → Channel} (h : ∀ c, g (f c) = g (f' c)) (n k : Nat) :
    g ((s.modCh n f).ch k) = g ((s.modCh n f').ch k) := by
  by_cases hn : n = k
  · subst hn
    by_cases hl : n < s.chs.length
    · rw [s.ch_modCh f hl, s.ch_modCh f' hl, h]
    · simp [State.ch, List.getD_eq_getElem?_getD, hl]
  · rw [s.ch_modCh_ne f hn, s.ch_modCh_ne f' hn]

/-- What a change leaves alone of every channel reads as before, on whichever channel it is made. -/
theorem State.ch_modCh_keeps {α : Type} (g : Channel → α) {f : Channel → Channel} (h : ∀ c, g (f c) = g c) (n k : Nat) :
    g ((s.modCh n f).ch k) = g (s.ch k) := by
  have same : (s.modCh n id).ch k = s.ch k := State.ch_congr (by simp) k
  rw [s.ch_modCh_agree g (f' := id) h, same]

/-! ### The mode after a change (R30) -/

/-- CH_IN_SERVICE depends on the channels' states alone. -/
theorem State.inServiceCount_congr {s t : State} (h : ∀ k, (t.ch k).st = (s.ch k).st) : t.inServiceCount = s.inServiceCount := by
  simp [State.inServiceCount, State.serviceList, Channel.inService, h]

/-- The mode called for depends on the causes and the channels' states: neither on the mode before, nor on MODE_CHANGES or PROMISE_STATUS. -/
theorem State.modeFor_congr {s t : State} {mode : Mode} {changes : Nat} {promise : BitVec 18}
    (md : t.md = { s.md with mode, changes, promise }) (st : ∀ k, (t.ch k).st = (s.ch k).st) : t.modeFor = s.modeFor := by
  simp [State.modeFor, md, State.inServiceCount_congr st]

/-- KEEP_NO_CHANNEL brought up to date, once the start-up is over: the first half of `State.refreshMode`. -/
def State.refreshNoChannel : State :=
  { s with md := { s.md with noChannel := if s.md.startup then s.md.noChannel else s.inServiceCount == 0 } }

/-- DEV_MODE changed to the mode called for, and the change counted: the second half of `State.refreshMode`. -/
def State.changeMode : State := { s with md := { s.md with mode := s.modeFor, changes := (s.md.changes + 1) % 256 } }

/-- A mode that the causes no longer call for is changed, recorded and raised (R38). -/
theorem State.refreshMode_eq (w : Nat) : s.refreshMode w =
    if s.refreshNoChannel.modeFor = s.md.mode then s.refreshNoChannel
    else (s.refreshNoChannel.changeMode.record 0x10 0 0 (pack [(4, w), (4, s.refreshNoChannel.changeMode.modeWord)])).raiseCause 0 := rfl

/-- A refresh of DEV_MODE leaves the mode that its causes call for. -/
theorem State.refreshMode_mode (w : Nat) : (s.refreshMode w).md.mode = (s.refreshMode w).modeFor := by
  rw [State.refreshMode_eq]
  split
  case isTrue same => exact same.symm
  case isFalse =>
    let t := s.refreshNoChannel
    have called (a b c : Nat) (d : Bytes) : ((t.changeMode.record a b c d).raiseCause 0).modeFor = t.modeFor :=
      State.modeFor_congr (by simp only [State.raiseCause_md, State.record_md]; rfl)
        fun k => congrArg Channel.st (State.ch_congr (by simp [State.changeMode]) k)
    rw [called, State.raiseCause_md, State.record_md]
    rfl

/-- A refresh of the promise changes PROMISE_STATUS alone among the mode's fields. -/
@[simp] theorem State.refreshPromise_md :
    s.refreshPromise.md = { s.md with promise := if s.md.promiseOn then s.promiseNow else s.md.promise } := by
  unfold State.refreshPromise
  dsimp only
  split
  · split <;> simp
  · rfl

/-- A self-test that begins leaves the states of the channels. -/
theorem State.startTest_st (n k : Nat) : ((State.startTest n s).ch k).st = (s.ch k).st := by
  unfold State.startTest
  dsimp only
  split
  · exact s.ch_modCh_keeps Channel.st (by intro; rfl) n k
  · rfl

/-- Caps and voltages brought in line leave the states of the channels. -/
theorem State.refreshPower_st (k : Nat) : (s.refreshPower.ch k).st = (s.ch k).st := by
  let st : State → ChState := fun t => (t.ch k).st
  have keeps {f : Nat → State → State} (h : ∀ n t, (f n t).chs = t.chs) (l : List Nat) (t : State) : st (t.each l f) = st t :=
    t.each_keeps st f (fun n u => congrArg Channel.st (State.ch_congr (h n u) k)) l
  unfold State.refreshPower
  calc st _ = st _ := State.each_keeps _ st _ (fun n t => t.startTest_st n k) _
    _ = st _ := keeps (fun n t => t.raisePoint_chs n) _ _
    _ = st _ := keeps (fun g t => t.writeGroup_chs g) _ _
    _ = st s := keeps (fun n t => t.lowerPoint_chs n) _ _

/-- Promise and voltages brought in line leave the mode that the causes call for. -/
theorem State.modeFor_refreshPromise_refreshPower : s.refreshPromise.refreshPower.modeFor = s.modeFor := by
  refine State.modeFor_congr (by rw [State.refreshPower_md, State.refreshPromise_md]) fun k => ?_
  exact (s.refreshPromise.refreshPower_st k).trans (congrArg Channel.st (State.ch_congr s.refreshPromise_chs k))

/-- After what follows of itself, DEV_MODE is the mode that the causes call for. -/
theorem State.settle_mode (before : State) : (s.settle before).md.mode = (s.settle before).modeFor := by
  unfold State.settle
  rw [State.modeFor_refreshPromise_refreshPower, ← State.refreshMode_mode, State.refreshPower_md, State.refreshPromise_md]

/-- The mode called for is the most restrictive of those the causes call for (R30). -/
theorem State.modeFor_mostRestrictive :
    (s.md.zeroised = true → s.modeFor = .zeroised) ∧
    (s.md.zeroised = false → s.md.startup = true ∨ s.md.manager = true ∨ s.md.noChannel = true ∨ s.md.alarm = true → s.modeFor = .keep) ∧
    (s.md.zeroised = false → s.md.startup = false → s.md.manager = false → s.md.noChannel = false → s.md.alarm = false →
      s.modeFor = if 32 ≤ s.inServiceCount then .full else .reduced) := by
  unfold State.modeFor
  refine ⟨fun zeroised => ?_, fun zeroised cause => ?_, fun zeroised startup manager noChannel alarm => ?_⟩
  · rw [if_pos zeroised]
  · have keep : (s.md.startup || s.md.manager || s.md.noChannel || s.md.alarm) = true := by simpa [or_assoc] using cause
    simp [zeroised, keep]
  · simp [zeroised, startup, manager, noChannel, alarm]

/-- Settles O56: `settle` leaves DEV_MODE at `modeFor`, whose branches stand in the order of R30. -/
theorem modeIsTheMostRestrictive : Obligations.ModeIsTheMostRestrictive := by
  intro before s
  dsimp only
  rw [s.settle_mode before]
  exact (s.settle before).modeFor_mostRestrictive

/-! ### The fence of a channel (R13, R174) -/

/-- What a fence decides of a channel: its state and its CREDIT_LIMIT. -/
def Channel.standing (c : Channel) : ChState × Nat := (c.st, c.creditLimit)

/-- A spare released keeps the standing of every channel. -/
theorem State.releaseSpare_standing (k : Nat) : (s.releaseSpare.ch k).standing = (s.ch k).standing := by
  unfold State.releaseSpare
  split
  · exact s.ch_modCh_keeps Channel.standing (by intro; rfl) _ k
  · rfl

/-- A fence of a channel neither FAILED nor under scrub decides its standing, and no other channel's, as going out of service to SCRUB does. -/
theorem State.fenceOut_standing {n : Nat} (failed : (s.ch n).st ≠ .failed) (scrub : (s.ch n).st ≠ .scrub) (cause k : Nat) :
    ((s.fenceOut cause n).ch k).standing = ((s.modCh n fun c => c.outOfService .scrub).ch k).standing := by
  have cause8 (t : State) :
      ((if 3 ≤ t.fences24 n then t.modCh n fun c => { c with fenceCause := 8 } else t).ch k).standing = (t.ch k).standing := by
    split
    · exact t.ch_modCh_keeps Channel.standing (by intro; rfl) n k
    · rfl
  have emptied (t u : State) (h : t.chs = (u.modCh n fun c => { c.loseSessions with pkRun := none }).chs) :
      (t.ch k).standing = (u.ch k).standing := by
    rw [State.ch_congr h]
    exact u.ch_modCh_keeps Channel.standing (by intro; rfl) n k
  have recorded (counted : Bool) (t : State) :
      (((if counted then t.releaseSpare else t).recordChannel n (s.ch n).st .scrub).ch k).standing = (t.ch k).standing := by
    rw [State.ch_congr (State.recordChannel_chs ..)]
    split
    · exact t.releaseSpare_standing k
    · rfl
  simp only [State.fenceOut, if_neg failed, if_neg scrub]
  rw [recorded, emptied _ _ (by rw [State.startWake_chs, State.modDom_chs, State.modGen_chs]), cause8]
  exact s.ch_modCh_agree Channel.standing (by intro; rfl) n k

/-- A descriptor that ends leaves the channels. -/
@[simp] theorem State.finish_chs (id : Nat) (st : Status) (detail : Nat) (r : BitVec 64) : (s.finish id st detail r).chs = s.chs := by
  have admitted (c : Ctx) : (s.admitOffered c).chs = s.chs := by unfold State.admitOffered; split <;> simp
  unfold State.finish
  dsimp only
  split
  · split
    · rfl
    · split <;> simp [admitted]
  · rfl

/-- A descriptor run again, or ended for want of a channel, leaves the channels. -/
@[simp] theorem State.rerunOrFail_chs (id : Nat) : (s.rerunOrFail id).chs = s.chs := by
  have rerun : (s.rerunCtx id).chs = s.chs := by unfold State.rerunCtx; split <;> simp
  unfold State.rerunOrFail
  split
  · split
    · rfl
    · split <;> simp [rerun]
  · rfl

/-- Stranded descriptors that end leave the channels. -/
@[simp] theorem State.failStranded_chs : s.failStranded.chs = s.chs :=
  s.each_keeps State.chs _ (fun id t => t.finish_chs id _ _ _) _

/-- The channels after a fence of one are those that `fenceOut` leaves: what becomes of the descriptors changes none. -/
theorem State.fence_ch (n cause k : Nat) : (s.fence n cause).ch k = (s.fenceOut cause n).ch k := by
  refine State.ch_congr ?_ k
  unfold State.fence State.fenceAll
  rw [State.failStranded_chs, State.each_keeps _ State.chs _ (fun id t => t.rerunOrFail_chs id)]
  rfl

/-- A fence puts a channel that is not FAILED under scrub. -/
theorem State.fence_st {n : Nat} (h : n < s.chs.length) (failed : (s.ch n).st ≠ .failed) (cause : Nat) :
    ((s.fence n cause).ch n).st = .scrub := by
  rw [State.fence_ch]
  by_cases scrub : (s.ch n).st = .scrub
  · simp [State.fenceOut, scrub, State.ch_modCh _ _ h]
  · have out := s.fenceOut_standing failed scrub cause n
    rw [s.ch_modCh _ h] at out
    exact congrArg Prod.fst out

/-- A fence takes the credit of a channel that is neither FAILED nor under scrub. -/
theorem State.fence_creditLimit {n : Nat} (h : n < s.chs.length) (failed : (s.ch n).st ≠ .failed) (scrub : (s.ch n).st ≠ .scrub) (cause : Nat) :
    ((s.fence n cause).ch n).creditLimit = 0 := by
  have out := s.fenceOut_standing failed scrub cause n
  rw [s.ch_modCh _ h] at out
  rw [State.fence_ch]
  exact congrArg Prod.snd out

/-- A fence leaves the state of every other channel. -/
theorem State.fence_st_ne {n k : Nat} (h : k ≠ n) (cause : Nat) : ((s.fence n cause).ch k).st = (s.ch k).st := by
  rw [State.fence_ch]
  by_cases failed : (s.ch n).st = .failed
  · simp [State.fenceOut, failed]
  by_cases scrub : (s.ch n).st = .scrub
  · simp [State.fenceOut, scrub, s.ch_modCh_ne _ h.symm]
  · have out := s.fenceOut_standing failed scrub cause k
    rw [s.ch_modCh_ne _ h.symm] at out
    exact congrArg Prod.fst out

/-- Settles O10: the command is the fence of R13's channels, and a fence takes the channel named out of service and leaves the others' states. -/
theorem laneGroupFailureFences : Obligations.LaneGroupFailureFences := by
  have command (f : LaneFault) (s : State) : exec (.laneGroupFail f) s = execLaneGroupFail f s := rfl
  refine ⟨fun ch s h => ?_, fun s => command _ s, fun s => command _ s,
    fun n cause s h failed => ⟨s.fence_st h failed cause, fun scrub => s.fence_creditLimit h failed scrub cause⟩,
    fun n cause k s h => s.fence_st_ne h cause⟩
  rw [command]
  simp [execLaneGroupFail, h]

end Sys2Proof.Machine
end

section
/-! PROOFS of the host port family: the error log (R71). -/

namespace Sys2Proof.Machine

variable (s : State)

/-! ### The error log, and what leaves it alone -/

/-- HP_ERR_STATUS and the error log: the address, CAUSE, STATUS, WRITE, BAR and SLICE. -/
def HostPort.errorLog (h : HostPort) : BitVec 6 × Nat × Nat × Nat × Bool × Nat × Nat :=
  (h.errStatus, h.errAddr, h.errCause, h.errCode, h.errWrite, h.errBar, h.errSlice)

/-- A vector sent or held leaves the error log. -/
@[simp] theorem State.postVec_errorLog (v : Nat) : (s.postVec v).hp.errorLog = s.hp.errorLog := by
  unfold State.postVec
  split <;> rfl

/-- A change of the link's power state leaves the error log. -/
@[simp] theorem State.setLinkPm_errorLog (pm : Nat) : (s.setLinkPm pm).hp.errorLog = s.hp.errorLog := by
  unfold State.setLinkPm
  split
  · rfl
  · exact State.postVec_errorLog _ 3

/-- The link woken for a TLP leaves the error log. -/
@[simp] theorem State.linkExit_errorLog : s.linkExit.hp.errorLog = s.hp.errorLog := by
  unfold State.linkExit
  dsimp only
  split
  · split
    · simp
    · split <;> simp
  · rfl

/-- A vector raised leaves the error log. -/
@[simp] theorem State.raiseVec_errorLog (v : Nat) : (s.raiseVec v).hp.errorLog = s.hp.errorLog := by
  unfold State.raiseVec
  split <;> simp

/-! ### An error arrives -/

/-- The first error since HP_ERR_STATUS was all zero is the one the log holds. -/
theorem State.hpError_first (b cause code : Nat) (write : Bool) (bar sl addr : Nat) (clear : s.hp.errStatus = 0) :
    (s.hpError b cause code write bar sl addr).hp.errorLog = (BitVec.ofNat 6 (2 ^ b), addr, cause, code, write, bar, sl) := by
  unfold State.hpError
  rw [State.raiseVec_errorLog, if_pos clear]
  rfl

/-- A later error adds its own bit and LOG_OVERFLOW to HP_ERR_STATUS and leaves the rest of the log. -/
theorem State.hpError_later (b cause code : Nat) (write : Bool) (bar sl addr : Nat) (held : s.hp.errStatus ≠ 0) :
    (s.hpError b cause code write bar sl addr).hp.errorLog =
      { s.hp with errStatus := s.hp.errStatus ||| BitVec.ofNat 6 (2 ^ b) ||| 0x20#6 }.errorLog := by
  unfold State.hpError
  rw [State.raiseVec_errorLog, if_neg held]

/-- The status after a later error: its bit and LOG_OVERFLOW are set and no bit is lost. -/
theorem laterStatus_bits {b : Nat} (h : b < 5) (x : BitVec 6) :
    let y := x ||| BitVec.ofNat 6 (2 ^ b) ||| 0x20#6
    y.getLsbD b = true ∧ y.getLsbD 5 = true ∧ y &&& x = x := by
  refine ⟨?_, ?_, ?_⟩
  · have own : (BitVec.ofNat 6 (2 ^ b)).getLsbD b = true := by
      rw [BitVec.getLsbD_ofNat, Nat.testBit_two_pow_self]
      simp only [Bool.and_true, decide_eq_true_eq]
      omega
    rw [BitVec.getLsbD_or, BitVec.getLsbD_or, own, Bool.or_true, Bool.true_or]
  · have overflow : (0x20#6).getLsbD 5 = true := by decide
    rw [BitVec.getLsbD_or, overflow, Bool.or_true]
  · ext i hi
    simp only [BitVec.getElem_and, BitVec.getElem_or]
    cases x[i] <;> simp

/-! ### The host clears the status -/

/-- A host write of a register of BAR0, in reach and not refused, is made. -/
theorem State.hostReg_bar0 {off : Nat} (f : State → State) (up : s.barsUp = true) (fits : off + 4 ≤ 0x1000000)
    (admitted : s.refusal 0 off 4 true = none) : s.hostReg 0 off f = f s := by
  have reached : ¬ (!s.barsUp || decide (barSize 0 < off + 4)) = true := by simpa [up, barSize] using fits
  unfold State.hostReg State.hostAccess
  rw [if_neg reached, admitted]

/-- A clear of HP_ERR_STATUS, in reach and not refused, clears the bits written as 1. -/
theorem exec_hpErrStatusClear (bits : BitVec 6) (up : s.barsUp = true) (admitted : s.refusal 0 0x10008 4 true = none) :
    exec (.hpErrStatusClear bits) s = .next (s.clearErr bits) := by
  have command : exec (.hpErrStatusClear bits) s = execHpErrStatusClear bits s := rfl
  rw [command, execHpErrStatusClear, s.hostReg_bar0 (State.clearErr bits) up (by decide) admitted]

/-- 1s written to every bit leave HP_ERR_STATUS all zero. -/
theorem State.clearErr_all : (s.clearErr 0x3F).hp.errStatus = 0 := by
  have kept : ~~~0x3F#6 = 0#6 := by decide
  exact (congrArg (s.hp.errStatus &&& ·) kept).trans BitVec.and_zero

/-- Settles O53: the vector that an error raises leaves the log, so the log is that of the first error and keeps it until a write of 1s
to every bit. -/
theorem errorLogHoldsTheFirst : Obligations.ErrorLogHoldsTheFirst := by
  intro b cause code write bar sl addr s hb
  refine ⟨fun clear => ?_, fun held => ?_, fun up admitted =>
    ⟨_, exec_hpErrStatusClear s 0x3F up admitted, s.clearErr_all⟩⟩
  · simpa [HostPort.errorLog] using s.hpError_first b cause code write bar sl addr clear
  · have log := s.hpError_later b cause code write bar sl addr held
    simp only [HostPort.errorLog, Prod.mk.injEq] at log
    obtain ⟨status, unchanged⟩ := log
    obtain ⟨own, overflow, kept⟩ := laterStatus_bits hb s.hp.errStatus
    rw [status]
    exact ⟨own, overflow, kept, unchanged⟩

end Sys2Proof.Machine
end

section
/-! PROOFS of the slices family: SLICE_CREATE refused (R85). -/

namespace Sys2Proof.Machine

variable (s : State)

/-! ### The slice table, the interrupt entries and the keys, and what leaves them alone -/

/-- The slice table, the slice interrupt table and the keys. -/
def State.tables : List Slice × List (Nat × IntEntry) × Custody := (s.slices, s.ints, s.keys)

/-- A packet accepted leaves the tables. -/
@[simp] theorem State.accept_tables (c : Caller) : (s.accept c).tables = s.tables := by cases c <;> rfl

/-- An assembly that a packet meets is a matter of its mailbox: the tables stay. -/
@[simp] theorem State.meetAssembly_tables (c : Caller) (p : Packet) : (s.meetAssembly c p).tables = s.tables := by
  unfold State.meetAssembly
  split
  · dsimp only
    split
    · split <;> rfl
    · rfl
  · rfl

/-- A challenge consumed leaves the tables. -/
@[simp] theorem State.consume_tables (c : Caller) : (s.consume c).tables = s.tables := rfl

/-- An assembly that ends leaves the tables. -/
@[simp] theorem State.endAssembly_tables (c : Caller) : (s.endAssembly c).tables = s.tables := by
  unfold State.endAssembly
  split
  · split <;> rfl
  · rfl

/-- A command that reads no key's row and no slice master key checks no row. -/
theorem State.checkReads_none {k : Cmd} {p : Packet} (keys : k.keys p = []) (smk : k.readsSmk = false) (w : Who) :
    s.checkReads k w p = s := by
  unfold State.checkReads
  rw [keys, smk]
  cases w <;> rfl

/-- Up to the run of a command that reads no rows the tables stand as they were. -/
theorem Ready.tables {c : Caller} {k : Cmd} {s t : State} {q : Packet} (h : Ready c k s q t) (keys : k.keys q = [])
    (smk : k.readsSmk = false) : t.tables = s.tables := by
  obtain ⟨hdr, area, -, -, -, -, -, -, -, -, -, -, -, -, -, -, -, -, rfl⟩ := h
  rw [State.checkReads_none _ keys smk, State.endAssembly_tables]
  split <;> simp

/-! ### The reply to a caller without a slice -/

/-- The caller is not a slice's own mailbox: a notification of its reply goes through no slice interrupt (R353, R357). -/
def outsideSlices (c : Caller) : Prop := ∀ m, c = .mbx m → Config.mgrMailbox ≤ m

/-- The authority of a manager is no slice mailbox's. -/
theorem Ready.caller_outsideSlices {c : Caller} {k : Cmd} {s t : State} {q : Packet} (h : Ready c k s q t) (auth : k.auth = authMgr) :
    outsideSlices c := by
  obtain ⟨hdr, area, -, -, -, -, -, -, manager, -⟩ := h
  rintro m rfl
  by_contra slice
  simp [auth, State.who, whoBox, authMgr, Nat.lt_of_not_le slice] at manager

/-- A manager mailbox notified of a reply leaves the tables: its interrupt is a vector. -/
theorem State.notify_tables {m : Nat} (manager : Config.mgrMailbox ≤ m) : (s.notify m).tables = s.tables := by
  unfold State.notify
  dsimp only
  split
  · rfl
  · simp [State.tables]

/-- A reply written to a caller that is no slice's mailbox leaves the tables. -/
theorem State.deliverReply_tables {c : Caller} (h : outsideSlices c) (hdr body : Bytes) (st : Status) :
    (s.deliverReply c hdr body st).tables = s.tables := by
  cases c with
  | mbx m => exact State.notify_tables _ (h m rfl)
  | gate g =>
    unfold State.deliverReply
    dsimp only
    split <;> simp [State.tables]
  | card p => rfl

/-- A reply to a caller that is no slice's mailbox leaves the tables. -/
theorem State.reply_tables {c : Caller} (h : outsideSlices c) (log : RecKind) (p : Packet) (st : Status) (detail obj part count : Nat)
    (body : Bytes) : (s.reply c log p st detail obj part count body).tables = s.tables := by
  have recorded : (if log == .command then s.recordCommand (s.sourceOf c) p st obj else s).tables = s.tables := by
    split
    · simp [State.tables, State.recordCommand]
    · rfl
  have unbound (t : State) : { t with dual := { t.dual with chal := { t.dual.chal with boundTo := none } } }.tables = t.tables := rfl
  unfold State.reply
  dsimp only
  rw [apply_ite State.tables, unbound, ite_self, State.deliverReply_tables _ h, recorded]

/-! ### The refusal -/

/-- A run that is refused is refused at once: nothing is held for the reply. -/
theorem atReply_refused {run : Run} {c : Caller} {p : Packet} {st : Status} {n : Nat} {s : State} (h : run c p false s = refused st n s)
    (notDone : st ≠ .done) : atReply run c p false s = refused st n s := by
  simp [atReply, h, refused, notDone]

/-- SLICE_CREATE of a slice that exists, or of a PASID bound to another, is refused (R85). -/
theorem sliceCreateRun_bound (c : Caller) (p : Packet) (again : Bool) {s : State}
    (bound : (s.slice (p.int createFlds 0)).exists_ = true ∨ s.pasidBound (p.int createFlds 0) (p.spec createFlds 1).pasid = true) :
    sliceCreateRun c p again s = refused .sliceBusy (p.int createFlds 0) s := by
  unfold sliceCreateRun
  exact if_pos (by simpa [or_assoc] using Or.inl bound)

/-- Settles O57: the refusal changes the caller's mailbox or slot and the event log, and its caller, with a manager's authority, is notified
through no slice interrupt. -/
theorem createRefusedWhenBound : Obligations.CreateRefusedWhenBound := by
  intro c s p t ready n bound
  have command : exec (.sliceCreate c) s = execSliceCreate c s := rfl
  have refusal : atReply sliceCreateRun c p false t = refused .sliceBusy n t :=
    atReply_refused (sliceCreateRun_bound c p false bound) (by decide)
  have before := ready.tables rfl rfl
  have after := t.reply_tables (ready.caller_outsideSlices rfl) (logOf 0x100) p .sliceBusy 0 n p.part p.partCount []
  simp only [State.tables, Prod.mk.injEq] at before after
  obtain ⟨slices, ints, keys⟩ := after
  refine ⟨?_, slices, ints, keys, before⟩
  rw [command, execSliceCreate, State.command_ready ready, refusal]
  rfl

end Sys2Proof.Machine
end

section
/-! PROOFS of the rings family: the submission tail's doorbell (R127). -/

namespace Sys2Proof.Machine

variable (s : State)

/-- A host write of a register, in reach of its BAR and not refused, is made. -/
theorem State.hostReg_admitted {bar off : Nat} (f : State → State) (up : s.barsUp = true) (fits : off + 4 ≤ barSize bar)
    (admitted : s.refusal bar off 4 true = none) : s.hostReg bar off f = f s := by
  have reached : ¬ (!s.barsUp || decide (barSize bar < off + 4)) = true := by simpa [up] using fits
  unfold State.hostReg State.hostAccess
  rw [if_neg reached, admitted]

/-- The ring pair that a slice answers with stands in its table. -/
theorem State.rings_of_ring? {n p : Nat} {r : RingPair} (ring : s.ring? n p = some r) : (s.slice n).rings[p]? = some r := by
  unfold State.ring? at ring
  dsimp only at ring
  split at ring
  · exact ring
  · cases ring

/-- A change of a ring pair that the slice has is decided by what the change makes of that pair. -/
theorem State.modRing_of_ring? {n p : Nat} {r : RingPair} {f g : RingPair → RingPair} (ring : s.ring? n p = some r) (h : f r = g r) :
    s.modRing n p f = s.modRing n p g := by
  refine s.modRing_congr fun x stands => ?_
  have same : x = r := Option.some.inj (stands.symm.trans (s.rings_of_ring? ring))
  rw [same, h]

/-- The range of R127: below the ring size, and forward from SQ_TAIL no further than the entry before SQ_HEAD. -/
def RingPair.AcceptsTail (r : RingPair) (value : Nat) : Prop :=
  value < r.sqSize ∧ (value + r.sqSize - r.sqTail) % r.sqSize ≤ (r.sqHead + r.sqSize - 1 - r.sqTail + r.sqSize) % r.sqSize

/-- A recorded doorbell in range moves SQ_TAIL and nothing else. -/
theorem State.sqTailWrite_accepted {n p value : Nat} {r : RingPair} (recorded : s.doorbellOk n p = true) (ring : s.ring? n p = some r)
    (inRange : r.AcceptsTail value) : s.sqTailWrite n p value = s.modRing n p fun x => { x with sqTail := value } := by
  unfold State.sqTailWrite
  rw [if_neg (by simp [recorded])]
  exact s.modRing_of_ring? ring (if_pos inRange)

/-- A recorded doorbell out of range sets DB_RANGE and nothing else. -/
theorem State.sqTailWrite_dropped {n p value : Nat} {r : RingPair} (recorded : s.doorbellOk n p = true) (ring : s.ring? n p = some r)
    (outside : ¬ r.AcceptsTail value) : s.sqTailWrite n p value = s.modRing n p fun x => { x with dbRange := true } := by
  unfold State.sqTailWrite
  rw [if_neg (by simp [recorded])]
  exact s.modRing_of_ring? ring (if_neg outside)

/-- The host's write of SQ_TAIL, in reach and not refused, is the doorbell. -/
theorem exec_sqTail {slice rp : Nat} (value : Nat) (up : s.barsUp = true) (fits : ringOff slice rp 0 + 4 ≤ barSize 2)
    (admitted : s.refusal 2 (ringOff slice rp 0) 4 true = none) :
    exec (.sqTail slice rp value) s = .next (s.sqTailWrite slice rp value) := by
  have command : exec (.sqTail slice rp value) s = execSqTail slice rp value s := rfl
  rw [command, execSqTail, s.hostReg_admitted (State.sqTailWrite slice rp value) up fits admitted]

/-- Settles O7: the admitted write is the doorbell, and the ring pair named decides by R127's range which of its two changes is made. -/
theorem submissionTailDoorbell : Obligations.SubmissionTailDoorbell := by
  intro slice rp value s r up fits admitted recorded ring
  exact ⟨s.sqTailWrite slice rp value, exec_sqTail s value up fits admitted,
    fun inRange => s.sqTailWrite_accepted recorded ring inRange, fun outside => s.sqTailWrite_dropped recorded ring outside⟩

end Sys2Proof.Machine
end

section
/-! PROOFS of the worlds family: the default map (R446). -/

namespace Sys2Proof.Machine

variable (s : State)

/-! ### The default map -/

/-- A world's own half of Serow SRAM is open to every access type, the other half to none. -/
theorem State.defaultMap_sram (w h : World) (t : AccessType) : s.defaultMap w t (.sram h) = true ↔ h = w :=
  beq_iff_eq

/-- Outside Serow SRAM the map admits loads and stores at what is assigned to the world, and no fetch. -/
theorem State.defaultMap_outside_sram {b : Blk} (outside : ∀ h, b ≠ .sram h) (w : World) (t : AccessType) :
    s.defaultMap w t b = true ↔ t ≠ .execute ∧ s.periphWorld b = some w := by
  unfold State.defaultMap
  split
  case h_1 h => exact absurd rfl (outside h)
  case h_2 => simp

/-- The default map, over every block (R446). -/
theorem State.defaultMap_iff (w : World) (t : AccessType) (b : Blk) :
    s.defaultMap w t b = true ↔ b = .sram w ∨ (t ≠ .execute ∧ (∀ h, b ≠ .sram h) ∧ s.periphWorld b = some w) := by
  by_cases inside : ∃ h, b = .sram h
  · obtain ⟨h, rfl⟩ := inside
    simp [s.defaultMap_sram]
  · have outside : ∀ h, b ≠ .sram h := not_exists.mp inside
    simp [s.defaultMap_outside_sram outside, outside]

/-! ### Admission where no entry matches -/

/-- Where no entry matches, a core outside user mode is judged by the default map. -/
theorem State.admits_core_unmatched {a : Nat} {b : Blk} (block : blockAt a = some b) (unmatched : s.regionAt a = none)
    (w : World) (p : Priv) (t : AccessType) : s.admits (.core w p) t a = true ↔ p ≠ .user ∧ s.defaultMap w t b = true := by
  simp [State.admits, block, unmatched]

/-- Where no entry matches, a master that is no Serow core is admitted to nothing. -/
theorem State.admits_unmatched_of_not_core {a : Nat} (unmatched : s.regionAt a = none) (m : Master)
    (notCore : ∀ w p, m ≠ .core w p) (t : AccessType) : s.admits m t a = false := by
  unfold State.admits
  rw [unmatched]
  cases blockAt a with
  | none => rfl
  | some b =>
    cases m with
    | core w p => exact absurd rfl (notCore w p)
    | host | channel | debug => rfl

/-! ### The fault -/

/-- An access of a core that is up and not admitted is a fault of the core's world (R447). -/
theorem exec_serowAccess_not_admitted {core a : Nat} {w : World} {p : Priv} {t : AccessType} (data : Bytes) (isCore : core < 4)
    (world : s.coreWorld core = w) (up : (s.world w).up = true) (denied : s.admits (.core w p) t a = false) :
    exec (.serowAccess core p t a data) s = .next (s.serowFault w p t a) := by
  subst world
  have command : exec (.serowAccess core p t a data) s = execSerowAccess core p t a data s := rfl
  have running : ¬ (4 ≤ core || !(s.world (s.coreWorld core)).up) = true := by simp [up, isCore]
  rw [command, execSerowAccess, if_neg running, if_pos (by simp [denied])]

/-- Settles O54: where no entry matches, the default map judges the cores, the other masters are admitted to nothing, and a core's access that is
not admitted is its world's fault. -/
theorem defaultMap : Obligations.DefaultMap := by
  intro w p t a b s block unmatched
  have others (m : Master) (notCore : ∀ w p, m ≠ .core w p) : s.admits m t a = false :=
    s.admits_unmatched_of_not_core unmatched m notCore t
  refine ⟨?_, others .host nofun, others .channel nofun, others .debug nofun, ?_⟩
  · rw [s.admits_core_unmatched block unmatched, s.defaultMap_iff]
  · intro core data isCore world up denied
    exact exec_serowAccess_not_admitted s data isCore world up denied

end Sys2Proof.Machine
end

section
/-! PROOFS of the event recorder family: the flush of a full log (R491). -/

namespace Sys2Proof.Machine

/-! ### The records that give way -/

/-- How many of the records held are more than the log has room for. -/
def Recorder.excess (r : Recorder) : Nat := (r.log ++ r.buffer).length - Config.logRecords

/-- The records written are those held, in order, without the oldest in excess. -/
theorem Recorder.toLog_log (r : Recorder) : r.toLog.log = (r.log ++ r.buffer).drop r.excess := by
  have taken : ((r.log ++ r.buffer).take r.excess).length = r.excess := List.length_take_of_le (Nat.sub_le ..)
  unfold Recorder.toLog
  dsimp only
  rw [← Recorder.excess, taken]

/-- The log written is never over its size. -/
theorem Recorder.toLog_log_length_le (r : Recorder) : r.toLog.log.length ≤ Config.logRecords := by
  rw [r.toLog_log, List.length_drop, Recorder.excess]
  omega

/-- Among the records that gave way, those above ACK_SEQ are counted. -/
theorem Recorder.toLog_overwritten (r : Recorder) : r.toLog.overwritten =
    sat 32 (r.overwritten + (((r.log ++ r.buffer).take r.excess).filter fun x => r.ackSeq < x.seq).length) := by
  unfold Recorder.toLog
  dsimp only
  rw [← Recorder.excess]

/-- With no record waiting, the oldest record held is the log's. -/
theorem Recorder.oldestSeq_of_buffer_nil {r : Recorder} (empty : r.buffer = []) :
    r.oldestSeq = ((r.log.head?).map (·.seq)).getD r.nextSeq := by
  rw [Recorder.oldestSeq, Recorder.held, empty, List.append_nil]

/-! ### The flush -/

variable (s : State)

/-- The check of ACK_WARN changes the recorder only in that it notes the condition. -/
theorem State.checkAck_er : s.checkAck.er = { s.er with warned := s.er.ackOver } := by
  unfold State.checkAck
  dsimp only
  split
  · rw [State.raiseCause_er]
  · rfl

/-- The recorder after a flush: the records written to the log, the flush over, CLEAN and ACK_WARN's condition judged anew. -/
theorem State.flushLog_er : s.flushLog.er =
    { s.er.toLog with flushing := false, powerFlush := false, lastFlush := s.glob.uptimeMs,
                      clean := s.er.powerFlush || (s.er.clean && s.er.buffer.isEmpty), warned := s.er.toLog.ackOver } := by
  unfold State.flushLog
  dsimp only
  split
  · simp only [State.raiseCause_er, State.checkAck_er, Recorder.ackOver]
  · simp only [State.checkAck_er, Recorder.ackOver]

/-- The end of a running flush is the write of its records. -/
theorem exec_erFlushDone (running : s.er.flushing = true) : exec .erFlushDone s = .next s.flushLog := by
  have command : exec .erFlushDone s = execErFlushDone s := rfl
  rw [command, execErFlushDone, if_neg (by simp [running])]

/-- Settles O55: the flush writes `toLog`, which drops the excess from the oldest end and counts what it drops above ACK_SEQ, and it leaves no
record waiting, so OLDEST_SEQ is that of the log's first record. -/
theorem logReplacesTheOldest : Obligations.LogReplacesTheOldest := by
  intro s running
  have written := s.flushLog_er
  have log : s.flushLog.er.log = s.er.toLog.log := by rw [written]
  have buffer : s.flushLog.er.buffer = [] := by rw [written]; rfl
  have nextSeq : s.flushLog.er.nextSeq = s.er.nextSeq := by rw [written]; rfl
  have overwritten : s.flushLog.er.overwritten = s.er.toLog.overwritten := by rw [written]
  refine ⟨s.flushLog, exec_erFlushDone s running, log.trans s.er.toLog_log, buffer, ?_, ?_, ?_⟩
  · rw [log]
    exact s.er.toLog_log_length_le
  · rw [Recorder.oldestSeq_of_buffer_nil buffer, log, nextSeq, s.er.toLog_log, Recorder.excess]
  · rw [overwritten, s.er.toLog_overwritten, Recorder.excess]

end Sys2Proof.Machine
end

section
/-! PROOFS of the whole machine: what every step keeps, and what none takes back (R310 to R312, R489, R580). -/

namespace Sys2Proof.Machine

variable {s t u : State}

/-! ### The table of R310, and what a step comes to -/

/-- A lifecycle state stands, or moves along the table of R310. -/
def Lc.Moves (a b : Lc) : Prop :=
  b = a ∨ (a = .blank ∧ (b = .development ∨ b = .production)) ∨ (a = .production ∧ b = .returned) ∨
    ((a = .development ∨ a = .production ∨ a = .returned) ∧ b = .retired)

/-- The transitions of LC_TRANSITION stand in the table. -/
theorem Lc.moves_of_goesTo {a b : Lc} (goes : a.goesTo b = true) : a.Moves b := by
  cases a <;> cases b <;> simp_all [Lc.goesTo, Lc.Moves]

/-- A sound state comes of a sound one, and takes nothing back that no step takes back. -/
structure Advances (s t : State) : Prop where
  sound : Sound t
  pending : t.pending = s.pending
  nextSeq : s.er.nextSeq ≤ t.er.nextSeq
  floors : s.renewal.Keeps t.renewal
  reRoots : s.keys.reRoots ≤ t.keys.reRoots
  lc : s.keys.lc.Moves t.keys.lc

theorem Sound.reserved (h : Sound s) : s.er.reserved := by
  obtain ⟨-, -, -, -, -, -, -, -, -, -, -, -, reserved, -⟩ := h
  exact reserved

theorem Sound.noTarget (h : Sound s) : s.keys.lcTarget = none := by
  obtain ⟨-, -, -, -, -, -, -, -, -, -, -, -, -, target, -⟩ := h
  exact target

theorem Sound.quiet (h : Sound s) : ∀ j ∈ s.mail.running, j.quiet := by
  obtain ⟨-, -, -, -, -, -, -, -, -, -, -, -, -, -, quiet, -⟩ := h
  exact quiet

/-- The queue is no part of soundness. -/
theorem Sound.withPending (h : Sound s) (l : List Instr) : Sound { s with pending := l } := h

theorem Evolves.advances (e : Evolves s t) (h : Sound s) : Advances s t where
  sound := e.sound h
  pending := e.pending
  nextSeq := (e.er h.reserved).2
  floors := e.renewal
  reRoots := by
    obtain ⟨-, -, reRoots, -⟩ := e.keys
    exact reRoots
  lc := .inl e.keys.1

/-! ### A transition set down -/

/-- The target of a lifecycle transition, set or taken away. -/
def State.setTarget (target : Option Lc) (s : State) : State := s.modKeys fun k => { k with lcTarget := target }

/-- The lifecycle state put at a value. -/
def State.withLc (lc : Lc) (s : State) : State := s.modKeys fun k => { k with lc := lc }

/-- `t` comes of `s` by operations of which one sets down a transition that the table of R310 has. -/
def Targets (s t : State) : Prop := ∃ u x, Evolves s u ∧ s.keys.lc.Moves x ∧ Evolves (u.setTarget (some x)) t

theorem Targets.trans (d : Targets s t) (e : Evolves t u) : Targets s u := by
  obtain ⟨v, x, before, moves, after⟩ := d
  exact ⟨v, x, before, moves, after.trans e⟩

/-- A target that is gone at the end has not been. -/
theorem Evolves.of_setTarget {target : Option Lc} (e : Evolves (s.setTarget target) t) (gone : t.keys.lcTarget = none) : Evolves s t where
  pending := e.pending
  chs := e.chs
  rng := e.rng
  keys := by
    obtain ⟨lc, -, reRoots, spareRows⟩ := e.keys
    exact ⟨lc, .inr gone, reRoots, spareRows⟩
  mail := e.mail
  dual := e.dual
  worlds := e.worlds
  tamper := e.tamper
  er := e.er
  ports := e.ports
  power := e.power
  renewal := e.renewal

/-- The lifecycle state is no part of soundness. -/
theorem Sound.of_withLc {lc : Lc} (h : Sound (s.withLc lc)) : Sound s := h

/-! ### The transition taken (R312) -/

@[simp] theorem State.fuse_lc (target : Lc) : (s.fuse target).keys.lc = target := by
  unfold State.fuse
  dsimp only
  split <;> rfl

@[simp] theorem State.fuse_lcTarget (target : Lc) : (s.fuse target).keys.lcTarget = none := by
  unfold State.fuse
  dsimp only
  split <;> rfl

/-- The fuses written, but for the lifecycle state they move. -/
theorem State.fuse_evolves (target : Lc) (e : Evolves s t) : Evolves s ((t.fuse target).withLc t.keys.lc) := by
  have erased : Evolves s t.eraseKeys := State.eraseKeys_evolves t e
  have lc : t.eraseKeys.keys.lc = t.keys.lc := (State.eraseKeys_evolves t (.refl t)).keys.1
  have keys (k : Custody) (hk : k.lc = t.keys.lc) : Custody.Keeps k
      { k with lc := t.keys.lc, reRoots := if k.lc = target then k.reRoots + 1 else k.reRoots, lcTarget := none,
               lcPending := if target = .retired then none else some target } := by
    refine ⟨hk.symm, .inr rfl, ?_, id⟩
    dsimp only
    split
    · exact Nat.le_succ _
    · exact Nat.le_refl _
  unfold State.fuse
  dsimp only
  split
  · exact erased.trans ⟨rfl, id, Rng.keeps_refl _, keys _ lc, Mail.keeps_refl _, ⟨id, fun _ => rfl⟩, Worlds.keeps_refl _, id, Recorder.keeps_refl _, id,
      Power.keeps_refl _, Renewal.keeps_refl _⟩
  · exact erased.trans ⟨rfl, id, Rng.keeps_refl _, keys _ lc, Mail.keeps_refl _, Dual.keeps_refl _, Worlds.keeps_refl _, id, Recorder.keeps_refl _, id,
      Power.keeps_refl _, Renewal.keeps_refl _⟩

theorem State.lifecycleStep_of_none (none : s.keys.lcTarget = none) : s.lifecycleStep = s := by
  rw [State.lifecycleStep, none]

theorem State.lifecycleStep_of_some {x : Lc} (some : s.keys.lcTarget = some x) : s.lifecycleStep = (s.fuse x).lifecycleReset := by
  rw [State.lifecycleStep, some]

/-- No transition begun, none taken. -/
theorem Evolves.lifecycleStep_advances (e : Evolves s t) (h : Sound s) : Advances s t.lifecycleStep := by
  rw [State.lifecycleStep_of_none (e.sound h).noTarget]
  exact e.advances h

/-- A transition that the table has is taken along it. -/
theorem Targets.lifecycleStep_advances (d : Targets s t) (h : Sound s) : Advances s t.lifecycleStep := by
  obtain ⟨u, x, before, moves, after⟩ := d
  obtain ⟨lc, target, -⟩ := after.keys
  rcases target with target | gone
  · have target : t.keys.lcTarget = some x := target
    rw [State.lifecycleStep_of_some target]
    have fused : Evolves s ((t.fuse x).withLc t.keys.lc) :=
      before.trans (Evolves.of_setTarget (State.fuse_evolves x after) (State.fuse_lcTarget x))
    have reset : Evolves (t.fuse x) (t.fuse x).lifecycleReset := State.lifecycleReset_evolves _ (.refl _)
    have soundFused : Sound (t.fuse x) := (fused.sound h).of_withLc
    have here := fused.advances h
    have there := reset.advances soundFused
    have taken : (t.fuse x).lifecycleReset.keys.lc = x := reset.keys.1.trans (State.fuse_lc x)
    exact
      { sound := there.sound
        pending := there.pending.trans here.pending
        nextSeq := Nat.le_trans here.nextSeq there.nextSeq
        floors := ⟨Nat.le_trans here.floors.1 there.floors.1, Nat.le_trans here.floors.2.1 there.floors.2.1, Nat.le_trans here.floors.2.2 there.floors.2.2⟩
        reRoots := Nat.le_trans here.reRoots there.reRoots
        lc := by rw [taken]; exact moves }
  · rw [State.lifecycleStep_of_none gone]
    exact (before.trans (after.of_setTarget gone)).advances h

/-- What follows a lifecycle command's reply: nothing, or the transition it set down. -/
theorem lifecycleStep_advances (o : Evolves s t ∨ Targets s t) (h : Sound s) : Advances s t.lifecycleStep :=
  o.elim (·.lifecycleStep_advances h) (·.lifecycleStep_advances h)

/-! ### The two lifecycle commands -/

/-- A run that evolves, or sets down a transition of the table and is done. -/
def Ran.Sets (s : State) : Ran → Prop
  | .done _ _ _ _ t => Evolves s t ∨ Targets s t
  | _ => False

theorem State.conclude_sets {r : Ran} (sets : r.Sets s) (c : Caller) (log : RecKind) (p : Packet) :
    Evolves s (State.conclude c log p r) ∨ Targets s (State.conclude c log p r) := by
  cases r with
  | done st detail body obj t =>
    have reply : Evolves t (State.conclude c log p (.done st detail body obj t)) := State.reply_evolves _ _ _ _ _ _ _ _ _ _ (.refl t)
    exact sets.imp (·.trans reply) (·.trans reply)
  | part => exact sets.elim
  | hold => exact sets.elim

/-- A packet whose run sets down at most a transition of the table. -/
theorem State.checked_sets (c : Caller) (k : Cmd) (run : Run) (p : Packet)
    (sets : ∀ q v, Evolves t v → k.auth t (t.who c) (t.ruling c k p) = true → (run c q false v).Sets v) :
    Evolves t (State.checked c k run p t) ∨ Targets t (State.checked c k run p t) := by
  rcases State.checked_cases c k run p t (.refl t) with e | ⟨log, q, v, e, ran, -, auth⟩
  · exact .inl e
  · rw [ran]
    refine (State.conclude_sets (sets q v e auth) c log q).imp e.trans ?_
    rintro ⟨w, x, before, moves, after⟩
    exact ⟨w, x, e.trans before, e.keys.1 ▸ moves, after⟩

/-- Operations before a transition set down. -/
theorem Evolves.targets (e : Evolves s t) (d : Targets t u) : Targets s u := by
  obtain ⟨v, x, before, moves, after⟩ := d
  exact ⟨v, x, e.trans before, e.keys.1 ▸ moves, after⟩

theorem State.command_sets (c : Caller) (k : Cmd) (run : Run)
    (sets : ∀ q t v p, Evolves t v → k.auth t (t.who c) (t.ruling c k p) = true → (run c q false v).Sets v) :
    Evolves s (State.command c k run s) ∨ Targets s (State.command c k run s) := by
  unfold State.command
  split
  · extract_lets p
    split
    · exact .inl (.refl s)
    · have met : Evolves s ((s.accept c).meetAssembly c p) := State.meetAssembly_evolves _ _ _ (State.accept_evolves _ _ (.refl s))
      have settled : ∀ v, Evolves v (v.settle s) := fun v => State.settle_evolves _ _ (.refl v)
      rcases State.checked_sets c k run p (t := (s.accept c).meetAssembly c p) fun q v => sets q _ v p with e | d
      · exact .inl ((met.trans e).trans (settled _))
      · exact .inr ((met.targets d).trans (settled _))
  · exact .inl (.refl s)

/-- LC_PERSONALISE leads out of BLANK alone (R310). -/
theorem lcPersonaliseRun_sets (c : Caller) (p : Packet) (b : Bool) (blank : s.keys.lc = .blank) : (lcPersonaliseRun c p b s).Sets s := by
  unfold lcPersonaliseRun
  split
  · rename_i x _
    split
    · rename_i leads
      have named : Evolves s (s.modKeys fun k =>
          { k with subsysVendor := p.int personaliseLcFlds 1, subsysId := p.int personaliseLcFlds 2,
                   boardLabel := p.str personaliseLcFlds 3 }) :=
        State.modKeys_evolves _ _ (.refl s) fun k => ⟨rfl, .inl rfl, Nat.le_refl _, id⟩
      exact .inr ⟨_, x, named, .inr (.inl ⟨blank, leads⟩), State.clearCounts_evolves _ (.refl _)⟩
    · exact .inl (.refl s)
  · exact .inl (.refl s)

/-- LC_TRANSITION goes along the table of R310. -/
theorem lcTransitionRun_sets (c : Caller) (p : Packet) (b : Bool) : (lcTransitionRun c p b s).Sets s := by
  unfold lcTransitionRun
  split
  · rename_i x _
    split
    · exact .inl (.refl s)
    · rename_i goes
      have goes : s.keys.lc.goesTo x = true := by simpa using goes
      split
      · exact .inl (.refl s)
      split
      · exact .inl (.refl s)
      · exact .inr ⟨s, x, .refl s, Lc.moves_of_goesTo goes, .refl _⟩
  · exact .inl (.refl s)

/-- What a command answers, of a sound state. -/
def Progress (s : State) (o : Host.Outcome State Fault Refusal) : Prop := ∀ t, o = .next t → Advances s t

theorem Progress.next (a : Advances s t) : Progress s (.next t) := by
  rintro _ ⟨⟩
  exact a

theorem Answers.progress {o : Host.Outcome State Fault Refusal} (a : Answers s o) (h : Sound s) : Progress s o := fun t next => (a t next).advances h

theorem execLcPersonalise_advances (h : Sound s) (c : Caller) : Progress s (execLcPersonalise c s) := by
  refine .next (lifecycleStep_advances (State.command_sets c lcPersonaliseCmd lcPersonaliseRun fun q t v p e auth => ?_) h)
  refine lcPersonaliseRun_sets c q false (e.keys.1.trans ?_)
  have auth : (t.keys.lc == .blank && authBox t (t.who c) (t.ruling c lcPersonaliseCmd p)) = true := auth
  simp only [Bool.and_eq_true, beq_iff_eq] at auth
  exact auth.1

theorem execLcTransition_advances (h : Sound s) (c : Caller) : Progress s (execLcTransition c s) :=
  .next (lifecycleStep_advances (State.command_sets c lcTransitionCmd lcTransitionRun fun q _ _ _ _ _ => lcTransitionRun_sets c q false) h)

/-! ### Proposals of the card ports (R393) -/

/-- Of the commands a card port proposes, LC_TRANSITION alone sets down a transition, and none goes on running. -/
theorem proposal_sets {op : Nat} {k : Cmd} {run : Run} (row : proposalOf op = some (k, run)) (c : Caller) (p : Packet) :
    Evolves t (State.checked c k run p t) ∨ Targets t (State.checked c k run p t) := by
  unfold proposalOf at row
  split at row <;> cases row
  · exact State.checked_sets c lcTransitionCmd lcTransitionRun p fun q v _ _ => lcTransitionRun_sets c q false
  · exact .inl (State.checked_evolves c zeroiseCmd zeroiseRun p t (.refl t) (fun q u e => zeroiseRun_evolves c q false u e) (.inr fun _ _ => trivial))
  · refine .inl (State.checked_evolves c devResumeAlarmCmd devResumeAlarmRun p t (.refl t) (fun q u e => devResumeAlarmRun_evolves c q false u e)
      (.inr fun _ _ => ?_))
    unfold devResumeAlarmRun
    split <;> trivial
  · refine .inl (State.checked_evolves c cellWindowOpenCmd cellWindowOpenRun p t (.refl t) (fun q u e => cellWindowOpenRun_evolves c q false u e)
      (.inr fun _ _ => ?_))
    unfold cellWindowOpenRun
    dsimp only
    split
    · trivial
    · split <;> trivial
  · refine .inl (State.checked_evolves c cellWindowCloseCmd cellWindowCloseRun p t (.refl t) (fun q u e => cellWindowCloseRun_evolves c q false u e)
      (.inr fun _ _ => ?_))
    unfold cellWindowCloseRun
    split <;> trivial

/-- A proposal that runs, with what follows its reply, after what led to its count. -/
theorem State.runProposal_advances (h : Sound s) (e : Evolves s t) : Advances s t.runProposal := by
  unfold State.runProposal
  dsimp only
  split
  · exact e.advances h
  · split
    · exact e.advances h
    · split
      · rename_i p _ _ _ hdr body k run _ row
        have after (v : State) : Evolves v (v.settle t).zeroiseStep := State.zeroiseStep_evolves _ (State.settle_evolves _ _ (.refl v))
        have checked := proposal_sets (t := t) row (.card p) (mkPacket (putAt hdr 0x10 (leBytes 8 t.dual.chal.id)) body k.data)
        exact lifecycleStep_advances (checked.imp (fun checked => (e.trans checked).trans (after _)) fun checked => (e.targets checked).trans (after _)) h
      · exact e.advances h

theorem execQuorumApprove_advances (h : Sound s) (c : Caller) : Progress s (execQuorumApprove c s) :=
  .next (State.runProposal_advances h (State.command_evolves c quorumApproveCmd quorumApproveRun s (.refl s)
    (fun c q t e => quorumApproveRun_evolves c q false t e) (.inl (by decide))))

theorem State.cardApproval_advances (h : Sound s) (p : Nat) (sig : Bytes) : Advances s (s.cardApproval p sig) := by
  unfold State.cardApproval
  extract_lets c s1
  have e1 : Evolves s s1 := State.modCard_evolves _ _ _ (.refl s)
  split
  · exact (State.askCards_evolves _ (State.modCard_evolves _ _ _ e1)).advances h
  · exact State.runProposal_advances h (State.askCards_evolves _ (State.modCard_evolves _ _ _ (State.approve_evolves_snd _ _ _ _ e1)))

theorem execCardResponse_advances (h : Sound s) (p sw : Nat) (data : Bytes) : Progress s (execCardResponse p sw data s) := by
  have evolves {v : State} (e : Evolves s v) : Progress s (.next v) := .next (e.advances h)
  have refuse : Evolves s (s.refuseCard p (some sw)) := State.refuseCard_evolves _ _ _ (.refl s)
  unfold execCardResponse
  split
  · exact evolves (.refl s)
  split
  · exact evolves (.refl s)
  · split
    · exact evolves (State.sendApdu_evolves _ _ _ _ (.refl s))
    · exact evolves refuse
  · split
    · exact evolves (State.cardIdentity_evolves _ _ _ (.refl s))
    · exact evolves refuse
  · split
    · exact evolves (State.cardProposal_evolves _ _ _ (.refl s))
    split
    · exact evolves (State.askCards_evolves _ (State.modCard_evolves _ _ _ (.refl s)))
    · exact evolves refuse
  · split
    · exact .next (State.cardApproval_advances h p data)
    · exact evolves refuse

/-! ### Every command, and every step -/

/-- From a sound state every command advances. -/
theorem exec_advances (h : Sound s) (c : Instr) : Progress s (exec c s) := by
  have evolves {o : Host.Outcome State Fault Refusal} (a : Answers s o) : Progress s o := a.progress h
  cases c with
  | registerWrite via off data => exact evolves (execRegisterWrite_evolves via off data s (.refl s))
  | stagedCommitApply blk => exact evolves (execStagedCommitApply_evolves blk s (.refl s))
  | hostLinkTrained speed width flit => exact evolves (execHostLinkTrained_evolves speed width flit s (.refl s))
  | linkLoss kind => exact evolves (execLinkLoss_evolves kind s (.refl s))
  | tlpAck count => exact evolves (execTlpAck_evolves count s (.refl s))
  | atsInvalidate tag pasid page pages => exact evolves (execAtsInvalidate_evolves tag pasid page pages s (.refl s))
  | atsInvalidateComplete tag => exact evolves (execAtsInvalidateComplete_evolves tag s (.refl s))
  | dmaReadCompletion ctx part r => exact evolves (execDmaReadCompletion_evolves ctx part r s (.refl s))
  | dmaCompletionTimeout ctx part addr => exact evolves (execDmaCompletionTimeout_evolves ctx part addr s (.refl s))
  | barAccessRefused bar off len write => exact evolves (execBarAccessRefused_evolves bar off len write s (.refl s))
  | hpErrStatusClear bits => exact evolves (execHpErrStatusClear_evolves bits s (.refl s))
  | mask entry value => exact evolves (execMask_evolves entry value s (.refl s))
  | mctpRequest t m body => exact evolves (execMctpRequest_evolves t m body s (.refl s))
  | pldmActivateFirmware img => exact evolves (execPldmActivateFirmware_evolves img s (.refl s))
  | spdmRequest t r => exact evolves (execSpdmRequest_evolves t r s (.refl s))
  | sqTail slice rp value => exact evolves (execSqTail_evolves slice rp value s (.refl s))
  | cqHead slice rp value => exact evolves (execCqHead_evolves slice rp value s (.refl s))
  | restart slice rp => exact evolves (execRestart_evolves slice rp s (.refl s))
  | descriptorArrival slice rp a => exact evolves (execDescriptorArrival_evolves slice rp a s (.refl s))
  | descriptorAdmit slice rp => exact evolves (execDescriptorAdmit_evolves slice rp s (.refl s))
  | blobUnwrap ctx blob => exact evolves (execBlobUnwrap_evolves ctx blob s (.refl s))
  | entryIssue ctx tagOk => exact evolves (execEntryIssue_evolves ctx tagOk s (.refl s))
  | nop ctx => exact evolves (execNop_evolves ctx s (.refl s))
  | encrypt ctx => exact evolves (execEncrypt_evolves ctx s (.refl s))
  | decrypt ctx => exact evolves (execDecrypt_evolves ctx s (.refl s))
  | wrap ctx => exact evolves (execWrap_evolves ctx s (.refl s))
  | unwrap ctx => exact evolves (execUnwrap_evolves ctx s (.refl s))
  | digest ctx => exact evolves (execDigest_evolves ctx s (.refl s))
  | keyedDigest ctx => exact evolves (execKeyedDigest_evolves ctx s (.refl s))
  | crc ctx => exact evolves (execCrc_evolves ctx s (.refl s))
  | random ctx => exact evolves (execRandom_evolves ctx s (.refl s))
  | rsaPublic ctx => exact evolves (execRsaPublic_evolves ctx s (.refl s))
  | rsaPrivate ctx => exact evolves (execRsaPrivate_evolves ctx s (.refl s))
  | rsaSignPss ctx => exact evolves (execRsaSignPss_evolves ctx s (.refl s))
  | rsaSignPkcs1 ctx => exact evolves (execRsaSignPkcs1_evolves ctx s (.refl s))
  | rsaVerifyPss ctx => exact evolves (execRsaVerifyPss_evolves ctx s (.refl s))
  | rsaVerifyPkcs1 ctx => exact evolves (execRsaVerifyPkcs1_evolves ctx s (.refl s))
  | rsaDecryptOaep ctx => exact evolves (execRsaDecryptOaep_evolves ctx s (.refl s))
  | rsaEncryptOaep ctx => exact evolves (execRsaEncryptOaep_evolves ctx s (.refl s))
  | ecdsaSign ctx => exact evolves (execEcdsaSign_evolves ctx s (.refl s))
  | ecdsaVerify ctx => exact evolves (execEcdsaVerify_evolves ctx s (.refl s))
  | ecdh ctx => exact evolves (execEcdh_evolves ctx s (.refl s))
  | eddsaSign ctx => exact evolves (execEddsaSign_evolves ctx s (.refl s))
  | eddsaVerify ctx => exact evolves (execEddsaVerify_evolves ctx s (.refl s))
  | mlkemEncaps ctx => exact evolves (execMlkemEncaps_evolves ctx s (.refl s))
  | mlkemDecaps ctx => exact evolves (execMlkemDecaps_evolves ctx s (.refl s))
  | mldsaSign ctx => exact evolves (execMldsaSign_evolves ctx s (.refl s))
  | mldsaVerify ctx => exact evolves (execMldsaVerify_evolves ctx s (.refl s))
  | modExp ctx => exact evolves (execModExp_evolves ctx s (.refl s))
  | modMul ctx => exact evolves (execModMul_evolves ctx s (.refl s))
  | modInv ctx => exact evolves (execModInv_evolves ctx s (.refl s))
  | modReduce ctx => exact evolves (execModReduce_evolves ctx s (.refl s))
  | pkComputeEnd ch elapsedNs => exact evolves (execPkComputeEnd_evolves ch elapsedNs s (.refl s))
  | pacerRelease ch => exact evolves (execPacerRelease_evolves ch s (.refl s))
  | paceOverrun ch => exact evolves (execPaceOverrun_evolves ch s (.refl s))
  | pkWipeComplete ch => exact evolves (execPkWipeComplete_evolves ch s (.refl s))
  | segmentComplete ctx => exact evolves (execSegmentComplete_evolves ctx s (.refl s))
  | contextMove ctx => exact evolves (execContextMove_evolves ctx s (.refl s))
  | completionRecord ctx cqFault => exact evolves (execCompletionRecord_evolves ctx cqFault s (.refl s))
  | chainAbandonTimeout slice rp => exact evolves (execChainAbandonTimeout_evolves slice rp s (.refl s))
  | serviceWindowEnd meas => exact evolves (execServiceWindowEnd_evolves meas s (.refl s))
  | opMinRaise ch => exact evolves (execOpMinRaise_evolves ch s (.refl s))
  | drainTimeout ch => exact evolves (execDrainTimeout_evolves ch s (.refl s))
  | drainComplete ch => exact evolves (execDrainComplete_evolves ch s (.refl s))
  | laneGroupFail f => exact evolves (execLaneGroupFail_evolves f s (.refl s))
  | channelFence ch cause => exact evolves (execChannelFence_evolves ch cause s (.refl s))
  | scrubComplete ch => exact evolves (execScrubComplete_evolves ch s (.refl s))
  | selftestComplete ch katOk rateOk => exact evolves (execSelftestComplete_evolves ch katOk rateOk s (.refl s))
  | spillHoldExpire slice rp port => exact evolves (execSpillHoldExpire_evolves slice rp port s (.refl s))
  | spillReq port w => exact evolves (execSpillReq_evolves port w s (.refl s))
  | spillResult port w => exact evolves (execSpillResult_evolves port w s (.refl s))
  | spillRefuse port xid => exact evolves (execSpillRefuse_evolves port xid s (.refl s))
  | sessionOpen ch sx ctrl => exact evolves (execSessionOpen_evolves ch sx ctrl s (.refl s))
  | sessionAbandon ch sx => exact evolves (execSessionAbandon_evolves ch sx s (.refl s))
  | sessionSave ch sx => exact evolves (execSessionSave_evolves ch sx s (.refl s))
  | sessionRestore ch sx => exact evolves (execSessionRestore_evolves ch sx s (.refl s))
  | sessionCompare ch sx => exact evolves (execSessionCompare_evolves ch sx s (.refl s))
  | feed ch sx data => exact evolves (execFeed_evolves ch sx data s (.refl s))
  | lastCnt ch sx n => exact evolves (execLastCnt_evolves ch sx n s (.refl s))
  | crcValue ch sx value => exact evolves (execCrcValue_evolves ch sx value s (.refl s))
  | sessionAbsorb ch sx => exact evolves (execSessionAbsorb_evolves ch sx s (.refl s))
  | mbxGo m => exact evolves (execMbxGo_evolves m s (.refl s))
  | commandReply c => exact evolves (execCommandReply_evolves c s h.quiet (.refl s))
  | devInfo c => exact evolves (execDevInfo_evolves c s (.refl s))
  | mgrChallenge c => exact evolves (execMgrChallenge_evolves c s (.refl s))
  | mgrOpen c => exact evolves (execMgrOpen_evolves c s (.refl s))
  | mgrClose c => exact evolves (execMgrClose_evolves c s (.refl s))
  | mgrCredSet c => exact evolves (execMgrCredSet_evolves c s (.refl s))
  | devKeep c => exact evolves (execDevKeep_evolves c s (.refl s))
  | devResume c => exact evolves (execDevResume_evolves c s (.refl s))
  | devResumeAlarm c => exact evolves (execDevResumeAlarm_evolves c s (.refl s))
  | sliceCreate c => exact evolves (execSliceCreate_evolves c s (.refl s))
  | sliceModify c => exact evolves (execSliceModify_evolves c s (.refl s))
  | sliceQuiesce c => exact evolves (execSliceQuiesce_evolves c s (.refl s))
  | sliceQuiesceDone slice => exact evolves (execSliceQuiesceDone_evolves slice s (.refl s))
  | sliceResume c => exact evolves (execSliceResume_evolves c s (.refl s))
  | sliceReset c => exact evolves (execSliceReset_evolves c s (.refl s))
  | sliceRemove c => exact evolves (execSliceRemove_evolves c s (.refl s))
  | sliceFenceEnd slice => exact evolves (execSliceFenceEnd_evolves slice s (.refl s))
  | sliceQuery c => exact evolves (execSliceQuery_evolves c s (.refl s))
  | ringArm c => exact evolves (execRingArm_evolves c s (.refl s))
  | ringDisarm c => exact evolves (execRingDisarm_evolves c s (.refl s))
  | ringQuery c => exact evolves (execRingQuery_evolves c s (.refl s))
  | chFence c => exact evolves (execChFence_evolves c s (.refl s))
  | chReturn c => exact evolves (execChReturn_evolves c s (.refl s))
  | rngReseed c => exact evolves (execRngReseed_evolves c s (.refl s))
  | rngPersonalise c => exact evolves (execRngPersonalise_evolves c s (.refl s))
  | rngRecover c => exact evolves (execRngRecover_evolves c s (.refl s))
  | rngSelftest c => exact evolves (execRngSelftest_evolves c s (.refl s))
  | rngRawCapture c => exact evolves (execRngRawCapture_evolves c s (.refl s))
  | keyGenerate c => exact evolves (execKeyGenerate_evolves c s (.refl s))
  | keyImportWrapped c => exact evolves (execKeyImportWrapped_evolves c s (.refl s))
  | keyImportClear c => exact evolves (execKeyImportClear_evolves c s (.refl s))
  | keyExportWrapped c => exact evolves (execKeyExportWrapped_evolves c s (.refl s))
  | keyExportPublic c => exact evolves (execKeyExportPublic_evolves c s (.refl s))
  | keySaveBlob c => exact evolves (execKeySaveBlob_evolves c s (.refl s))
  | keyLoadBlob c => exact evolves (execKeyLoadBlob_evolves c s (.refl s))
  | keyDerive c => exact evolves (execKeyDerive_evolves c s (.refl s))
  | keyDelete c => exact evolves (execKeyDelete_evolves c s (.refl s))
  | keySetPolicy c => exact evolves (execKeySetPolicy_evolves c s (.refl s))
  | keyQuery c => exact evolves (execKeyQuery_evolves c s (.refl s))
  | keysetGet c => exact evolves (execKeysetGet_evolves c s (.refl s))
  | keysetSet c => exact evolves (execKeysetSet_evolves c s (.refl s))
  | lcPersonalise c => exact execLcPersonalise_advances h c
  | lcTransition c => exact execLcTransition_advances h c
  | importAssemblyTimeout m => exact evolves (execImportAssemblyTimeout_evolves m s (.refl s))
  | keySweep bad => exact evolves (execKeySweep_evolves bad s (.refl s))
  | quorumChallenge c => exact evolves (execQuorumChallenge_evolves c s (.refl s))
  | quorumApprove c => exact execQuorumApprove_advances h c
  | custodianEnrol c => exact evolves (execCustodianEnrol_evolves c s (.refl s))
  | custodianRemove c => exact evolves (execCustodianRemove_evolves c s (.refl s))
  | quorumSet c => exact evolves (execQuorumSet_evolves c s (.refl s))
  | cellWindowOpen c => exact evolves (execCellWindowOpen_evolves c s (.refl s))
  | cellWindowClose c => exact evolves (execCellWindowClose_evolves c s (.refl s))
  | zeroise c => exact evolves (execZeroise_evolves c s (.refl s))
  | cardInsert p => exact evolves (execCardInsert_evolves p s (.refl s))
  | cardResponse p sw data => exact execCardResponse_advances h p sw data
  | cardTimeout p => exact evolves (execCardTimeout_evolves p s (.refl s))
  | cardRemove p => exact evolves (execCardRemove_evolves p s (.refl s))
  | identityGet c => exact evolves (execIdentityGet_evolves c s (.refl s))
  | measurementsGet c => exact evolves (execMeasurementsGet_evolves c s (.refl s))
  | bootRecordGet c => exact evolves (execBootRecordGet_evolves c s (.refl s))
  | imagePolicySet c => exact evolves (execImagePolicySet_evolves c s (.refl s))
  | gateVerdict g => exact evolves (execGateVerdict_evolves g s (.refl s))
  | hostFlashAccess flash addr len op => exact evolves (execHostFlashAccess_evolves flash addr len op s (.refl s))
  | erRead c => exact evolves (execErRead_evolves c s (.refl s))
  | erClear c => exact evolves (execErClear_evolves c s (.refl s))
  | tamperStatus c => exact evolves (execTamperStatus_evolves c s (.refl s))
  | tamperConfig c => exact evolves (execTamperConfig_evolves c s (.refl s))
  | fabStatus c => exact evolves (execFabStatus_evolves c s (.refl s))
  | fabRoleSet c => exact evolves (execFabRoleSet_evolves c s (.refl s))
  | dkCreate c => exact evolves (execDkCreate_evolves c s (.refl s))
  | dkRollover c => exact evolves (execDkRollover_evolves c s (.refl s))
  | dkStatus c => exact evolves (execDkStatus_evolves c s (.refl s))
  | pwrDomainSet c => exact evolves (execPwrDomainSet_evolves c s (.refl s))
  | pwrStatus c => exact evolves (execPwrStatus_evolves c s (.refl s))
  | fwUpdate c => exact evolves (execFwUpdate_evolves c s (.refl s))
  | mcUpdate c => exact evolves (execMcUpdate_evolves c s (.refl s))
  | owUpdate c => exact evolves (execOwUpdate_evolves c s (.refl s))
  | worldStatus c => exact evolves (execWorldStatus_evolves c s (.refl s))
  | extensionCommand m => exact evolves (execExtensionCommand_evolves m s (.refl s))
  | extensionReply m status detail body => exact evolves (execExtensionReply_evolves m status detail body s (.refl s))
  | extensionTimeout m => exact evolves (execExtensionTimeout_evolves m s (.refl s))
  | call g => exact evolves (execCall_evolves g s (.refl s))
  | mcChannelUpdateStep ch image katOk oldKatOk => exact evolves (execMcChannelUpdateStep_evolves ch image katOk oldKatOk s (.refl s))
  | imageFlashWrite kind readBackOk => exact evolves (execImageFlashWrite_evolves kind readBackOk s (.refl s))
  | service core => exact evolves (execService_evolves core s (.refl s))
  | fatal core => exact evolves (execFatal_evolves core s (.refl s))
  | watchdogExpire core => exact evolves (execWatchdogExpire_evolves core s (.refl s))
  | serowMemoryError w => exact evolves (execSerowMemoryError_evolves w s (.refl s))
  | twRestartComplete r => exact evolves (execTwRestartComplete_evolves r s (.refl s))
  | owRestartComplete r => exact evolves (execOwRestartComplete_evolves r s (.refl s))
  | serowAccess core priv t addr data => exact evolves (execSerowAccess_evolves core priv t addr data s (.refl s))
  | admCommit w => exact evolves (execAdmCommit_evolves w s (.refl s))
  | admCommitApply w => exact evolves (execAdmCommitApply_evolves w s (.refl s))
  | dbgStatus r => exact evolves (execDbgStatus_evolves r s (.refl s))
  | dbgRead r => exact evolves (execDbgRead_evolves r s (.refl s))
  | dbgWrite r => exact evolves (execDbgWrite_evolves r s (.refl s))
  | portReset r => exact evolves (execPortReset_evolves r s (.refl s))
  | tamperEvent src scope persists => exact evolves (execTamperEvent_evolves src scope persists s (.refl s))
  | sourceRearm src => exact evolves (execSourceRearm_evolves src s (.refl s))
  | throttleEnd src => exact evolves (execThrottleEnd_evolves src s (.refl s))
  | fenceEnd src => exact evolves (execFenceEnd_evolves src s (.refl s))
  | loopReading clean => exact evolves (execLoopReading_evolves clean s (.refl s))
  | cellArm cell => exact evolves (execCellArm_evolves cell s (.refl s))
  | cellLow cell => exact evolves (execCellLow_evolves cell s (.refl s))
  | integrityFail u => exact evolves (execIntegrityFail_evolves u s (.refl s))
  | fwNoteRequest w body => exact evolves (execFwNoteRequest_evolves w body s (.refl s))
  | erAck value => exact evolves (execErAck_evolves value s (.refl s))
  | pwrFailAssert droop => exact evolves (execPwrFailAssert_evolves droop s (.refl s))
  | mainSuppliesGood b => exact evolves (execMainSuppliesGood_evolves b s (.refl s))
  | bankWarmupEnd d => exact evolves (execBankWarmupEnd_evolves d s (.refl s))
  | bankStartupTestPass d => exact evolves (execBankStartupTestPass_evolves d s (.refl s))
  | bankBlock bank raw => exact evolves (execBankBlock_evolves bank raw s (.refl s))
  | healthTestFail d count => exact evolves (execHealthTestFail_evolves d count s (.refl s))
  | drbgInstantiate inst => exact evolves (execDrbgInstantiate_evolves inst s (.refl s))
  | drbgReseed inst => exact evolves (execDrbgReseed_evolves inst s (.refl s))
  | drawRequest w len pr => exact evolves (execDrawRequest_evolves w len pr s (.refl s))
  | go w => exact evolves (execGo_evolves w s (.refl s))
  | en port value => exact evolves (execEn_evolves port value s (.refl s))
  | retrain port => exact evolves (execRetrain_evolves port s (.refl s))
  | fpSignalDetect port => exact evolves (execFpSignalDetect_evolves port s (.refl s))
  | fpTrainComplete port lanes => exact evolves (execFpTrainComplete_evolves port lanes s (.refl s))
  | linkInit port ix => exact evolves (execLinkInit_evolves port ix s (.refl s))
  | auth port a => exact evolves (execAuth_evolves port a s (.refl s))
  | data port f => exact evolves (execData_evolves port f s (.refl s))
  | ctrl port f => exact evolves (execCtrl_evolves port f s (.refl s))
  | keyUpdate port f => exact evolves (execKeyUpdate_evolves port f s (.refl s))
  | keyUpdateDue port => exact evolves (execKeyUpdateDue_evolves port s (.refl s))
  | retryTimeout port => exact evolves (execRetryTimeout_evolves port s (.refl s))
  | nakTimer port => exact evolves (execNakTimer_evolves port s (.refl s))
  | ackTimer port => exact evolves (execAckTimer_evolves port s (.refl s))
  | fabricWake port => exact evolves (execFabricWake_evolves port s (.refl s))
  | hello port role dev domainId identity term applied level holder => exact evolves (execHello_evolves port role dev domainId identity term applied level holder s (.refl s))
  | route port added withdrawn => exact evolves (execRoute_evolves port added withdrawn s (.refl s))
  | beat port term lead commitSerial => exact evolves (execBeat_evolves port term lead commitSerial s (.refl s))
  | beatAck port dev term => exact evolves (execBeatAck_evolves port dev term s (.refl s))
  | voteReq port term applied => exact evolves (execVoteReq_evolves port term applied s (.refl s))
  | vote port dev term pending => exact evolves (execVote_evolves port dev term pending s (.refl s))
  | change port c => exact evolves (execChange_evolves port c s (.refl s))
  | commit port term serial => exact evolves (execCommit_evolves port term serial s (.refl s))
  | changeAck port serial devs => exact evolves (execChangeAck_evolves port serial devs s (.refl s))
  | syncReq port src serial => exact evolves (execSyncReq_evolves port src serial s (.refl s))
  | sync port b => exact evolves (execSync_evolves port b s (.refl s))
  | remoteReq port w => exact evolves (execRemoteReq_evolves port w s (.refl s))
  | remoteResult port w => exact evolves (execRemoteResult_evolves port w s (.refl s))
  | remoteRefuse port xid => exact evolves (execRemoteRefuse_evolves port xid s (.refl s))
  | remoteTimeout xid => exact evolves (execRemoteTimeout_evolves xid s (.refl s))
  | record port src recs => exact evolves (execRecord_evolves port src recs s (.refl s))
  | recordAck port seq => exact evolves (execRecordAck_evolves port seq s (.refl s))
  | sleepEntry d => exact evolves (execSleepEntry_evolves d s (.refl s))
  | deepEntry d => exact evolves (execDeepEntry_evolves d s (.refl s))
  | domainWake d src => exact evolves (execDomainWake_evolves d src s (.refl s))
  | domainExitDone d => exact evolves (execDomainExitDone_evolves d s (.refl s))
  | wakePin inWindow => exact evolves (execWakePin_evolves inWindow s (.refl s))
  | regulatorSettled g mv => exact evolves (execRegulatorSettled_evolves g mv s (.refl s))
  | regulatorFault g mv => exact evolves (execRegulatorFault_evolves g mv s (.refl s))
  | regulatorPoll g mv ma => exact evolves (execRegulatorPoll_evolves g mv ma s (.refl s))
  | cellInRange cell => exact evolves (execCellInRange_evolves cell s (.refl s))
  | rocChange junctionOk vhuOk railsOk => exact evolves (execRocChange_evolves junctionOk vhuOk railsOk s (.refl s))
  | hostLinkPmChange pm => exact evolves (execHostLinkPmChange_evolves pm s (.refl s))
  | msixTableWrite vector addr data masked => exact evolves (execMsixTableWrite_evolves vector addr data masked s (.refl s))
  | aggHead value => exact evolves (execAggHead_evolves value s (.refl s))
  | dbgBusAccessComplete ok data => exact evolves (execDbgBusAccessComplete_evolves ok data s (.refl s))
  | selftestSettleTimeout ch => exact evolves (execSelftestSettleTimeout_evolves ch s (.refl s))
  | spillPathLoss port => exact evolves (execSpillPathLoss_evolves port s (.refl s))
  | cardSupplyShort p => exact evolves (execCardSupplyShort_evolves p s (.refl s))
  | fpInitRetry port => exact evolves (execFpInitRetry_evolves port s (.refl s))
  | authRetry port => exact evolves (execAuthRetry_evolves port s (.refl s))
  | laneMarginFail port lane => exact evolves (execLaneMarginFail_evolves port lane s (.refl s))
  | fecUncorrectableLimit port => exact evolves (execFecUncorrectableLimit_evolves port s (.refl s))
  | regulatorRetry g mv => exact evolves (execRegulatorRetry_evolves g mv s (.refl s))
  | linkReturn => exact evolves (execLinkReturn_evolves s (.refl s))
  | functionLevelReset => exact evolves (execFunctionLevelReset_evolves s (.refl s))
  | perstAssert => exact evolves (execPerstAssert_evolves s (.refl s))
  | perstRelease => exact evolves (execPerstRelease_evolves s (.refl s))
  | d3hotEntry => exact evolves (execD3hotEntry_evolves s (.refl s))
  | d0Return => exact evolves (execD0Return_evolves s (.refl s))
  | keyEpochAdvance => exact evolves (execKeyEpochAdvance_evolves s (.refl s))
  | challengeExpire => exact evolves (execChallengeExpire_evolves s (.refl s))
  | cellWindowExpire => exact evolves (execCellWindowExpire_evolves s (.refl s))
  | bootRecordWrite => exact evolves (execBootRecordWrite_evolves s (.refl s))
  | fwTrialEnd => exact evolves (execFwTrialEnd_evolves s (.refl s))
  | bypass => exact evolves (execBypass_evolves s (.refl s))
  | idcode => exact evolves (execIdcode_evolves s (.refl s))
  | samplePreload => exact evolves (execSamplePreload_evolves s (.refl s))
  | extest => exact evolves (execExtest_evolves s (.refl s))
  | clamp => exact evolves (execClamp_evolves s (.refl s))
  | highz => exact evolves (execHighz_evolves s (.refl s))
  | vaultLinkFail => exact evolves (execVaultLinkFail_evolves s (.refl s))
  | erFlushTimer => exact evolves (execErFlushTimer_evolves s (.refl s))
  | erFlushDone => exact evolves (execErFlushDone_evolves s (.refl s))
  | erLostRecover => exact evolves (execErLostRecover_evolves s (.refl s))
  | pwrFailRelease => exact evolves (execPwrFailRelease_evolves s (.refl s))
  | sysPwrgdLow => exact evolves (execSysPwrgdLow_evolves s (.refl s))
  | ready => exact evolves (execReady_evolves s (.refl s))
  | beatTimer => exact evolves (execBeatTimer_evolves s (.refl s))
  | leaseExpire => exact evolves (execLeaseExpire_evolves s (.refl s))
  | voteTimeout => exact evolves (execVoteTimeout_evolves s (.refl s))
  | dkActivateIssue => exact evolves (execDkActivateIssue_evolves s (.refl s))
  | partitionTimeout => exact evolves (execPartitionTimeout_evolves s (.refl s))
  | offEntry => exact evolves (execOffEntry_evolves s (.refl s))

/-- From a sound state a step advances, but for the command it takes from the queue. -/
theorem step_advances (h : Sound s) (next : step s = .next t) : ∃ l, (l = s.pending ∨ ∃ c, s.pending = c :: l) ∧ Advances { s with pending := l } t := by
  unfold step at next
  split at next
  · cases next
    exact ⟨s.pending, .inl rfl, (Evolves.refl s).advances h⟩
  · rename_i c rest queue
    exact ⟨rest, .inr ⟨c, queue⟩, exec_advances (s := { s with pending := rest }) (h.withPending rest) c t next⟩

/-- Settles O59: every command but the lifecycle ones evolves the state, and a lifecycle transition is taken whole in its step. -/
theorem stepKeepsSound : Obligations.StepKeepsSound := by
  intro s t sound next
  obtain ⟨l, -, advances⟩ := step_advances sound next
  exact advances.sound

/-- Settles O60: by the same account of a step. -/
theorem stepNeverTakesBack : Obligations.StepNeverTakesBack := by
  intro s t sound next
  obtain ⟨l, queue, advances⟩ := step_advances sound next
  obtain ⟨tw, ow, mc⟩ := advances.floors
  refine ⟨advances.nextSeq, tw, ow, mc, advances.reRoots, advances.lc, ?_⟩
  rw [advances.pending]
  exact queue

end Sys2Proof.Machine
end

section
/-! PROOFS of the host port: the link, its returns and resets (R57, R59, R75 to R82). -/

namespace Sys2Proof.Machine

variable (s : State)

/-! ### What messages leave of the host port -/

/-- The host port but for what a message moves: TLPs that wait, the PBA, the link's power state and the translation cache. -/
def HostPort.standing (h : HostPort) : HostPort := { h with tx := [], pba := [], linkPm := 0, ats := [] }

@[simp] theorem State.postVec_standing (v : Nat) : (s.postVec v).hp.standing = s.hp.standing := by
  unfold State.postVec
  split <;> rfl

@[simp] theorem State.setLinkPm_standing (pm : Nat) : (s.setLinkPm pm).hp.standing = s.hp.standing := by
  unfold State.setLinkPm
  split
  · rfl
  · exact State.postVec_standing _ 3

@[simp] theorem State.linkExit_standing : s.linkExit.hp.standing = s.hp.standing := by
  unfold State.linkExit
  dsimp only
  split
  · split
    · simp
    · split
      · simp
      · exact s.setLinkPm_standing 0
  · rfl

@[simp] theorem State.push_standing (o : Out) : (s.push o).hp.standing = s.hp.standing := rfl

@[simp] theorem State.translate_standing (p a l : Nat) : (s.translate p a l).hp.standing = s.hp.standing := rfl

@[simp] theorem State.emit_standing (o : Out) : (s.emit o).hp.standing = s.hp.standing := by
  unfold State.emit
  dsimp only
  split <;> simp

@[simp] theorem State.raiseVec_standing (v : Nat) : (s.raiseVec v).hp.standing = s.hp.standing := by
  unfold State.raiseVec
  split <;> simp

@[simp] theorem State.raiseCause_standing (b : Nat) : (s.raiseCause b).hp.standing = s.hp.standing := by
  unfold State.raiseCause
  rw [State.raiseVec_standing]
  rfl

@[simp] theorem State.sliceInt_standing (e n : Nat) : (s.sliceInt e n).hp.standing = s.hp.standing := by
  unfold State.sliceInt
  dsimp only
  split
  · split <;> simp
  · rfl

@[simp] theorem State.writeRec_standing (typ src grade : Nat) (m : Bool) (b : Bytes) :
    (s.writeRec typ src grade m b).hp.standing = s.hp.standing := by
  unfold State.writeRec
  dsimp only
  split
  · split <;> exact State.raiseCause_standing _ 2
  · split <;> rfl

@[simp] theorem State.writeLost_standing : s.writeLost.hp.standing = s.hp.standing := by
  unfold State.writeLost
  split
  · split
    · exact State.writeRec_standing _ ..
    · rfl
  · rfl

@[simp] theorem State.record_standing (typ src grade : Nat) (b : Bytes) : (s.record typ src grade b).hp.standing = s.hp.standing := by
  simp [State.record, State.recordM]

/-- The note of a changed link leaves what a raised cause leaves. -/
theorem State.noteLink_keeps {α : Type} (g : State → α) (h : ∀ t : State, g (t.raiseCause 3) = g t) (before : State) : g (s.noteLink before) = g s := by
  unfold State.noteLink
  split
  · rfl
  · exact h s

@[simp] theorem State.noteLink_keys (before : State) : (s.noteLink before).keys = s.keys := s.noteLink_keeps State.keys (·.raiseCause_keys 3) before
@[simp] theorem State.noteLink_mail (before : State) : (s.noteLink before).mail = s.mail := s.noteLink_keeps State.mail (·.raiseCause_mail 3) before
@[simp] theorem State.noteLink_ints (before : State) : (s.noteLink before).ints = s.ints := s.noteLink_keeps State.ints (·.raiseCause_ints 3) before
@[simp] theorem State.noteLink_er (before : State) : (s.noteLink before).er = s.er := s.noteLink_keeps State.er (·.raiseCause_er 3) before
@[simp] theorem State.noteLink_md (before : State) : (s.noteLink before).md = s.md := s.noteLink_keeps State.md (·.raiseCause_md 3) before
@[simp] theorem State.noteLink_slices (before : State) : (s.noteLink before).slices = s.slices :=
  s.noteLink_keeps State.slices (·.raiseCause_slices 3) before
@[simp] theorem State.noteLink_worlds (before : State) : (s.noteLink before).worlds = s.worlds :=
  s.noteLink_keeps State.worlds (·.raiseCause_worlds 3) before

@[simp] theorem State.noteLink_standing (before : State) : (s.noteLink before).hp.standing = s.hp.standing := by
  unfold State.noteLink
  split <;> simp

/-! ### With every vector masked nothing is sent -/

/-- The PBA alone differs, and takes only the vectors of a list. -/
def HostPort.Holds (l : List Nat) (a b : HostPort) : Prop := b = { a with pba := b.pba } ∧ ∀ v ∈ b.pba, v ∈ a.pba ∨ v ∈ l

theorem HostPort.Holds.trans {l : List Nat} {a b c : HostPort} (h : a.Holds l b) (k : b.Holds l c) : a.Holds l c := by
  obtain ⟨h, hv⟩ := h
  obtain ⟨k, kv⟩ := k
  refine ⟨?_, fun v hc => (kv v hc).elim (hv v) .inr⟩
  rw [k, h]

theorem HostPort.Holds.refl (l : List Nat) (a : HostPort) : a.Holds l a := ⟨rfl, fun _ => .inl⟩

variable {s}

theorem State.raiseVec_holds (masked : s.hp.msix = []) {l : List Nat} {v : Nat} (hv : v ∈ l) : s.hp.Holds l (s.raiseVec v).hp := by
  have unsent : (s.hp.msix.any fun e => e.1 == v && !e.2.2.2) = false := by simp [masked]
  have held : (s.raiseVec v).hp = { s.hp with pba := if s.hp.pba.contains v then s.hp.pba else s.hp.pba ++ [v] } := by
    unfold State.raiseVec
    rw [unsent, if_neg Bool.false_ne_true]
    unfold State.postVec
    split
    · rename_i found
      simp [masked] at found
    · rfl
  rw [held]
  refine ⟨rfl, fun w hw => ?_⟩
  dsimp only at hw
  split at hw
  · exact .inl hw
  · rcases List.mem_append.mp hw with hw | hw
    · exact .inl hw
    · exact .inr (List.mem_singleton.mp hw ▸ hv)

theorem State.raiseCause_holds (masked : s.hp.msix = []) {l : List Nat} {b : Nat} (hl : (if b = 2 then 2 else if b = 3 then 3 else 0) ∈ l) :
    s.hp.Holds l (s.raiseCause b).hp := State.raiseVec_holds (s := s.noteCause b) masked hl

theorem HostPort.Holds.mono {l m : List Nat} {a b : HostPort} (h : a.Holds l b) (sub : l ⊆ m) : a.Holds m b :=
  ⟨h.1, fun v hv => (h.2 v hv).imp_right (sub ·)⟩

theorem HostPort.Holds.msix {l : List Nat} {a b : HostPort} (h : a.Holds l b) : b.msix = a.msix := by rw [h.1]

theorem State.writeRec_holds (masked : s.hp.msix = []) (typ src grade : Nat) (m : Bool) (b : Bytes) :
    s.hp.Holds [2] (s.writeRec typ src grade m b).hp := by
  have raised {t : State} (h : t.hp = s.hp) : s.hp.Holds [2] (t.raiseCause 2).hp := by
    rw [← h] at masked ⊢
    exact State.raiseCause_holds masked (by decide)
  unfold State.writeRec
  dsimp only
  split <;> split
  · exact raised rfl
  · exact raised rfl
  · exact .refl _ _
  · exact .refl _ _

theorem State.writeLost_holds (masked : s.hp.msix = []) : s.hp.Holds [2] s.writeLost.hp := by
  unfold State.writeLost
  split
  · split
    · rename_i a b _ _
      exact State.writeRec_holds (s := { s with er := { s.er with lostRange := none } }) masked 3 1 0 false (pack [(8, a), (8, b)])
    · exact .refl _ _
  · exact .refl _ _

/-- With every vector masked an event recorded sends nothing: it holds at most vector 2. -/
theorem State.record_holds (masked : s.hp.msix = []) (typ src grade : Nat) (b : Bytes) : s.hp.Holds [2] (s.record typ src grade b).hp := by
  have lost := State.writeLost_holds masked
  exact lost.trans (State.writeRec_holds (lost.msix.trans masked) typ src grade false b)

theorem State.noteLink_holds (masked : s.hp.msix = []) (before : State) : s.hp.Holds [3] (s.noteLink before).hp := by
  unfold State.noteLink
  split
  · exact .refl _ _
  · exact State.raiseCause_holds masked (by decide)

/-! ### The link is lost, and returns (R79, R80) -/

/-- What an operation of every step of a fold leaves alone, the fold leaves alone. -/
theorem foldl_keeps {α β : Type} (g : State → α) (f : State → β → State) (h : ∀ t b, g (f t b) = g t) (l : List β) (t : State) :
    g (l.foldl f t) = g t := by
  induction l generalizing t with
  | nil => rfl
  | cons b l ih => rw [List.foldl_cons, ih, h]

/-- What abandoned descriptors do not touch: keys, mailboxes, slice interrupt entries, the event recorder and the worlds. -/
def State.apartFromWork (t : State) : Custody × Mail × List (Nat × IntEntry) × Recorder × Worlds := (t.keys, t.mail, t.ints, t.er, t.worlds)

/-- The descriptors taken back by a loss of the link leave the rest of the device. -/
theorem takenBack_apartFromWork (l : List Ctx) :
    (l.foldl (fun t c => t.takeBack c) s.dropFetched.abandonAll).apartFromWork = s.apartFromWork :=
  foldl_keeps State.apartFromWork (fun t c => t.takeBack c) (fun _ _ => rfl) l _

theorem exec_linkLoss (kind : LinkLossKind) (up : s.hp.dlUp = true) : ∃ t, exec (.linkLoss kind) s = .next t ∧ t.hp.dlUp = false ∧
    t.hp.ready = false ∧ t.hp.d3hot = false ∧ t.hp.msix = [] ∧ (∀ v ∈ t.hp.pba, v = 3) ∧ t.hp.tx = [] ∧ t.hp.unacked = [] ∧ t.keys = s.keys ∧
    t.mail = s.mail ∧ t.ints = s.ints ∧ t.er = s.er ∧ t.worlds = { s.worlds with oldTx := 0 } := by
  have command : exec (.linkLoss kind) s = execLinkLoss kind s := rfl
  rw [command, execLinkLoss, if_neg (by simp [up])]
  extract_lets s1 s2 aer hp1 worlds1 s3
  obtain ⟨hp, pba⟩ := State.noteLink_holds (s := s3) rfl s
  have apart : s2.apartFromWork = s.apartFromWork := takenBack_apartFromWork _
  simp only [State.apartFromWork, Prod.mk.injEq] at apart
  obtain ⟨keys, mail, ints, er, worlds⟩ := apart
  refine ⟨_, rfl, ?_, ?_, ?_, ?_, ?_, ?_, ?_, ?_, ?_, ?_, ?_, ?_⟩
  · exact congrArg HostPort.dlUp hp
  · exact congrArg HostPort.ready hp
  · exact congrArg HostPort.d3hot hp
  · exact congrArg HostPort.msix hp
  · intro v hv
    simpa using (pba v hv).resolve_left List.not_mem_nil
  · exact congrArg HostPort.tx hp
  · exact congrArg HostPort.unacked hp
  · rw [State.noteLink_keys]; exact keys
  · rw [State.noteLink_mail]; exact mail
  · rw [State.noteLink_ints]; exact ints
  · rw [State.noteLink_er]; exact er
  · rw [State.noteLink_worlds]
    show { s2.worlds with oldTx := 0 } = _
    rw [worlds]

/-- The messages of the entries that were pending at the loss go out and leave the rest of the device. -/
theorem exec_linkReturn (up : s.hp.dlUp = true) (waits : s.hp.ready = false) (released : s.hp.perst = false) :
    ∃ t, exec .linkReturn s = .next t ∧ t.hp.ready = true ∧ t.hp.lostMsgs = [] ∧ t.keys = s.keys ∧ t.dist = s.dist ∧ t.chs = s.chs ∧
      t.mail = s.mail := by
  have command : exec .linkReturn s = execLinkReturn s := rfl
  rw [command, execLinkReturn, if_neg (by simp [up, waits, released])]
  extract_lets es hp1 s1
  have keeps {α : Type} (g : State → α) (h : ∀ t e n, g (State.sliceInt e n t) = g t) :
      g (s1.each es fun e t => t.sliceInt e (t.intE e).owner) = g s1 := State.each_keeps s1 g _ (fun e t => h t e _) es
  have standing := keeps (·.hp.standing) fun t e n => t.sliceInt_standing e n
  refine ⟨_, rfl, congrArg HostPort.ready standing, congrArg HostPort.lostMsgs standing, ?_, ?_, ?_, ?_⟩
  · exact keeps State.keys fun t e n => t.sliceInt_keys e n
  · exact keeps State.dist fun t e n => t.sliceInt_dist e n
  · exact keeps State.chs fun t e n => t.sliceInt_chs e n
  · exact keeps State.mail fun t e n => t.sliceInt_mail e n

/-! ### The link is trained (R57, R59) -/

/-- The host port domain awake: what it leaves. -/
theorem State.wakeHost_keeps {α : Type} (g : State → α) (h : ∀ d n (t : State), g (t.wakeNote d n) = g t) (t : State) : g t.wakeHost = g t := by
  unfold State.wakeHost
  split
  · rfl
  · exact h _ _ _

/-- The link as it has been trained to. -/
def State.trained (speed width : Nat) (flit : Bool) (t : State) : State :=
  State.wakeHost { t with hp := { t.hp with speed := speed, width := width, flit := flit || decide (6 ≤ speed), dlUp := true, linkPm := 0 } }

theorem State.trained_hp (speed width : Nat) (flit : Bool) : (s.trained speed width flit).hp =
    { s.hp with speed := speed, width := width, flit := flit || decide (6 ≤ speed), dlUp := true, linkPm := 0 } :=
  State.wakeHost_keeps State.hp (fun _ _ _ => rfl) _

theorem execHostLinkTrained_eq {speed width : Nat} (flit : Bool) (ready : s.renewal.initDone = true) (released : s.hp.perst = false)
    (low : 1 ≤ speed) (high : speed ≤ 7) (lanes : width ∈ [1, 2, 4, 8, 16]) : exec (.hostLinkTrained speed width flit) s =
      .next (if speed < 7 ∨ width < 16 then
        ((s.trained speed width flit).record 0x12 5 0 (pack [(4, (s.trained speed width flit).linkWord)])).raiseCause 3
      else (s.trained speed width flit).noteLink s) := by
  have command : exec (.hostLinkTrained speed width flit) s = execHostLinkTrained speed width flit s := rfl
  have contained : [1, 2, 4, 8, 16].contains width = true := List.contains_iff_mem.mpr lanes
  have admitted : (!s.renewal.initDone || s.hp.perst || speed == 0 || decide (7 < speed) || !([1, 2, 4, 8, 16].contains width)) = false := by
    rw [ready, released, contained]
    simp only [Bool.not_true, Bool.or_false, Bool.false_or, Bool.or_eq_false_iff, beq_eq_false_iff_ne, decide_eq_false_iff_not]
    omega
  rw [command, execHostLinkTrained, admitted, if_neg Bool.false_ne_true]
  rfl

/-- At 128 GT/s and x16 nothing is recorded; a changed rate is a cause of vector 3. -/
theorem exec_hostLinkTrained_full (flit : Bool) (ready : s.renewal.initDone = true) (released : s.hp.perst = false) :
    ∃ t, exec (.hostLinkTrained 7 16 flit) s = .next t ∧ t.hp.dlUp = true ∧ t.hp.speed = 7 ∧ t.hp.width = 16 ∧ t.hp.flit = true ∧ t.er = s.er ∧
      t.md = s.md ∧ t.keys = s.keys ∧ (s.hp.speed ≠ 7 → t.glob.irqCause.getLsbD 3 = true) := by
  have standing : ((s.trained 7 16 flit).noteLink s).hp.standing = (s.trained 7 16 flit).hp.standing := by simp
  rw [State.trained_hp] at standing
  refine ⟨_, by rw [execHostLinkTrained_eq flit ready released (by decide) (by decide) (by decide), if_neg (by decide)], congrArg HostPort.dlUp standing,
    congrArg HostPort.speed standing, congrArg HostPort.width standing, ?_, ?_, ?_, ?_, fun changed => ?_⟩
  · exact (congrArg HostPort.flit standing).trans (Bool.or_true flit)
  · rw [State.noteLink_er]; exact State.wakeHost_keeps State.er (fun _ _ _ => rfl) _
  · rw [State.noteLink_md]; exact State.wakeHost_keeps State.md (fun _ _ _ => rfl) _
  · rw [State.noteLink_keys]; exact State.wakeHost_keeps State.keys (fun _ _ _ => rfl) _
  · have differs : ¬ ((s.trained 7 16 flit).hp.speed = s.hp.speed ∧ (s.trained 7 16 flit).hp.width = s.hp.width ∧
        (s.trained 7 16 flit).hp.linkPm = s.hp.linkPm) := by
      rw [State.trained_hp]
      exact fun same => changed same.1.symm
    rw [State.noteLink, if_neg differs]
    exact State.raiseCause_bit _ (by decide)

/-- Below 128 GT/s the training is recorded and is a cause of vector 3. -/
theorem exec_hostLinkTrained_slow {speed width : Nat} (flit : Bool) (ready : s.renewal.initDone = true) (released : s.hp.perst = false)
    (low : 1 ≤ speed) (slow : speed < 7) (lanes : width ∈ [1, 2, 4, 8, 16]) :
    ∃ t, exec (.hostLinkTrained speed width flit) s = .next t ∧ t.hp.dlUp = true ∧ t.hp.speed = speed ∧ t.hp.width = width ∧ t.md = s.md ∧
      s.er.nextSeq + 1 ≤ t.er.nextSeq ∧ t.glob.irqCause.getLsbD 3 = true := by
  have er : (s.trained speed width flit).er = s.er := State.wakeHost_keeps State.er (fun _ _ _ => rfl) _
  have md : (s.trained speed width flit).md = s.md := State.wakeHost_keeps State.md (fun _ _ _ => rfl) _
  have standing : (((s.trained speed width flit).record 0x12 5 0 (pack [(4, (s.trained speed width flit).linkWord)])).raiseCause 3).hp.standing =
      (s.trained speed width flit).hp.standing := by simp
  rw [State.trained_hp] at standing
  refine ⟨_, by rw [execHostLinkTrained_eq flit ready released low (by omega) lanes, if_pos (.inl slow)], congrArg HostPort.dlUp standing,
    congrArg HostPort.speed standing, congrArg HostPort.width standing, ?_, ?_, State.raiseCause_bit _ (by decide)⟩
  · rw [State.raiseCause_md, State.record_md, md]
  · have taken := (s.trained speed width flit).nextSeq_le_recordSeq
    rw [State.raiseCause_er, State.record_nextSeq]
    rw [er] at taken
    omega

/-! ### PERST# (R75, R82, R417) -/

theorem State.gateTo_holds (masked : s.hp.msix = []) (st : GateState) : s.hp.Holds [2] (s.gateTo st).hp := by
  unfold State.gateTo
  split
  · exact .refl _ _
  · exact State.record_holds (s := s.modGate fun g => { g with st := st }) masked ..

/-- A change of the gate's state leaves what its record leaves. -/
theorem State.gateTo_keeps {α : Type} (g : State → α) (record : ∀ (t : State) typ src grade b, g (t.record typ src grade b) = g t)
    (gate : ∀ (t : State) f, g (t.modGate f) = g t) (st : GateState) (t : State) : g (t.gateTo st) = g t := by
  unfold State.gateTo
  split
  · rfl
  · rw [record, gate]

@[simp] theorem State.gateTo_keys (st : GateState) (t : State) : (t.gateTo st).keys = t.keys :=
  State.gateTo_keeps State.keys State.record_keys (fun _ _ => rfl) st t

@[simp] theorem State.gateTo_slices (st : GateState) (t : State) : (t.gateTo st).slices = t.slices :=
  State.gateTo_keeps State.slices State.record_slices (fun _ _ => rfl) st t

/-- A reset of the function disarms every ring pair. -/
theorem State.functionReset_rings (x : Slice) (hx : x ∈ s.functionReset.slices) (r : RingPair) (hr : r ∈ x.rings) : r.armed = false := by
  obtain ⟨y, -, rfl⟩ := List.mem_map.mp hx
  obtain ⟨q, -, rfl⟩ := List.mem_map.mp hr
  rfl

theorem exec_perstAssert (released : s.hp.perst = false) : ∃ t, exec .perstAssert s = .next t ∧ t.hp.perst = true ∧ t.hp.dlUp = false ∧
    t.hp.tx = [] ∧ t.keys = s.keys ∧ (∀ x ∈ t.slices, ∀ r ∈ x.rings, r.armed = false) := by
  have command : exec .perstAssert s = execPerstAssert s := rfl
  rw [command, execPerstAssert, if_neg (by simp [released])]
  extract_lets s1 down s2 s3 free
  have reset : HostPort.Holds [2, 3] { down with perst := true, tx := [] } s2.hp :=
    HostPort.Holds.mono (m := [2, 3]) (State.noteLink_holds (s := { s1 with hp := { down with perst := true, tx := [] } }) rfl s) (by decide)
  have gated : s2.hp.Holds [2, 3] s3.hp ∧ s3.keys = s2.keys ∧ s3.slices = s2.slices := by
    have masked : s2.hp.msix = [] := reset.msix
    have moved (st : GateState) (f : Gate → Gate) : s2.hp.Holds [2, 3] ((s2.modGate f).gateTo st).hp :=
      HostPort.Holds.mono (m := [2, 3]) (State.gateTo_holds (s := s2.modGate f) masked st) (by decide)
    unfold s3
    split
    · exact ⟨.refl _ _, rfl, rfl⟩
    split
    · exact ⟨moved _ _, State.gateTo_keys .., State.gateTo_slices ..⟩
    · exact ⟨moved _ _, State.gateTo_keys .., State.gateTo_slices ..⟩
  obtain ⟨gated, keys, slices⟩ := gated
  obtain ⟨hp, -⟩ := reset.trans gated
  refine ⟨_, rfl, ?_, ?_, ?_, ?_, ?_⟩
  · exact congrArg HostPort.perst hp
  · exact congrArg HostPort.dlUp hp
  · exact congrArg HostPort.tx hp
  · show s3.keys = s.keys
    rw [keys, State.noteLink_keys]; rfl
  · intro x hx
    refine State.functionReset_rings (s := s) x ?_
    have hx : x ∈ s3.slices := hx
    rw [slices, State.noteLink_slices] at hx
    exact hx

/-! ### Resets of the function (R82) -/

/-- Every slice interrupt entry is masked, with nothing pending. -/
theorem State.functionReset_ints (e : Nat × IntEntry) (he : e ∈ s.functionReset.ints) : e.2.mask = true ∧ e.2.pending = false := by
  obtain ⟨y, -, rfl⟩ := List.mem_map.mp he
  exact ⟨rfl, rfl⟩

/-- Every manager session is closed. -/
theorem State.functionReset_boxes (b : Mailbox) (hb : b ∈ s.functionReset.mail.boxes) : b.session = false := by
  obtain ⟨y, -, rfl⟩ := List.mem_map.mp hb
  rfl

/-- No context of the host's slices is left. -/
theorem State.functionReset_ctxs (c : Ctx) (hc : c ∈ s.functionReset.dist.ctxs) : c.owner ≠ .slice := by
  have kept : (c.owner != .slice) = true := List.of_mem_filter (p := fun c : Ctx => c.owner != .slice) hc
  simpa using kept

theorem exec_functionLevelReset : ∃ t, exec .functionLevelReset s = .next t ∧ (∀ x ∈ t.slices, ∀ r ∈ x.rings, r.armed = false) ∧
    (∀ e ∈ t.ints, e.2.mask = true ∧ e.2.pending = false) ∧ (∀ b ∈ t.mail.boxes, b.session = false) ∧ (∀ c ∈ t.dist.ctxs, c.owner ≠ .slice) ∧
    t.keys = s.keys ∧ t.er = s.er := by
  let t := if s.hp.d3hot then s.functionReset.wakeHost else s.functionReset
  have keeps {α : Type} (g : State → α) (h : ∀ d n (t : State), g (t.wakeNote d n) = g t) : g t = g s.functionReset := by
    unfold t
    split
    · exact State.wakeHost_keeps g h _
    · rfl
  refine ⟨t, rfl, ?_, ?_, ?_, ?_, ?_, ?_⟩
  · rw [keeps State.slices fun _ _ _ => rfl]; exact State.functionReset_rings
  · rw [keeps State.ints fun _ _ _ => rfl]; exact State.functionReset_ints
  · rw [keeps State.mail fun _ _ _ => rfl]; exact State.functionReset_boxes
  · rw [keeps State.dist fun _ _ _ => rfl]; exact State.functionReset_ctxs
  · exact keeps State.keys fun _ _ _ => rfl
  · exact keeps State.er fun _ _ _ => rfl

/-! ### PERST# released, D-states and the link's power states (R75 to R78, R417) -/

theorem exec_perstRelease (asserted : s.hp.perst = true) (elsewhere : s.gate.st ≠ .hostReset) :
    exec .perstRelease s = .next { s with hp := { s.hp with perst := false } } := by
  have command : exec .perstRelease s = execPerstRelease s := rfl
  rw [command, execPerstRelease, if_neg (by simp [asserted]), if_pos (by simpa using elsewhere)]

theorem exec_perstRelease_verdict {v : Nat} (asserted : s.hp.perst = true) (reset : s.gate.st = .hostReset) (verdict : s.gate.verdictIn = some v) :
    exec .perstRelease s = .next (State.openGate v { s with hp := { s.hp with perst := false } }) := by
  have command : exec .perstRelease s = execPerstRelease s := rfl
  rw [command, execPerstRelease, if_neg (by simp [asserted]), if_neg (by simp [reset]), verdict]

theorem exec_d3hotEntry (up : s.hp.dlUp = true) (d0 : s.hp.d3hot = false) :
    exec .d3hotEntry s = .next (State.modDom 60 (fun x => { x with pstate := .sleep }) { s with hp := { s.hp with d3hot := true } }) := by
  have command : exec .d3hotEntry s = execD3hotEntry s := rfl
  rw [command, execD3hotEntry, if_neg (by simp [up, d0])]

theorem exec_d0Return (d3hot : s.hp.d3hot = true) : exec .d0Return s = .next (State.wakeNote 60 1 { s with hp := { s.hp with d3hot := false } }) := by
  have command : exec .d0Return s = execD0Return s := rfl
  rw [command, execD0Return, if_neg (by simp [d3hot])]

/-- A change of the link's power state takes the host port domain with it. -/
theorem exec_hostLinkPmChange {pm : Nat} (known : pm ≤ 5) (up : s.hp.dlUp = true) (d0 : s.hp.d3hot = false) (awake : s.asleep 60 = false) :
    exec (.hostLinkPmChange pm) s = .next ((s.setLinkPm pm).modDom 60 fun d => { d with pstate := linkDomain pm }) := by
  have command : exec (.hostLinkPmChange pm) s = execHostLinkPmChange pm s := rfl
  have admitted : (decide (5 < pm) || !s.hp.dlUp) = false := by simpa [up] using known
  rw [command, execHostLinkPmChange, admitted, if_neg Bool.false_ne_true]
  simp [d0, awake]

/-- Settles O3: a loss of the link and PERST# mask every vector before their notes, so nothing waits for transmission after them; the other commands
are the operations of their rows, which leave the rest of the device. -/
theorem hostLinkCommands : Obligations.HostLinkCommands :=
  ⟨fun kind _ => exec_linkLoss kind, fun _ => exec_linkReturn, fun _ flit _ ready released full => full ▸ exec_hostLinkTrained_full flit ready released,
    fun _ _ flit _ => exec_hostLinkTrained_slow flit, fun _ => exec_perstAssert, fun _ => exec_perstRelease, fun _ _ => exec_perstRelease_verdict,
    fun _ => exec_d3hotEntry, fun _ => exec_d0Return, fun _ => exec_functionLevelReset, fun _ _ => exec_hostLinkPmChange⟩

end Sys2Proof.Machine
end

section
/-! PROOFS of the host port: its transactions, masks and registers (R6 to R10, R61 to R71, R80, R83, R183, R588). -/

namespace Sys2Proof.Machine

/-! ### Keyed lists -/

/-- The value set is the one found. -/
@[simp] theorem find?_assocSet {β : Type} (l : List (Nat × β)) (k : Nat) (v : β) : (assocSet l k v).find? (fun p => p.1 == k) = some (k, v) := by
  unfold assocSet
  induction l with
  | nil => simp [upsert]
  | cons y l ih =>
    unfold upsert
    split
    · simp
    · split
      · simp
      · rename_i other
        have other : (y.1 == k) = false := by simpa using Ne.symm other
        rw [List.find?_cons_of_neg (by simp [other]), ih]

@[simp] theorem assocD_assocSet {β : Type} (l : List (Nat × β)) (k : Nat) (v d : β) : assocD (assocSet l k v) k d = v := by
  unfold assocD
  rw [find?_assocSet]

variable {s : State}

/-! ### Acks and translations (R62, R80) -/

theorem exec_tlpAck (count : Nat) : ∃ t, exec (.tlpAck count) s = .next t ∧ t.worlds.oldTx = s.worlds.oldTx - count ∧
    t.hp = { s.hp with tx := s.hp.tx.drop count,
                       unacked := s.hp.unacked.filter fun c => !(ackedCtxs (s.hp.tx.take count)).contains c.id } ∧
    t.dist = s.dist ∧ t.er = s.er ∧ t.slices = s.slices ∧ t.keys = s.keys :=
  ⟨_, rfl, rfl, rfl, rfl, rfl, rfl, rfl⟩

/-- An invalidation takes the translations of its pages and waits for the reads under them. -/
theorem exec_atsInvalidate (tag : Nat) (pasid : Option Nat) (page pages : Nat) (up : s.hp.dlUp = true) (room : s.hp.atsPend.length < 32)
    (new : s.hp.atsPend.any (·.tag == tag) = false) :
    ∃ t, exec (.atsInvalidate tag pasid page pages) s = .next t ∧ t.dist = s.dist ∧ t.slices = s.slices ∧
      (∀ e, e ∈ t.hp.ats ↔ e ∈ s.hp.ats ∧ ¬ ((pasid = none ∨ pasid = some e.1) ∧ page ≤ e.2 ∧ e.2 < page + pages)) ∧
      t.hp.atsPend = s.hp.atsPend ++ [⟨tag, pasid, page, pages, s.readsUnder pasid page pages⟩] := by
  have command : exec (.atsInvalidate tag pasid page pages) s = execAtsInvalidate tag pasid page pages s := rfl
  rw [command, execAtsInvalidate, if_neg (by simpa [up, new] using room)]
  refine ⟨_, rfl, rfl, rfl, fun e => ?_, rfl⟩
  rw [List.mem_filter, Bool.not_eq_true', ← Bool.not_eq_true]
  refine and_congr_right fun _ => not_congr ?_
  simp [and_assoc]

theorem exec_atsInvalidateComplete {tag : Nat} {e : _} (pending : s.hp.atsPend.find? (·.tag == tag) = some e)
    (answered : e.waits.all s.readGone = true) : exec (.atsInvalidateComplete tag) s =
      .next { s with hp := { s.hp with atsPend := s.hp.atsPend.filter (·.tag != tag) } } := by
  have command : exec (.atsInvalidateComplete tag) s = execAtsInvalidateComplete tag s := rfl
  rw [command, execAtsInvalidateComplete, pending]
  exact if_pos answered

/-! ### Reads answered (R61, R70) -/

/-- The data a context waits for is deposited in it. -/
theorem exec_dmaReadCompletion_ok {ctx : Nat} {part : DmaPart} {c : Ctx} (data : Bytes) (known : (s.readDone ctx part).ctx? ctx = some c)
    (waits : c.reads.contains part = true) : exec (.dmaReadCompletion ctx part (.ok data)) s =
      .next (((s.readDone ctx part).modCtx ctx fun c => c.deposit part data).sendWork ctx) := by
  have command : exec (.dmaReadCompletion ctx part (.ok data)) s = execDmaReadCompletion ctx part (.ok data) s := rfl
  rw [command]
  simp only [execDmaReadCompletion, Bool.false_eq_true, if_false, known, waits, if_true]

theorem exec_dmaReadCompletion_translated {ctx : Nat} {part : DmaPart} {addr : Nat} (ended : s.retranslates ctx part addr = false) :
    exec (.dmaReadCompletion ctx part (.noTranslation addr)) s = .next ((s.readDone ctx part).dmaFail ctx part addr 0) := by
  have command : exec (.dmaReadCompletion ctx part (.noTranslation addr)) s = execDmaReadCompletion ctx part (.noTranslation addr) s := rfl
  rw [command, execDmaReadCompletion, if_neg (by simp [ended])]

theorem exec_dmaReadCompletion_retranslates {ctx : Nat} {part : DmaPart} {addr : Nat} (waits : s.retranslates ctx part addr = true) :
    exec (.dmaReadCompletion ctx part (.noTranslation addr)) s = .next s := by
  have command : exec (.dmaReadCompletion ctx part (.noTranslation addr)) s = execDmaReadCompletion ctx part (.noTranslation addr) s := rfl
  rw [command, execDmaReadCompletion, if_pos waits]

/-! ### Management messages (R83) -/

/-- A binding over which a management message arrives: I3C, or the link while it is up. -/
def State.reachedBy (s : State) (t : Transport) : Prop := t = .mctpI3c ∨ (t = .mctpVdm ∧ s.hp.dlUp = true)

theorem State.reachedBy.arrives {t : Transport} (h : s.reachedBy t) : ¬ (t = .doe ∨ (t = .mctpVdm ∧ (!s.hp.dlUp) = true)) := by
  rcases h with rfl | ⟨rfl, up⟩ <;> simp [*]

theorem State.mctpControl_standing (t : Transport) (body : Bytes) : (s.mctpControl t body).hp.mctpReply = s.hp.mctpReply ∧
    (s.mctpControl t body).dist = s.dist ∧ (s.mctpControl t body).keys = s.keys ∧ (s.mctpControl t body).slices = s.slices := by
  have eid (v : Nat) : (s.hp.setEid t v).mctpReply = s.hp.mctpReply := by cases t <;> rfl
  unfold State.mctpControl
  extract_lets cmd data v answer
  clear_value cmd data v
  split
  · split
    · exact ⟨rfl, rfl, rfl, rfl⟩
    · exact ⟨eid v, rfl, rfl, rfl⟩
  all_goals exact ⟨rfl, rfl, rfl, rfl⟩

/-- With the open world up a message is answered DONE, and leaves the rest of the device. -/
theorem exec_mctpRequest {t : Transport} (m : MctpMsg) (body : Bytes) (reached : s.reachedBy t) (known : m ≠ .other) (up : s.worlds.ow.up = true) :
    ∃ u, exec (.mctpRequest t m body) s = .next u ∧ u.hp.mctpReply = some .done ∧ u.dist = s.dist ∧ u.keys = s.keys ∧ u.slices = s.slices ∧
      (m = .pldmBase ∨ m = .pldmMonitor → u.hp.mctpBody = Config.pldmAnswer body s.sensorBytes) := by
  have command : exec (.mctpRequest t m body) s = execMctpRequest t m body s := rfl
  rw [command, execMctpRequest, if_neg reached.arrives, if_neg (by simp [up])]
  cases m with
  | control =>
    obtain ⟨reply, dist, keys, slices⟩ :=
      State.mctpControl_standing (s := { s with hp := { s.hp with mctpReply := some .done, mctpBody := [] } }) t body
    exact ⟨_, rfl, reply, dist, keys, slices, by simp⟩
  | pldmBase => exact ⟨_, rfl, rfl, rfl, rfl, rfl, fun _ => rfl⟩
  | pldmMonitor => exact ⟨_, rfl, rfl, rfl, rfl, rfl, fun _ => rfl⟩
  | pldmUpdate => exact ⟨_, rfl, rfl, rfl, rfl, rfl, by simp⟩
  | other => exact absurd rfl known

/-- The fields of Set Endpoint ID: its command code and the endpoint ID. -/
theorem setEndpointId_fields {eid : Nat} (h : eid < 256) :
    fieldLe (pack [(1, 0), (1, 1), (1, 0), (1, eid)]) 1 1 = 1 ∧ fieldLe ((pack [(1, 0), (1, 1), (1, 0), (1, eid)]).drop 2) 1 1 = eid := by
  simp only [pack, leBytes, fieldLe, sub, padTo, zeros, List.flatMap_cons, List.flatMap_nil, List.cons_append, List.nil_append, List.drop_succ_cons,
    List.drop_zero, List.take_succ_cons, List.take_zero, List.length_cons, List.length_nil, ofLe]
  constructor
  · rfl
  · simp [ofLe, Nat.mod_eq_of_lt h]

/-- The bus owner of a binding assigns its endpoint ID. -/
theorem exec_mctpRequest_setEid {t : Transport} {eid : Nat} (reached : s.reachedBy t) (up : s.worlds.ow.up = true) (low : 1 ≤ eid) (high : eid < 0xFF) :
    ∃ u, exec (.mctpRequest t .control (pack [(1, 0), (1, 1), (1, 0), (1, eid)])) s = .next u ∧ u.hp.eid t = eid := by
  obtain ⟨cmd, id⟩ := setEndpointId_fields (eid := eid) (by omega)
  have command : exec (.mctpRequest t .control (pack [(1, 0), (1, 1), (1, 0), (1, eid)])) s =
      execMctpRequest t .control (pack [(1, 0), (1, 1), (1, 0), (1, eid)]) s := rfl
  rw [command, execMctpRequest, if_neg reached.arrives, if_neg (by simp [up])]
  refine ⟨_, rfl, ?_⟩
  unfold State.mctpControl
  simp only [cmd, id]
  rw [if_neg (by omega)]
  rcases reached with rfl | ⟨rfl, -⟩ <;> rfl

theorem exec_mctpRequest_absent {t : Transport} (m : MctpMsg) (body : Bytes) (reached : s.reachedBy t) (down : s.worlds.ow.up = false) :
    exec (.mctpRequest t m body) s = .next { s with hp := { s.hp with mctpReply := some .notReady, mctpBody := [] } } := by
  have command : exec (.mctpRequest t m body) s = execMctpRequest t m body s := rfl
  rw [command, execMctpRequest, if_neg reached.arrives, if_pos (by simp [down])]

/-- Settles O4: each transaction is the operation of its row, which leaves the rest of the device. -/
theorem hostTransactionCommands : Obligations.HostTransactionCommands :=
  ⟨fun count _ => exec_tlpAck count, fun tag pasid page pages _ => exec_atsInvalidate tag pasid page pages,
    fun _ _ _ => exec_atsInvalidateComplete, fun _ _ data _ _ => exec_dmaReadCompletion_ok data,
    fun _ _ _ _ => ⟨rfl, rfl, rfl, exec_dmaReadCompletion_translated, exec_dmaReadCompletion_retranslates, rfl, rfl⟩,
    fun b s => exec_hpErrStatusClear s b, fun _ m body _ => exec_mctpRequest m body, fun _ _ _ => exec_mctpRequest_setEid,
    fun _ m body _ => exec_mctpRequest_absent m body⟩

/-! ### An entry's mask (R68) -/

theorem exec_mask {entry : Nat} (pool : entry < Config.poolInts) (up : s.barsUp = true)
    (admitted : s.refusal 4 (0x3000000 + 16 * entry + 0xC) 4 true = none) (v : Bool) :
    exec (.mask entry v) s = .next (let t := s.modInt entry fun x => { x with mask := v, pending := x.pending && v }
                                   if v = false ∧ (s.intE entry).pending = true then
                                     t.emit (.sliceMsg entry (s.intE entry).addr (s.intE entry).msg)
                                   else t) := by
  have command : exec (.mask entry v) s = execMask entry v s := rfl
  have fits : 0x3000000 + 16 * entry + 0xC + 4 ≤ barSize 4 := by
    have : Config.poolInts = 8192 := rfl
    have : barSize 4 = 0x4000000 := rfl
    omega
  rw [command, execMask, s.hostReg_admitted (State.maskWrite entry v) up fits admitted, State.maskWrite, if_neg (by omega)]
  simp

/-- Settles O5: the admitted write is the mask's, and one message goes out exactly where it clears a mask that held one. -/
theorem maskSendsThePendingMessage : Obligations.MaskSendsThePendingMessage := by
  intro entry s pool up admitted
  refine ⟨exec_mask pool up admitted, ?_⟩
  simp [State.modInt, State.intE]

/-! ### Register writes and commits (R6 to R10, R183) -/

theorem exec_registerWrite_serow {core off : Nat} {priv : Priv} {b : Blk} (data : Bytes) (isCore : core < 4)
    (up : (s.world (s.coreWorld core)).up = true) (admitted : s.admits (.core (s.coreWorld core) priv) .write off = true)
    (block : blockAt off = some b) : exec (.registerWrite (.serow core priv) off data) s =
      .next (s.fieldWrite (.core (s.coreWorld core) priv) b off (data.take 8)) := by
  have command : exec (.registerWrite (.serow core priv) off data) s = execRegisterWrite (.serow core priv) off data s := rfl
  rw [command, execRegisterWrite]
  rw [if_neg (by simpa [up] using isCore), if_neg (by simp [admitted]), block]

/-- A commit of the distributor applies every shadow at once. -/
theorem exec_stagedCommitApply_dist (asked : s.dist.commitBit = true) :
    ∃ t, exec (.stagedCommitApply .dist) s = .next t ∧ t.dist.commitBit = false ∧
      t.dist.spareHold = s.dist.spareHoldSh.getD s.dist.spareHold ∧ t.dist.spillEn = s.dist.spillEnSh.getD s.dist.spillEn ∧
      t.dist.spillAccept = s.dist.spillAcceptSh.getD s.dist.spillAccept ∧ t.dist.ports = s.dist.portsSh.getD s.dist.ports ∧
      t.dist.spareHoldSh = none ∧ t.dist.spillEnSh = none ∧ t.dist.spillAcceptSh = none ∧ t.dist.portsSh = none ∧
      t.dist.ctxs = s.dist.ctxs ∧ t.chs = s.chs ∧ t.slices = s.slices := by
  have command : exec (.stagedCommitApply .dist) s = execStagedCommitApply .dist s := rfl
  rw [command, execStagedCommitApply]
  rw [if_neg (by simp [asked])]
  exact ⟨_, rfl, rfl, rfl, rfl, rfl, rfl, rfl, rfl, rfl, rfl, rfl, rfl, rfl⟩

theorem exec_stagedCommitApply_port {p : Nat} (asked : (s.port p).commitBit = true) (queue : (s.port p).txq = []) (replay : (s.port p).replay = [])
    (received : (s.port p).rx = []) : exec (.stagedCommitApply (.port p)) s = .next (s.modPort p fun x =>
      { x with iface := x.ifaceSh.getD x.iface, maxWidth := x.maxWidthSh.getD x.maxWidth, ifaceSh := none, maxWidthSh := none, commitBit := false }) := by
  have command : exec (.stagedCommitApply (.port p)) s = execStagedCommitApply (.port p) s := rfl
  rw [command, execStagedCommitApply]
  rw [if_neg (by simp [asked, queue, replay, received])]

/-! ### Accesses refused, and reads (R65) -/

theorem State.inReach {bar off len : Nat} (up : s.barsUp = true) (fits : off + len ≤ barSize bar) :
    ¬ (!s.barsUp || decide (barSize bar < off + len)) = true := by simpa [up] using fits

theorem exec_barAccessRefused {bar off len cause : Nat} {write : Bool} (up : s.barsUp = true) (fits : off + len ≤ barSize bar)
    (refused : s.refusal bar off len write = some cause) : exec (.barAccessRefused bar off len write) s = .next (s.refuseAccess bar off cause write) := by
  have command : exec (.barAccessRefused bar off len write) s = execBarAccessRefused bar off len write s := rfl
  rw [command, execBarAccessRefused, if_neg (State.inReach up fits), refused]

theorem exec_barAccessRefused_read {bar off len : Nat} (up : s.barsUp = true) (fits : off + len ≤ barSize bar)
    (admitted : s.refusal bar off len false = none) : exec (.barAccessRefused bar off len false) s =
      .next (s.emit (.completion bar off (some (s.hostRead bar off len)))) := by
  have command : exec (.barAccessRefused bar off len false) s = execBarAccessRefused bar off len false s := rfl
  rw [command, execBarAccessRefused, if_neg (State.inReach up fits), admitted]
  rfl

/-! ### The MSI-X table (R588) -/

/-- A TLP handed over leaves the MSI-X table. -/
theorem State.emit_msix (s : State) (o : Out) : (s.emit o).hp.msix = s.hp.msix := by
  have standing := congrArg HostPort.msix (s.emit_standing o)
  simpa only [HostPort.standing] using standing

/-- What one message of vector 3 at most adds to the TLPs that wait and to the PBA. -/
def HostPort.Notes (a b : HostPort) : Prop :=
  (b.pba = a.pba ∧ ∃ l, (∀ o ∈ l, ∃ addr data, o = .msix 3 addr data) ∧ b.tx = a.tx ++ l) ∨
    (b.pba = a.pba ++ [3] ∧ b.tx = a.tx ∧ ∀ e, a.msix.find? (fun e => e.1 == 3) = some e → e.2.2.2 = true)

theorem HostPort.Notes.refl (a : HostPort) : a.Notes a := .inl ⟨rfl, [], by simp, by simp⟩

/-- A vector 3 raised is sent where it is unmasked, and held where it is not. -/
theorem State.postVec_notes : s.hp.Notes (s.postVec 3).hp := by
  unfold State.postVec
  split
  · exact .inl ⟨rfl, [_], by simp, rfl⟩
  · rename_i masked
    by_cases held : s.hp.pba.contains 3 = true
    · rw [if_pos held]
      exact .refl _
    · rw [if_neg held]
      refine .inr ⟨rfl, rfl, fun e found => ?_⟩
      obtain ⟨v, addr, data, m⟩ := e
      cases m with
      | true => rfl
      | false => exact (masked v addr data found).elim

/-- The link woken for a TLP raises at most vector 3. -/
theorem State.linkExit_notes : s.hp.Notes s.linkExit.hp := by
  have woken : s.hp.Notes (s.setLinkPm 0).hp := by
    unfold State.setLinkPm
    split
    · exact .refl _
    · exact State.postVec_notes (s := State.noteCause 3 { s with hp := { s.hp with linkPm := 0 } })
  unfold State.linkExit
  dsimp only
  split
  · split
    · exact woken
    · split <;> exact woken
  · exact .refl _

/-- A vector's entry unmasked, what it held pending taken out of the PBA. -/
def State.unmaskVector (vector a d : Nat) (s : State) : State :=
  { s with hp := { s.hp with msix := assocSet s.hp.msix vector (a, d, false), pba := s.hp.pba.filter (· != vector) } }

theorem State.msixWrite_pending {vector : Nat} (addr data : Nat) (pending : vector ∈ s.hp.pba) : s.msixWrite vector addr data false =
    (s.unmaskVector vector (addr % 2 ^ 64 / 4 * 4) (data % 2 ^ 32)).emit (.msix vector (addr % 2 ^ 64 / 4 * 4) (data % 2 ^ 32)) := by
  have contained : s.hp.pba.contains vector = true := List.contains_iff_mem.mpr pending
  simp only [State.msixWrite, contained, Bool.not_false, Bool.and_self, if_true]
  rfl

/-- An unmasked entry sends what its vector has pending, behind the note of a link that wakes for it. -/
theorem State.emit_unmasked (vector a d : Nat) : let t := (s.unmaskVector vector a d).emit (.msix vector a d)
    vector ∉ t.hp.pba ∧ (∀ v ∈ t.hp.pba, v ∈ s.hp.pba ∨ v = 3) ∧ ∃ l, (∀ o ∈ l, ∃ a d, o = .msix 3 a d) ∧
      t.hp.tx = s.hp.tx ++ l ++ [.msix vector a d] := by
  intro t
  let u := s.unmaskVector vector a d
  have kept (v : Nat) (hv : v ∈ u.hp.pba) : v ∈ s.hp.pba ∧ v ≠ vector := by
    have hv : v ∈ s.hp.pba.filter (· != vector) := hv
    rw [List.mem_filter] at hv
    exact ⟨hv.1, by simpa using hv.2⟩
  have sent : t.hp = { u.linkExit.hp with tx := u.linkExit.hp.tx ++ [.msix vector a d] } := rfl
  rw [sent]
  dsimp only
  rcases State.linkExit_notes (s := u) with ⟨pba, l, notes, tx⟩ | ⟨pba, tx, masked⟩
  · rw [pba, tx]
    exact ⟨fun hv => (kept vector hv).2 rfl, fun v hv => .inl (kept v hv).1, l, notes, rfl⟩
  · have other : vector ≠ 3 := by
      rintro rfl
      have unmasked := masked (3, a, d, false) (find?_assocSet s.hp.msix 3 (a, d, false))
      exact absurd unmasked Bool.false_ne_true
    rw [pba, tx]
    refine ⟨fun hv => ?_, fun v hv => ?_, [], by simp, by simp [u, State.unmaskVector]⟩
    · rcases List.mem_append.mp hv with hv | hv
      · exact (kept vector hv).2 rfl
      · exact other (List.mem_singleton.mp hv)
    · rcases List.mem_append.mp hv with hv | hv
      · exact .inl (kept v hv).1
      · exact .inr (List.mem_singleton.mp hv)

theorem exec_msixTableWrite {vector : Nat} (addr data : Nat) (masked : Bool) (known : vector < 2048) (up : s.barsUp = true) :
    ∃ t, exec (.msixTableWrite vector addr data masked) s = .next t ∧
      t.hp.msix = assocSet s.hp.msix vector (addr % 2 ^ 64 / 4 * 4, data % 2 ^ 32, masked) ∧ t.slices = s.slices ∧ t.ints = s.ints ∧
      (masked = false → vector ∈ s.hp.pba → vector ∉ t.hp.pba ∧ (∀ v ∈ t.hp.pba, v ∈ s.hp.pba ∨ v = 3) ∧ ∃ l, (∀ o ∈ l, ∃ a d, o = .msix 3 a d) ∧
        t.hp.tx = s.hp.tx ++ l ++ [.msix vector (addr % 2 ^ 64 / 4 * 4) (data % 2 ^ 32)]) := by
  have command : exec (.msixTableWrite vector addr data masked) s = execMsixTableWrite vector addr data masked s := rfl
  rw [command, execMsixTableWrite, if_neg (by simpa [up] using known)]
  have keeps : (s.msixWrite vector addr data masked).hp.msix = assocSet s.hp.msix vector (addr % 2 ^ 64 / 4 * 4, data % 2 ^ 32, masked) ∧
      (s.msixWrite vector addr data masked).slices = s.slices ∧ (s.msixWrite vector addr data masked).ints = s.ints := by
    unfold State.msixWrite
    dsimp only
    split
    · exact ⟨State.emit_msix _ _, State.emit_slices _ _, State.emit_ints _ _⟩
    · exact ⟨rfl, rfl, rfl⟩
  refine ⟨_, rfl, keeps.1, keeps.2.1, keeps.2.2, fun unmasked pending => ?_⟩
  subst unmasked
  rw [State.msixWrite_pending addr data pending]
  exact State.emit_unmasked vector _ _

/-- Settles O6: a write goes to its path, a commit applies every shadow in one change, and an unmasked vector is sent behind at most the note of the
link that woke for it. -/
theorem registerCommands : Obligations.RegisterCommands :=
  ⟨fun _ _ _ => ⟨rfl, rfl, rfl⟩, fun _ _ _ data _ _ => exec_registerWrite_serow data, fun _ => exec_stagedCommitApply_dist,
    fun _ _ => exec_stagedCommitApply_port, fun _ _ _ _ _ _ => exec_barAccessRefused, fun _ addr data masked _ => exec_msixTableWrite addr data masked,
    fun _ _ _ _ => exec_barAccessRefused_read⟩

end Sys2Proof.Machine
end

section
/-! PROOFS of the family 'other': what a command packet that runs comes to, the cell service window and ZEROISE (O31). -/

namespace Sys2Proof.Machine

variable (s : State)

/-! ### A command packet that runs -/

section
variable {s : State} {c : Caller} {k : Cmd} {run : Run} {t u : State} {q : Packet} {body : Bytes} {obj : Nat}

/-- A packet whose command is done is answered. -/
theorem Ready.command_answered (ready : Ready c k s q t) (ran : run c q false t = .done .done 0 body obj u) :
    s.command c k run = answered c k.op q obj body s u := by
  rw [State.command_ready ready, ran]
  rfl

/-- A packet whose command has to wait runs. -/
theorem Ready.command_running {kind : JobKind} (ready : Ready c k s q t) (ran : run c q false t = .hold kind body obj u) :
    s.command c k run = running c q kind body obj s u := by
  rw [State.command_ready ready, ran]
  rfl

/-- A command that its checks let through is held where its changes are made at the reply (R102, R370). -/
theorem Ready.command_atReply (ready : Ready c k s q t) (ran : run c q false t = .done .done 0 body obj u) :
    s.command c k (atReply run) = running c q .draw [] obj s t :=
  ready.command_running (by simp [atReply, ran])

end

/-! ### What work and links leave alone -/

/-- A property of a state that no change of the work in hand, of a fabric link or of the hierarchy loses. -/
structure WorkClosed (P : State → Prop) : Prop where
  record : ∀ t typ src grade b, P t → P (State.record typ src grade b t)
  hpError : ∀ t b cause code w bar sl a, P t → P (State.hpError b cause code w bar sl a t)
  modPort : ∀ t p f, P t → P (State.modPort p f t)
  modHier : ∀ t f, P t → P (State.modHier f t)
  modDist : ∀ t f, P t → P (State.modDist f t)
  modDom : ∀ t n f, P t → P (State.modDom n f t)
  modRing : ∀ t n p f, P t → P (State.modRing n p f t)

/-- A step that keeps a property, taken along a list. -/
theorem foldl_closed {α : Type} {P : State → Prop} {f : State → α → State} (h : ∀ t a, P t → P (f t a)) (l : List α) {t : State} (ht : P t) :
    P (l.foldl f t) := by
  induction l generalizing t with
  | nil => exact ht
  | cons a l ih => exact ih (h t a ht)

theorem State.each_closed {P : State → Prop} {f : Nat → State → State} (h : ∀ n t, P t → P (f n t)) (l : List Nat) {t : State} (ht : P t) :
    P (t.each l f) :=
  foldl_closed (fun t n => h n t) l ht

namespace WorkClosed

variable {P : State → Prop} (closed : WorkClosed P) {t : State}

include closed

theorem modCtx (i : Nat) (f : Ctx → Ctx) (h : P t) : P (t.modCtx i f) := closed.modDist _ _ h

theorem startWake (d : Nat) (w : WakeSource) (h : P t) : P (t.startWake d w) := by
  unfold State.startWake
  split
  · exact closed.modDom _ _ _ h
  · exact h

theorem admitOffered (c : Ctx) (h : P t) : P (t.admitOffered c) := by
  unfold State.admitOffered
  split
  · exact closed.modCtx _ _ (closed.modRing _ _ _ _ h)
  · exact h

theorem rerunCtx (id : Nat) (h : P t) : P (t.rerunCtx id) := by
  unfold State.rerunCtx
  split
  · exact closed.modDist _ _ (closed.modCtx _ _ h)
  · exact h

theorem finish (id : Nat) (st : Status) (detail : Nat) (r : BitVec 64) (h : P t) : P (t.finish id st detail r) := by
  unfold State.finish
  dsimp only
  split
  · have ended (c : Ctx) := closed.modDist _ (fun d => { d with orphans := d.orphans ++ c.orphanReads })
      (closed.modCtx id (·.ended st detail r) (closed.admitOffered c h))
    split
    · exact h
    · split
      · exact closed.hpError _ _ _ _ _ _ _ _ (ended _)
      · exact ended _
  · exact h

theorem sendUnit (p : Nat) (u : UnitOut) (h : P t) : P (t.sendUnit p u) := by
  unfold State.sendUnit
  dsimp only
  split
  · exact h
  · split
    · exact closed.startWake _ _ (closed.modPort _ _ _ h)
    · exact closed.modPort _ _ _ (closed.modDom _ _ _ (closed.modPort _ _ _ h))

theorem sendTo (dst : Nat) (u : UnitOut) (h : P t) : P (t.sendTo dst u) := by
  unfold State.sendTo
  split
  · exact closed.sendUnit _ _ h
  · exact h

theorem sendAll (ps : List Nat) (u : UnitOut) (h : P t) : P (t.sendAll ps u) :=
  State.each_closed (fun p _ => closed.sendUnit p u) ps h

theorem sendWork (id : Nat) (h : P t) : P (t.sendWork id) := by
  unfold State.sendWork
  split
  · split
    · exact h
    · split
      · exact closed.sendUnit _ _ h
      · split
        · exact closed.sendTo _ _ h
        · exact h
      · exact h
  · exact h

theorem remoteFailed (c : Ctx) (tried : List Nat) (h : P t) : P (t.remoteFailed c tried) :=
  closed.finish _ _ _ _ (closed.record _ _ _ _ _ (closed.modHier _ (fun x => { x with remoteFails := sat 16 (x.remoteFails + 1) })
    (closed.modDist t (fun d => { d with remotes := d.remotes.filter (·.ctx != c.id) }) h)))

theorem remoteNext (id : Nat) (h : P t) : P (t.remoteNext id) := by
  unfold State.remoteNext
  split
  · dsimp only
    split
    · exact closed.sendWork _ (closed.modCtx _ _ (closed.modDist _ _ h))
    · exact closed.remoteFailed _ _ h
  · exact closed.modDist _ _ h

theorem setFab (st cause : Nat) (h : P t) : P (t.setFab st cause) := by
  unfold State.setFab
  split
  · exact h
  · exact closed.record _ _ _ _ _ (closed.modHier _ _ h)

theorem refreshLevel (h : P t) : P t.refreshLevel := by
  have level := closed.modHier _ (fun x => { x with level := Nat.min 7 t.levelNow }) h
  unfold State.refreshLevel
  dsimp only
  split
  · exact level
  · split
    · exact closed.setFab _ _ level
    · split
      · exact closed.setFab _ _ level
      · exact level

theorem withdrawRoutes (p : Nat) (h : P t) : P (t.withdrawRoutes p) := by
  have withdrawn := closed.modPort _ p (fun x => { x with reach := [], peerRole := 0, peerLevel := 7 }) h
  unfold State.withdrawRoutes
  dsimp only
  refine closed.refreshLevel ?_
  split
  · exact closed.sendAll _ _ withdrawn
  · exact withdrawn

theorem spillLost (p : Nat) (h : P t) : P (t.spillLost p) :=
  foldl_closed (fun _ _ k => closed.rerunCtx _ (closed.admitOffered _ k)) _ (closed.modDist _ _ h)

theorem pathsLost (h : P t) : P t.pathsLost := State.each_closed (fun id _ => closed.remoteNext id) _ h

theorem leaveUp (p : Nat) (st : PortState) (h : P t) : P (t.leaveUp p st) := by
  unfold State.leaveUp
  split
  · exact closed.withdrawRoutes _ (closed.modPort _ _ _ h)
  · exact closed.modPort _ _ _ h

theorem dropSession (p : Nat) (h : P t) : P (t.dropSession p) :=
  closed.pathsLost (closed.spillLost _ (closed.modHier _ _ (closed.modPort _ _ _ h)))

theorem portDown (p cause : Nat) (h : P t) : P (t.portDown p cause) :=
  closed.dropSession _ (closed.modPort _ _ _ (closed.leaveUp _ _ h))

end WorkClosed

/-- What the work in hand and the fabric links never change: the mode, the keys, the mailboxes, the channels, dual control, the boot gate, the worlds,
Tahr and the renewal. -/
def State.holdings : ModeSt × Custody × Mail × List Channel × Dual × Gate × Worlds × Tamper × Renewal :=
  (s.md, s.keys, s.mail, s.chs, s.dual, s.gate, s.worlds, s.tamper, s.renewal)

@[simp] theorem State.record_holdings (typ src grade : Nat) (b : Bytes) : (s.record typ src grade b).holdings = s.holdings := by
  simp [State.holdings]

@[simp] theorem State.hpError_holdings (b cause code : Nat) (w : Bool) (bar sl a : Nat) : (s.hpError b cause code w bar sl a).holdings = s.holdings := by
  simp [State.holdings]

theorem workClosed_holdings (s : State) : WorkClosed (fun t => t.holdings = s.holdings) where
  record t _ _ _ _ h := (t.record_holdings ..).trans h
  hpError t _ _ _ _ _ _ _ h := (t.hpError_holdings ..).trans h
  modPort _ _ _ := id
  modHier _ _ := id
  modDist _ _ := id
  modDom _ _ _ := id
  modRing _ _ _ _ := id

theorem State.portDown_holdings (p cause : Nat) : (s.portDown p cause).holdings = s.holdings := (workClosed_holdings s).portDown p cause rfl

/-! ### Slices without a master key -/

/-- A slice put in its place in the table is one of its slices, and the others stood there before. -/
theorem mem_upsert {x y : Slice} {l : List Slice} (h : y ∈ upsert (·.num) x l) : y = x ∨ y ∈ l := by
  induction l with
  | nil => exact .inl (List.mem_singleton.mp h)
  | cons z l ih =>
    unfold upsert at h
    split at h
    · exact List.mem_cons.mp h
    · split at h
      · exact (List.mem_cons.mp h).imp_right (List.mem_cons_of_mem _)
      · rcases List.mem_cons.mp h with rfl | h
        · exact .inr (List.mem_cons_self ..)
        · exact (ih h).imp_right (List.mem_cons_of_mem _)

/-- A slice read by its number stands in the table or is the free one. -/
theorem State.slice_mem_or (n : Nat) : s.slice n ∈ s.slices ∨ s.slice n = { num := n } := by
  unfold State.slice
  cases found : s.slices.find? (fun x => x.num == n) with
  | none => exact .inr rfl
  | some x => exact .inl (List.mem_of_find?_eq_some found)

/-- No slice holds a master key. -/
def State.noSmk : Prop := ∀ x ∈ s.slices, x.smk = none

theorem State.noSmk.congr {s t : State} (h : s.noSmk) (same : t.slices = s.slices) : t.noSmk := fun x hx => h x (same ▸ hx)

theorem State.noSmk.modRing {s : State} (h : s.noSmk) (n p : Nat) (f : RingPair → RingPair) : (s.modRing n p f).noSmk := by
  intro x hx
  rcases mem_upsert hx with rfl | hx
  · rcases s.slice_mem_or n with stands | free
    · exact (show (s.slice n).smk = none from h _ stands)
    · exact (show (s.slice n).smk = none by rw [free])
  · exact h x hx

theorem workClosed_noSmk : WorkClosed State.noSmk where
  record t _ _ _ _ h := h.congr (t.record_slices ..)
  hpError t _ _ _ _ _ _ _ h := h.congr (t.hpError_slices ..)
  modPort _ _ _ := id
  modHier _ _ := id
  modDist _ _ := id
  modDom _ _ _ := id
  modRing _ n p f h := h.modRing n p f

/-! ### ZEROISE -/

@[simp] theorem State.eraseGen_holdings (i : Nat) : (s.eraseGen i).holdings = s.holdings := by simp [State.holdings, State.eraseGen]

/-- What a window's end leaves. -/
theorem State.closeWindow_keeps {α : Type} (g : State → α) (record : ∀ (t : State) typ src grade b, g (t.record typ src grade b) = g t)
    (h : g { s with dual := { s.dual with winOpen := false, winLeftS := 0, winMs := 0 } } = g s) : g s.closeWindow = g s := by
  unfold State.closeWindow
  split
  · exact (record _ _ _ _ _).trans h
  · rfl

@[simp] theorem State.closeWindow_md : s.closeWindow.md = s.md := s.closeWindow_keeps State.md (·.record_md) rfl
@[simp] theorem State.closeWindow_keys : s.closeWindow.keys = s.keys := s.closeWindow_keeps State.keys (·.record_keys) rfl
@[simp] theorem State.closeWindow_chs : s.closeWindow.chs = s.chs := s.closeWindow_keeps State.chs (·.record_chs) rfl
@[simp] theorem State.closeWindow_tamper : s.closeWindow.tamper = s.tamper := s.closeWindow_keeps State.tamper (·.record_tamper) rfl
@[simp] theorem State.closeWindow_slices : s.closeWindow.slices = s.slices := s.closeWindow_keeps State.slices (·.record_slices) rfl

/-- A window's end closes the window. -/
theorem State.closeWindow_winOpen : s.closeWindow.dual.winOpen = false := by
  unfold State.closeWindow
  split
  · simp
  · exact Bool.eq_false_of_not_eq_true ‹_›

/-- The state of a zeroisation once the keys are erased. -/
def State.erased : State := { s.abortAll.eraseKeys with md := { s.md with zeroised := true }, tamper := { s.tamper with latch := 4 } }

/-- The generators erased, and the window closed. -/
def State.closedDown : State := (s.erased.each (List.range 38) State.eraseGen).closeWindow

/-- What a zeroisation leaves of dual control: no live challenge, no card's proposal, no question asked of a card. -/
def Dual.zeroised (d : Dual) : Dual :=
  { d with chal := { d.chal with live := false }, cards := d.cards.map fun (c : CardPort) => { c with proposal := none, asked := none } }

theorem State.zeroiseNow_eq : s.zeroiseNow = ({ s.closedDown with dual := s.closedDown.dual.zeroised } : State).each (List.range 20) fun p t => t.portDown p 0 := rfl

theorem State.eraseGens_holdings : (s.each (List.range 38) State.eraseGen).holdings = s.holdings :=
  s.each_keeps State.holdings _ (fun i t => t.eraseGen_holdings i) _

theorem State.closedDown_kept : s.closedDown.md = s.erased.md ∧ s.closedDown.keys = s.erased.keys ∧ s.closedDown.chs = s.erased.chs ∧
    s.closedDown.tamper = s.erased.tamper ∧ s.closedDown.slices = s.erased.slices := by
  have gens := s.erased.eraseGens_holdings
  simp only [State.holdings, Prod.mk.injEq] at gens
  obtain ⟨md, keys, -, chs, -, -, -, tamper, -⟩ := gens
  have slices : (s.erased.each (List.range 38) State.eraseGen).slices = s.erased.slices := 
    s.erased.each_keeps State.slices State.eraseGen (fun _ _ => rfl) _
  unfold State.closedDown
  simp only [State.closeWindow_md, State.closeWindow_keys, State.closeWindow_chs, State.closeWindow_tamper, State.closeWindow_slices]
  exact ⟨md, keys, chs, tamper, slices⟩

theorem State.erased_noSmk : s.erased.noSmk := by
  intro x hx
  obtain ⟨y, -, rfl⟩ := List.mem_map.mp hx
  rfl

theorem State.erased_cache : ∀ x ∈ s.erased.chs, x.cache = [] := by
  intro x hx
  obtain ⟨c, -, rfl⟩ := List.mem_map.mp hx
  rfl

/-- A zeroisation leaves no root, no domain key, no slice key and no key slot. -/
theorem State.zeroiseNow_leaves : let t := s.zeroiseNow
    t.md.zeroised = true ∧ t.keys.root = none ∧ t.keys.sik = none ∧ t.keys.dks = [] ∧ t.keys.keys = [] ∧ t.keys.stage = [] ∧ t.keys.old = [] ∧
      (∀ x ∈ t.slices, x.smk = none) ∧ (∀ x ∈ t.chs, x.cache = []) ∧ t.dual.chal.live = false ∧ t.dual.winOpen = false ∧ t.tamper.latch = 4 := by
  obtain ⟨md, keys, chs, tamper, slices⟩ := s.closedDown_kept
  let u : State := { s.closedDown with dual := s.closedDown.dual.zeroised }
  have held : s.zeroiseNow.holdings = u.holdings := by
    rw [State.zeroiseNow_eq]
    exact u.each_keeps State.holdings (fun p t => t.portDown p 0) (fun p t => t.portDown_holdings p 0) _
  have noSmk : s.zeroiseNow.noSmk := by
    rw [State.zeroiseNow_eq]
    exact State.each_closed (P := State.noSmk) (f := fun p t => t.portDown p 0) (fun p _ => workClosed_noSmk.portDown p 0) _ (s.erased_noSmk.congr (t := u) slices)
  simp only [State.holdings, Prod.mk.injEq] at held
  obtain ⟨heldMd, heldKeys, -, heldChs, heldDual, -, -, heldTamper, -⟩ := held
  intro t
  have keys : t.keys = s.erased.keys := heldKeys.trans keys
  refine ⟨?_, by rw [keys]; rfl, by rw [keys]; rfl, by rw [keys]; rfl, by rw [keys]; rfl, by rw [keys]; rfl, by rw [keys]; rfl, noSmk, ?_, ?_, ?_, ?_⟩
  · rw [heldMd.trans md]; rfl
  · rw [heldChs.trans chs]; exact s.erased_cache
  · rw [heldDual]; rfl
  · rw [heldDual]; exact State.closeWindow_winOpen _
  · rw [heldTamper.trans tamper]; rfl

/-! ### The window, and the end of a challenge -/

theorem cellWindowOpenRun_opens {c : Caller} {p : Packet} {again : Bool} (known : p.int windowFlds 0 ≤ 1) (low : 60 ≤ p.int windowFlds 1)
    (high : p.int windowFlds 1 ≤ 3600) (other : s.cellOk (1 - p.int windowFlds 0) = true) (closed : s.dual.winOpen = false) :
    cellWindowOpenRun c p again s = .done .done 0 [] 0 (State.record 0x53 2 0 (pack [(1, p.int windowFlds 0), (1, 1), (2, p.int windowFlds 1)])
      { s with dual := { s.dual with winOpen := true, winCell := p.int windowFlds 0, winLeftS := p.int windowFlds 1, winMs := 0 } }) := by
  unfold cellWindowOpenRun
  dsimp only
  rw [if_neg (by simp [other]; omega), if_neg (by simp [closed])]

theorem cellWindowCloseRun_closes (c : Caller) (p : Packet) (again : Bool) (ok : s.dual.winOpen = true → s.cellOk s.dual.winCell = true) :
    cellWindowCloseRun c p again s = .done .done 0 [] 0 s.closeWindow :=
  if_neg (by simpa using ok)

theorem exec_cellWindowExpire (opened : s.dual.winOpen = true) (ended : s.dual.winLeftS = 0) (power : s.tamper.mainPower = true) :
    exec .cellWindowExpire s =
      .next ((if s.cellOk s.dual.winCell then s.closeWindow else s.closeWindow.tamperEvent (5 + s.dual.winCell) 36).settle s) := by
  have command : exec .cellWindowExpire s = execCellWindowExpire s := rfl
  rw [command, execCellWindowExpire, if_neg (by simp [opened, ended]), if_pos power]

/-- Settles O31: the runs of the two commands, the end of a window on main power, and what `zeroiseNow` leaves, carried through the fall of the ports. -/
theorem windowAndZeroise : Obligations.WindowAndZeroise := by
  refine ⟨fun c s p t ready known low high other closed => ?_, fun c s p t ready ok => ?_, fun s opened ended power ok => ?_,
    fun s opened ended power bad => ?_, fun c s p t ready => ?_, State.zeroiseNow_leaves, fun s live late => ?_, fun s live early => ?_⟩
  · exact congrArg Host.Outcome.next (ready.command_answered (cellWindowOpenRun_opens t known low high other closed))
  · exact congrArg Host.Outcome.next (ready.command_answered (cellWindowCloseRun_closes t c p false ok))
  · rw [exec_cellWindowExpire s opened ended power, if_pos ok]
  · rw [exec_cellWindowExpire s opened ended power, if_neg (by simp [bad])]
  · exact congrArg (fun u : State => Host.Outcome.next u.zeroiseStep) (ready.command_answered rfl)
  · exact if_pos (by simpa [live] using late)
  · exact if_neg (by simpa [live] using early)

end Sys2Proof.Machine
end

section
/-! PROOFS of the family 'other': the boot gate (O33). -/

namespace Sys2Proof.Machine

variable (s : State)

/-! ### A verdict -/

/-- The gate once a measurement has come to the decision `d`. -/
def State.judged (g : GateRead) (d : Decision) : State := s.modGate fun t =>
  { t with measuring := false, lastVerdict := d.verdict, bootCount := (t.bootCount + 1) % 2 ^ 32, measureMs := sat 16 g.measureMs }

theorem exec_gateVerdict (g : GateRead) (measuring : s.gate.measuring = true) (up : s.worlds.tw.up = true) (written : s.writesFirst = false) :
    let d := decide_ s.gate.twoFlash s.gate.inForce s.gate.removed g
    let opened := opens d.verdict ((s.gate.inForce.map (·.mode)).getD 0)
    exec (.gateVerdict g) s = .next (State.bootFields s d opened
      (if !opened then (s.judged g d).gateTo .rejected
       else if s.gate.fromPerst && s.hp.perst then (s.judged g d).modGate fun t => { t with verdictIn := some d.verdict }
       else (s.judged g d).openGate d.verdict)) := by
  have command : exec (.gateVerdict g) s = execGateVerdict g s := rfl
  dsimp only
  rw [command, execGateVerdict, if_neg (by simp [measuring, up, written])]
  rfl

/-- What a policy in force decides of its judgements (R411, R412). -/
theorem decide_policy (two : Bool) (p : Policy) (rm : List Region) (g : GateRead) :
    (decide_ two none rm g).verdict = 1 ∧
      (p.judge two p.regions p.allow g.regions g.manifest = .accepted → (decide_ two (some p) rm g).verdict = 0) ∧
      (p.mode = 2 → p.judge two p.regions p.allow g.regions g.manifest = .rejected → (decide_ two (some p) rm g).verdict = 2) ∧
      (p.mode = 2 → p.judge two p.regions p.allow g.regions g.manifest = .flashError → (decide_ two (some p) rm g).verdict = 5) ∧
      (p.mode ≠ 2 → p.failAction = 0 → p.judge two p.regions p.allow g.regions g.manifest = .rejected → (decide_ two (some p) rm g).verdict = 4) ∧
      (p.mode ≠ 2 → p.failAction ≠ 0 → p.judge two p.regions p.allow g.regions g.manifest ≠ .accepted →
        p.judge two p.recRegions p.recAllow g.recRegions g.recManifest = .accepted → (decide_ two (some p) rm g).verdict = 3) := by
  unfold decide_
  dsimp only
  refine ⟨rfl, fun main => ?_, fun mode main => ?_, fun mode main => ?_, fun mode action main => ?_, fun mode action main recovery => ?_⟩
  · rw [if_pos main]
  · rw [main, if_neg (by decide), if_pos mode, if_neg (by decide)]
  · rw [main, if_neg (by decide), if_pos mode, if_pos rfl]
  · rw [main, if_neg (by decide), if_neg mode, if_pos action, if_neg (by decide)]
  · rw [if_neg main, if_neg mode, if_neg action]
    dsimp only
    rw [if_pos recovery]

theorem opens_table (mode : Nat) : opens 0 mode = true ∧ opens 1 mode = true ∧ opens 2 mode = true ∧ opens 3 mode = true ∧ opens 4 mode = false ∧
    opens 5 1 = false ∧ opens 5 2 = true := by
  simp [opens]

theorem State.gateTo_gate {st : GateState} (elsewhere : s.gate.st ≠ st) : (s.gateTo st).gate = { s.gate with st := st } := by
  unfold State.gateTo
  rw [if_neg elsewhere, State.record_gate]
  rfl

theorem State.gateTo_nextSeq {st : GateState} (elsewhere : s.gate.st ≠ st) : s.er.nextSeq + 1 ≤ (s.gateTo st).er.nextSeq := by
  unfold State.gateTo
  rw [if_neg elsewhere, State.record_nextSeq]
  have seq (t : State) : t.er.nextSeq + 1 ≤ t.recordSeq + 1 := Nat.succ_le_succ t.nextSeq_le_recordSeq
  exact seq (s.modGate _)

/-- A gate that opens is open, notes recovery, and leaves a record. -/
theorem State.openGate_gate (v : Nat) (closed : s.gate.st ≠ .opened) : (s.openGate v).gate.st = .opened ∧ (s.openGate v).gate.recovery = (v == 3) ∧
    s.er.nextSeq + 1 ≤ (s.openGate v).er.nextSeq := by
  have opens (t : State) (h : t.gate.st ≠ .opened) : (t.gateTo .opened).gate.st = .opened ∧ (t.gateTo .opened).gate.recovery = t.gate.recovery ∧
      t.er.nextSeq + 1 ≤ (t.gateTo .opened).er.nextSeq := by
    refine ⟨?_, ?_, t.gateTo_nextSeq h⟩ <;> rw [t.gateTo_gate h]
  unfold State.openGate
  exact opens _ closed

/-! ### The record of a boot -/

/-- Records one after another take as many numbers at least. -/
theorem State.each_record_nextSeq (typ src grade : Nat) (body : Nat → Bytes) (l : List Nat) :
    s.er.nextSeq + l.length ≤ (s.each l fun i t => t.record typ src grade (body i)).er.nextSeq := by
  induction l generalizing s with
  | nil => exact Nat.le_refl _
  | cons i l ih =>
    have rest := ih (s.record typ src grade (body i))
    have step := s.nextSeq_le_recordSeq
    rw [State.record_nextSeq] at rest
    simp only [State.each, List.foldl_cons, List.length_cons] at rest ⊢
    omega

theorem exec_bootRecordWrite {b : Bytes} {rest : List Bytes} (waiting : s.gate.unsigned = b :: rest) (up : s.worlds.tw.up = true) :
    ∃ t, exec .bootRecordWrite s = .next t ∧ t.gate.unsigned = rest ∧ t.gate.latest = s.signBoot b ∧ s.er.nextSeq + 8 ≤ t.er.nextSeq ∧
      t.keys = s.keys ∧ t.renewal.recordDone = true := by
  have command : exec .bootRecordWrite s = execBootRecordWrite s := rfl
  rw [command, execBootRecordWrite, waiting]
  dsimp only
  rw [if_neg (by simp [up])]
  refine ⟨_, rfl, rfl, rfl, ?_, ?_, rfl⟩
  · exact s.each_record_nextSeq 0x60 1 0 (fun i => leBytes 1 i ++ sub (s.signBoot b) (32 * i) 32) (List.range 8)
  · exact s.each_keeps State.keys (fun i t => t.record 0x60 1 0 (leBytes 1 i ++ sub (s.signBoot b) (32 * i) 32)) (fun _ t => t.record_keys ..) (List.range 8)

/-! ### The host's flash behind an open gate -/

theorem exec_hostFlashAccess {flash f : Nat} (addr len : Nat) (op : FlashOp) (opened : s.gate.st = .opened) (reached : s.gate.reaches flash = some f) :
    exec (.hostFlashAccess flash addr len op) s = .next (s.modGate fun g =>
      if g.drops f addr len op then { g with blocked := sat 32 (g.blocked + 1), answer := if g.espi then .unsuccessful else .deselected }
      else { g with answer := g.answerOf f addr len op }) := by
  have command : exec (.hostFlashAccess flash addr len op) s = execHostFlashAccess flash addr len op s := rfl
  rw [command, execHostFlashAccess, if_neg (by simp [opened]), reached]

/-- A change of the gate is decided by what it makes of the gate that stands. -/
theorem State.modGate_congr {f g : Gate → Gate} (h : f s.gate = g s.gate) : s.modGate f = s.modGate g :=
  congrArg (fun x => { s with gate := x }) h

theorem exec_hostFlashAccess_unreached {flash : Nat} (addr len : Nat) (op : FlashOp) (opened : s.gate.st = .opened)
    (absent : s.gate.reaches flash = none) :
    exec (.hostFlashAccess flash addr len op) s = .next (s.modGate fun g => { g with answer := .none }) := by
  have command : exec (.hostFlashAccess flash addr len op) s = execHostFlashAccess flash addr len op s := rfl
  rw [command, execHostFlashAccess, if_neg (by simp [opened]), absent]

theorem Gate.reaches_recovery {g : Gate} (recovery : g.recovery = true) (spi : g.espi = false) : g.reaches 0 = some 1 ∧ g.reaches 1 = none := by
  simp [Gate.reaches, recovery, spi]

theorem Gate.answerOf_read {g : Gate} {flash addr len : Nat} (inside : g.inPartition flash addr len ≠ 0) :
    g.answerOf flash addr len .read = .blank (g.inPartition flash addr len) :=
  if_pos ⟨rfl, inside⟩

theorem Gate.drops_partition {g : Gate} {addr len : Nat} (inside : g.partOffset < addr + len) :
    g.drops 0 addr len .program = true ∧ g.drops 0 addr len .erase = true := by
  simp [Gate.drops, inside]

/-- Settles O33: the verdict's three outcomes, the decision's table, the record written in eight parts, and the flash command judged by the gate that
stands. -/
theorem bootGate : Obligations.BootGate := by
  refine ⟨fun g s measuring up written => ?_, decide_policy, opens_table, fun v s => s.openGate_gate v, fun b rest s => exec_bootRecordWrite s,
    fun b s alias_ => if_pos alias_, fun flash addr len op s f opened reached drops => ?_, fun flash addr len op s f opened reached passes => ?_,
    fun flash addr len op s => exec_hostFlashAccess_unreached s addr len op, fun g flash addr len => Gate.answerOf_read, fun _ _ _ _ => rfl,
    fun g addr len => Gate.drops_partition, fun g => Gate.reaches_recovery⟩
  · have verdict := exec_gateVerdict s g measuring up written
    dsimp only at verdict ⊢
    rw [verdict]
    refine ⟨fun shut => ?_, fun opened free => ?_, fun opened boot asserted => ?_⟩
    · rw [shut]; rfl
    · have now : (s.gate.fromPerst && s.hp.perst) = false := by rcases free with h | h <;> simp [h]
      rw [opened, now]; rfl
    · rw [opened, boot, asserted]; rfl
  · rw [exec_hostFlashAccess s addr len op opened reached]
    exact congrArg Host.Outcome.next (s.modGate_congr (if_pos drops))
  · rw [exec_hostFlashAccess s addr len op opened reached]
    exact congrArg Host.Outcome.next (s.modGate_congr (if_neg (by simp [passes])))

end Sys2Proof.Machine
end

section
/-! PROOFS of the family 'other': the loss of main power (O36). -/

namespace Sys2Proof.Machine

variable (s : State)

/-! ### POWER_FAIL -/

/-- POWER_FAIL takes a number, and the whole buffer is being flushed. -/
theorem State.powerFlush_er (cause : Nat) : (s.powerFlush cause).er.flushing = true ∧ (s.powerFlush cause).er.powerFlush = true ∧
    s.er.nextSeq + 1 ≤ (s.powerFlush cause).er.nextSeq := by
  refine ⟨rfl, rfl, ?_⟩
  unfold State.powerFlush
  dsimp only
  rw [State.record_nextSeq]
  exact Nat.succ_le_succ s.nextSeq_le_recordSeq

@[simp] theorem State.powerFlush_keys (cause : Nat) : (s.powerFlush cause).keys = s.keys := State.record_keys ..
@[simp] theorem State.powerFlush_chs (cause : Nat) : (s.powerFlush cause).chs = s.chs := State.record_chs ..
@[simp] theorem State.powerFlush_slices (cause : Nat) : (s.powerFlush cause).slices = s.slices := State.record_slices ..
@[simp] theorem State.powerFlush_dual (cause : Nat) : (s.powerFlush cause).dual = s.dual := State.record_dual ..
@[simp] theorem State.powerFlush_gate (cause : Nat) : (s.powerFlush cause).gate = s.gate := State.record_gate ..
@[simp] theorem State.powerFlush_tamper (cause : Nat) : (s.powerFlush cause).tamper = s.tamper := State.record_tamper ..
@[simp] theorem State.powerFlush_renewal (cause : Nat) : (s.powerFlush cause).renewal = s.renewal := State.record_renewal ..

/-! ### What a message or a record touches -/

/-- One recorder comes of another by events noted: no number is taken back, and the log in flash stands. -/
def Recorder.Notes (r r' : Recorder) : Prop := r.nextSeq ≤ r'.nextSeq ∧ r'.log = r.log

/-- A number taken and a record placed move NEXT_SEQ on by one. -/
theorem Recorder.put_takeSeq_nextSeq (r : Recorder) (x : Record) : (r.takeSeq.put x).nextSeq = r.nextSeq + 1 := by
  unfold Recorder.put Recorder.takeSeq
  split <;> rfl

theorem Recorder.notes_put (r : Recorder) (x : Record) : Recorder.Notes r (r.takeSeq.put x) := by
  refine ⟨by rw [Recorder.put_takeSeq_nextSeq]; exact Nat.le_succ _, ?_⟩
  unfold Recorder.put Recorder.takeSeq
  split <;> rfl

/-- A property of a state that a message to the host, its note in the wake state and a record in the recorder do not lose. -/
structure NoteClosed (P : State → Prop) : Prop where
  hp : ∀ (t : State) tx pba linkPm ats, P t → P { t with hp := { t.hp with tx := tx, pba := pba, linkPm := linkPm, ats := ats } }
  cause : ∀ (t : State) c, P t → P { t with glob := { t.glob with irqCause := c } }
  link : ∀ (t : State) f, P t → P (t.modDom 60 f)
  wake : ∀ (t : State) a b c, P t → P (t.modPower fun p => { p with wakeSource := a, wakeDomain := b, wakes := c })
  er : ∀ (t : State) r, Recorder.Notes t.er r → P t → P { t with er := r }

namespace NoteClosed

variable {P : State → Prop} (closed : NoteClosed P) {t : State}

include closed

theorem push (o : Out) (h : P t) : P (t.push o) := closed.hp t _ _ _ _ h

theorem postVec (v : Nat) (h : P t) : P (t.postVec v) := by
  unfold State.postVec
  split
  · exact closed.push _ h
  · exact closed.hp t _ _ _ _ h

theorem noteCause (b : Nat) (h : P t) : P (t.noteCause b) := closed.cause t _ h

theorem wakeNote (n : Nat) (h : P t) : P (t.wakeNote 60 n) := closed.wake _ _ _ _ (closed.link t _ h)

theorem setLinkPm (pm : Nat) (h : P t) : P (t.setLinkPm pm) := by
  unfold State.setLinkPm
  split
  · exact h
  · exact closed.postVec _ (closed.noteCause _ (closed.hp t t.hp.tx t.hp.pba pm t.hp.ats h))

theorem linkExit (h : P t) : P t.linkExit := by
  have up := closed.setLinkPm 0 h
  unfold State.linkExit
  dsimp only
  split
  · split
    · exact closed.link _ _ up
    · split
      · exact up
      · exact closed.wakeNote _ up
  · exact h

theorem raiseVec (v : Nat) (h : P t) : P (t.raiseVec v) := by
  unfold State.raiseVec
  split
  · exact closed.postVec _ (closed.linkExit h)
  · exact closed.postVec _ h

theorem raiseCause (b : Nat) (h : P t) : P (t.raiseCause b) := closed.raiseVec _ (closed.noteCause b h)

theorem emit (o : Out) (h : P t) : P (t.emit o) := by
  have sent := closed.push o (closed.linkExit h)
  unfold State.emit
  dsimp only
  split
  · exact closed.hp _ _ _ _ _ sent
  · exact closed.hp _ _ _ _ _ sent
  · exact sent

theorem flushStart (h : P t) : P t.flushStart := closed.er t _ ⟨Nat.le_refl _, rfl⟩ h

theorem writeRec (typ src grade : Nat) (m : Bool) (b : Bytes) (h : P t) : P (t.writeRec typ src grade m b) := by
  have written := closed.er t (t.er.takeSeq.put ⟨t.er.nextSeq, typ, src, grade, t.gradeInForce, m, b⟩) (Recorder.notes_put ..) h
  unfold State.writeRec
  dsimp only
  split
  · split
    · exact closed.raiseCause _ (closed.flushStart written)
    · exact closed.raiseCause _ written
  · split
    · exact closed.flushStart written
    · exact written

theorem writeLost (h : P t) : P t.writeLost := by
  unfold State.writeLost
  split
  · split
    · exact closed.writeRec _ _ _ _ _ (closed.er t { t.er with lostRange := none } ⟨Nat.le_refl _, rfl⟩ h)
    · exact h
  · exact h

theorem record (typ src grade : Nat) (b : Bytes) (h : P t) : P (t.record typ src grade b) := closed.writeRec _ _ _ _ _ (closed.writeLost h)

end NoteClosed

/-- The pin of PWR_FAIL# stands. -/
theorem noteClosed_failPin (b : Bool) : NoteClosed fun t => t.power.failPin = b where
  hp _ _ _ _ _ := id
  cause _ _ := id
  link _ _ := id
  wake _ _ _ _ := id
  er _ _ _ := id

/-! ### PWR_FAIL#, and main power gone -/

theorem exec_pwrFailAssert (power : s.tamper.mainPower = true) (high : s.power.failPin = false) : ∃ t, exec (.pwrFailAssert false) s = .next t ∧
    t.er.flushing = true ∧ t.er.powerFlush = true ∧ t.power.failPin = true ∧ s.er.nextSeq + 1 ≤ t.er.nextSeq ∧ t.keys = s.keys ∧ t.chs = s.chs ∧
    t.slices = s.slices := by
  have command : exec (.pwrFailAssert false) s = execPwrFailAssert false s := rfl
  rw [command, execPwrFailAssert, if_neg (by simp [power]), if_neg (by decide), if_neg (by simp [high])]
  let u : State := { s with power := { s.power with failPin := true } }
  obtain ⟨flushing, powerFlush, nextSeq⟩ := u.powerFlush_er 1
  exact ⟨u.powerFlush 1, rfl, flushing, powerFlush, (noteClosed_failPin true).record 2 6 0 _ rfl, nextSeq, u.powerFlush_keys 1, u.powerFlush_chs 1,
    u.powerFlush_slices 1⟩

/-- What main power's loss keeps of the state that stands when its flush has begun. -/
theorem State.mainLost_keeps (cause : Nat) : (s.mainLost cause).tamper.mainPower = false ∧ (s.mainLost cause).keys.root = s.keys.root ∧
    (s.mainLost cause).keys.lc = s.keys.lc ∧ (s.mainLost cause).keys.keys = [] ∧ (s.mainLost cause).dual.custodians = s.dual.custodians ∧
    (s.mainLost cause).dual.m = s.dual.m ∧ (s.mainLost cause).gate.policy = s.gate.policy ∧ (s.mainLost cause).gate.bootCount = s.gate.bootCount ∧
    (s.mainLost cause).tamper.latch = s.tamper.latch ∧ s.er.nextSeq + 1 ≤ (s.mainLost cause).er.nextSeq ∧
    (s.mainLost cause).slices = State.reset.slices ∧ (s.mainLost cause).renewal.twFloor = s.renewal.twFloor := by
  have keys := s.powerFlush_keys cause
  have dual := s.powerFlush_dual cause
  have gate := s.powerFlush_gate cause
  exact ⟨rfl, (congrArg Custody.root keys :), (congrArg Custody.lc keys :), rfl, (congrArg Dual.custodians dual :), (congrArg Dual.m dual :),
    (congrArg Gate.policy gate :), (congrArg Gate.bootCount gate :), (congrArg Tamper.latch (s.powerFlush_tamper cause) :), (s.powerFlush_er cause).2.2,
    rfl, (congrArg Renewal.twFloor (s.powerFlush_renewal cause) :)⟩

theorem State.mainLost_cellPresent (cause : Nat) : (s.mainLost cause).tamper.cellPresent = s.tamper.cellPresent :=
  (congrArg Tamper.cellPresent (s.powerFlush_tamper cause) :)

theorem exec_pwrFailAssert_droop (power : s.tamper.mainPower = true) : exec (.pwrFailAssert true) s = .next (s.mainLost 2).tahrLost := by
  have command : exec (.pwrFailAssert true) s = execPwrFailAssert true s := rfl
  rw [command, execPwrFailAssert, if_neg (by simp [power]), if_pos rfl]

/-- Settles O36: POWER_FAIL and its flush, then what `dark` names is kept; without a cell Tahr loses its own. -/
theorem mainPowerLoss : Obligations.MainPowerLoss := by
  refine ⟨exec_pwrFailAssert, fun _ => rfl, fun s power => ?_, fun s power cell => ?_, fun s power none => ?_⟩
  · exact ⟨s.mainLost 2, if_neg (by simp [power]), s.mainLost_keeps 2⟩
  · rw [exec_pwrFailAssert_droop s power, State.tahrLost, if_neg (by rwa [State.mainLost_cellPresent])]
  · rw [exec_pwrFailAssert_droop s power, State.tahrLost, if_pos (by rwa [State.mainLost_cellPresent])]
    exact ⟨_, rfl, rfl, rfl, rfl⟩

end Sys2Proof.Machine
end

section
/-! PROOFS of the family 'other': a world's restart ends (O38), and the admission table's commit (O40). -/

namespace Sys2Proof.Machine

variable (s : State)

/-! ### The worlds' own fields through a restart -/

/-- The two worlds and the copy that the trusted world runs from. -/
def State.software : WorldSt × WorldSt × Nat := (s.worlds.tw, s.worlds.ow, s.renewal.twCopy)

@[simp] theorem State.record_software (typ src grade : Nat) (b : Bytes) : (s.record typ src grade b).software = s.software := by
  simp [State.software]
@[simp] theorem State.lockTable_software : s.lockTable.software = s.software := rfl
@[simp] theorem State.loadSik_software : s.loadSik.software = s.software := rfl
@[simp] theorem State.remeasure_software : s.remeasure.software = s.software := by
  unfold State.remeasure
  split <;> rfl
@[simp] theorem State.deriveSmks_software : s.deriveSmks.software = s.software := by
  have slices (l : List Slice) : ({ s with slices := l } : State).software = s.software := rfl
  unfold State.deriveSmks
  exact (foldl_keeps State.software (fun t (x : Slice) => State.rewritten 1 (.smk x.num) t) (fun t x => t.record_software ..) _ _).trans (slices _)
@[simp] theorem State.advanceEpoch_software : s.advanceEpoch.software = s.software := by
  unfold State.advanceEpoch
  split <;> rfl
@[simp] theorem State.startWatchdogs_software (w : World) : (s.startWatchdogs w).software = s.software := rfl
@[simp] theorem State.settle_software (before : State) : (s.settle before).software = s.software := by
  simp [State.software]
@[simp] theorem State.assign_software (a : Nat × Bool × Nat) : (s.assign a).software = s.software := by
  unfold State.assign
  refine State.each_keeps _ State.software _ (fun n u => ?_) _
  split <;> rfl

/-- A restart counted in one world. -/
theorem State.countRestart_tw :
    (s.countRestart .tw).software = ({ s.software.1 with restarts := (s.software.1.restarts + 1) % 65536 }, s.software.2) :=
  State.record_software ..

theorem State.countRestart_ow : (s.countRestart .ow).software =
    (s.software.1, { s.software.2.1 with restarts := (s.software.2.1.restarts + 1) % 65536 }, s.software.2.2) :=
  State.record_software ..

/-- The image `j` of copy `copy` taken for the trusted world. -/
def State.imageTaken (j : Image) (copy : Nat) : State :=
  let s1 := s.remeasure.modWorld .tw fun x => { x with image := some j, reread := false }
  { s1 with renewal := { s1.renewal with twCopy := copy } }

theorem State.imageTaken_software (j : Image) (copy : Nat) :
    (s.imageTaken j copy).software = ({ s.software.1 with image := some j, reread := false }, s.software.2.1, copy) := by
  rw [← s.remeasure_software]
  rfl

/-- A new assignment of the cores made, where one waits. -/
def State.newlyAssigned : State :=
  match s.renewal.newAssign with
  | some a => let t := s.assign a; { t with renewal := { t.renewal with newAssign := none } }
  | none => s

@[simp] theorem State.newlyAssigned_software : s.newlyAssigned.software = s.software := by
  unfold State.newlyAssigned
  split
  · exact (s.assign_software _ :)
  · rfl

/-- The trusted world's cores released. -/
def State.twReleased : State :=
  s.lockTable.loadSik.deriveSmks.advanceEpoch.modWorld .tw fun x => { x with up := true, inProgress := false }

theorem State.twReleased_software : s.twReleased.software = ({ s.software.1 with up := true, inProgress := false }, s.software.2) := by
  have before : s.lockTable.loadSik.deriveSmks.advanceEpoch.software = s.software := by
    rw [State.advanceEpoch_software, State.deriveSmks_software, State.loadSik_software, State.lockTable_software]
  rw [← before]
  rfl

/-- What ends a restart once the world runs and its restart is counted. -/
def State.restarted (w : World) : State :=
  { s.startWatchdogs w with ports := s.ports.map fun (x : Port) => if x.st == PortState.auth && x.cause == 4 then { x with cause := 0 } else x }

theorem State.restarted_software (w : World) : (s.restarted w).software = s.software := rfl

/-- The trusted world runs again from the image `j` of copy `copy`, its restart counted. -/
def State.twRestarted (j : Image) (copy : Nat) : State := ((s.imageTaken j copy).newlyAssigned.twReleased.countRestart .tw).restarted .tw

theorem State.twRestarted_software (j : Image) (copy : Nat) : (s.twRestarted j copy).software =
    ({ s.worlds.tw with image := some j, reread := false, up := true, inProgress := false, restarts := (s.worlds.tw.restarts + 1) % 65536 },
      s.worlds.ow, copy) := by
  rw [State.twRestarted, State.restarted_software, State.countRestart_tw, State.twReleased_software, State.newlyAssigned_software,
    State.imageTaken_software]
  rfl

/-- A trial begun with the trusted world's restart. -/
def State.trialNoted (s : State) (before : State) (trial : Bool) : State :=
  { s with renewal := { s.renewal with twTrial := trial, twPending := s.renewal.twPending || trial,
                                       trialSince := if trial then before.glob.uptimeMs else s.renewal.trialSince } }

theorem exec_twRestartComplete_eq {i j : Image} {copy : Nat} (r : RestartRead) (image : s.worlds.tw.image = some i)
    (begun : s.worlds.tw.inProgress = true) (flash : s.worlds.tw.waitFlash = false)
    (measured : s.worlds.tw.reread = true ∨ r.measured = i.measurement) (found : s.restartImage .tw r.copies = some (j, copy)) :
    exec (.twRestartComplete r) s =
      .next (((s.twRestarted j copy).trialNoted (s.imageTaken j copy) s.worlds.tw.prevImage.isSome).settle s) := by
  have command : exec (.twRestartComplete r) s = execTwRestartComplete r s := rfl
  rw [command, execTwRestartComplete, image, found]
  refine (if_neg (by simp [begun, flash])).trans ((if_neg (by rcases measured with h | h <;> simp [h])).trans ?_)
  rfl

/-- What the trusted world's restart leaves of the worlds: it runs the image found, and the restart is counted. -/
theorem exec_twRestartComplete {i j : Image} {copy : Nat} (r : RestartRead) (image : s.worlds.tw.image = some i)
    (begun : s.worlds.tw.inProgress = true) (flash : s.worlds.tw.waitFlash = false)
    (measured : s.worlds.tw.reread = true ∨ r.measured = i.measurement) (found : s.restartImage .tw r.copies = some (j, copy)) :
    ∃ t, exec (.twRestartComplete r) s = .next t ∧ t.software =
      ({ s.worlds.tw with image := some j, reread := false, up := true, inProgress := false, restarts := (s.worlds.tw.restarts + 1) % 65536 },
        s.worlds.ow, copy) := by
  have noted (t u : State) (trial : Bool) : (t.trialNoted u trial).software = t.software := rfl
  refine ⟨_, exec_twRestartComplete_eq s r image begun flash measured found, ?_⟩
  rw [State.settle_software, noted, State.twRestarted_software]

/-- The copy of flash that a world runs from. -/
def State.imageCopy : World → Nat
  | .tw => s.renewal.twCopy
  | .ow => s.renewal.owCopy

/-- The image in RAM is the one a restart compares, where flash is not read again. -/
theorem State.restartImage_same {w : World} {i : Image} (image : (s.world w).image = some i) (same : (s.world w).reread = false) (copies : List Bytes) :
    s.restartImage w copies = some (i, s.imageCopy w) := by
  unfold State.restartImage
  dsimp only
  rw [same, image]
  cases w <;> rfl

theorem exec_twRestartComplete_mismatch {i : Image} {m : Bytes} (copies : List Bytes) (image : s.worlds.tw.image = some i)
    (begun : s.worlds.tw.inProgress = true) (flash : s.worlds.tw.waitFlash = false) (same : s.worlds.tw.reread = false) (other : m ≠ i.measurement)
    (settled : s.worlds.tw.prevImage = none) : exec (.twRestartComplete ⟨m, copies⟩) s = .next ((s.mismatch .tw).settle s) := by
  have command : exec (.twRestartComplete ⟨m, copies⟩) s = execTwRestartComplete ⟨m, copies⟩ s := rfl
  rw [command, execTwRestartComplete, image]
  dsimp only
  rw [if_neg (by simp [begun, flash]), if_pos (by simpa [same] using other), if_neg (by simp [settled])]

/-- The open world runs again from the image `j`, its restart counted. -/
def State.owRestarted (j : Image) : State :=
  (s.modWorld .ow fun x => { x with up := true, inProgress := false, prevImage := none, image := some j, reread := false }).countRestart .ow

theorem State.owRestarted_software (j : Image) : (s.owRestarted j).software = (s.worlds.tw,
    { s.worlds.ow with up := true, inProgress := false, prevImage := none, image := some j, reread := false,
                       restarts := (s.worlds.ow.restarts + 1) % 65536 }, s.renewal.twCopy) := by
  rw [State.owRestarted, State.countRestart_ow]
  rfl

theorem exec_owRestartComplete {i : Image} (copies : List Bytes) (image : s.worlds.ow.image = some i) (begun : s.worlds.ow.inProgress = true)
    (flash : s.worlds.ow.waitFlash = false) (same : s.worlds.ow.reread = false) (placed : s.renewal.newAssign = none) :
    ∃ t, exec (.owRestartComplete ⟨i.measurement, copies⟩) s = .next t ∧ t.software = (s.worlds.tw,
      { s.worlds.ow with up := true, inProgress := false, prevImage := none, image := some i, reread := false,
                         restarts := (s.worlds.ow.restarts + 1) % 65536 }, s.renewal.twCopy) := by
  have command : exec (.owRestartComplete ⟨i.measurement, copies⟩) s = execOwRestartComplete ⟨i.measurement, copies⟩ s := rfl
  have found := s.restartImage_same (w := .ow) image same copies
  rw [command, execOwRestartComplete, image, found]
  dsimp only
  rw [if_neg (by simp [begun, flash, placed]), if_neg (by simp)]
  exact ⟨_, rfl, s.owRestarted_software i⟩

theorem exec_owRestartComplete_mismatch {i : Image} {m : Bytes} (copies : List Bytes) (image : s.worlds.ow.image = some i)
    (begun : s.worlds.ow.inProgress = true) (flash : s.worlds.ow.waitFlash = false) (same : s.worlds.ow.reread = false)
    (placed : s.renewal.newAssign = none) (settled : s.worlds.ow.prevImage = none) (other : m ≠ i.measurement) :
    exec (.owRestartComplete ⟨m, copies⟩) s = .next ((s.mismatch .ow).settle s) := by
  have command : exec (.owRestartComplete ⟨m, copies⟩) s = execOwRestartComplete ⟨m, copies⟩ s := rfl
  rw [command, execOwRestartComplete, image]
  dsimp only
  rw [if_neg (by simp [begun, flash, placed]), if_pos (by simpa [same] using other), if_neg (by simp [settled])]

/-- Settles O38: a restart leaves the two worlds and the copy as `software` says, through all that stands between; a comparison that fails is a
mismatch, settled. -/
theorem worldRestartsComplete : Obligations.WorldRestartsComplete := by
  refine ⟨fun i copies s image begun flash same => ?_, fun i j copy m copies s image begun flash reread found => ?_,
    fun i m copies s image begun flash same other settled => exec_twRestartComplete_mismatch s copies image begun flash same other settled,
    fun i copies s image begun flash same placed => ?_,
    fun i m copies s image begun flash same placed settled other => exec_owRestartComplete_mismatch s copies image begun flash same placed settled other,
    fun c s p t ready => congrArg Host.Outcome.next (ready.command_answered rfl)⟩
  · obtain ⟨t, next, software⟩ := exec_twRestartComplete s ⟨i.measurement, copies⟩ image begun flash (.inr rfl)
      (s.restartImage_same (w := .tw) image same copies)
    simp only [State.software, Prod.mk.injEq] at software
    obtain ⟨tw, ow, -⟩ := software
    refine ⟨t, next, ?_⟩
    rw [tw, ow]
    exact ⟨rfl, rfl, rfl, rfl, rfl⟩
  · have taken : s.restartImage .tw copies = some (j, copy) := (if_pos reread).trans found
    obtain ⟨t, next, software⟩ := exec_twRestartComplete s ⟨m, copies⟩ image begun flash (.inl reread) taken
    simp only [State.software, Prod.mk.injEq] at software
    obtain ⟨tw, -, twCopy⟩ := software
    refine ⟨t, next, ?_⟩
    rw [tw]
    exact ⟨rfl, rfl, twCopy, rfl⟩
  · obtain ⟨t, next, software⟩ := exec_owRestartComplete s copies image begun flash same placed
    simp only [State.software, Prod.mk.injEq] at software
    obtain ⟨tw, ow, -⟩ := software
    refine ⟨t, next, ?_⟩
    rw [ow]
    exact ⟨rfl, rfl, rfl, rfl, tw⟩

/-! ### The admission table's commit -/

@[simp] theorem State.world_modWorld (w : World) (f : WorldSt → WorldSt) : (s.modWorld w f).world w = f (s.world w) := by cases w <;> rfl

theorem State.modWorld_regions (w : World) (f : WorldSt → WorldSt) : (s.modWorld w f).worlds.regions = s.worlds.regions ∧
    (s.modWorld w f).worlds.admEpoch = s.worlds.admEpoch := by cases w <;> exact ⟨rfl, rfl⟩

theorem State.modWorld_outstandingReads (w : World) (f : WorldSt → WorldSt) : (s.modWorld w f).outstandingReads = s.outstandingReads := by
  cases w <;> rfl

/-- The shadows a world's commit applies. -/
def State.openShadows (w : World) : List (Nat × Region16) := (s.world w).shadows.filter fun p => !(assocD s.worlds.regions p.1 {}).lock

theorem exec_admCommitApply_applies {w : World} (asked : (s.world w).admCommit = true)
    (good : s.commitBad (withShadows s.worlds.regions (s.openShadows w)) (s.openShadows w) = none) :
    ∃ t, exec (.admCommitApply w) s = .next t ∧ t.worlds.regions = withShadows s.worlds.regions (s.openShadows w) ∧ (t.world w).shadows = [] ∧
      (t.world w).admCommit = false ∧ t.worlds.admEpoch = (s.worlds.admEpoch + 1) % 65536 ∧ t.worlds.oldReads = s.outstandingReads := by
  have command : exec (.admCommitApply w) s = execAdmCommitApply w s := rfl
  rw [command, execAdmCommitApply]
  dsimp only
  rw [if_neg (by simp [asked])]
  rw [State.openShadows] at good
  rw [good]
  refine ⟨_, rfl, ?_⟩
  cases w <;> exact ⟨rfl, rfl, rfl, rfl, rfl⟩

theorem exec_admCommitApply_refuses {w : World} {c i : Nat} (asked : (s.world w).admCommit = true)
    (bad : s.commitBad (withShadows s.worlds.regions (s.openShadows w)) (s.openShadows w) = some (c, i)) :
    ∃ t, exec (.admCommitApply w) s = .next t ∧ t.worlds.regions = s.worlds.regions ∧ t.worlds.admEpoch = s.worlds.admEpoch ∧
      (t.world w).admErrValid = true ∧ (t.world w).admErrCause = c ∧ (t.world w).admErrEntry = i ∧ (t.world w).admCommit = false := by
  have command : exec (.admCommitApply w) s = execAdmCommitApply w s := rfl
  rw [command, execAdmCommitApply]
  dsimp only
  rw [if_neg (by simp [asked])]
  rw [State.openShadows] at bad
  rw [bad]
  refine ⟨_, rfl, ?_⟩
  cases w <;> exact ⟨rfl, rfl, rfl, rfl, rfl, rfl⟩

/-- An entry of an association list is found under its number. -/
theorem assocD_mem {β : Type} {l : List (Nat × β)} {k : Nat} (h : k ∈ l.map (·.1)) (d : β) : (k, assocD l k d) ∈ l := by
  unfold assocD
  cases found : l.find? (fun p => p.1 == k) with
  | none =>
    obtain ⟨p, hp, rfl⟩ := List.mem_map.mp h
    exact absurd (List.find?_eq_none.mp found p hp) (by simp)
  | some p =>
    have key : p.1 = k := by simpa using List.find?_some found
    exact key ▸ List.mem_of_find?_eq_some found

/-- An entry that overlaps another of the table is bad (R443). -/
theorem State.regionBad_overlap (table : List (Nat × Region16)) (i j : Nat) (apart : i ≠ j)
    (meets : (assocD table i {}).overlaps (assocD table j {}) = true) (stands : j ∈ table.map (·.1)) : s.regionBad table i 1 = true := by
  have valid : (assocD table i {}).valid = true := by
    simp only [Region16.overlaps, Bool.and_eq_true] at meets
    obtain ⟨⟨⟨valid, -⟩, -⟩, -⟩ := meets
    exact valid
  unfold State.regionBad
  dsimp only
  rw [valid, Bool.true_and]
  exact List.any_eq_true.mpr ⟨_, assocD_mem stands {}, by rw [meets, Bool.and_true]; exact bne_iff_ne.mpr apart.symm⟩

/-- Settles O40: the write asks for the commit, and the check of the whole resulting table decides which of the two ends it has. -/
theorem admissionCommit : Obligations.AdmissionCommit :=
  ⟨fun _ _ up => congrArg Host.Outcome.next (if_neg (by simp [up])),
    fun _ s asked => ⟨exec_admCommitApply_applies s asked, fun _ _ => exec_admCommitApply_refuses s asked⟩,
    fun s table i j => s.regionBad_overlap table i j⟩

end Sys2Proof.Machine
end

section
/-! PROOFS of the family 'other': the event that completes the count (O43). -/

namespace Sys2Proof.Machine

variable (s : State)

/-! ### Sources -/

/-- A source reads as its change makes it. -/
theorem State.src_modSrc {i : Nat} (known : i < s.tamper.sources.length) (f : TSource → TSource) : (s.modSrc i f).src i = f (s.src i) := by
  simp [State.src, State.modSrc, List.getD_eq_getElem?_getD, known]

/-- A source reads alike where the sources stand. -/
theorem State.src_congr {s t : State} (h : t.tamper.sources = s.tamper.sources) (i : Nat) : t.src i = s.src i := by simp [State.src, h]

/-- What a record of Tahr's leaves, written to the recorder or kept in Tahr. -/
theorem State.tamperRecord_keeps (i grade : Nat) : (s.tamperRecord i grade).chs = s.chs ∧ (s.tamperRecord i grade).md = s.md ∧
    (s.tamperRecord i grade).keys = s.keys := by
  unfold State.tamperRecord
  dsimp only
  split
  · simp
  · exact ⟨rfl, rfl, rfl⟩

/-- A record changes LAST_SEQ alone among a source's fields. -/
theorem State.tamperRecord_alarmed {i : Nat} (known : i < s.tamper.sources.length) (grade : Nat) :
    ((s.tamperRecord i grade).src i).alarmed = (s.src i).alarmed := by
  unfold State.tamperRecord
  dsimp only
  split
  · rw [State.src_congr (congrArg Tamper.sources (State.record_tamper ..)), s.src_modSrc known]
  · exact congrArg TSource.alarmed (State.src_congr (s.tamper.putEntry_sources _) i)

/-! ### An event counted -/

/-- The times of a source's events within its window, this one with them. -/
def State.timesWith (i : Nat) : List Nat := ((s.src i).times.filter fun x => s.sinceMs x < s.limitW (s.src i)) ++ [s.tamper.tahrMs]

/-- The event noted at its source. -/
def State.noted (i : Nat) : State :=
  (s.modSrc i fun x => { x with asserted := true, events := sat 32 (x.events + 1) }).modSrc i fun x => { x with times := s.timesWith i }

theorem State.noted_alarmed {i : Nat} (known : i < s.tamper.sources.length) : ((s.noted i).src i).alarmed = (s.src i).alarmed := by
  unfold State.noted
  rw [State.src_modSrc _ (by simpa using known), s.src_modSrc known]

theorem State.tamperEvent_below {i : Nat} (scope : Nat) (senses : s.senses i = true) (quiet : (s.src i).alarmed = false)
    (below : (s.timesWith i).length < s.limitN (s.src i)) : s.tamperEvent i scope =
      if (s.src i).armedOnce then s.noted i else ((s.noted i).modSrc i fun x => { x with armedOnce := true }).tamperRecord i 0 := by
  unfold State.tamperEvent State.countEvent
  rw [if_pos senses, if_neg (by simp [quiet])]
  exact if_pos below

theorem State.tamperEvent_completes {i : Nat} (scope : Nat) (senses : s.senses i = true) (quiet : (s.src i).alarmed = false)
    (complete : s.limitN (s.src i) ≤ (s.timesWith i).length) : s.tamperEvent i scope =
      (((s.noted i).modSrc i fun x => { x with alarmed := true, alarms := sat 32 (x.alarms + 1), a3Raised := x.a3Raised || (s.src i).grade == 3 }).respond
        i (s.src i).grade scope).tamperRecord i (s.src i).grade := by
  unfold State.tamperEvent State.countEvent
  rw [if_pos senses, if_neg (by simp [quiet])]
  exact if_neg (Nat.not_lt.mpr complete)

theorem State.tamperEvent_below_leaves {i : Nat} (scope : Nat) (known : i < s.tamper.sources.length) (senses : s.senses i = true)
    (quiet : (s.src i).alarmed = false) (below : (s.timesWith i).length < s.limitN (s.src i)) :
    ((s.tamperEvent i scope).src i).alarmed = false ∧ (s.tamperEvent i scope).chs = s.chs ∧ (s.tamperEvent i scope).md = s.md ∧
      (s.tamperEvent i scope).keys = s.keys := by
  have alarmed := (s.noted_alarmed known).trans quiet
  rw [s.tamperEvent_below scope senses quiet below]
  split
  · exact ⟨alarmed, rfl, rfl, rfl⟩
  · let u := (s.noted i).modSrc i fun x => { x with armedOnce := true }
    have stands : i < (s.noted i).tamper.sources.length := by simpa [State.noted] using known
    have armed : (u.src i).alarmed = false := by
      rw [State.src_modSrc _ stands]
      exact alarmed
    exact ⟨(u.tamperRecord_alarmed (by simpa [u] using stands) 0).trans armed, u.tamperRecord_keeps i 0⟩

/-- Settles O43: the event is noted in the window; below the count nothing answers, at the count the source alarms, responds and is recorded. -/
theorem alarmCompletes : Obligations.AlarmCompletes := by
  intro i scope s senses known quiet
  exact ⟨fun below => s.tamperEvent_below_leaves scope known senses quiet below, fun complete => s.tamperEvent_completes scope senses quiet complete,
    fun g inForce => if_pos inForce⟩

end Sys2Proof.Machine
end

section
/-! PROOFS of the family 'other': the queue (O1, O2), and the state after reset (O58). -/

namespace Sys2Proof.Machine

/-- Settles O1: `step` takes the front of the queue. -/
theorem stepRunsTheFrontCommand : Obligations.StepRunsTheFrontCommand := fun _ _ _ => rfl

/-- Nothing is waiting, nothing runs. -/
theorem step_idle {s : State} (idle : s.pending = []) : step s = .next s := by rw [step, idle]

/-- Settles O2: the empty queue, of which reset's is one. -/
theorem emptyQueueIdles : Obligations.EmptyQueueIdles := ⟨fun _ => step_idle, step_idle rfl⟩

/-! ### The state after reset -/

/-- Of copies of one thing each has what that one has. -/
theorem forall_mem_replicate_of {α : Type} {P : α → Prop} {a : α} (n : Nat) (h : P a) : ∀ x ∈ List.replicate n a, P x :=
  fun _ hx => (List.eq_of_mem_replicate hx) ▸ h

theorem reset_sources : State.reset.tamper.sources.length = 32 ∧ State.reset.tamper.sources.map (·.grade) =
    [4, 4, 4, 4, 4, 3, 3, 3, 3, 3, 3, 3, 3, 3, 3, 3, 2, 1, 3, 4, 2, 1, 4, 2, 1, 4, 3, 3, 3, 3, 0, 4] := by
  constructor <;> decide

/-- The reset state has the machine's shape. -/
theorem sound_reset : Sound State.reset := by
  refine ⟨List.length_replicate, List.length_replicate, rfl, List.length_replicate, reset_sources.1, List.length_replicate, List.length_replicate,
    List.length_replicate, List.length_replicate, List.length_replicate, rfl, rfl, .inl ⟨rfl, by decide⟩, rfl, nofun, rfl⟩

/-- Settles O58: the values of `State.reset`, list by list. -/
theorem resetState : Obligations.ResetState := by
  refine ⟨rfl, rfl, rfl, rfl, rfl, rfl, rfl, rfl, forall_mem_replicate_of _ rfl, rfl, rfl, rfl, List.length_replicate, forall_mem_replicate_of _ ⟨rfl, rfl⟩,
    forall_mem_replicate_of _ ⟨rfl, rfl, rfl⟩, rfl, rfl, forall_mem_replicate_of _ rfl, rfl, rfl, reset_sources.1, reset_sources.2, rfl, rfl, rfl, rfl,
    fun _ => rfl, fun _ => ⟨rfl, rfl⟩, sound_reset⟩

end Sys2Proof.Machine
end

section
/-! PROOFS of the family 'other': doorbells, arrival, admission and completion of a ring pair (O8). -/

namespace Sys2Proof.Machine

variable (s : State)

/-! ### Doorbells -/

/-- The host's write of CQ_HEAD, in reach and not refused, is the doorbell; recorded and in range it moves CQ_HEAD. -/
theorem exec_cqHead {slice rp value : Nat} {r : RingPair} (up : s.barsUp = true) (fits : ringOff slice rp 0x10 + 4 ≤ barSize 2)
    (admitted : s.refusal 2 (ringOff slice rp 0x10) 4 true = none) (recorded : s.doorbellOk slice rp = true) (ring : s.ring? slice rp = some r)
    (size : value < r.cqSize) (range : (value + r.cqSize - r.cqHead) % r.cqSize ≤ (r.cqTail + r.cqSize - r.cqHead) % r.cqSize) :
    exec (.cqHead slice rp value) s = .next (s.modRing slice rp fun r => { r with cqHead := value }) := by
  have command : exec (.cqHead slice rp value) s = execCqHead slice rp value s := rfl
  rw [command, execCqHead, s.hostReg_admitted (State.cqHeadWrite slice rp value) up fits admitted, State.cqHeadWrite, if_neg (by simp [recorded])]
  exact congrArg Host.Outcome.next (s.modRing_of_ring? ring (if_pos ⟨size, range⟩))

theorem exec_restart {slice rp : Nat} {r : RingPair} (up : s.barsUp = true) (fits : ringOff slice rp 0x28 + 4 ≤ barSize 2)
    (admitted : s.refusal 2 (ringOff slice rp 0x28) 4 true = none) (recorded : s.doorbellOk slice rp = true) (ring : s.ring? slice rp = some r)
    (stopped : r.stopped = true) :
    exec (.restart slice rp) s = .next (s.modRing slice rp fun r => { r with stopped := false, stopCause := 0, fetched := none }) := by
  have command : exec (.restart slice rp) s = execRestart slice rp s := rfl
  rw [command, execRestart, s.hostReg_admitted (State.restartWrite slice rp) up fits admitted, State.restartWrite, if_neg (by simp [recorded])]
  exact congrArg Host.Outcome.next (s.modRing_of_ring? ring (if_pos stopped))

/-! ### Arrival -/

/-- The link awake and the spans of a descriptor and its lists translated, as the read of a head entry does it. -/
def State.spansRead (slice : Nat) (l : List (Nat × Nat)) : State :=
  l.foldl (fun t p => t.translate (s.slice slice).pasid p.1 p.2) s.linkExit

theorem execDescriptorArrival_fault {slice rp : Nat} {a : Arrival} {addr : Nat} {r : RingPair} (ring : s.ring? slice rp = some r) (dma : s.dmaOk = true)
    (open_ : (s.slice slice).state ≠ .fenced) (pasid : s.pasidFenced slice = false)
    (room : r.canFetch (a.entryFault.isNone && (Arrival.fetched a).desc.ext) = true)
    (fault : (a.entryFault <|> s.spansRefused (r.entrySpans (Arrival.fetched a).desc)) = some addr) :
    exec (.descriptorArrival slice rp a) s =
      .next ((s.spansRead slice (r.entrySpans (Arrival.fetched a).desc ++ (Arrival.fetched a).desc.listSpans)).stopRing slice rp 1 addr) := by
  have command : exec (.descriptorArrival slice rp a) s = execDescriptorArrival slice rp a s := rfl
  rw [command, execDescriptorArrival, ring]
  dsimp only
  rw [if_neg (by simp [dma, open_, pasid, room]), fault]
  rfl

/-- What a head entry's lists lacked, and the address at which they did: the fault of the read, or a page refused. -/
def State.listBad (a : Arrival) : Option Nat := a.listFault <|> s.spansRefused (Arrival.fetched a).desc.listSpans

/-- What a head entry's blob header lacked. -/
def State.hdrBad (a : Arrival) : Option Nat :=
  a.hdrFault <|> (if hBlob (Arrival.fetched a).desc.keyHandle then s.dmaRefused .read (Arrival.fetched a).desc.blobAddr 64 else none)

section
variable {s : State} {slice rp : Nat} {a : Arrival} {r : RingPair} (ring : s.ring? slice rp = some r) (dma : s.dmaOk = true)
    (open_ : (s.slice slice).state ≠ .fenced) (pasid : s.pasidFenced slice = false) (read : a.entryFault = none)
    (room : r.canFetch (Arrival.fetched a).desc.ext = true) (whole : s.spansRefused (r.entrySpans (Arrival.fetched a).desc) = none)
include ring dma open_ pasid read room whole

theorem exec_descriptorArrival_kept (good : s.listBad a = none ∨ s.earlyChecks (s.slice slice) r (Arrival.fetched a).desc ≠ none) :
    exec (.descriptorArrival slice rp a) s =
      .next ((s.spansRead slice (r.entrySpans (Arrival.fetched a).desc ++ (Arrival.fetched a).desc.listSpans)).modRing slice rp fun y =>
        { y with fetched := some { Arrival.fetched a with addr := r.headAddr, pasid := (s.slice slice).pasid, listFault := s.listBad a,
                                                          hdrFault := s.hdrBad a } }) := by
  have command : exec (.descriptorArrival slice rp a) s = execDescriptorArrival slice rp a s := rfl
  rw [command, execDescriptorArrival, ring]
  dsimp only
  rw [if_neg (by simp [dma, open_, pasid, read, room]), read, whole]
  rcases good with good | good
  · rw [State.listBad] at good ⊢
    rw [good]
    cases s.earlyChecks (s.slice slice) r (Arrival.fetched a).desc <;> rfl
  · obtain ⟨early, found⟩ := Option.ne_none_iff_exists'.mp good
    rw [found]
    rfl

theorem exec_descriptorArrival_stops {addr : Nat} (bad : s.listBad a = some addr)
    (early : s.earlyChecks (s.slice slice) r (Arrival.fetched a).desc = none) :
    exec (.descriptorArrival slice rp a) s =
      .next ((s.spansRead slice (r.entrySpans (Arrival.fetched a).desc ++ (Arrival.fetched a).desc.listSpans)).stopRing slice rp 2 addr) := by
  have command : exec (.descriptorArrival slice rp a) s = execDescriptorArrival slice rp a s := rfl
  rw [State.listBad] at bad
  rw [command, execDescriptorArrival, ring]
  dsimp only
  rw [if_neg (by simp [dma, open_, pasid, read, room]), read, whole, early, bad]
  rfl

end

/-! ### Admission -/

section
variable {s : State} {slice rp : Nat} {r : RingPair} {f : Fetched} (ring : s.ring? slice rp = some r) (fetched : r.fetched = some f)
    (dma : s.dmaOk = true) (turn : s.mayDecide (s.slice slice) rp r f = true)
include ring fetched dma turn

theorem exec_descriptorAdmit_stops {addr : Nat} (early : s.earlyChecks (s.slice slice) r f.desc = none) (fault : f.listFault = some addr) :
    exec (.descriptorAdmit slice rp) s = .next (s.stopRing slice rp 2 addr) := by
  have command : exec (.descriptorAdmit slice rp) s = execDescriptorAdmit slice rp s := rfl
  rw [command, execDescriptorAdmit, ring]
  dsimp only
  rw [fetched]
  dsimp only
  rw [if_neg (by simp [dma, turn]), early, fault]

variable (read : f.listFault = none)
include read

/-- A descriptor whose lists are whole is decided by its checks. -/
theorem execDescriptorAdmit_read : exec (.descriptorAdmit slice rp) s =
    match s.admitChecks (s.slice slice) r f with
    | some (st, detail, bytes, result) =>
      let s1 := s.enter { s.newCtx (s.slice slice) rp r f with
        phase := .finished, executed := false, status := st, detail := detail, bytes := bytes, result := BitVec.ofNat 64 result } f
      .next (if st = .dmaFault then s1.hpError 3 5 0x22 false 7 slice result else s1)
    | none =>
      if f.desc.opcode = 0 then .next (s.enter (s.newCtx (s.slice slice) rp r f) f)
      else
        match s.pickHome (s.newCtx (s.slice slice) rp r f) ((s.openFor (s.slice slice) f.desc).filter fun n => !s.priorityWaits n) with
        | none => .next s
        | some n =>
          match s.drr n slice (f.work rp) with
          | some s1 => .next (s1.handOver n (s.newCtx (s.slice slice) rp r f) f)
          | none => .next s := by
  have command : exec (.descriptorAdmit slice rp) s = execDescriptorAdmit slice rp s := rfl
  rw [command, execDescriptorAdmit, ring]
  dsimp only
  rw [fetched]
  dsimp only
  rw [if_neg (by simp [dma, turn]), read]
  cases s.earlyChecks (s.slice slice) r f.desc <;> rfl

theorem exec_descriptorAdmit_nop (pass : s.admitChecks (s.slice slice) r f = none) (nop : f.desc.opcode = 0) :
    exec (.descriptorAdmit slice rp) s = .next (s.enter (s.newCtx (s.slice slice) rp r f) f) := by
  rw [execDescriptorAdmit_read ring fetched dma turn read, pass]
  exact if_pos nop

theorem exec_descriptorAdmit_handOver {n : Nat} {t : State} (pass : s.admitChecks (s.slice slice) r f = none) (work : f.desc.opcode ≠ 0)
    (home : s.pickHome (s.newCtx (s.slice slice) rp r f) ((s.openFor (s.slice slice) f.desc).filter fun n => !s.priorityWaits n) = some n)
    (share : s.drr n slice (f.work rp) = some t) :
    exec (.descriptorAdmit slice rp) s = .next (t.handOver n (s.newCtx (s.slice slice) rp r f) f) := by
  rw [execDescriptorAdmit_read ring fetched dma turn read, pass]
  dsimp only
  rw [if_neg work, home]
  dsimp only
  rw [share]

theorem exec_descriptorAdmit_refused {st : Status} {detail bytes result : Nat}
    (refused : s.admitChecks (s.slice slice) r f = some (st, detail, bytes, result)) (other : st ≠ .dmaFault) :
    exec (.descriptorAdmit slice rp) s = .next (s.enter { s.newCtx (s.slice slice) rp r f with
      phase := .finished, executed := false, status := st, detail := detail, bytes := bytes, result := BitVec.ofNat 64 result } f) := by
  rw [execDescriptorAdmit_read ring fetched dma turn read, refused]
  exact congrArg Host.Outcome.next (if_neg other)

end

/-! ### NOP, completion and an open chain -/

theorem exec_nop {ctx : Nat} {c : Ctx} (known : s.ctx? ctx = some c) (nop : c.desc.opcode = 0) (ready : c.phase = .ready) :
    exec (.nop ctx) s = .next (s.finish ctx .done 0 0) := by
  have command : exec (.nop ctx) s = execNop ctx s := rfl
  rw [command, execNop, known]
  exact if_pos (by simp [nop, ready])

section
variable {s : State} {ctx : Nat} {c : Ctx} {r : RingPair} (known : s.ctx? ctx = some c) (owner : c.owner = .slice)
    (ring : s.ring? c.slice c.rp = some r) (ended : c.phase = .finished) (dma : s.dmaOk = true) (pasid : s.pasidFenced c.slice = false)
    (open_ : r.stopped = false ∨ r.stopCause ≠ 3) (first : s.linkFirst c = true)
include known owner ring ended dma pasid open_ first

/-- A descriptor that has ended has its record written, or stops its ring where the record's slot cannot be written. -/
theorem execCompletionRecord_eq (fault : Option Nat) : exec (.completionRecord ctx fault) s =
    match fault <|> s.dmaRefused .write (r.cqBase + 32 * r.cqTail) 32 with
    | some addr => .next (s.stopRing c.slice c.rp 3 addr)
    | none => .next (s.writeRecord c r) := by
  have command : exec (.completionRecord ctx fault) s = execCompletionRecord ctx fault s := rfl
  have free : (r.stopped && r.stopCause == 3) = false := by rcases open_ with h | h <;> simp [h]
  rw [command, execCompletionRecord, known]
  dsimp only
  rw [if_neg (by simp [owner]), ring]
  dsimp only
  rw [if_neg (by simp [ended, dma, pasid, free, first])] <;> rfl

end

theorem exec_chainAbandonTimeout {slice rp since : Nat} {r : RingPair} {h : Chain} (ring : s.ring? slice rp = some r) (chain : r.chain = some h)
    (opened : h.openSince = some since) (isOpen : r.chainOpen = true) (active : (s.slice slice).state = .active)
    (late : since + 1000 ≤ s.glob.uptimeMs) :
    exec (.chainAbandonTimeout slice rp) s = .next (s.modRing slice rp fun r => { r with chain := r.chain.map Chain.abandon }) := by
  have command : exec (.chainAbandonTimeout slice rp) s = execChainAbandonTimeout slice rp s := rfl
  have sinceOpen : r.chain.bind (·.openSince) = some since := by rw [chain]; exact opened
  rw [command, execChainAbandonTimeout, ring]
  dsimp only
  rw [sinceOpen]
  exact if_pos (by simpa [isOpen, active] using late)

/-- Settles O8: each event of a ring pair, taken at its guards. -/
theorem ringCommands : Obligations.RingCommands := by
  refine ⟨fun slice rp value s r up fits admitted recorded ring => exec_cqHead s up fits admitted recorded ring,
    fun slice rp s r up fits admitted recorded ring => exec_restart s up fits admitted recorded ring,
    fun slice rp a s r ring dma open_ pasid read room => ⟨fun whole => exec_descriptorArrival_kept ring dma open_ pasid read room whole,
      fun addr whole => exec_descriptorArrival_stops ring dma open_ pasid read room whole, fun addr fault => ?_⟩,
    fun slice rp a addr s r ring dma open_ pasid fault room => ?_,
    fun slice rp s r f ring fetched dma turn pass read nop => exec_descriptorAdmit_nop ring fetched dma turn read pass nop,
    fun slice rp s r f n t ring fetched dma turn pass read => exec_descriptorAdmit_handOver ring fetched dma turn read pass,
    fun slice rp s r f addr ring fetched dma turn => exec_descriptorAdmit_stops ring fetched dma turn,
    fun slice rp s r f st detail bytes result ring fetched dma turn refused other read => exec_descriptorAdmit_refused ring fetched dma turn read refused other,
    fun ctx c s => exec_nop s, fun ctx c r s known owner ring ended dma pasid open_ first granted => ?_,
    fun ctx c r addr s known owner ring ended dma pasid open_ first => execCompletionRecord_eq known owner ring ended dma pasid open_ first (some addr),
    fun slice rp r h since s => exec_chainAbandonTimeout s⟩
  · exact execDescriptorArrival_fault s ring dma open_ pasid (by simpa [read] using room) (by rw [read]; exact fault)
  · exact execDescriptorArrival_fault s ring dma open_ pasid (by simpa [fault] using room) (by rw [fault]; rfl)
  · rw [execCompletionRecord_eq known owner ring ended dma pasid open_ first none, granted]
    rfl

end Sys2Proof.Machine
end

section
/-! PROOFS of the family 'other': what follows of itself, and the service window, as changes that keep a property. -/

namespace Sys2Proof.Machine

variable (s : State)

/-! ### What follows of itself -/

/-- A property of a state that no change of the host port, the causes, the recorder, power, the mode, the channels, the slices, the work in hand or the
generators loses. -/
structure InnerClosed (P : State → Prop) : Prop where
  hp : ∀ (t : State) h, P t → P { t with hp := h }
  cause : ∀ (t : State) c, P t → P { t with glob := { t.glob with irqCause := c } }
  er : ∀ (t : State) r, Recorder.Notes t.er r → P t → P { t with er := r }
  power : ∀ (t : State) f, P t → P (t.modPower f)
  md : ∀ (t : State) m, P t → P { t with md := m }
  modCh : ∀ (t : State) n f, P t → P (t.modCh n f)
  modSlice : ∀ (t : State) n f, P t → P (t.modSlice n f)
  modDist : ∀ (t : State) f, P t → P (t.modDist f)
  modRng : ∀ (t : State) f, P t → P (t.modRng f)

namespace InnerClosed

variable {P : State → Prop} (closed : InnerClosed P) {t : State}

include closed

theorem note : NoteClosed P where
  hp t _ _ _ _ h := closed.hp t _ h
  cause := closed.cause
  link t _ h := closed.power t _ h
  wake t _ _ _ h := closed.power t _ h
  er := closed.er

theorem record (typ src grade : Nat) (b : Bytes) (h : P t) : P (t.record typ src grade b) := closed.note.record _ _ _ _ h

theorem raiseCause (b : Nat) (h : P t) : P (t.raiseCause b) := closed.note.raiseCause _ h

theorem modDom (n : Nat) (f : Domain → Domain) (h : P t) : P (t.modDom n f) := closed.power t _ h

theorem recordChannel (n : Nat) (old new : ChState) (h : P t) : P (t.recordChannel n old new) := closed.record _ _ _ _ h

theorem refreshPartition (n : Nat) (h : P t) : P (t.refreshPartition n) := by
  unfold State.refreshPartition
  dsimp only
  split
  · exact h
  · exact closed.record _ _ _ _ (closed.modSlice _ _ _ h)

theorem refreshPartitions (h : P t) : P t.refreshPartitions := State.each_closed (fun n _ => closed.refreshPartition n) _ h

theorem refreshMode (w : Nat) (h : P t) : P (t.refreshMode w) := by
  have fresh : P t.refreshNoChannel := closed.md t _ h
  rw [State.refreshMode_eq]
  split
  · exact fresh
  · exact closed.raiseCause _ (closed.record _ _ _ _ (closed.md _ _ fresh))

theorem refreshPromise (h : P t) : P t.refreshPromise := by
  unfold State.refreshPromise
  dsimp only
  split
  · split
    · exact closed.md _ _ h
    · exact closed.raiseCause _ (closed.record _ _ _ _ (closed.md t _ h))
  · exact h

theorem lowerPoint (n : Nat) (h : P t) : P (t.lowerPoint n) := by
  have lowered (f : Domain → Domain) := closed.modDom n f h
  unfold State.lowerPoint
  dsimp only
  split
  · split
    · split
      · exact lowered _
      · exact lowered _
    · split
      · exact h
      · exact lowered _
  · exact lowered _

theorem writeGroup (g : Nat) (h : P t) : P (t.writeGroup g) := by
  unfold State.writeGroup
  dsimp only
  split
  · exact h
  · exact closed.power t _ h

theorem raisePoint (n : Nat) (h : P t) : P (t.raisePoint n) := by
  unfold State.raisePoint
  dsimp only
  split
  · split
    · exact closed.modDom _ _ h
    · exact h
  · exact h

theorem startTest (n : Nat) (h : P t) : P (t.startTest n) := by
  unfold State.startTest
  dsimp only
  split
  · exact closed.modCh _ _ _ h
  · exact h

theorem refreshPower (h : P t) : P t.refreshPower := by
  have lowered := State.each_closed (fun n _ => closed.lowerPoint n) (List.range 36) h
  have written := State.each_closed (fun g _ => closed.writeGroup g) [0, 1, 2, 3] lowered
  have raised := State.each_closed (fun n _ => closed.raisePoint n) (List.range 36) written
  exact State.each_closed (fun n _ => closed.startTest n) (List.range 36) raised

theorem settle (before : State) (h : P t) : P (t.settle before) :=
  closed.refreshPower (closed.refreshPromise (closed.refreshMode _ (closed.refreshPartitions h)))

/-! ### The service window -/

theorem judge (n med : Nat) (h : P t) : P (t.judge n med) := by
  unfold State.judge
  extract_lets c low kLow kHigh
  split
  · split
    · exact closed.modCh _ _ _ h
    · exact closed.recordChannel _ _ _ (closed.modDom _ _ (closed.modCh _ _ _ h))
  · split
    · exact closed.modCh _ _ _ h
    · exact closed.recordChannel _ _ _ (closed.modDom _ _ (closed.modCh _ _ _ h))
  · exact h

theorem releaseSpare (h : P t) : P t.releaseSpare := by
  unfold State.releaseSpare
  split
  · exact closed.modCh _ _ _ h
  · exact h

theorem modCtx (i : Nat) (f : Ctx → Ctx) (h : P t) : P (t.modCtx i f) := closed.modDist t _ h

theorem releaseHome (c : Ctx) (h : P t) : P (t.releaseHome c) := by
  unfold State.releaseHome
  split
  · exact closed.modCh _ _ _ h
  · exact h

theorem withdraw (id : Nat) (h : P t) : P (t.withdraw id) := by
  unfold State.withdraw
  split
  · exact closed.modDist _ _ (closed.modCtx _ _ (closed.releaseHome _ h))
  · exact h

theorem withdrawSegs (id : Nat) (h : P t) : P (t.withdrawSegs id) := by
  unfold State.withdrawSegs
  split
  · exact closed.modDist _ _ (closed.modCtx _ _ h)
  · exact h

theorem drain (n cause : Nat) (h : P t) : P (t.drain n cause) := by
  unfold State.drain
  extract_lets old s1 s2 s3 gone cut
  have fenced : P s1 := closed.modCh _ _ _ h
  have caused : P s2 := by
    unfold s2
    split
    · exact closed.modCh _ _ _ fenced
    · exact fenced
  have lost : P s3 := closed.releaseSpare (closed.modCh _ _ _ caused)
  split
  · exact closed.recordChannel _ _ _ (State.each_closed (fun id _ => closed.withdrawSegs id) _ (State.each_closed (fun id _ => closed.withdraw id) _ lost))
  · exact h

theorem deferredDrain (n : Nat) (h : P t) : P (t.deferredDrain n) := by
  unfold State.deferredDrain
  split
  · exact closed.drain _ _ h
  · exact h

theorem voltageLoop (n entries : Nat) (h : P t) : P (t.voltageLoop n entries) := by
  unfold State.voltageLoop
  extract_lets c d target high s1
  have counted : P s1 := closed.modCh _ _ _ h
  split
  · exact counted
  · split
    · exact closed.modDom _ _ counted
    · split
      · exact counted
      · split
        · exact closed.modDom _ _ counted
        · split
          · exact closed.modDom _ _ counted
          · exact counted

theorem refreshIdle (n : Nat) (busy : Bool) (h : P t) : P (t.refreshIdle n busy) := by
  unfold State.refreshIdle
  dsimp only
  split
  · exact closed.modDom _ _ h
  · split
    · exact closed.modDom _ _ h
    · exact h

end InnerClosed

end Sys2Proof.Machine
end

section
/-! PROOFS of the family 'other': channels, their scrub and their self-test (O11). -/

namespace Sys2Proof.Machine

variable (s : State)

/-! ### Entries and segments -/

/-- An awake domain is not asleep. -/
theorem State.asleep_of_awake {n : Nat} (awake : (s.dom n).pstate = .run ∨ (s.dom n).pstate = .idle) : s.asleep n = false := by
  rcases awake with h | h <;> simp [State.asleep, h]

section
variable {s : State} {ctx n : Nat} {c : Ctx} (tagOk : Bool) (known : s.ctx? ctx = some c) (dma : s.dmaOk = true) (target : s.target c = some n)
    (awake : (s.dom n).pstate = .run ∨ (s.dom n).pstate = .idle)
include known dma target awake

theorem exec_entryIssue_queued (queued : c.priority = true ∨ c.queued.isSome = true ∨ c.isLocal = false) :
    exec (.entryIssue ctx tagOk) s = .next (s.issue n c tagOk) := by
  have command : exec (.entryIssue ctx tagOk) s = execEntryIssue ctx tagOk s := rfl
  have ahead : (c.priority || c.queued.isSome || !c.isLocal) = true := by simpa [or_assoc] using queued
  rw [command, execEntryIssue, known]
  dsimp only
  rw [if_neg (by simp [dma]), target]
  dsimp only
  rw [if_neg (by simp [s.asleep_of_awake awake]), if_pos ahead]

theorem exec_entryIssue_shared {t : State} (low : c.priority = false) (fresh : c.queued = none) (own : c.isLocal = true)
    (share : s.drr n c.slice c.work = some t) : exec (.entryIssue ctx tagOk) s = .next (t.issue n c tagOk) := by
  have command : exec (.entryIssue ctx tagOk) s = execEntryIssue ctx tagOk s := rfl
  rw [command, execEntryIssue, known]
  dsimp only
  rw [if_neg (by simp [dma]), target]
  dsimp only
  rw [if_neg (by simp [s.asleep_of_awake awake]), if_neg (by simp [low, fresh, own]), share]

end

theorem exec_segmentComplete {ctx : Nat} {c : Ctx} {g : Seg} {gs : List Seg} (known : s.ctx? ctx = some c) (segs : c.segs = g :: gs)
    (ran : g.ran = true) (issued : c.phase = .issued) :
    exec (.segmentComplete ctx) s = .next ((s.entryDone c g.k).modCtx ctx fun x => { x with segs := gs }) := by
  have command : exec (.segmentComplete ctx) s = execSegmentComplete ctx s := rfl
  rw [command, execSegmentComplete, known]
  dsimp only
  rw [segs]
  exact if_pos (by simp [ran, issued])

theorem exec_contextMove {ctx n : Nat} {c : Ctx} (known : s.ctx? ctx = some c) (home : c.home = some n) (barred : s.barred n c = true)
    (cut : c.desc.cut = true) (idle : c.segs = []) (begun : 1 ≤ c.nextSeg) (phase : c.phase = .issued ∨ c.phase = .ready)
    (free : c.desc.holdBytes = 0) :
    exec (.contextMove ctx) s = .next ((s.releaseHome c).modCtx ctx fun x => { x with home := none, phase := .ready }) := by
  have command : exec (.contextMove ctx) s = execContextMove ctx s := rfl
  have between : (c.phase == .issued || c.phase == .ready) = true := by rcases phase with h | h <;> simp [h]
  rw [command, execContextMove, known]
  dsimp only
  rw [home]
  exact if_pos (by simp [barred, cut, idle, begun, between, free])

/-! ### A slow channel, a drain and a fence -/

section
variable {s : State} {ch : Nat} (known : ch < 36)
include known

theorem exec_opMinRaise (slow : (s.ch ch).st = .slow) (late : (s.ch ch).opMinAt + 20 ≤ s.glob.uptimeMs) :
    exec (.opMinRaise ch) s = .next (((s.modCh ch fun c => { c with opMinAt := s.glob.uptimeMs }).setOpMin ch
      (Nat.min 7 ((s.dom ch).opMin + 1))).settle s) := by
  have command : exec (.opMinRaise ch) s = execOpMinRaise ch s := rfl
  rw [command, execOpMinRaise, if_neg (by simp [slow]; omega)]

theorem execDrainTimeout_eq (slow : (s.ch ch).st = .slow) (first : (s.ch ch).deferred = false) (late : (s.ch ch).slowSince + 100 ≤ s.glob.uptimeMs) :
    exec (.drainTimeout ch) s =
      if s.drainForbidden ch then .next ((s.modCh ch fun c => { c with deferred := true }).recordChannel ch .slow .slow)
      else .next ((s.drain ch 1).settle s) := by
  have command : exec (.drainTimeout ch) s = execDrainTimeout ch s := rfl
  rw [command, execDrainTimeout, if_neg (by simp [slow, first]; omega)]

theorem exec_drainComplete (draining : (s.ch ch).st = .draining) (ended : ∀ x ∈ s.chCtxs ch, x.phase = .finished) (idle : (s.ch ch).pkRun = none) :
    exec (.drainComplete ch) s =
      .next ((((s.modCh ch fun c => { c with st := .scrub }).setOpMin ch 0).recordChannel ch .draining .scrub).settle s) := by
  have command : exec (.drainComplete ch) s = execDrainComplete ch s := rfl
  have none : ((s.chCtxs ch).any fun x => x.phase != .finished) = false := List.any_eq_false.mpr fun x hx => by simp [ended x hx]
  rw [command, execDrainComplete, if_neg (by simp [known, draining, idle, none])]

theorem exec_channelFence (cause : FenceCause) : exec (.channelFence ch cause) s = .next ((s.fence ch (causeCode cause)).settle s) := by
  have command : exec (.channelFence ch cause) s = execChannelFence ch cause s := rfl
  rw [command, execChannelFence, if_pos known]

theorem exec_selftestSettleTimeout (test : (s.ch ch).st = .selftest) (settling : (s.ch ch).test = .settle)
    (late : (s.ch ch).testSince + 20 ≤ s.glob.uptimeMs) : exec (.selftestSettleTimeout ch) s = .next ((s.failChannel ch 9).settle s) := by
  have command : exec (.selftestSettleTimeout ch) s = execSelftestSettleTimeout ch s := rfl
  rw [command, execSelftestSettleTimeout, if_neg (by simp [test, settling]; omega)]

/-! ### Scrub and self-test -/

theorem execScrubComplete_eq (scrub : (s.ch ch).st = .scrub) : exec (.scrubComplete ch) s =
    let s1 := (s.modCh ch Channel.scrubbed).eraseGen (ch + 2)
    if 3 ≤ s.fences24 ch then .next ((s1.failChannel ch 8).settle s)
    else
      let s2 := (s1.modCh ch fun c => { c with st := .selftest, test := .none }).recordChannel ch .scrub .selftest
      .next ((if (s.ch ch).cfHold || !(s.ch ch).a2Hold.isEmpty then s2 else s2.askTest ch).settle s) := by
  have command : exec (.scrubComplete ch) s = execScrubComplete ch s := rfl
  rw [command, execScrubComplete, if_neg (by simp [scrub]; omega)]

variable (test : (s.ch ch).st = .selftest) (running : (s.ch ch).test = .run)
include test running

theorem exec_selftestComplete_passes (ready : s.genReady ch = true) : exec (.selftestComplete ch true true) s = .next ((((s.modCh ch fun c =>
    { c with st := .service, test := .none, creditLimit := 8, entered := true, svcRate := 1024, lowWindows := 0, goodWindows := 0,
             cfHold := false, winNominal := 0, winEntries := 0,
             generation := if c.powerUp then c.generation else (c.generation + 1) % 2 ^ 32, powerUp := false }).modDom ch fun d =>
      { d with opMin := 0 }).recordChannel ch .selftest .service).settle s) := by
  have command : exec (.selftestComplete ch true true) s = execSelftestComplete ch true true s := rfl
  rw [command, execSelftestComplete, if_neg (by simp [test, running]; omega), if_pos (by simp [ready])]

theorem exec_selftestComplete_fails {katOk rateOk : Bool} (failed : katOk = false ∨ rateOk = false) :
    exec (.selftestComplete ch katOk rateOk) s = .next ((s.failChannel ch 5).settle s) := by
  have command : exec (.selftestComplete ch katOk rateOk) s = execSelftestComplete ch katOk rateOk s := rfl
  rw [command, execSelftestComplete, if_neg (by simp [test, running]; omega), if_neg (by rcases failed with h | h <;> simp [h])]

end

/-- Settles O11: each command at its guards. -/
theorem channelCommands : Obligations.ChannelCommands :=
  ⟨fun _ tagOk _ _ _ known dma target awake => exec_entryIssue_queued tagOk known dma target awake,
    fun _ tagOk _ _ _ _ known dma target awake => exec_entryIssue_shared tagOk known dma target awake,
    fun _ _ _ _ s => exec_segmentComplete s, fun _ _ _ s => exec_contextMove s, fun _ _ known => exec_opMinRaise known,
    fun _ _ known slow first late free => (execDrainTimeout_eq known slow first late).trans (if_neg (by simp [free])),
    fun _ _ known slow first late forbidden => (execDrainTimeout_eq known slow first late).trans (if_pos forbidden),
    fun _ _ known => exec_drainComplete known, fun _ cause _ known => exec_channelFence known cause, fun _ _ known => exec_selftestSettleTimeout known⟩

end Sys2Proof.Machine
end

section
/-! PROOFS of the family 'other': repair and the service window (O12), work spilled and sent away (O13). -/

namespace Sys2Proof.Machine

variable (s : State)

/-! ### The end of a service window -/

/-- What a service window leaves alone: the uptime, the keys, the worlds, the mailboxes, the hierarchy and the ports. -/
def State.still : Nat × Custody × Worlds × Mail × Hier × List Port := (s.glob.uptimeMs, s.keys, s.worlds, s.mail, s.hier, s.ports)

theorem innerClosed_still (x : Nat × Custody × Worlds × Mail × Hier × List Port) : InnerClosed fun t => t.still = x where
  hp _ _ := id
  cause _ _ := id
  er _ _ _ := id
  power _ _ := id
  md _ _ := id
  modCh _ _ _ := id
  modSlice _ _ _ := id
  modDist _ _ := id
  modRng _ _ := id

theorem exec_serviceWindowEnd (meas : List ChMeas) (power : s.tamper.mainPower = true) :
    ∃ t, exec (.serviceWindowEnd meas) s = .next t ∧ t.still = (s.glob.uptimeMs + 1, s.keys, s.worlds, s.mail, s.hier, s.ports) := by
  have command : exec (.serviceWindowEnd meas) s = execServiceWindowEnd meas s := rfl
  let P : State → Prop := fun t => t.still = (s.glob.uptimeMs + 1, s.keys, s.worlds, s.mail, s.hier, s.ports)
  have closed : InnerClosed P := innerClosed_still _
  have each {f : Nat → State → State} (h : ∀ n t, P t → P (f n t)) {l : List Nat} {t : State} (ht : P t) : P (t.each l f) := State.each_closed h l ht
  rw [command, execServiceWindowEnd, if_neg (by simp [power])]
  refine ⟨_, rfl, closed.settle _ (closed.modRng _ _ ?_)⟩
  refine each (fun p _ => closed.refreshIdle (40 + p) false) (each (fun n _ => closed.refreshIdle n _) ?_)
  refine each (fun n _ => closed.modCh _ n _) (each (fun n _ => closed.voltageLoop n _) ?_)
  refine each (fun n _ => closed.deferredDrain n) (each (fun n _ => closed.judge n _) ?_)
  refine each (fun n _ => closed.modCh _ n _) (closed.modDist _ _ (each (fun n _ => closed.modCh _ n _) ?_))
  rfl

/-- Settles O12: the ends of a scrub and of a self-test at their guards; the window's end, carried through what each of its parts may change. -/
theorem repairAndServiceWindow : Obligations.RepairAndServiceWindow := by
  refine ⟨fun ch s known scrub third => ?_, fun ch s known scrub fewer cool free => ?_,
    fun ch s known test running ready => exec_selftestComplete_passes known test running ready,
    fun ch katOk rateOk s known test running failed => exec_selftestComplete_fails known test running failed, fun meas s power => ?_⟩
  · exact (execScrubComplete_eq known scrub).trans (if_pos third)
  · rw [execScrubComplete_eq known scrub]
    dsimp only
    rw [if_neg (Nat.not_le.mpr fewer), if_neg (by simp [cool, free])]
  · obtain ⟨t, next, still⟩ := exec_serviceWindowEnd s meas power
    simp only [State.still, Prod.mk.injEq] at still
    exact ⟨t, next, still⟩

/-! ### Work spilled to a neighbour, and remote work -/

theorem exec_spillHoldExpire {slice rp port : Nat} {r : RingPair} {f : Fetched} (ring : s.ring? slice rp = some r) (fetched : r.fetched = some f)
    (enabled : s.dist.spillEn = true) (full : s.saturated = true) (allowed : (s.slice slice).spillOk = true)
    (shared : (s.slice slice).partition = false) (chosen : s.dist.ports.getLsbD port = true) (up : (s.port port).st = .up) (dma : s.dmaOk = true)
    (turn : s.mayDecide (s.slice slice) rp r f = true) (pass : s.admitChecks (s.slice slice) r f = none)
    (travels : s.mayTravel (s.slice slice) r f.desc = true) :
    exec (.spillHoldExpire slice rp port) s = .next (s.spillOut (s.newCtx (s.slice slice) rp r f) port) := by
  have command : exec (.spillHoldExpire slice rp port) s = execSpillHoldExpire slice rp port s := rfl
  rw [command, execSpillHoldExpire, ring]
  dsimp only
  rw [fetched]
  exact if_pos (by simp only [enabled, full, allowed, shared, chosen, up, dma, turn, pass, travels]; decide)

section
variable {s : State} {port : Nat} {t : State}

theorem exec_spillReq_takenIn {w : WorkReq} {k : Option Key} (unit : s.takeUnit port 0x20 = some t) (key : t.sameKey w = some k)
    (accepts : t.dist.spillAccept = true) (mode : t.keepMode = false) (idle : t.idleShared (WorkReq.toDesc w) = true) :
    exec (.spillReq port w) s = .next (t.takeIn (t.foreign w (.spilledIn port w.xid w.origin) k)) := by
  have command : exec (.spillReq port w) s = execSpillReq port w s := rfl
  rw [command, execSpillReq, unit]
  dsimp only
  rw [key]
  exact if_pos (by simp [accepts, mode, idle])

theorem exec_spillReq_refused {w : WorkReq} (unit : s.takeUnit port 0x20 = some t) (key : t.sameKey w = none) :
    exec (.spillReq port w) s = .next (t.sendUnit port (.spillRefuse w.xid)) := by
  have command : exec (.spillReq port w) s = execSpillReq port w s := rfl
  rw [command, execSpillReq, unit]
  dsimp only
  rw [key]

theorem exec_spillResult {w : WorkResult} {c : Ctx} (unit : s.takeUnit port 0x21 = some t) (out : t.spilledCtx port w.xid = some c)
    (dma : s.dmaOk = true) : exec (.spillResult port w) s = .next (t.takeResult c w) := by
  have command : exec (.spillResult port w) s = execSpillResult port w s := rfl
  rw [command, execSpillResult, unit]
  dsimp only
  rw [out]
  exact congrArg Host.Outcome.next (if_pos dma)

theorem exec_spillRefuse {xid : Nat} {c : Ctx} (unit : s.takeUnit port 0x22 = some t) (out : t.spilledCtx port xid = some c) :
    exec (.spillRefuse port xid) s = .next (t.dropOffered fun y => y.id == c.id) := by
  have command : exec (.spillRefuse port xid) s = execSpillRefuse port xid s := rfl
  rw [command, execSpillRefuse, unit]
  dsimp only
  rw [out]

theorem exec_remoteReq {w : WorkReq} {k : Key} (unit : s.takeUnit port 0x28 = some t) (key : t.sameKey w = some (some k))
    (mode : t.keepMode = false) : exec (.remoteReq port w) s = .next (t.takeIn (t.foreign w (.remoteIn port w.xid w.origin) (some k))) := by
  have command : exec (.remoteReq port w) s = execRemoteReq port w s := rfl
  rw [command, execRemoteReq, unit]
  dsimp only
  rw [key]
  exact if_neg (by simp [mode])

theorem exec_remoteResult {w : WorkResult} {r : Remote} {c : Ctx} (unit : s.takeUnit port 0x29 = some t) (sent : t.remote? w.xid = some r)
    (known : (t.modDist fun d => { d with remotes := d.remotes.filter (·.xid != w.xid) }).ctx? r.ctx = some c) (runs : c.phase ≠ .finished)
    (dma : s.dmaOk = true) : exec (.remoteResult port w) s =
      .next ((t.modDist fun d => { d with remotes := d.remotes.filter (·.xid != w.xid) }).takeResult c w) := by
  have command : exec (.remoteResult port w) s = execRemoteResult port w s := rfl
  rw [command, execRemoteResult, unit]
  dsimp only
  rw [sent]
  dsimp only
  rw [known]
  exact (if_neg (by simpa using runs)).trans (congrArg Host.Outcome.next (if_pos dma))

theorem exec_remoteRefuse {xid : Nat} {r : Remote} (unit : s.takeUnit port 0x2A = some t) (sent : t.remote? xid = some r) :
    exec (.remoteRefuse port xid) s = .next (t.remoteNext r.ctx) := by
  have command : exec (.remoteRefuse port xid) s = execRemoteRefuse port xid s := rfl
  rw [command, execRemoteRefuse, unit]
  dsimp only
  rw [sent]

theorem exec_remoteTimeout {xid : Nat} {r : Remote} (sent : s.remote? xid = some r) (late : r.since + s.hier.remoteTimeoutMs ≤ s.glob.uptimeMs) :
    exec (.remoteTimeout xid) s = .next (s.remoteNext r.ctx) := by
  have command : exec (.remoteTimeout xid) s = execRemoteTimeout xid s := rfl
  rw [command, execRemoteTimeout, sent]
  exact if_pos late

end

/-- Settles O13: each command at its guards. -/
theorem spillAndRemoteCommands : Obligations.SpillAndRemoteCommands :=
  ⟨fun _ _ _ _ _ s => exec_spillHoldExpire s, fun _ _ _ _ _ => exec_spillReq_takenIn, fun _ _ _ _ => exec_spillReq_refused,
    fun _ _ _ _ _ => exec_spillResult, fun _ _ _ _ _ => exec_spillRefuse, fun _ _ => rfl, fun _ _ _ _ _ => exec_remoteReq,
    fun _ _ _ _ _ _ => exec_remoteResult, fun _ _ _ _ _ => exec_remoteRefuse, fun _ _ _ => exec_remoteTimeout⟩

end Sys2Proof.Machine
end

section
/-! PROOFS of the family 'other': cipher, digest, check and random operations, and blobs (O14, O15, O16). -/

namespace Sys2Proof.Machine

section
variable {s : State} {ctx op : Nat} {c : Ctx} {g : Seg} {data : Bytes}

/-- What a descriptor's step asks of a segment that runs: its context, its opcode and its channel, and its input. -/
theorem Runs.guards (run : Runs s ctx op c g data) :
    s.ctx? ctx = some c ∧ (c.desc.opcode != op || !s.runnable c) = false ∧ c.nextRun = some (g, data) := by
  obtain ⟨known, opcode, runnable, next⟩ := run
  exact ⟨known, by simp [opcode, runnable], next⟩

/-! ### Ciphers -/

/-- The run of segment `g` of a cipher descriptor: the output and the image after it. -/
def Ctx.ciphered (c : Ctx) (g : Seg) (data : Bytes) : Bytes × Bytes :=
  cipherRun c.cipherJob (c.sumBefore + Config.segment * g.k) (startImage c c.cipherJob g.k) data (decide (g.k + 1 = c.desc.segCount))

theorem exec_encrypt (run : Runs s ctx 1 c g data) (iv : (c.needsIv && c.imported.isNone) = false) (steal : steals c.cipherJob.mode = false) :
    exec (.encrypt ctx) s =
      let t := (s.writeDst c (Config.segment * g.k) (c.ciphered g data).1).ranSeg ctx g.k (c.ciphered g data).2
      if g.k + 1 = c.desc.segCount then
        .next ((if c.desc.chainNext then t else t.writeOut2 c (c.encOut2 c.cipherJob (c.ciphered g data).2)).endOp c .done 0 c.desc.length 0)
      else .next t := by
  have command : exec (.encrypt ctx) s = execEncrypt ctx s := rfl
  obtain ⟨known, guard, next⟩ := run.guards
  rw [command, execEncrypt, known]
  dsimp only
  rw [if_neg (by simp [guard]), if_neg (by simp [iv]), next]
  dsimp only
  rw [steal]
  rfl

theorem exec_decrypt (run : Runs s ctx 2 c g data) (aead : c.desc.aead = false) (free : c.desc.isHeld = false) (steal : steals c.cipherJob.mode = false) :
    exec (.decrypt ctx) s =
      let t := (s.writeDst c (Config.segment * g.k) (c.ciphered g data).1).ranSeg ctx g.k (c.ciphered g data).2
      if g.k + 1 = c.desc.segCount then .next (t.endOp c .done 0 c.desc.length 0) else .next t := by
  have command : exec (.decrypt ctx) s = execDecrypt ctx s := rfl
  obtain ⟨known, guard, next⟩ := run.guards
  rw [command, execDecrypt, known]
  dsimp only
  rw [if_neg (by simp [guard]), next]
  dsimp only
  rw [if_neg (by simp [aead]), steal, free, aead]
  rfl

/-- A segment held for its tag writes nothing. -/
theorem exec_decrypt_held (run : Runs s ctx 2 c g data) (held : c.desc.isHeld = true) (tag : c.desc.chainNext = true ∨ c.out2In.isSome = true)
    (more : g.k + 1 ≠ c.desc.segCount) : ∃ t, exec (.decrypt ctx) s = .next t ∧ t.hp = s.hp := by
  have command : exec (.decrypt ctx) s = execDecrypt ctx s := rfl
  obtain ⟨known, guard, next⟩ := run.guards
  have here : (c.desc.aead && !c.desc.chainNext && c.out2In.isNone) = false := by
    rcases tag with h | h <;> simp [h]
  rw [command, execDecrypt, known]
  dsimp only
  rw [if_neg (by simp [guard]), next]
  dsimp only
  rw [if_neg (by simp [here]), if_pos held, if_neg more]
  exact ⟨_, rfl, rfl⟩

theorem exec_wrap (run : Runs s ctx 3 c g data) (mode : c.desc.mode = 16) :
    exec (.wrap ctx) s = .next ((s.writeDst c 0 (Config.prim .keyWrap [leBytes 1 16, (c.key.map (·.material)).getD [], data.take c.desc.length]
      (c.desc.length + 8))).endOp c .done 0 c.desc.length 0) := by
  have command : exec (.wrap ctx) s = execWrap ctx s := rfl
  obtain ⟨known, guard, next⟩ := run.guards
  rw [command, execWrap, known]
  dsimp only
  rw [if_neg (by simp [guard]), next]
  dsimp only
  rw [mode]
  rfl

theorem exec_unwrap {plain : Bytes} {mli : Nat} (run : Runs s ctx 4 c g data) (mode : c.desc.mode = 16)
    (opens : unwrapKey c.desc.mode ((c.key.map (·.material)).getD []) data = some (plain, mli)) :
    exec (.unwrap ctx) s = .next ((s.writeDst c 0 plain).endOp c .done 0 c.desc.length 0) := by
  have command : exec (.unwrap ctx) s = execUnwrap ctx s := rfl
  obtain ⟨known, guard, next⟩ := run.guards
  rw [command, execUnwrap, known]
  dsimp only
  rw [if_neg (by simp [guard]), next]
  dsimp only
  rw [opens, mode]
  rfl

theorem exec_unwrap_fails (run : Runs s ctx 4 c g data) (fails : unwrapKey c.desc.mode ((c.key.map (·.material)).getD []) data = none) :
    exec (.unwrap ctx) s = .next ((s.zeroDst c (c.desc.length - 8)).endOp c .authFail 0 c.desc.length 0) := by
  have command : exec (.unwrap ctx) s = execUnwrap ctx s := rfl
  obtain ⟨known, guard, next⟩ := run.guards
  rw [command, execUnwrap, known]
  dsimp only
  rw [if_neg (by simp [guard]), next]
  dsimp only
  rw [fails]

end

/-- Settles O14: each operation's segment, the last one with the descriptor's end. -/
theorem cipherOperationsComplete : Obligations.CipherOperationsComplete := by
  refine ⟨fun ctx c g data s run iv steal => ⟨fun last alone => ?_, fun more => (exec_encrypt run iv steal).trans (if_neg more)⟩,
    fun ctx c g data s run aead free steal =>
      ⟨fun last => (exec_decrypt run aead free steal).trans (if_pos last), fun more => (exec_decrypt run aead free steal).trans (if_neg more)⟩,
    fun ctx c g data s run _ held tag more => exec_decrypt_held run held tag more, fun _ _ _ _ _ => exec_wrap, fun _ _ _ _ _ _ _ => exec_unwrap,
    fun _ _ _ _ _ => exec_unwrap_fails⟩
  rw [exec_encrypt run iv steal]
  dsimp only
  rw [if_pos last, if_neg (by simp [alone])]
  rfl

section
variable {s : State} {ctx : Nat} {c : Ctx} {g : Seg} {data : Bytes}

/-! ### Digests, checks and random bytes -/

theorem exec_digest (run : Runs s ctx 8 c g data) : exec (.digest ctx) s =
    if g.k + 1 = c.desc.segCount then
      .next ((if c.desc.chainNext then s.absorbSeg c g.k data
        else (s.absorbSeg c g.k data).writeOut2 c ((c.digestAfter g.k data).final c.digestLen)).endOp c .done 0 c.desc.length 0)
    else .next (s.absorbSeg c g.k data) := by
  have command : exec (.digest ctx) s = execDigest ctx s := rfl
  obtain ⟨known, guard, next⟩ := run.guards
  rw [command, execDigest, known]
  dsimp only
  rw [if_neg (by simp [guard]), next]

/-- The keyed digest of the whole message. -/
def Ctx.keyedDigest (c : Ctx) (g : Seg) (data : Bytes) : Bytes := hmacFinal c.desc.func ((c.key.map (·.material)).getD []) (c.digestAfter g.k data)

theorem exec_keyedDigest (run : Runs s ctx 9 c g data) (last : g.k + 1 = c.desc.segCount) (alone : c.desc.chainNext = false) :
    exec (.keyedDigest ctx) s =
      if c.desc.verify then
        .next ((s.absorbSeg c g.k data).endOp c
          (if (c.keyedDigest g data).take c.msgAuxLen = padTo c.msgAuxLen c.expectedValue then .done else .verifyFail) 0 c.desc.length 0)
      else .next (((s.absorbSeg c g.k data).writeOut2 c (c.keyedDigest g data)).endOp c .done 0 c.desc.length 0) := by
  have command : exec (.keyedDigest ctx) s = execKeyedDigest ctx s := rfl
  obtain ⟨known, guard, next⟩ := run.guards
  rw [command, execKeyedDigest, known]
  dsimp only
  rw [if_neg (by simp [guard]), next]
  dsimp only
  rw [if_pos last, if_neg (by simp [alone])]
  rfl

theorem exec_crc (run : Runs s ctx 10 c g data) (first : g.k = 0) (single : c.desc.segCount = 1) (fresh : c.imported = none)
    (alone : c.desc.chainNext = false) (raw : bit c.desc.variant 5 = false) :
    let p := crcParams c.desc.func c.desc.variant c.msgAuxLen c.msgInline
    exec (.crc ctx) s = .next (((s.ranSeg ctx 0 []).modCtx ctx fun x => { x with crcRun := BitVec.ofNat 64 (crcRun p p.init data) }).endOp c .done 0
      c.desc.length (BitVec.ofNat 64 (crcFinal p (crcRun p p.init data)))) := by
  have command : exec (.crc ctx) s = execCrc ctx s := rfl
  obtain ⟨known, guard, next⟩ := run.guards
  dsimp only
  rw [command, execCrc, known]
  dsimp only
  rw [if_neg (by simp [guard]), next]
  dsimp only
  rw [first, if_pos single.symm, alone, raw, fresh]
  rfl

theorem exec_random {t : State} (known : s.ctx? ctx = some c) (opcode : c.desc.opcode = 0x18) (runnable : s.runnable c = true)
    (next : c.segs.find? (fun g => !g.ran) = some g) (fresh : c.iv = []) (last : g.k + 1 = c.desc.segCount)
    (drawn : s.ctxDraw c (c.desc.segLen g.k) (bit c.desc.variant 0) = (t, true)) :
    exec (.random ctx) s = .next ((((t.writeDst c (Config.segment * g.k) (((t.ctx? ctx).map (·.iv)).getD [])).ranSeg ctx g.k []).modCtx ctx fun x =>
      { x with iv := [] }).endOp c .done 0 c.desc.length 0) := by
  have command : exec (.random ctx) s = execRandom ctx s := rfl
  rw [command, execRandom, known]
  dsimp only
  rw [if_neg (by simp [opcode, runnable]), next]
  dsimp only
  rw [if_pos (by simp [fresh]), drawn]
  dsimp only
  rw [if_pos last]

end

/-- Settles O15: each operation at its last segment. -/
theorem digestCheckAndRandomComplete : Obligations.DigestCheckAndRandomComplete := by
  refine ⟨fun ctx c g data s run last alone => ?_, fun ctx c g data s run more => (exec_digest run).trans (if_neg more),
    fun ctx c g data s run last alone plain => (exec_keyedDigest run last alone).trans (if_neg (by simp [plain])),
    fun ctx c g data s run last alone verify => (exec_keyedDigest run last alone).trans (if_pos verify),
    fun _ _ _ _ _ => exec_crc, fun _ _ _ _ _ => exec_random⟩
  rw [exec_digest run, if_pos last, if_neg (by simp [alone])]

/-! ### Blobs -/

section
variable {s : State} {ctx : Nat} {c : Ctx} (known : s.ctx? ctx = some c) (waits : c.phase = .waitBlob) (dma : s.dmaOk = true)
    (up : s.worlds.tw.up = true)
include known waits dma up

theorem exec_blobUnwrap_absent (blob : Option Bytes)
    (fails : ((s.blobCheck c (blob.getD []).length).blobRead c blob).bind ((s.blobCheck c (blob.getD []).length).openBlobOf c) = none) :
    exec (.blobUnwrap ctx blob) s = .next ((s.blobCheck c (blob.getD []).length).finish ctx .keyAbsent 0 0) := by
  have command : exec (.blobUnwrap ctx blob) s = execBlobUnwrap ctx blob s := rfl
  rw [command, execBlobUnwrap, known]
  dsimp only
  rw [if_neg (by simp [waits, dma, up]), fails]

theorem exec_blobUnwrap_opens {b : Bytes} {k : Key} {n : Nat} (home : c.home = some n)
    (opened : ((s.blobCheck c b.length).blobRead c (some b)).bind ((s.blobCheck c b.length).openBlobOf c) = some k) :
    let u := s.blobCheck c b.length
    exec (.blobUnwrap ctx (some b)) s = .next (((u.stageIn (u.stagedKey c k)).fill n c (u.stagedKey c k).key).modCtx ctx fun y =>
      { y with phase := .ready }) := by
  have command : exec (.blobUnwrap ctx (some b)) s = execBlobUnwrap ctx (some b) s := rfl
  dsimp only
  rw [command, execBlobUnwrap, known]
  dsimp only
  rw [if_neg (by simp [waits, dma, up])]
  rw [Option.getD_some, opened]
  dsimp only
  rw [home]

end

/-- A blob read whole, in form and under its slice's master key, opens. -/
theorem State.blobRead_opens {u : State} {c : Ctx} {b wk : Bytes} {k : Key} (granted : u.dmaRefused .read c.desc.blobAddr b.length = none)
    (fits : blobFits c.hdr b c.slice = true) (lc : fieldLe b 0xB 1 = u.keys.lc.code)
    (smk : u.smkFor (u.slice c.slice) (fieldLe b 0xA 1) = some wk) (opened : openBlob wk b = some k) :
    (u.blobRead c (some b)).bind (u.openBlobOf c) = some k := by
  simp [State.blobRead, State.openBlobOf, Option.filter, granted, fits, lc, smk, opened]

/-- Settles O16: a blob that opens is staged and filled in; any other ends its descriptor. -/
theorem blobUnwrapCompletes : Obligations.BlobUnwrapCompletes :=
  ⟨fun _ _ _ known waits dma up => exec_blobUnwrap_absent known waits dma up none rfl,
    fun _ _ b _ known waits dma up fails => exec_blobUnwrap_absent known waits dma up (some b) fails,
    fun _ _ _ _ _ _ _ known waits dma up home granted fits lc smk opened =>
      exec_blobUnwrap_opens known waits dma up home (State.blobRead_opens granted fits lc smk opened)⟩

end Sys2Proof.Machine
end

section
/-! PROOFS of the family 'other': the register-fed sessions of a channel (O17). -/

namespace Sys2Proof.Machine

/-- A session reads as its change makes it. -/
theorem State.session_modSession (s : State) {ch : Nat} (stands : ch < s.chs.length) (sn : Nat) (f : Session → Session) :
    ((s.modSession ch sn f).ch ch).session sn = f ((s.ch ch).session sn) := by
  unfold State.modSession Channel.session
  rw [s.ch_modCh _ stands]
  split <;> rfl

section
variable {s : State} {ch sn : Nat} (known : sessionNo ch sn = true)
include known

/-- A session that the numbers name is written. -/
theorem if_sessionNo {α : Type} (a b : α) : (if !sessionNo ch sn then a else b) = b := if_neg (by simp [known])

theorem exec_sessionAbandon : exec (.sessionAbandon ch sn) s = .next
    (((s.sessionWake ch).modSession ch sn fun x => { x.abandoned .done with error := x.error, image := x.image }).dropSessionCtx ch sn) :=
  congrArg Host.Outcome.next (if_sessionNo known ..)

theorem exec_crcValue (v : BitVec 64) : exec (.crcValue ch sn v) s =
    .next ((s.sessionWake ch).modSession ch sn fun x => { (if x.isOpen then x.drain else x) with crcValue := v }) :=
  congrArg Host.Outcome.next (if_sessionNo known ..)

theorem exec_sessionAbsorb (opened : ((s.ch ch).session sn).isOpen = true) (waits : ((s.ch ch).session sn).waiting ≠ []) :
    exec (.sessionAbsorb ch sn) s = .next (s.modSession ch sn Session.drain) :=
  if_neg (by simp [known, opened, waits])

variable (awake : s.asleep ch = false)

omit known in
include awake in
/-- A write leaves a channel that is awake. -/
theorem State.sessionWake_awake : s.sessionWake ch = s := if_neg (by simp [awake])

include awake

section
variable (ctrl : BitVec 32)

/-- The open of a session on a channel awake, before the session's own state decides it. -/
theorem State.sessionOpen_awake : s.sessionOpen ch sn ctrl =
    let x := ((s.ch ch).session sn).withCtrl ctrl
    if ((s.ch ch).session sn).isOpen then (s.modSession ch sn fun x => x.ended .cfgHeld)
    else if !(s.ch ch).inService then (s.modSession ch sn fun y => (y.withCtrl ctrl).ended .notReady)
    else if !x.funcOk then (s.modSession ch sn fun y => (y.withCtrl ctrl).ended .descMalformed)
    else
      let s1 := s.modSession ch sn fun y =>
        let v := y.withCtrl ctrl
        let z := v.opened (if v.engineCrc then [] else (newDigest v.func).image) 0
        if z.engineCrc then { z with crcValue := BitVec.ofNat 64 (match crcPreset z.func with | some p => p.init | none => z.crcValue.toNat) } else z
      if x.engineCrc then s1 else s1.takeDigest ch (.session sn) := by
  unfold State.sessionOpen
  rw [if_sessionNo known, State.sessionWake_awake awake] <;> rfl

theorem exec_sessionOpen (service : (s.ch ch).inService = true) (closed : ((s.ch ch).session sn).isOpen = false)
    (digest : (((s.ch ch).session sn).withCtrl ctrl).engineCrc = false) (func : (((s.ch ch).session sn).withCtrl ctrl).funcOk = true) :
    ∃ u : State, exec (.sessionOpen ch sn ctrl) s = .next (u.takeDigest ch (.session sn)) ∧
      (ch < s.chs.length → (u.ch ch).session sn =
        (((s.ch ch).session sn).withCtrl ctrl).opened (newDigest (((s.ch ch).session sn).withCtrl ctrl).func).image 0) := by
  have command : exec (.sessionOpen ch sn ctrl) s = .next (s.sessionOpen ch sn ctrl) := rfl
  rw [command, State.sessionOpen_awake known awake]
  dsimp only
  rw [if_neg (by simp [closed]), if_neg (by simp [service]), if_neg (by simp [func]), if_neg (by simp [digest])]
  refine ⟨_, rfl, fun stands => ?_⟩
  rw [s.session_modSession stands, digest]
  exact if_neg (by simp [Session.opened, digest])

theorem exec_sessionOpen_held (opened : ((s.ch ch).session sn).isOpen = true) :
    exec (.sessionOpen ch sn ctrl) s = .next (s.modSession ch sn fun x => x.ended .cfgHeld) := by
  have command : exec (.sessionOpen ch sn ctrl) s = .next (s.sessionOpen ch sn ctrl) := rfl
  rw [command, State.sessionOpen_awake known awake]
  exact congrArg Host.Outcome.next (if_pos opened)

theorem exec_sessionOpen_notReady (closed : ((s.ch ch).session sn).isOpen = false) (service : (s.ch ch).inService = false) :
    exec (.sessionOpen ch sn ctrl) s = .next (s.modSession ch sn fun x => (x.withCtrl ctrl).ended .notReady) := by
  have command : exec (.sessionOpen ch sn ctrl) s = .next (s.sessionOpen ch sn ctrl) := rfl
  rw [command, State.sessionOpen_awake known awake]
  exact congrArg Host.Outcome.next ((if_neg (by simp [closed])).trans (if_pos (by simp [service])))

end

theorem exec_sessionSave (opened : ((s.ch ch).session sn).isOpen = true) (idle : ((s.ch ch).session sn).busy = false) :
    exec (.sessionSave ch sn) s = .next (s.modSession ch sn fun x => { x with status := .done, image := x.saved }) := by
  have command : exec (.sessionSave ch sn) s = .next (s.sessionSave ch sn) := rfl
  rw [command, State.sessionSave, if_sessionNo known, State.sessionWake_awake awake]
  exact congrArg Host.Outcome.next (if_neg (by simp [opened, idle]))

theorem exec_sessionRestore (service : (s.ch ch).inService = true) (closed : ((s.ch ch).session sn).isOpen = false)
    (digest : ((s.ch ch).session sn).engineCrc = false) (func : ((s.ch ch).session sn).funcOk = true) (image : ((s.ch ch).session sn).imageOk = true) :
    ∃ u : State, exec (.sessionRestore ch sn) s = .next (u.takeDigest ch (.session sn)) ∧
      (ch < s.chs.length → (u.ch ch).session sn = ((s.ch ch).session sn).opened
        (((s.ch ch).session sn).image.take (24 + stateLen ((s.ch ch).session sn).func + blockLen ((s.ch ch).session sn).func))
        (fieldLe ((s.ch ch).session sn).image 8 16)) := by
  have command : exec (.sessionRestore ch sn) s = .next (s.sessionRestore ch sn) := rfl
  rw [command, State.sessionRestore, if_sessionNo known, State.sessionWake_awake awake]
  dsimp only
  rw [if_neg (by simp [closed]), if_neg (by simp [service]), if_neg (by simp [func, image]), if_neg (by simp [digest])]
  refine ⟨_, rfl, fun stands => ?_⟩
  rw [s.session_modSession stands, digest]
  exact if_neg (by simp [Session.opened, digest])

theorem exec_sessionRestore_malformed (service : (s.ch ch).inService = true) (closed : ((s.ch ch).session sn).isOpen = false)
    (image : ((s.ch ch).session sn).imageOk = false) :
    exec (.sessionRestore ch sn) s = .next (s.modSession ch sn fun y => y.ended .descMalformed) := by
  have command : exec (.sessionRestore ch sn) s = .next (s.sessionRestore ch sn) := rfl
  rw [command, State.sessionRestore, if_sessionNo known, State.sessionWake_awake awake]
  dsimp only
  rw [if_neg (by simp [closed]), if_neg (by simp [service]), if_pos (by simp [image])]

theorem exec_sessionCompare (low : 1 ≤ ((s.ch ch).session sn).cmpLen) (high : ((s.ch ch).session sn).cmpLen ≤ 64) :
    exec (.sessionCompare ch sn) s =
      .next (s.modSession ch sn fun x => { x with status := .done, isMatch := padTo x.cmpLen x.result == padTo x.cmpLen x.cmp }) := by
  have command : exec (.sessionCompare ch sn) s = .next (s.sessionCompare ch sn) := rfl
  rw [command, State.sessionCompare, if_sessionNo known, State.sessionWake_awake awake]
  exact congrArg Host.Outcome.next (if_pos ⟨low, high⟩)

variable (opened : ((s.ch ch).session sn).isOpen = true)
include opened

theorem exec_feed {data : Bytes} (length : data.length ∈ [1, 2, 4, 8]) :
    exec (.feed ch sn data) s = .next (s.modSession ch sn fun x =>
      if x.declLen < x.fed + x.waiting.length + data.length then x.ended .lengthMismatch
      else { x with waiting := x.waiting ++ data, busy := true }) := by
  have command : exec (.feed ch sn data) s = .next (s.feed ch sn data) := rfl
  have whole : [1, 2, 4, 8].contains data.length = true := List.contains_iff_mem.mpr length
  rw [command, State.feed, if_sessionNo known, State.sessionWake_awake awake]
  exact congrArg Host.Outcome.next (if_neg (by rw [opened, whole]; decide))

variable {n : Nat} (few : n ≤ 8)
include few

theorem exec_lastCnt (agrees : ((s.ch ch).session sn).fed + ((s.ch ch).session sn).waiting.length + n = ((s.ch ch).session sn).declLen) :
    exec (.lastCnt ch sn n) s = .next ((s.modSession ch sn fun x =>
      { x.drain.absorb ((leBytes 8 x.lastData.toNat).take n) with
          result := (x.drain.absorb ((leBytes 8 x.lastData.toNat).take n)).finalResult, resultValid := true, isOpen := false, status := .done,
          context := [] }).dropSessionCtx ch sn) := by
  have command : exec (.lastCnt ch sn n) s = .next (s.lastCnt ch sn n) := rfl
  rw [command, State.lastCnt, if_sessionNo known, State.sessionWake_awake awake]
  dsimp only
  rw [if_neg (by simp [opened]), if_neg (Nat.not_lt.mpr few), if_neg (by simp [agrees])]

theorem exec_lastCnt_mismatch (differs : ((s.ch ch).session sn).fed + ((s.ch ch).session sn).waiting.length + n ≠ ((s.ch ch).session sn).declLen) :
    exec (.lastCnt ch sn n) s = .next (s.modSession ch sn fun x => x.ended .lengthMismatch) := by
  have command : exec (.lastCnt ch sn n) s = .next (s.lastCnt ch sn n) := rfl
  rw [command, State.lastCnt, if_sessionNo known, State.sessionWake_awake awake]
  dsimp only
  rw [if_neg (by simp [opened]), if_neg (Nat.not_lt.mpr few), if_pos (by simpa using differs)]

end

/-- Settles O17: each write of the session block, on a channel awake, at its guards. -/
theorem sessionCommands : Obligations.SessionCommands :=
  ⟨fun _ _ ctrl _ known awake => exec_sessionOpen known awake ctrl, fun _ _ ctrl _ known awake => exec_sessionOpen_held known awake ctrl,
    fun _ _ ctrl _ known awake => exec_sessionOpen_notReady known awake ctrl, fun _ _ _ => exec_sessionAbandon, fun _ _ _ => exec_sessionSave,
    fun _ _ _ => exec_sessionRestore, fun _ _ _ => exec_sessionRestore_malformed, fun _ _ _ => exec_sessionCompare,
    fun _ _ _ _ known awake opened => exec_feed known awake opened, fun _ _ _ _ known awake opened few => exec_lastCnt known awake opened few,
    fun _ _ _ _ known awake opened few => exec_lastCnt_mismatch known awake opened few, fun _ _ v _ known => exec_crcValue known v,
    fun _ _ _ => exec_sessionAbsorb, fun _ _ asleep => if_pos asleep⟩

end Sys2Proof.Machine
end

section
/-! PROOFS of the family 'other': public-key operations, and random number generation (O18, O19, O20). -/

namespace Sys2Proof.Machine

/-! ### Public-key operations -/

/-- An operation that begins runs on its channel (R247, R257, R265, R276). -/
theorem State.pkStart_begins {s t : State} {op ctx n : Nat} {src : Bytes} (begins : PkBegins s op ctx n src t) :
    s.pkStart op ctx = t.pkBegin n ctx src := by
  obtain ⟨c, g, ⟨known, opcode, runnable, next⟩, home, operation, head, region, out2, public_, turn, drawn⟩ := begins
  have here : ¬ (c.desc.opcode != 0x10 || c.desc.pkOp != op || !s.runnable c || (s.pkHead n).map (·.id) != some c.id) = true := by
    simp [opcode, operation, runnable, head]
  have read : ¬ ((c.desc.shape c.pkBytes).out2In != 0 && c.out2In.isNone) = true := by
    simpa [Option.isSome_iff_ne_none] using out2
  unfold State.pkStart
  rw [known]
  dsimp only
  rw [home]
  dsimp only
  rw [if_neg here, next]
  dsimp only
  rw [if_neg (by simp only [region]; decide), if_neg read, public_]
  dsimp only
  rw [if_neg (by simp only [turn]; decide), drawn]

section
variable {s : State} {ch : Nat} {r : PkRun} (runs : (s.ch ch).pkRun = some r)
include runs

theorem exec_pkWipeComplete (wiping : r.wiping = true) :
    exec (.pkWipeComplete ch) s = .next ((s.modCh ch fun c => c.pkWiped r.ctx).pkFetch ch) := by
  have command : exec (.pkWipeComplete ch) s = execPkWipeComplete ch s := rfl
  rw [command, execPkWipeComplete, runs]
  exact if_pos wiping

variable (live : r.wiping = false)
include live

theorem exec_pkComputeEnd (ns : Nat) (open_ : r.computed = false) : exec (.pkComputeEnd ch ns) s =
    if r.paced then .next (s.modCh ch fun c => { c with regResult := r.out ++ r.out2, pkRun := some { r with computed := true, realNs := ns } })
    else if s.pkWithheld r then .next s else .next ((s.pkRelease ch r).settle s) := by
  have command : exec (.pkComputeEnd ch ns) s = execPkComputeEnd ch ns s := rfl
  rw [command, execPkComputeEnd, runs]
  exact if_neg (by simp [live, open_])

variable (paced : r.paced = true) (free : s.pkWithheld r = false)
include paced free

theorem exec_pacerRelease (early : r.overrun = false) : exec (.pacerRelease ch) s =
    if r.computed then
      .next ((if (s.ch ch).targetChanged then ((s.countPaced ch 1 r).partEnd ch r).followTarget ch
        else (s.countPaced ch 1 r).partEnd ch r).settle s)
    else .next (s.modCh ch fun c => { c with pkRun := some { r with overrun := true } }) := by
  have command : exec (.pacerRelease ch) s = execPacerRelease ch s := rfl
  rw [command, execPacerRelease, runs]
  exact if_neg (by simp [live, paced, early, free])

theorem exec_paceOverrun {c : Ctx} (known : s.ctx? r.ctx = some c) (late : r.overrun = true) : exec (.paceOverrun ch) s =
    if r.computed then
      let v := overrunSpeed r.b (quantumPs (c.desc.pkClass c.pkBytes)) r.realNs
      let s1 := (s.modCh ch fun x => { x with overruns := sat 16 (x.overruns + 1), speedCap := some (Nat.min v ((x.speedCap).getD v)) }).modCtx
        r.ctx fun x => { x with paceGrew := true }
      .next ((((s1.recordPace ch c.desc.pkOp r.b r.p true).countPaced ch 2 r).partEnd ch r).settle s)
    else .next ((s.fence ch 4).settle s) := by
  have command : exec (.paceOverrun ch) s = execPaceOverrun ch s := rfl
  rw [command, execPaceOverrun, runs]
  dsimp only
  rw [known]
  exact if_neg (by simp [live, paced, late, free])

end

/-- Settles O18: one start for every operation; its end, its release and its wipe at their guards. -/
theorem publicKeyOperations : Obligations.PublicKeyOperations := by
  have begins {s t : State} {op ctx n : Nat} {src : Bytes} (h : PkBegins s op ctx n src t) :
      (Host.Outcome.next (s.pkStart op ctx) : Host.Outcome State Fault Refusal) = .next (t.pkBegin n ctx src) :=
    congrArg Host.Outcome.next (State.pkStart_begins h)
  refine ⟨fun ctx n src s t => ⟨begins, begins, begins, begins, begins, begins, begins, begins, begins, begins, begins, begins, begins, begins, begins,
      begins, begins, begins, begins, begins, begins⟩, fun ch ns r s runs live open_ measured free => ?_,
    fun ch ns r s runs live open_ paced => (exec_pkComputeEnd runs live ns open_).trans (if_pos paced),
    fun ch r s runs live paced early computed free same => ?_,
    fun ch r s runs live paced early open_ free => (exec_pacerRelease runs live paced free early).trans (if_neg (by simp [open_])),
    fun ch r c s runs known live paced late computed free => (exec_paceOverrun runs live paced free known late).trans (if_pos computed),
    fun ch r c s runs known live paced late open_ free => (exec_paceOverrun runs live paced free known late).trans (if_neg (by simp [open_])),
    fun ch r s runs => exec_pkWipeComplete runs⟩
  · rw [exec_pkComputeEnd runs live ns open_, if_neg (by simp [measured]), if_neg (by simp [free])]
  · rw [exec_pacerRelease runs live paced free early, if_pos computed, if_neg (by simp [same])]

/-! ### Noise banks -/

section
variable {s : State} {bank : Nat}

theorem exec_bankWarmupEnd {raw : Bytes} (warming : (s.bank bank).st = .warmup)
    (healthy : (s.bank bank).rctFails? ((rawBits raw).take warmupBits) = false) :
    exec (.bankWarmupEnd ⟨bank, raw⟩) s = .next (s.modBank bank fun x => { x.sampled ((rawBits raw).take warmupBits) with st := .test }) := by
  have command : exec (.bankWarmupEnd ⟨bank, raw⟩) s = execBankWarmupEnd ⟨bank, raw⟩ s := rfl
  rw [command, execBankWarmupEnd]
  exact if_pos (by simp [warming, healthy])

theorem exec_bankStartupTestPass {raw : Bytes} (testing : (s.bank bank).st = .test) (healthy : (s.bank bank).healthy (rawBits raw) = true) :
    exec (.bankStartupTestPass ⟨bank, raw⟩) s =
      .next ((s.modBank bank fun x => { x.sampled (rawBits raw) with st := .service, retried := false }).checkService.nextSelftest) := by
  have command : exec (.bankStartupTestPass ⟨bank, raw⟩) s = execBankStartupTestPass ⟨bank, raw⟩ s := rfl
  rw [command, execBankStartupTestPass]
  exact if_pos (by simp [testing, healthy])

theorem exec_bankBlock_service {raw : Bytes} (service : (s.bank bank).st = .service) (healthy : (s.bank bank).healthy (rawBits raw) = true) :
    exec (.bankBlock bank raw) s =
      .next ((s.modBank bank fun x => { x.sampled (rawBits raw) with blocks := (x.blocks + 1) % 2 ^ 32 }).modRng fun r =>
        { r with buffer := if r.buffer.length < Config.entropyBlocks then r.buffer ++ [conditioned raw] else r.buffer }) := by
  have command : exec (.bankBlock bank raw) s = execBankBlock bank raw s := rfl
  rw [command, execBankBlock, service]
  exact if_neg (by simp [healthy])

theorem exec_bankBlock_capture {raw : Bytes} (capture : (s.bank bank).st = .capture) (left : s.rng.captureLeft ≠ 0) (dma : s.dmaOk = true) :
    exec (.bankBlock bank raw) s = .next (s.captureBlock raw) := by
  have command : exec (.bankBlock bank raw) s = execBankBlock bank raw s := rfl
  rw [command, execBankBlock, capture]
  exact if_neg (by simp [left, dma])

/-- A change of the entropy buffer is decided by what it makes of the one that stands. -/
theorem State.modRng_congr (t : State) {f g : Rng → Rng} (h : f t.rng = g t.rng) : t.modRng f = t.modRng g :=
  congrArg (fun r => { t with rng := r }) h

theorem exec_healthTestFail {raw : Bytes} {count : Nat} (service : (s.bank bank).st = .service)
    (fails : (s.bank bank).healthy ((rawBits raw).take count) = false) (seeded : s.seeding = false) (tested : s.rng.selftest = [])
    (alone : s.mail.running = []) :
    let l := (rawBits raw).take count
    let times := ((s.bank bank).fails.filter fun t => s.glob.uptimeMs < t + 1000) ++ [s.glob.uptimeMs]
    let t := ((s.modBank bank fun x => x.counted ((s.bank bank).rctFails? l) (aptFails? l)).modBank bank fun x => { x with fails := times }).recordRng
      bank 1
    exec (.healthTestFail ⟨bank, raw⟩ count) s = .next ((if 3 ≤ times.length then t.fatalRng bank else t.restartBank bank).settle s) := by
  have command : exec (.healthTestFail ⟨bank, raw⟩ count) s = execHealthTestFail ⟨bank, raw⟩ count s := rfl
  dsimp only
  rw [command, execHealthTestFail]
  dsimp only
  rw [service, if_neg (show ¬ BankState.service = BankState.warmup by decide), if_neg (by rw [fails]; decide),
    if_neg (by rw [seeded, tested, alone]; decide)]

theorem exec_drbgInstantiate {inst : Nat} {b1 b2 : Bytes} {rest : List Bytes} (buffer : s.rng.buffer = b1 :: b2 :: rest)
    (turn : s.nextSeed = some inst) (other : inst ≠ 0) (first : s.wantsReseed 0 = false) (root : s.keys.root.isSome = true) :
    exec (.drbgInstantiate inst) s = .next (((s.modRng fun r => { r with buffer := rest, due := r.due.filter (· != inst) }).modGen inst fun g =>
      { g with st := .seeded, seed := Config.prim .drbgSeed [b1, b2.take 16, s.personalString inst] 48, calls := 0, reseeds := 0,
               returned := false, prPending := false, interval := s.rng.reseedLog2 }).serve inst true).ranDry := by
  have command : exec (.drbgInstantiate inst) s = execDrbgInstantiate inst s := rfl
  have rooted : ¬ s.keys.root.isNone = true := by simpa [Option.isSome_iff_ne_none] using root
  rw [command, execDrbgInstantiate, buffer]
  dsimp only
  rw [if_neg (by simp [turn, first]), if_neg rooted, if_neg (by simp [other])]

theorem exec_drbgReseed {inst : Nat} {b : Bytes} {rest : List Bytes} (buffer : s.rng.buffer = b :: rest) (turn : s.reseedTurn inst = true)
    (root : s.keys.root.isSome = true) :
    exec (.drbgReseed inst) s = .next (State.reseedWith inst b (s.modRng fun r => { r with buffer := rest })).ranDry := by
  have command : exec (.drbgReseed inst) s = execDrbgReseed inst s := rfl
  have rooted : ¬ s.keys.root.isNone = true := by simpa [Option.isSome_iff_ne_none] using root
  rw [command, execDrbgReseed, buffer]
  dsimp only
  rw [if_pos turn, if_neg rooted]

end

/-- Settles O19: the banks' steps and the instances' at their guards. -/
theorem entropyCommands : Obligations.EntropyCommands := by
  refine ⟨fun _ _ _ => exec_bankWarmupEnd, fun _ _ _ => exec_bankStartupTestPass, fun bank raw s service healthy room => ?_,
    fun bank raw s service healthy full => ?_, fun _ _ _ => exec_bankBlock_capture, fun bank raw count s service fails seeded tested alone => ?_,
    fun _ _ _ _ _ => exec_drbgInstantiate, fun _ _ _ _ => exec_drbgReseed⟩
  · rw [exec_bankBlock_service service healthy]
    refine congrArg Host.Outcome.next (State.modRng_congr _ ?_)
    exact congrArg (fun l => { (s.modBank bank _).rng with buffer := l }) (if_pos room)
  · exact ⟨_, exec_bankBlock_service service healthy, if_neg (Nat.not_lt.mpr full)⟩
  · have failed := exec_healthTestFail service fails seeded tested alone
    dsimp only at failed ⊢
    rw [failed]
    exact ⟨fun third => by rw [if_pos third], fun fewer => by rw [if_neg (Nat.not_le.mpr fewer)]⟩

end Sys2Proof.Machine
end

section
/-! PROOFS of the family 'other': draw ports, and the packet commands of random number generation (O20). -/

namespace Sys2Proof.Machine

section
variable {s : State} {w : World} {len : Nat} {pr : Bool}

/-- A draw asked of a port, as its registers take it (R595). -/
def State.drawAsked (s : State) (w : World) (len : Nat) : State :=
  s.modWorld w fun x => { x with drawLen := len % 128, drawValid := false, drawData := zeros 64 }

variable (up : (s.world w).up = true) (free : (s.world w).drawBusy = false)
include up free

theorem exec_drawRequest_malformed (outside : len % 128 = 0 ∨ 64 < len % 128) :
    exec (.drawRequest w len pr) s = .next ((s.drawAsked w len).portDone w 0 .descMalformed []) := by
  have command : exec (.drawRequest w len pr) s = .next (s.drawPortWrite w len pr) := rfl
  rw [command, State.drawPortWrite]
  exact congrArg Host.Outcome.next ((if_neg (by simp [up, free])).trans (if_pos outside))

variable (low : 1 ≤ len % 128) (high : len % 128 ≤ 64)
include low high

theorem exec_drawRequest_bytes {b : Bytes} {t : State}
    (drawn : (s.drawAsked w len).draw (portInst w) (len % 128) pr (.port w (len % 128) pr) = (.bytes b, t)) :
    exec (.drawRequest w len pr) s = .next (t.portDone w (len % 128) .done b) := by
  have command : exec (.drawRequest w len pr) s = .next (s.drawPortWrite w len pr) := rfl
  rw [State.drawAsked] at drawn
  rw [command, State.drawPortWrite]
  dsimp only
  rw [if_neg (by simp [up, free]), if_neg (by omega), drawn]

theorem exec_drawRequest_waits {t : State}
    (waits : (s.drawAsked w len).draw (portInst w) (len % 128) pr (.port w (len % 128) pr) = (.waits, t)) :
    exec (.drawRequest w len pr) s = .next (t.modWorld w fun x => { x with drawBusy := true }) := by
  have command : exec (.drawRequest w len pr) s = .next (s.drawPortWrite w len pr) := rfl
  rw [State.drawAsked] at waits
  rw [command, State.drawPortWrite]
  dsimp only
  rw [if_neg (by simp [up, free]), if_neg (by omega), waits]

end

/-- A command whose object no other holds runs at once (R369). -/
theorem inTurn_free {op : Nat} {obj : Packet → Nat} {run : Run} {c : Caller} {p : Packet} {s : State} (free : s.jobOn (conflicts op) (obj p) = false)
    (again : Bool) : inTurn op obj run c p again s = run c p again s := by
  simp [inTurn, free]

theorem rngReseedRun_holds {t : State} (c : Caller) (p : Packet) (again : Bool) (live : t.rng.source ≠ .failed) :
    let l := (List.range 38).filter fun i => bit (p.int reseedFlds 0) i && (t.gen i).st != .unseeded && (t.gen i).st != .failed
    rngReseedRun c p again t = .hold (.reseed ((l.map (2 ^ ·)).sum)) [] 0 (t.each l State.makeDue) :=
  if_neg live

theorem rngSelftestRun_holds {t : State} (c : Caller) (p : Packet) (again : Bool) (live : t.rng.source ≠ .failed) :
    rngSelftestRun c p again t = .hold .selftest [] 0 (t.testGens.modRng fun r =>
      { r with selftest := [0, 1, 2, 3].filter fun b => (t.bank b).st == .service }).nextSelftest :=
  if_neg live

/-- Settles O20: the port's request decided by its LEN and its draw; the packets' runs, in their turn. -/
theorem drawPortAndEntropyPackets : Obligations.DrawPortAndEntropyPackets :=
  ⟨fun _ _ _ _ up free => ⟨exec_drawRequest_malformed up free, 
      fun _ _ low high => exec_drawRequest_bytes up free low high, fun _ low high => exec_drawRequest_waits up free low high⟩,
    fun _ _ _ _ ready => congrArg Host.Outcome.next (ready.command_answered rfl),
    fun c _ p _ ready live => congrArg Host.Outcome.next (ready.command_running (rngReseedRun_holds c p false live)),
    fun _ _ _ _ ready free => congrArg Host.Outcome.next (ready.command_running (inTurn_free free false)),
    fun c _ p _ ready free live =>
      congrArg Host.Outcome.next (ready.command_running ((inTurn_free free false).trans (rngSelftestRun_holds c p false live))),
    fun _ _ _ _ ready free => congrArg Host.Outcome.next (ready.command_running (inTurn_free free false))⟩

end Sys2Proof.Machine
end

section
/-! PROOFS of the family 'other': keys generated, imported and derived (O21). -/

namespace Sys2Proof.Machine

section
variable {c : Caller} {p : Packet} {again : Bool} {t : State}

/-- What a generation asks before its draw: a class of fixed form, a usage its scope takes, and room for its rows. -/
def Packet.generates (p : Packet) (t : State) (c : Caller) : Prop :=
  let f := p.int generateFlds
  let slice := if f 0 = 2 then f 7 else (t.who c).sliceNo
  publicClass (f 1) = false ∧ classLen (f 1) (f 2) (f 3) = true ∧ usageOk (f 1) (f 0) (f 4) (f 5) = true ∧
    (t.freeRun (f 0) slice (rowsFor (f 3)) (f 1 = 4 && rowsFor (f 3) = 2)).isSome = true ∧ t.rowsAllowed (f 0) slice (rowsFor (f 3)) = true

/-- A generation that may run is decided by its draw. -/
theorem keyGenerateRun_eq (may : p.generates t c) : keyGenerateRun c p again t =
    let f := p.int generateFlds
    match t.cmdDraw c (drawLen (f 1) (f 2) (f 3)) true 0 with
    | .inr r => r
    | .inl (b, u) =>
      let m := generated (f 1) (f 2) (f 3) b
      if f 1 = 2 && m.take (f 3 / 2) == m.drop (f 3 / 2) then .hold .draw [] 0 u
      else
        (u.rsaEngine (f 1)).install
          { scope := f 0, slice := if f 0 = 2 then f 7 else (t.who c).sliceNo, cls := f 1, param := f 2, usage := f 4, modes := f 5,
            any := f 6 == 1, keyId := f 8, origin := 0, material := if f 1 = 4 then padStates (f 2) m else m } := by
  obtain ⟨fixed, len, usage, room, rows⟩ := may
  unfold keyGenerateRun
  dsimp only
  rw [if_neg (by simp only [fixed, len]; decide), if_neg (by simp only [usage]; decide), if_neg (by simpa [rows, Option.isSome_iff_ne_none] using room)] <;> rfl

/-- A generation waits for the reseed that its draw asks. -/
theorem keyGenerateRun_waits (may : p.generates t c) (unserved : t.rng.served.find? (·.1 == c) = none)
    (seeded : (t.gen 0).st = .seeded ∨ (t.gen 0).st = .stretched) (room : (t.gen 0).waiting.length < Config.waitList) :
    keyGenerateRun c p again t = .hold .draw [] 0 (t.modGen 0 fun g => { g with prPending := true, waiting := g.waiting ++
      [.cmd c (drawLen (p.int generateFlds 1) (p.int generateFlds 2) (p.int generateFlds 3)) true] }) := by
  rw [keyGenerateRun_eq may]
  dsimp only
  rw [State.cmdDraw_resistant _ _ _ _ seeded unserved room]

/-- A generation of a class without halves or states of its own installs what it has drawn. -/
theorem keyGenerateRun_installs {b : Bytes} {u : State} (may : p.generates t c) (single : p.int generateFlds 1 ≠ 2) (plain : p.int generateFlds 1 ≠ 4)
    (drawn : t.cmdDraw c (drawLen (p.int generateFlds 1) (p.int generateFlds 2) (p.int generateFlds 3)) true 0 = .inl (b, u)) :
    keyGenerateRun c p again t = (u.rsaEngine (p.int generateFlds 1)).install
      { scope := p.int generateFlds 0, slice := if p.int generateFlds 0 = 2 then p.int generateFlds 7 else (t.who c).sliceNo,
        cls := p.int generateFlds 1, param := p.int generateFlds 2, usage := p.int generateFlds 4, modes := p.int generateFlds 5,
        any := p.int generateFlds 6 == 1, keyId := p.int generateFlds 8, origin := 0,
        material := generated (p.int generateFlds 1) (p.int generateFlds 2) (p.int generateFlds 3) b } := by
  rw [keyGenerateRun_eq may]
  dsimp only
  rw [drawn]
  dsimp only
  rw [if_neg (by simp [single]), if_neg plain]

theorem keyImportWrappedRun_makes {k : Key} {b : Bytes} {mli : Nat} (wrapped : p.int importFlds 1 = 0)
    (kek : t.kek (t.who c) (p.int importFlds 0) 13 false = .inr k) (opens : openPackage k.material p.data = some (b, mli)) (low : 40 ≤ mli)
    (len : mli = 40 + bits (fieldLe b 0 4) 16 14) :
    keyImportWrappedRun c p again t = (t.openScope (t.who c).makes (t.who c).sliceNo).2.make
      (packageKey b mli (p.int importFlds 2) (p.int importFlds 3) (t.who c).makes (t.openScope (t.who c).makes (t.who c).sliceNo).1.1
        (t.openScope (t.who c).makes (t.who c).sliceNo).1.2) := by
  have bad : (mli < 40 || mli != 40 + bits (fieldLe b 0 4) 16 14) = false := by
    rw [← len]
    simpa using low
  unfold keyImportWrappedRun
  dsimp only
  rw [wrapped]
  rw [show ((0 : Nat) == 1) = false from rfl, kek]
  dsimp only
  rw [if_neg (by decide), opens]
  dsimp only
  rw [if_neg (by rw [bad]; decide)]

theorem keyImportClearRun_makes (len : p.attrKey.len = p.data.length) : keyImportClearRun c p again t = t.make
    { scope := p.attrKey.scope, slice := if p.attrKey.scope = 2 then p.attrKey.slice else (t.who c).sliceNo, cls := p.attrKey.cls,
      param := p.attrKey.param, usage := p.attrKey.usage.toNat, modes := p.attrKey.modes.toNat, any := p.attrKey.scope == 2 && p.attrKey.anySlice,
      keyId := p.attrKey.keyId, origin := 1, material := p.data } := by
  unfold keyImportClearRun
  dsimp only
  rw [if_neg (by simp [len])]

theorem keyDeriveRun_makes {k : Key} {label info z : Bytes} (named : t.namedHere (p.int deriveFlds 0) false = .inr k) (base : k.isBase = true)
    (cls : p.int deriveFlds 1 ∈ [1, 2, 3, 4, 15]) (len : classLen (p.int deriveFlds 1) (p.int deriveFlds 2) (p.int deriveFlds 3) = true)
    (label_ : labelled (p.data.drop k.peerLen) = some (label, info)) (secret : k.baseSecret (sub p.data 0 k.peerLen) = .inr z) :
    keyDeriveRun c p again t = (t.openScope k.scope k.slice).2.make
      { scope := k.scope, slice := (t.openScope k.scope k.slice).1.1, cls := p.int deriveFlds 1, param := p.int deriveFlds 2,
        usage := p.int deriveFlds 4, modes := p.int deriveFlds 5, any := (t.openScope k.scope k.slice).1.2, keyId := p.int deriveFlds 6, origin := 3,
        material := kdfWith z label info (if p.int deriveFlds 1 = 4 then funcLen (p.int deriveFlds 2) else p.int deriveFlds 3) } := by
  have derivable : [1, 2, 3, 4, 15].contains (p.int deriveFlds 1) = true := List.contains_iff_mem.mpr cls
  unfold keyDeriveRun
  dsimp only
  rw [named]
  dsimp only
  rw [if_neg (by simp [base]), if_neg (by rw [derivable, len]; decide), label_, secret]

theorem keyLoadBlobRun_installs {k : Key} (whole : p.data.length = 104 + bits (fieldLe p.data 4 4) 0 14)
    (len : fieldLe p.data 0xC 4 = bits (fieldLe p.data 4 4) 0 14 + 40) (opens : t.openFor? (t.who c).makes (t.who c).sliceNo p.data = some k) :
    keyLoadBlobRun c p again t = t.install
      { scope := (t.who c).makes, slice := if (t.who c).makes = 2 then k.slice else (t.who c).sliceNo, cls := k.cls, param := k.param,
        usage := k.usage.toNat, modes := k.modes.toNat, any := k.anySlice, keyId := k.keyId, origin := 4, material := k.material } := by
  unfold keyLoadBlobRun
  dsimp only
  rw [if_neg (by simp [whole, len]), opens]

end

/-- A packet that runs is concluded with what its run comes to. -/
theorem Ready.command_concludes {c : Caller} {k : Cmd} {run : Run} {s t : State} {q : Packet} {r : Ran} (ready : Ready c k s q t)
    (ran : run c q false t = r) : s.command c k run = (State.conclude c (logOf k.op) q r).settle s := by
  rw [State.command_ready ready, ran]

/-- Settles O21: each command's run, up to the slot that the key is made in. -/
theorem keyMakingCommands : Obligations.KeyMakingCommands := by
  refine ⟨fun c s p t ready fixed len usage room rows unserved seeded waits => ?_,
    fun c j s p t b u h body v resumes fixed single plain len usage room rows drawn installed => ?_,
    fun c s p t k b mli ready wrapped kek opens low len => ?_, fun c s p t ready len => ?_,
    fun c s p t k label info z ready named base cls len labels secret => ?_, fun c s p t k ready whole len opens => ?_⟩
  · exact congrArg Host.Outcome.next (ready.command_running (keyGenerateRun_waits ⟨fixed, len, usage, room, rows⟩ unserved seeded waits))
  · have free : (decide (p.int generateFlds 1 = 4) && decide (rowsFor (p.int generateFlds 3) = 2)) = false := by simp [plain]
    have may : p.generates t j.caller := ⟨fixed, len, usage, by rw [free]; exact room, rows⟩
    exact State.commandReply_resumes resumes rfl ((keyGenerateRun_installs may single plain drawn).trans installed)
  · exact congrArg Host.Outcome.next (ready.command_concludes (keyImportWrappedRun_makes wrapped kek opens low len))
  · exact congrArg Host.Outcome.next (ready.command_concludes (keyImportClearRun_makes len))
  · exact congrArg Host.Outcome.next (ready.command_concludes (keyDeriveRun_makes named base cls len labels secret))
  · exact congrArg Host.Outcome.next (ready.command_concludes (keyLoadBlobRun_installs whole len opens))

end Sys2Proof.Machine
end

section
/-! PROOFS of the family 'other': keys read, changed and swept (O22, O23). -/

namespace Sys2Proof.Machine

section
variable {c : Caller} {p : Packet} {again : Bool} {t : State}

/-! ### Exports and queries -/

theorem keyExportWrappedRun_exports {k e : Key} (named : t.namedHere (p.int exportFlds 0) false = .inr k)
    (kek : t.kek (t.who c) (p.int exportFlds 1) 12 false = .inr e) (may : k.usage.getLsbD 14 = true) :
    keyExportWrappedRun c p again t = exportPart (Config.prim .keyWrap
      [leBytes 1 17, e.material, k.attrs ++ k.material] (((k.attrs ++ k.material).length + 7) / 8 * 8 + 8)) p (p.int exportFlds 0) t := by
  unfold keyExportWrappedRun
  dsimp only
  rw [named, kek]
  exact if_neg (by simp [may])

theorem keyExportPublicRun_exports {k : Key} {b : Bytes} (named : t.namedHere (p.int keyFlds 0) false = .inr k) (public_ : k.public? = some b) :
    keyExportPublicRun c p again t = exportPart b p (p.int keyFlds 0) t := by
  unfold keyExportPublicRun
  dsimp only
  rw [named]
  dsimp only
  rw [public_]

/-- A blob that fits in one part is not kept for later ones. -/
theorem keySaveBlobRun_saves {k : Key} {wk iv : Bytes} {u : State} (first : p.part = 0) (named : t.namedHere (p.int keyFlds 0) false = .inr k)
    (may : k.usage.getLsbD 15 = true) (wrap : t.wrapKey k.scope k.slice t.dkVersion = some wk)
    (drawn : t.cmdDraw c 12 false (p.int keyFlds 0) = .inl (iv, u))
    (single : (sealBlob wk iv u.dkVersion u.keys.lc.code k).length ≤ partBytes) :
    keySaveBlobRun c p false t = exportPart (sealBlob wk iv u.dkVersion u.keys.lc.code k) p (p.int keyFlds 0) u := by
  unfold keySaveBlobRun
  dsimp only
  rw [named]
  dsimp only
  rw [if_neg (by simp [may]), wrap]
  dsimp only
  rw [if_pos first]
  dsimp only
  rw [drawn]
  dsimp only
  cases t.asmBox c with
  | none => rfl
  | some m => exact congrArg (exportPart (sealBlob wk iv u.dkVersion u.keys.lc.code k) p (p.int keyFlds 0)) (if_neg (Nat.not_lt.mpr single))

theorem keyQueryRun_answers {k : Key} (named : t.named (p.int keyFlds 0) true false = .inr k) : keyQueryRun c p again t =
    .done .done 0 (layBytes [(.str 40, k.attrs), (.int 1, leBytes 1 (b2n k.bad)), (.int 1, leBytes 1 k.rows)]) (p.int keyFlds 0) t := by
  unfold keyQueryRun
  dsimp only
  rw [named]

theorem keysetGetRun_answers (stands : (t.slice (p.int sliceFlds 0)).exists_ = true) :
    keysetGetRun c p again t = .done .done 0 (padTo 32 (t.slice (p.int sliceFlds 0)).keyset) (p.int sliceFlds 0) t :=
  if_neg (by simp [stands])

/-! ### Deletion, policy and key sets -/

theorem keyDeleteRun_holds {k : Key} (named : t.named (p.int keyFlds 0) true false = .inr k) (own : k.scope ≠ 2) : keyDeleteRun c p again t =
    .hold (k.dropJob true) [] (p.int keyFlds 0) ((t.supersede k).rewriteKey k.scope k.slice k.slot fun x => { x with cls := 0, material := [] }) := by
  unfold keyDeleteRun
  dsimp only
  rw [named]
  exact if_neg own

theorem keySetPolicyRun_holds {k : Key} (named : t.named (p.int policyFlds 0) false false = .inr k) (own : k.scope ≠ 2) :
    keySetPolicyRun c p again t = .hold (k.dropJob false) [] (p.int policyFlds 0) ((t.supersede k).rewriteKey k.scope k.slice k.slot fun x =>
      { x with usage := (k.usage &&& ~~~ BitVec.ofNat 32 (p.int policyFlds 1)) ||| BitVec.ofNat 32 (if p.int policyFlds 3 = 1 then 2 ^ 16 else 0)
               modes := k.modes &&& ~~~ BitVec.ofNat 16 (p.int policyFlds 2) }) := by
  unfold keySetPolicyRun
  dsimp only
  rw [named]
  exact if_neg own

theorem keysetSetRun_sets (stands : (t.slice (p.int keysetFlds 0)).exists_ = true) (empty : t.keyUsed (p.int keysetFlds 0) = 0)
    (unstaged : t.keys.stage.any (·.slice == p.int keysetFlds 0) = false) :
    let y : Slice := { t.slice (p.int keysetFlds 0) with keyset := p.str keysetFlds 1 }
    keysetSetRun c p again t = .done .done 0 [] (p.int keysetFlds 0) (t.setSlice (t.withSmk y (t.smkNow y))) :=
  if_neg (by rw [stands, empty, unstaged]; decide)

end

/-- Settles O22: each run answers what it names, in the state it ran in. -/
theorem keyReadingCommands : Obligations.KeyReadingCommands :=
  ⟨fun _ _ _ _ _ _ ready named kek may => congrArg Host.Outcome.next (ready.command_concludes (keyExportWrappedRun_exports named kek may)),
    fun _ _ _ _ _ _ ready named public_ => congrArg Host.Outcome.next (ready.command_concludes (keyExportPublicRun_exports named public_)),
    fun _ _ _ _ _ _ _ _ ready first named may wrap drawn single =>
      congrArg Host.Outcome.next (ready.command_concludes (keySaveBlobRun_saves first named may wrap drawn single)),
    fun _ _ _ _ _ ready named => congrArg Host.Outcome.next (ready.command_answered (keyQueryRun_answers named)),
    fun _ _ _ _ ready stands => congrArg Host.Outcome.next (ready.command_answered (keysetGetRun_answers stands))⟩

/-! ### Timers of key custody -/

theorem exec_importAssemblyTimeout {s : State} {m : Nat} {a : _} (kept : (s.box m).assembly = some a) (late : a.at_ + 1000 ≤ s.glob.uptimeMs) :
    exec (.importAssemblyTimeout m) s = .next (s.modBox m fun b => { b with assembly := none, discarded := true }) := by
  have command : exec (.importAssemblyTimeout m) s = execImportAssemblyTimeout m s := rfl
  rw [command, execImportAssemblyTimeout, kept]
  exact if_neg (Nat.not_lt.mpr late)

theorem exec_keySweep {s : State} (bad : List (Nat × Nat × Nat)) (power : s.tamper.mainPower = true) (sik : s.keys.sik.isSome = true)
    (due : s.keys.lastSweep + 1000 * s.keys.sweepS ≤ s.glob.uptimeMs) :
    exec (.keySweep bad) s = .next (((s.failedRows ++ bad).foldl State.sweptBad s).modKeys fun k =>
      { k with sweeps := (k.sweeps + 1) % 2 ^ 64, lastSweep := s.glob.uptimeMs }) := by
  have command : exec (.keySweep bad) s = execKeySweep bad s := rfl
  have loaded : s.keys.sik.isNone = false := by simpa [Option.isSome_iff_ne_none] using sik
  rw [command, execKeySweep]
  exact if_neg (by rw [power, loaded]; simpa using due)

theorem exec_keyEpochAdvance {s : State} (due : s.keys.epochDue ≠ 0) (drained : s.keyDrained = true) (up : s.worlds.tw.up = true) :
    exec .keyEpochAdvance s = .next (s.loadSik.compareSmks.modKeys fun k =>
      { k with epoch := (k.epoch + 1) % 65536, stage := [], badStage := [], epochDue := k.epochDue - 1 }) := by
  have command : exec .keyEpochAdvance s = execKeyEpochAdvance s := rfl
  rw [command, execKeyEpochAdvance, if_neg (by simp [due, drained, up])]

/-- Settles O23: the runs in their turn, and the timers at their guards. -/
theorem keyChangingCommands : Obligations.KeyChangingCommands :=
  ⟨fun _ _ _ _ _ ready free named own =>
      congrArg Host.Outcome.next (ready.command_running ((inTurn_free free false).trans (keyDeleteRun_holds named own))),
    fun _ _ _ _ _ ready free named own =>
      congrArg Host.Outcome.next (ready.command_running ((inTurn_free free false).trans (keySetPolicyRun_holds named own))),
    fun _ _ _ _ ready stands empty unstaged => congrArg Host.Outcome.next (ready.command_answered (keysetSetRun_sets stands empty unstaged)),
    fun _ _ _ => exec_importAssemblyTimeout, fun bad _ => exec_keySweep bad, fun _ => exec_keyEpochAdvance⟩

end Sys2Proof.Machine
end

section
/-! PROOFS of the family 'other': the lifecycle, the manager, and slice, ring and channel commands as they are accepted (O24 to O27). -/

namespace Sys2Proof.Machine

section
variable {c : Caller} {p : Packet} {again : Bool} {t : State}

/-! ### Lifecycle -/

theorem lcPersonaliseRun_targets {lc : Lc} (code : Lc.ofCode (p.int personaliseLcFlds 0) = some lc) (target : lc = .development ∨ lc = .production) :
    lcPersonaliseRun c p again t = .done .done 0 [] 0 (State.clearCounts (t.modKeys fun k =>
      { k with lcTarget := some lc, subsysVendor := p.int personaliseLcFlds 1, subsysId := p.int personaliseLcFlds 2,
               boardLabel := p.str personaliseLcFlds 3 })) := by
  unfold lcPersonaliseRun
  rw [code]
  exact if_pos target

theorem lcTransitionRun_targets {lc : Lc} (code : Lc.ofCode (p.int transitionFlds 0) = some lc) (allowed : t.keys.lc.goesTo lc = true)
    (kept : lc ≠ .returned) (moves : lc ≠ t.keys.lc) : lcTransitionRun c p again t = .done .done 0 [] 0 (t.modKeys fun k => { k with lcTarget := some lc }) := by
  unfold lcTransitionRun
  rw [code]
  dsimp only
  rw [if_neg (by simp [allowed]), if_neg (by simp [kept]), if_neg (by simp [moves])]

/-! ### The manager -/

theorem mgrChallengeRun_draws {b : Bytes} {u : State} (drawn : t.cmdDraw c 32 false 0 = .inl (b, u)) :
    mgrChallengeRun c p again t = .done .done 0 b 0 (u.modBox (mgrBox c) fun x => { x with nonce := some (b, u.glob.uptimeMs) }) := by
  unfold mgrChallengeRun
  rw [drawn]

theorem mgrOpenRun_opens {alg at_ : Nat} {key : Bytes} (cred : t.mail.cred = some (alg, key))
    (nonce : (t.box (mgrBox c)).nonce = some (p.str mgrOpenFlds 0, at_)) (fresh : t.glob.uptimeMs < at_ + 60000) (same : p.int mgrOpenFlds 1 = alg)
    (signed : sigVerifies alg key (t.identityDigest ++ leBytes 2 (mgrBox c) ++ p.str mgrOpenFlds 0) p.data = true) :
    mgrOpenRun c p again t = .done .done 0 [] 0
      ((t.modBox (mgrBox c) fun x => { x with nonce := none }).modBox (mgrBox c) fun x => { x with session := true }) := by
  unfold mgrOpenRun
  rw [cred]
  dsimp only
  rw [nonce, if_neg (by simpa using fresh), if_pos (by rw [same, signed]; simp)]

theorem mgrCredSetRun_sets (first : t.mail.cred = none) (good : algKeyFault (p.int [.int 1] 0) p.data = none) :
    mgrCredSetRun c p again t = .done .done 0 [] 0 (t.modMail fun m => { m with cred := some (p.int [.int 1] 0, p.data) }) := by
  unfold mgrCredSetRun
  dsimp only
  rw [good]
  dsimp only
  rw [if_neg (by simp [first])]

theorem devResumeAlarmRun_resumes (quiet : ∀ x ∈ t.tamper.sources, x.a3Raised = true → x.alarmed = false) (alone : t.hier.role = 0)
    (led : t.hier.activeLead = false) : devResumeAlarmRun c p again t = .done .done 0 [] 0 { t with
      md := { t.md with alarm := false }
      tamper := { t.tamper with latch := if t.tamper.latch = 3 then 0 else t.tamper.latch,
                                sources := t.tamper.sources.map fun x => { x with a3Raised := false } } } := by
  have cleared : ¬ (t.tamper.sources.any fun x => x.a3Raised && x.alarmed) = true := by
    simpa [List.any_eq_true] using quiet
  unfold devResumeAlarmRun
  rw [if_neg cleared]
  dsimp only
  rw [if_neg (by simp [led]), if_neg (by simp [alone])]

end

/-- Settles O24: the runs set the target down, and the step takes it. -/
theorem lifecycleCommands : Obligations.LifecycleCommands :=
  ⟨fun _ _ _ _ _ ready code target =>
      congrArg (fun u : State => Host.Outcome.next u.lifecycleStep) (ready.command_answered (lcPersonaliseRun_targets code target)),
    fun _ _ _ _ _ ready code allowed kept moves =>
      congrArg (fun u : State => Host.Outcome.next u.lifecycleStep) (ready.command_answered (lcTransitionRun_targets code allowed kept moves))⟩

/-- Settles O25: each run answers DONE with the effect it names. -/
theorem managerCommands : Obligations.ManagerCommands :=
  ⟨fun _ _ _ _ ready => congrArg Host.Outcome.next (ready.command_answered rfl),
    fun _ _ _ _ _ _ ready drawn => congrArg Host.Outcome.next (ready.command_answered (mgrChallengeRun_draws drawn)),
    fun _ _ _ _ _ _ _ ready cred nonce fresh same signed =>
      congrArg Host.Outcome.next (ready.command_answered (mgrOpenRun_opens cred nonce fresh same signed)),
    fun _ _ _ _ ready => congrArg Host.Outcome.next (ready.command_answered rfl),
    fun _ _ _ _ ready first good => congrArg Host.Outcome.next (ready.command_answered (mgrCredSetRun_sets first good)),
    fun _ _ _ _ ready => congrArg Host.Outcome.next (ready.command_answered rfl),
    fun _ _ _ _ ready => congrArg Host.Outcome.next (ready.command_answered rfl),
    fun _ _ _ _ ready quiet alone led => congrArg Host.Outcome.next (ready.command_answered (devResumeAlarmRun_resumes quiet alone led))⟩

section
variable {c : Caller} {p : Packet} {t : State}

/-! ### Slices -/

/-- A creation that its checks let through, with no channel to claim, draws the keyset and makes the slice. -/
theorem sliceCreateRun_makes {again : Bool} {b : Bytes} {u : State} (fresh : (t.slice (p.int createFlds 0)).exists_ = false)
    (pasid : t.pasidBound (p.int createFlds 0) (p.spec createFlds 1).pasid = false) (turn : again = false → t.sliceBusy (p.int createFlds 0) = false)
    (quota : t.overQuota (p.int createFlds 0) (p.spec createFlds 1) = false) (claims : again = false → (p.spec createFlds 1).excl = 0)
    (drawn : t.cmdDraw c 32 false (p.int createFlds 0) = .inl (b, u)) :
    let n := p.int createFlds 0
    let v := p.spec createFlds 1
    let x : Slice := { num := n, state := .active, inst := ((u.slice n).inst + 1) % 65536, keyset := b }
    let y := x.shaped v (u.freeInts v.ints)
    sliceCreateRun c p again t = .done .done 0 (intsReply (u.freeInts v.ints)) n
      (((u.giveInts n (u.freeInts v.ints)).overwrite [.smk n]).setSlice (u.withSmk y (u.smkNow y))) := by
  have idle : (!again && t.sliceBusy (p.int createFlds 0)) = false := by
    cases again with
    | true => rfl
    | false => exact turn rfl
  have none : (!again && (p.spec createFlds 1).excl != 0) = false := by
    cases again with
    | true => rfl
    | false => simp [claims rfl]
  unfold sliceCreateRun
  dsimp only
  rw [if_neg (by rw [fresh, pasid, idle]; decide), if_neg (by rw [quota]; decide), if_neg (by rw [none]; decide), drawn]

/-- A change of a slice that its checks let through, under the same PASID and with no channel to claim, is made at once. -/
theorem sliceModifyRun_changes :
    let n := p.int modifyFlds 0
    let x := t.slice n
    let v := x.spec.select (p.int modifyFlds 1) (p.spec modifyFlds 2)
    t.sliceShut n false = false → v.malformed = false → x.spec.ints ≤ v.ints → heldChange x x.spec v = false → v.pasid = x.spec.pasid →
    (∀ r ∈ x.rings.drop v.rp, r.armed = false) → t.overQuota n v = false → (∀ i < 36, bit v.excl i = true → bit x.spec.excl i = true) →
    ∃ body u, sliceModifyRun c p false t = .done .done 0 body n u := by
  intro n x v open_ formed more free pasid idle quota claimed
  have fewer : (v.malformed || (decide (v.ints < x.spec.ints) && !bit (p.int modifyFlds 1) 3)) = false := by
    simp [formed, Nat.not_lt.mpr more]
  have bound : ((v.pasid != x.spec.pasid && t.pasidBound n v.pasid) || (x.rings.drop v.rp).any (·.armed)) = false := by
    have unarmed : (x.rings.drop v.rp).any (·.armed) = false := List.any_eq_false.mpr fun r hr => by simp [idle r hr]
    simp [pasid, unarmed]
  have unclaimed : (!false && (v.pasid != x.spec.pasid || (List.range 36).any fun i => bit v.excl i && !bit x.spec.excl i)) = false := by
    have none : ((List.range 36).any fun i => bit v.excl i && !bit x.spec.excl i) = false :=
      List.any_eq_false.mpr fun i hi => by
        cases wanted : bit v.excl i with
        | false => simp
        | true => simp [claimed i (List.mem_range.mp hi) wanted]
    simp [pasid, none]
  unfold sliceModifyRun
  dsimp only
  rw [if_neg (by rw [open_]; decide), if_neg (by rw [fewer]; decide), if_neg (by rw [free]; decide), if_neg (by rw [bound]; decide),
    if_neg (by rw [quota]; decide), if_neg (by rw [unclaimed]; decide)]
  exact ⟨_, _, rfl⟩

theorem sliceQuiesceRun_holds {again : Bool} (active : (t.slice (p.int quiesceFlds 0)).state = .active)
    (open_ : t.sliceShut (p.int quiesceFlds 0) false = false) (dry : p.int quiesceFlds 1 = 0) :
    sliceQuiesceRun c p again t = .hold (.quiesce (p.int quiesceFlds 0)) [] (p.int quiesceFlds 0) (t.modSlice (p.int quiesceFlds 0) fun y =>
      { (y.chainClock fun u => t.glob.uptimeMs - u) with state := .quiescing }) := by
  unfold sliceQuiesceRun
  dsimp only
  rw [if_neg (by rw [active]; decide), if_neg (by rw [open_]; decide), if_neg (by rw [active]; decide), if_neg (by rw [dry]; decide)]

theorem exec_sliceQuiesceDone {s : State} {slice : Nat} (quiescing : (s.slice slice).state = .quiescing) (admitted : s.admitted slice = 0)
    (dma : s.dmaOutstanding slice = 0) (commands : s.cmdRunning slice = 0) (up : s.worlds.tw.up = true) : exec (.sliceQuiesceDone slice) s =
      .next (((s.quiesceJobs slice).foldl (fun t j => t.endJob j .done 0 []) (s.modSlice slice fun x => { x with state := .quiesced })).settle s) := by
  have command : exec (.sliceQuiesceDone slice) s = execSliceQuiesceDone slice s := rfl
  rw [command, execSliceQuiesceDone, if_neg (by simp [quiescing, admitted, dma, commands])]
  exact if_pos up

theorem sliceResumeRun_resumes {again : Bool} (quiesced : (t.slice (p.int sliceFlds 0)).state = .quiesced)
    (turn : again = false → t.sliceBusy (p.int sliceFlds 0) = false) :
    sliceResumeRun c p again t = .done .done 0 [] (p.int sliceFlds 0) (t.modSlice (p.int sliceFlds 0) fun x =>
      { (x.chainClock fun u => t.glob.uptimeMs - u) with state := .active, flush := false }) := by
  have idle : (!again && t.sliceBusy (p.int sliceFlds 0)) = false := by
    cases again with
    | true => rfl
    | false => exact turn rfl
  unfold sliceResumeRun
  dsimp only
  rw [if_neg (by rw [quiesced, idle]; decide)]

/-- A fence of a slice begins where the slice is open, and forced or with nothing in flight (R109). -/
theorem fenceSlice_holds {n : Nat} {force : Bool} (erase : Bool) (open_ : t.sliceShut n false = false) (may : force = true ∨ t.inFlight n = false) :
    fenceSlice n force erase t = .hold (.fence n erase) (layBytes [(.arr 2 (2 * (t.slice n).rings.length), (t.discardedAll n).1)]) n
      ((((t.discardedAll n).2.abortSlice n).abortCommands n).modSlice n fun x => { x with state := .fenced, flush := false }) := by
  have free : (!force && t.inFlight n) = false := by rcases may with h | h <;> simp [h]
  unfold fenceSlice
  rw [if_neg (by rw [open_, free]; decide)]

end

/-- Settles O26: what the checks let through runs until its reply, a fence begins, and a query answers. -/
theorem sliceCommandsAccepted : Obligations.SliceCommandsAccepted := by
  refine ⟨fun _ _ _ _ _ _ ready fresh pasid turn quota claims drawn => congrArg Host.Outcome.next
      (ready.command_atReply (sliceCreateRun_makes fresh pasid (fun _ => turn) quota (fun _ => claims) drawn)),
    fun c _ _ _ ready open_ formed more free pasid idle quota claimed => ?_,
    fun _ _ _ _ ready active open_ dry => congrArg Host.Outcome.next (ready.command_running (sliceQuiesceRun_holds active open_ dry)),
    fun _ _ => exec_sliceQuiesceDone,
    fun _ _ _ _ ready quiesced turn => congrArg Host.Outcome.next (ready.command_atReply (sliceResumeRun_resumes quiesced fun _ => turn)),
    fun _ _ _ _ ready open_ may => congrArg Host.Outcome.next (ready.command_running (fenceSlice_holds _ open_ (by simpa using may))),
    fun _ _ _ _ ready open_ may => congrArg Host.Outcome.next (ready.command_running (fenceSlice_holds true open_ (by simpa using may))),
    fun _ _ _ _ ready => congrArg Host.Outcome.next (ready.command_answered rfl)⟩
  obtain ⟨_, _, ran⟩ := sliceModifyRun_changes (c := c) open_ formed more free pasid idle quota claimed
  exact congrArg Host.Outcome.next (ready.command_atReply ran)

section
variable {c : Caller} {p : Packet} {t : State}

/-! ### Ring pairs and channels -/

/-- An arming that its checks let through. -/
theorem ringArmRun_arms {again : Bool}
    (open_ : t.ringShut (p.int ringArmFlds 0) (p.int ringArmFlds 1) (!again && t.sliceBusy (p.int ringArmFlds 0)) = none)
    (unarmed : ∀ r, t.ring? (p.int ringArmFlds 0) (p.int ringArmFlds 1) = some r → r.armed = false)
    (sq : p.int ringArmFlds 2 % 4096 = 0) (cq : p.int ringArmFlds 4 % 4096 = 0) (sqLog : ringLog (p.int ringArmFlds 3) = true)
    (cqLog : ringLog (p.int ringArmFlds 5) = true) :
    ringArmRun c p again t = .done .done 0 [] (p.int ringArmFlds 0) (t.modRing (p.int ringArmFlds 0) (p.int ringArmFlds 1) fun _ =>
      { armed := true, sqBase := p.int ringArmFlds 2, sqLog2 := p.int ringArmFlds 3, cqBase := p.int ringArmFlds 4, cqLog2 := p.int ringArmFlds 5,
        irqEn := p.int ringArmFlds 6 == 1 }) := by
  have free : ((t.ring? (p.int ringArmFlds 0) (p.int ringArmFlds 1)).map (·.armed)).getD false = false := by
    cases found : t.ring? (p.int ringArmFlds 0) (p.int ringArmFlds 1) with
    | none => rfl
    | some r => exact unarmed r found
  unfold ringArmRun
  dsimp only
  rw [open_]
  dsimp only
  rw [if_neg (by rw [free]; decide), if_neg (by rw [sq, cq, sqLog, cqLog]; decide)]

theorem ringDisarmRun_disarms {again : Bool} {r : RingPair}
    (open_ : t.ringShut (p.int ringFlds 0) (p.int ringFlds 1) (!again && t.sliceBusy (p.int ringFlds 0)) = none)
    (ring : t.ring? (p.int ringFlds 0) (p.int ringFlds 1) = some r) (armed : r.armed = true) (empty : r.sqHead = r.sqTail)
    (idle : t.ringCtxs (p.int ringFlds 0) (p.int ringFlds 1) = []) (alone : r.chainOpen = false) :
    ringDisarmRun c p again t = .done .done 0 [] (p.int ringFlds 0) (State.modRing (p.int ringFlds 0) (p.int ringFlds 1) RingPair.disarmed
      { t with hp := { t.hp with unacked := t.hp.unacked.filter fun c => !c.ofRing (p.int ringFlds 0) (p.int ringFlds 1) } }) := by
  unfold ringDisarmRun
  dsimp only
  rw [open_]
  dsimp only
  rw [ring]
  dsimp only
  rw [if_neg (by rw [armed]; decide), if_neg (by simp [empty, idle, alone])]

theorem ringQueryRun_answers {again : Bool} {r : RingPair} (open_ : t.ringShut (p.int ringFlds 0) (p.int ringFlds 1) false = none)
    (ring : t.ring? (p.int ringFlds 0) (p.int ringFlds 1) = some r) :
    ringQueryRun c p again t = .done .done 0 (t.ringBlock (t.slice (p.int ringFlds 0)) (p.int ringFlds 1) r) (p.int ringFlds 0) t := by
  unfold ringQueryRun
  dsimp only
  rw [open_, ring]
  rfl

theorem chFenceRun_fences {again : Bool} (service : (t.ch (p.int chFenceFlds 0)).st = .service ∨ (t.ch (p.int chFenceFlds 0)).st = .slow) :
    chFenceRun c p again t = .hold (.chFence (p.int chFenceFlds 0)) [] (p.int chFenceFlds 0)
      ((if p.int chFenceFlds 1 == 1 then t.drain (p.int chFenceFlds 0) 6 else t.fence (p.int chFenceFlds 0) 6).modCh (p.int chFenceFlds 0) fun x =>
        { x with cfHold := true, test := .none }) := by
  have live : (t.ch (p.int chFenceFlds 0)).st ≠ .failed := by rcases service with h | h <;> simp [h]
  unfold chFenceRun
  dsimp only
  rw [if_neg live, if_pos service]

theorem chReturnRun_tests {again : Bool} (released : (t.ch (p.int chFlds 0)).a2Hold = []) (failed : (t.ch (p.int chFlds 0)).st = .failed) :
    chReturnRun c p again t = .hold (.chReturn (p.int chFlds 0)) [] (p.int chFlds 0)
      ((((t.modCh (p.int chFlds 0) fun x => { x with fences := [], cfHold := false }).modCh (p.int chFlds 0) fun x =>
        { x with st := .selftest }).recordChannel (p.int chFlds 0) .failed .selftest).askTest (p.int chFlds 0)) := by
  unfold chReturnRun
  dsimp only
  rw [if_neg (by rw [released]; decide), if_neg (by simp [Channel.inService, failed]), failed]

end

/-- Settles O27: a change of a ring pair waits for its reply, a query answers, and a channel's fence and return begin in their turn. -/
theorem ringAndChannelCommandsAccepted : Obligations.RingAndChannelCommandsAccepted :=
  ⟨fun _ _ _ _ ready open_ unarmed sq cq sqLog cqLog =>
      congrArg Host.Outcome.next (ready.command_atReply (ringArmRun_arms open_ unarmed sq cq sqLog cqLog)),
    fun _ _ _ _ _ ready open_ ring armed empty idle alone =>
      congrArg Host.Outcome.next (ready.command_atReply (ringDisarmRun_disarms open_ ring armed empty idle alone)),
    fun _ _ _ _ _ ready open_ ring => congrArg Host.Outcome.next (ready.command_answered (ringQueryRun_answers open_ ring)),
    fun _ _ _ _ ready free service => congrArg Host.Outcome.next (ready.command_running ((inTurn_free free false).trans (chFenceRun_fences service))),
    fun _ _ _ _ ready free released failed =>
      congrArg Host.Outcome.next (ready.command_running ((inTurn_free free false).trans (chReturnRun_tests released failed)))⟩

end Sys2Proof.Machine
end

section
/-! PROOFS of the family 'other': the changes committed at a reply, the end of a slice's fence, and the mailboxes (O28, O29). -/

namespace Sys2Proof.Machine

section
variable {slice : Nat} {s : State}

/-! ### The end of a slice's fence -/

/-- The slice scrubbed, its ring pairs disarmed and its interrupts masked. -/
def State.fenceWiped (s : State) (slice : Nat) : State :=
  ((s.scrubSlice slice).modSlice slice fun y => { y with rings := y.rings.map RingPair.disarmed }).each (s.slice slice).ints fun i t =>
    t.modInt i fun e => { e with mask := true, pending := false }

/-- The custody without the staged keys of a slice and, where it is erased, without its own keys. -/
def Custody.withoutSlice (k : Custody) (slice : Nat) (erase : Bool) : Custody :=
  { k with stage := k.stage.filter (fun e => e.slice != slice), badStage := k.badStage.filter (fun e => e.1 != slice),
           keys := if erase then k.keys.filter fun y => !(y.scope == 1 && y.slice == slice) else k.keys }

theorem Custody.withoutSlice_stage (k : Custody) (erase : Bool) : ∀ e ∈ (k.withoutSlice slice erase).stage, e.slice ≠ slice :=
  fun _ staged => by simpa using (List.mem_filter.mp staged).2

theorem Custody.withoutSlice_keys (k : Custody) : ∀ x ∈ (k.withoutSlice slice true).keys, ¬ (x.scope = 1 ∧ x.slice = slice) := fun _ kept => by
  simpa [Custody.withoutSlice, imp_iff_not_or] using (List.mem_filter.mp kept).2

theorem State.fenceWiped_er : (s.fenceWiped slice).er = s.er := 
  State.each_keeps _ State.er (fun i (t : State) => t.modInt i fun e => { e with mask := true, pending := false }) (fun _ _ => rfl) _

theorem execSliceFenceEnd_ends {j : Job} {erase : Bool}
    (found : s.mail.running.find? (fun j => match j.kind with | .fence n _ => n == slice | _ => false) = some j) (kind : j.kind = .fence slice erase)
    (fenced : (s.slice slice).state = .fenced) (dma : s.dmaOutstanding slice = 0) (idle : s.cmdRunning slice = 0) :
    ∃ m, execSliceFenceEnd slice s = .next ((((s.fenceWiped slice).modKeys (·.withoutSlice slice erase)).modMail m).settle s) := by
  unfold execSliceFenceEnd
  split
  next i first =>
    obtain rfl : i = j := Option.some.inj (first.symm.trans found)
    rw [if_neg (by rw [fenced, dma, idle]; decide), kind]
    exact ⟨_, rfl⟩
  next none => exact absurd (none.symm.trans found) (by simp)

theorem nextSeq_closed (n : Nat) : InnerClosed fun t => n ≤ t.er.nextSeq where
  hp _ _ h := h
  cause _ _ h := h
  er _ _ noted h := Nat.le_trans h noted.1
  power _ _ h := h
  md _ _ h := h
  modCh _ _ _ h := h
  modSlice _ _ _ h := h
  modDist _ _ h := h
  modRng _ _ h := h

/-- What the end of a fence leaves (R109 to R119). -/
theorem exec_sliceFenceEnd {j : Job} {erase : Bool}
    (found : s.mail.running.find? (fun j => match j.kind with | .fence n _ => n == slice | _ => false) = some j) (kind : j.kind = .fence slice erase)
    (fenced : (s.slice slice).state = .fenced) (dma : s.dmaOutstanding slice = 0) (idle : s.cmdRunning slice = 0) :
    ∃ t, exec (.sliceFenceEnd slice) s = .next t ∧ (∀ e ∈ t.keys.stage, e.slice ≠ slice) ∧
      (erase = true → ∀ k ∈ t.keys.keys, ¬ (k.scope = 1 ∧ k.slice = slice)) ∧ t.er.nextSeq ≥ s.er.nextSeq := by
  obtain ⟨m, ends⟩ := execSliceFenceEnd_ends found kind fenced dma idle
  have keys : ((((s.fenceWiped slice).modKeys (·.withoutSlice slice erase)).modMail m).settle s).keys = (s.fenceWiped slice).keys.withoutSlice slice erase :=
    State.settle_keys _ _
  refine ⟨_, ends, ?_, ?_, (nextSeq_closed s.er.nextSeq).settle s (Nat.le_of_eq (congrArg Recorder.nextSeq (s.fenceWiped_er (slice := slice))).symm)⟩
  · rw [keys]
    exact Custody.withoutSlice_stage _ erase
  · rintro rfl
    rw [keys]
    exact Custody.withoutSlice_keys _

end

/-- Settles O28: each reply runs its command again and commits it whole; the end of a fence drops the slice's keys. -/
theorem sliceCommitsAndFenceEnd : Obligations.SliceCommitsAndFenceEnd :=
  ⟨fun _ _ _ _ _ _ _ resumes fresh pasid quota drawn =>
      State.commandReply_resumes resumes rfl (sliceCreateRun_makes fresh pasid (fun h => nomatch h) quota (fun h => nomatch h) drawn),
    fun _ j _ _ _ resumes quiesced => State.commandReply_resumes resumes rfl (sliceResumeRun_resumes (c := j.caller) quiesced fun h => nomatch h),
    fun _ _ _ _ _ resumes => State.commandReply_resumes resumes rfl rfl,
    fun _ j _ _ _ resumes open_ unarmed sq cq sqLog cqLog =>
      State.commandReply_resumes resumes rfl (ringArmRun_arms (c := j.caller) open_ unarmed sq cq sqLog cqLog),
    fun _ j _ _ _ _ resumes open_ ring armed empty idle alone =>
      State.commandReply_resumes resumes rfl (ringDisarmRun_disarms (c := j.caller) open_ ring armed empty idle alone),
    fun _ _ _ _ found kind fenced dma idle => exec_sliceFenceEnd found kind fenced dma idle⟩

section
variable {s : State}

/-! ### Mailboxes, gate calls, replies and extensions -/

theorem boxGo_fits {m : Nat} (box : m < Config.mailboxes) : boxOff m + 0x40 + 4 ≤ barSize 4 := by
  have size : barSize 4 = 0x4000000 := rfl
  have range : m < 4112 := box
  rw [size]
  unfold boxOff
  split
  · next low =>
    have low : m < 4096 := low
    omega
  · have from_ : Config.mgrMailbox = 4096 := rfl
    omega

theorem exec_mbxGo {m : Nat} (box : m < Config.mailboxes) (up : s.barsUp = true) (admitted : s.refusal 4 (boxOff m + 0x40) 4 true = none)
    (exists_ : m < Config.mgrMailbox → (s.slice m).exists_ = true) :
    exec (.mbxGo m) s = .next (((s.submit (.mbx m)).refuseUnknown (.mbx m)).settle s) := by
  have command : exec (.mbxGo m) s = execMbxGo m s := rfl
  have absent : ¬ ((decide (Config.mailboxes ≤ m) || (decide (m < Config.mgrMailbox) && !(s.slice m).exists_)) = true) := by
    simpa [Nat.not_le.mpr box] using exists_
  rw [command, execMbxGo, if_neg (Nat.not_le.mpr box), s.hostReg_admitted (State.goWrite m) up (boxGo_fits box) admitted, State.goWrite]
  exact congrArg Host.Outcome.next (if_neg absent)

theorem exec_call {g : Nat} (gate : g < 8) (up : s.worlds.ow.up = true) :
    exec (.call g) s = .next (((s.submit (.gate g)).refuseUnknown (.gate g)).settle s) :=
  congrArg Host.Outcome.next (if_neg (by simp [up, gate]))

theorem exec_commandReply {c : Caller} {j : Job} {t : State} (up : s.worlds.tw.up = true)
    (job : s.mail.running.find? (fun j => j.caller == c) = some j) (moment : s.jobStep j = some t) : exec (.commandReply c) s = .next (t.settle s) := by
  have command : exec (.commandReply c) s = execCommandReply c s := rfl
  rw [command]
  unfold execCommandReply
  rw [if_neg (by simp [up]), job]
  dsimp only
  rw [moment]

theorem extensionRun_holds {c : Caller} {p : Packet} {again : Bool} {t : State} (up : t.worlds.ow.up = true) :
    extensionRun c p again t = .hold .extension [] 0 t := if_neg (by simp [up])

theorem exec_extensionCommand {m a limit : Nat} {hdr area : Bytes} (presented : s.presented (.mbx m) = some (hdr, area))
    (registered : s.extension (fieldLe hdr 0 2) = some (a, limit)) : exec (.extensionCommand m) s = .next (s.command (.mbx m)
      { op := fieldLe hdr 0 2, auth := extAuth a, flds := [.str (bits (fieldLe hdr 8 4) 0 13)] } extensionRun) := by
  have command : exec (.extensionCommand m) s = execExtensionCommand m s := rfl
  rw [command, execExtensionCommand, presented]
  dsimp only
  rw [registered]

theorem exec_extensionReply {m status detail : Nat} {j : Job} {st : Status} {body : Bytes} (job : s.extJob m = some j) (up : s.worlds.ow.up = true)
    (code : Status.ofCode status = some st) : exec (.extensionReply m status detail body) s = .next ((s.endExtension j m st detail body).settle s) := by
  have command : exec (.extensionReply m status detail body) s = execExtensionReply m status detail body s := rfl
  rw [command, execExtensionReply, job]
  dsimp only
  rw [if_neg (by simp [up]), code]
  rfl

theorem exec_extensionTimeout {m a limit : Nat} {j : Job} (job : s.extJob m = some j) (registered : s.extension j.opcode = some (a, limit))
    (late : j.since + limit ≤ s.glob.uptimeMs) : exec (.extensionTimeout m) s = .next ((s.endExtension j m .aborted 4 []).settle s) := by
  have command : exec (.extensionTimeout m) s = execExtensionTimeout m s := rfl
  rw [command, execExtensionTimeout, job]
  dsimp only
  rw [registered]
  exact if_neg (Nat.not_lt.mpr late)

end

/-- Settles O29: each command's guards let it through to the effect it names. -/
theorem mailboxCommands : Obligations.MailboxCommands :=
  ⟨fun _ _ => exec_mbxGo, fun _ _ => exec_call, fun _ _ _ _ => exec_commandReply,
    fun _ _ _ _ _ _ _ _ presented registered ready up =>
      (exec_extensionCommand presented registered).trans (congrArg Host.Outcome.next (ready.command_running (extensionRun_holds up))),
    fun _ _ _ _ _ _ _ => exec_extensionReply, fun _ _ _ _ _ => exec_extensionTimeout⟩

end Sys2Proof.Machine
end

section
/-! PROOFS of the family 'other': the quorum and the custodian card ports (O30, O32). -/

namespace Sys2Proof.Machine

section
variable {s : State}

/-! ### A challenge -/

/-- The number that the next record takes depends on the recorder alone. -/
theorem State.recordSeq_congr {t : State} (same : t.er = s.er) : t.recordSeq = s.recordSeq := by
  unfold State.recordSeq State.writeLost
  rw [same]
  cases s.er.lostRange with
  | none => exact congrArg Recorder.nextSeq same
  | some range =>
    dsimp only
    split
    · simp
    · exact congrArg Recorder.nextSeq same

theorem State.endChallenge_proposals : ∀ x ∈ s.endChallenge.dual.cards, x.proposal = none := fun x listed => by
  obtain ⟨_, _, rfl⟩ := List.mem_map.mp listed
  rfl

theorem State.issueChallenge_issues (m op : Nat) (d n : Bytes) : let t := State.issueChallenge m op d n s
    t.dual.chal.id = s.recordSeq ∧ t.dual.chal.live = true ∧ t.dual.chal.approved = 0 ∧ t.dual.chal.opcode = op ∧ t.dual.chal.nonce = n ∧
    t.er.nextSeq = s.recordSeq + 1 ∧ s.er.nextSeq ≤ s.recordSeq ∧ (∀ x ∈ t.dual.cards, x.proposal = none) := by
  refine ⟨rfl, rfl, rfl, rfl, rfl, ?_, s.nextSeq_le_recordSeq, fun x listed => ?_⟩
  · exact (State.record_nextSeq ..).trans (congrArg (· + 1) (State.recordSeq_congr rfl))
  · have kept : x ∈ (s.endChallenge.record 0x51 1 0 (pack [(2, m), (2, op)] ++ padTo 32 d)).dual.cards := listed
    rw [State.record_dual] at kept
    exact State.endChallenge_proposals x kept

end

section
variable {c : Caller} {p : Packet} {again : Bool} {t : State}

/-! ### The quorum's runs -/

theorem quorumChallengeRun_issues {b : Bytes} {u : State} (needs : t.opcodeNeedsQuorum (p.int challengeFlds 1) = true)
    (box : p.int challengeFlds 0 < Config.mailboxes) (drawn : t.cmdDraw c 32 false 0 = .inl (b, u)) :
    let v := u.issueChallenge (p.int challengeFlds 0) (p.int challengeFlds 1) (p.str challengeFlds 2) b
    quorumChallengeRun c p again t = .done .done 0 (layBytes [(.int 8, leBytes 8 v.dual.chal.id), (.str 32, b)]) 0 v.askCards := by
  unfold quorumChallengeRun
  dsimp only
  rw [if_neg (by simp [needs, box]), drawn]

theorem quorumApproveRun_approves (live : t.dual.chal.live = true) (id : p.int approveFlds 0 = t.dual.chal.id) (known : p.int approveFlds 1 < 16)
    (enrolled : (t.dual.custodians.getD (p.int approveFlds 1) {}).alg ≠ 0)
    (alg : p.int approveFlds 2 = (t.dual.custodians.getD (p.int approveFlds 1) {}).alg)
    (asked : t.dual.chal.enrolled.getLsbD (p.int approveFlds 1) = true)
    (signed : sigVerifies (t.dual.custodians.getD (p.int approveFlds 1) {}).alg (t.dual.custodians.getD (p.int approveFlds 1) {}).key
      (t.approvalMessage (p.int approveFlds 1)) p.data = true) (first : t.dual.chal.approved.getLsbD (p.int approveFlds 1) = false) :
    quorumApproveRun c p again t = .done .done 0 [] 0 (t.modChal fun q =>
      { q with approved := q.approved ||| BitVec.ofNat 16 (2 ^ p.int approveFlds 1) }) := by
  have approved : t.approve (p.int approveFlds 1) (p.int approveFlds 2) p.data = (.done, 0, t.modChal fun q =>
      { q with approved := q.approved ||| BitVec.ofNat 16 (2 ^ p.int approveFlds 1) }) := by
    unfold State.approve
    dsimp only
    rw [if_neg (by rw [alg, asked]; simpa using ⟨known, enrolled⟩), if_neg (by rw [alg, signed]; decide), if_neg (by rw [first]; decide)]
  unfold quorumApproveRun
  dsimp only
  rw [if_neg (by simp [live, id]), approved]

theorem custodianEnrolRun_enrols :
    let i := p.int enrolFlds 0
    let alg := p.int enrolFlds 1
    let key := p.data.take (algKey alg)
    let d := sha384 key
    alg = 1 ∨ alg = 2 → p.data.length = algKey alg + algSig alg → i < 16 → t.enrolled.contains i = false →
    t.enrolled.any (fun j => (t.dual.custodians.getD j {}).digest == d) = false → algKeyFault alg key = none →
    sigVerifies alg key (t.enrolMessage i d) (p.data.drop (algKey alg)) = true →
    let x : Custodian := { alg := alg, key := key, digest := d, label := p.str enrolFlds 2, seq := t.recordSeq }
    custodianEnrolRun c p again t = .done .done 0 [] 0 { t with dual := { t.dual with custodians := t.dual.custodians.set i x } } := by
  intro i alg key d known size low free fresh good signed x
  have scheme : (alg != 1 && alg != 2) = false := by rcases known with h | h <;> simp [h]
  have room : ¬ (decide (16 ≤ i) || t.enrolled.contains i || t.enrolled.any fun j => (t.dual.custodians.getD j {}).digest == d) = true := by
    rw [free, fresh]
    simp [low]
  unfold custodianEnrolRun
  exact (if_neg (by rw [scheme]; decide)).trans <| (if_neg (by simp [size, alg])).trans <| (if_neg room).trans <| by
    dsimp only
    rw [good]
    exact if_neg (by rw [signed]; decide)

theorem custodianRemoveRun_removes (enrolled : t.enrolled.contains (p.int [.int 1] 0) = true) (spare : t.dual.m < t.enrolled.length) :
    custodianRemoveRun c p again t = .done .done 0 [] 0 { t with dual :=
      { t.dual with custodians := t.dual.custodians.set (p.int [.int 1] 0) {} } } := by
  unfold custodianRemoveRun
  dsimp only
  rw [if_neg (by rw [enrolled]; decide), if_neg (Nat.not_le.mpr spare)]

theorem quorumSetRun_sets (least : 2 ≤ p.int [.int 1] 0) (most : p.int [.int 1] 0 ≤ 16) (enough : p.int [.int 1] 0 ≤ t.enrolled.length) :
    quorumSetRun c p again t = .done .done 0 [] 0 { t with dual := { t.dual with m := p.int [.int 1] 0 } } := by
  unfold quorumSetRun
  dsimp only
  rw [if_neg (by simpa using ⟨⟨least, most⟩, enough⟩)]

end

/-- Settles O30: each run answers DONE with what it changes, and an approval then runs what it completes. -/
theorem quorumCommands : Obligations.QuorumCommands :=
  ⟨fun _ _ _ _ _ _ ready needs box drawn => congrArg Host.Outcome.next (ready.command_answered (quorumChallengeRun_issues needs box drawn)),
    fun m op d n _ => State.issueChallenge_issues m op d n,
    fun _ _ _ _ ready live id _ known enrolled alg asked signed first => congrArg (fun u : State => Host.Outcome.next u.runProposal)
      (ready.command_answered (quorumApproveRun_approves live id known enrolled alg asked signed first)),
    fun _ _ _ _ ready known size low free fresh good signed =>
      congrArg Host.Outcome.next (ready.command_answered (custodianEnrolRun_enrols known size low free fresh good signed)),
    fun _ _ _ _ ready enrolled spare => congrArg Host.Outcome.next (ready.command_answered (custodianRemoveRun_removes enrolled spare)),
    fun _ _ _ _ ready least most enough => congrArg Host.Outcome.next (ready.command_answered (quorumSetRun_sets least most enough))⟩

section
variable {p : Nat} {s : State} {data : Bytes}

/-! ### The card ports -/

theorem exec_cardInsert (port : p < 2) (power : s.tamper.mainPower = true) (empty : (s.card p).present = false) : exec (.cardInsert p) s =
    .next ((s.modCard p fun c => { c.off with present := true, active := true, vcc := true }).sendApdu p .select cardAid) :=
  if_neg (by simp [port, power, empty])

theorem exec_cardRemove (port : p < 2) (present : (s.card p).present = true) :
    exec (.cardRemove p) s = .next ((s.dropAsked p).modCard p fun c => { c.off with present := false }).askCards :=
  if_neg (by simp [port, present])

theorem exec_cardSupplyShort (port : p < 2) (supplied : (s.card p).vcc = true) :
    exec (.cardSupplyShort p) s = .next ((s.dropAsked p).modCard p fun c => { c.off with lastStatus := .roleDenied }).askCards :=
  if_neg (by simp [port, supplied])

theorem exec_cardTimeout (port : p < 2) (asked : (s.card p).step ≠ .none) (late : (s.card p).since + 30000 < s.glob.uptimeMs) :
    exec (.cardTimeout p) s = .next (s.refuseCard p none) :=
  if_neg (by simp [port, asked, late])

/-- What a port does with an answer, by the request that stands (R391, R392). -/
def State.cardAnswered (s : State) (p sw : Nat) (data : Bytes) : CardStep → State
  | .none => s
  | .select => if sw = 0x9000 then s.sendApdu p .identity [] else s.refuseCard p (some sw)
  | .identity => if sw = 0x9000 then s.cardIdentity p data else s.refuseCard p (some sw)
  | .proposal =>
    if sw = 0x9000 then s.cardProposal p data
    else if sw = 0x6A88 then (s.modCard p fun c => { c with step := .none }).askCards else s.refuseCard p (some sw)
  | .sign => if sw = 0x9000 then s.cardApproval p data else s.refuseCard p (some sw)

theorem exec_cardResponse (sw : Nat) (port : p < 2) (up : s.worlds.tw.up = true) {step : CardStep} (asked : (s.card p).step = step) :
    exec (.cardResponse p sw data) s = .next (s.cardAnswered p sw data step) := by
  have command : exec (.cardResponse p sw data) s = execCardResponse p sw data s := rfl
  rw [command, execCardResponse, if_neg (by simp [port, up]), asked]
  cases step <;> rfl

/-- A status that no request takes as an answer refuses the card. -/
theorem State.cardAnswered_refused {sw : Nat} {step : CardStep} (asked : step ≠ .none) (bad : sw ≠ 0x9000)
    (known : ¬ (step = .proposal ∧ sw = 0x6A88)) : s.cardAnswered p sw data step = s.refuseCard p (some sw) := by
  cases step with
  | none => exact absurd rfl asked
  | select => exact if_neg bad
  | identity => exact if_neg bad
  | proposal => exact (if_neg bad).trans (if_neg fun none => known ⟨rfl, none⟩)
  | sign => exact if_neg bad

/-- An identity that matches an enrolled custodian is taken, and with no challenge the proposal asked for (R392). -/
theorem State.cardIdentity_taken : let i := fieldLe data 0 1
    data.length = 49 → i < 16 → (s.dual.custodians.getD i {}).alg ≠ 0 → (s.dual.custodians.getD i {}).digest = data.drop 1 →
    s.dual.chal.live = false →
    s.cardIdentity p data = (s.modCard p fun x => { x with known := true, lastIndex := i, step := .none }).sendApdu p .proposal [] := by
  intro i size low enrolled same quiet
  unfold State.cardIdentity
  exact (if_neg (by rw [size, same]; simpa using ⟨low, enrolled⟩)).trans (if_neg (by simp [quiet]))

end

/-- Settles O32: each port's step is the one its guards let through. -/
theorem custodianCards : Obligations.CustodianCards :=
  ⟨fun _ _ => exec_cardInsert, fun _ _ => exec_cardRemove, fun _ _ => exec_cardSupplyShort, fun _ _ => exec_cardTimeout,
    fun _ _ _ port up asked => exec_cardResponse 0x9000 port up asked, fun _ _ _ port up asked => exec_cardResponse 0x9000 port up asked,
    fun _ _ _ port up asked => exec_cardResponse 0x9000 port up asked, fun _ _ _ port up asked => exec_cardResponse 0x9000 port up asked,
    fun _ sw _ _ port up asked bad known =>
      (exec_cardResponse sw port up rfl).trans (congrArg Host.Outcome.next (State.cardAnswered_refused asked bad known)),
    fun _ _ _ => State.cardIdentity_taken⟩

end Sys2Proof.Machine
end

section
/-! PROOFS of the family 'other': attestation, and the event recorder (O34, O35). -/

namespace Sys2Proof.Machine

section
variable {c : Caller} {p : Packet} {again : Bool} {t : State}

/-! ### Attestation -/

/-- A packet whose command answers one part of the exported chain is answered with it. -/
theorem Ready.command_part {k : Cmd} {run : Run} {s u : State} {body : Bytes} {count obj : Nat} (ready : Ready c k s p t)
    (ran : run c p false t = .part body count obj u) :
    s.command c k run = (u.reply c (logOf k.op) p .done 0 obj p.part count body).settle s := by
  rw [State.command_ready ready, ran]
  rfl

theorem imagePolicySetRun_sets (ok : t.policyOk p.data = true) (mode : (policyOf p.data).mode ≠ 0) :
    imagePolicySetRun c p again t = .done .done 0 [] 0 { t with gate := { t.gate with policy := some (policyOf p.data) } } := by
  unfold imagePolicySetRun
  dsimp only
  rw [if_neg (by rw [ok]; decide), if_neg mode]

theorem imagePolicySetRun_removes (ok : t.policyOk p.data = true) (mode : (policyOf p.data).mode = 0) :
    imagePolicySetRun c p again t = .done .done 0 [] 0 { t with gate := { t.gate with
      policy := none, removed := match t.gate.policy with | some old => old.regions | none => t.gate.removed } } := by
  unfold imagePolicySetRun
  dsimp only
  rw [if_neg (by rw [ok]; decide), if_pos mode] <;> rfl

theorem bootRecordGetRun_latest (latest : p.int [.int 4] 0 = 0) : bootRecordGetRun c p again t = .done .done 0 (padTo 256 t.gate.latest) 0 t :=
  if_pos latest

theorem bootRecordGetRun_held {b : Bytes} (earlier : p.int [.int 4] 0 ≠ 0)
    (held : bootRecordOf (p.int [.int 4] 0) (t.er.held.filter (·.typ == 0x60)) = some b) :
    bootRecordGetRun c p again t = .done .done 0 b 0 t := by
  unfold bootRecordGetRun
  dsimp only
  rw [if_neg earlier, held]

theorem measurementsGetRun_answers (signer : p.int measurementsFlds 2 = 1 → t.aliasExists = true) :
    let (f, u) := t.freeBytes 48
    let blocks := ((List.range 9).filter fun i => bit (p.int measurementsFlds 0) i).flatMap (t.measurementBlock f)
    measurementsGetRun c p again t = .done .done 0
      (blocks ++ if p.int measurementsFlds 2 == 1 then t.aliasSign (p.str measurementsFlds 1 ++ blocks) else []) 0 u := by
  have may : ¬ (p.int measurementsFlds 2 == 1 && !t.aliasExists) = true := by simpa using signer
  exact if_neg may

theorem identityGetRun_answers (signer : p.int [.int 1] 0 = 0 → t.aliasExists = true) :
    let chain := t.certChain (p.int [.int 1] 0)
    let count := Nat.max 1 ((chain.length + chainBytes - 1) / chainBytes)
    p.part < count → identityGetRun c p again t = .part (padTo 40 (layBytes [(.str 32, t.identityDigest), (.int 1, t.lcByte)]) ++
      padTo 96 deviceIdPublic ++ (chain.drop (chainBytes * p.part)).take chainBytes) count 0 t := by
  intro chain count part
  have may : ¬ (decide (p.int [.int 1] 0 = 0) && !t.aliasExists) = true := by simpa using signer
  exact (if_neg may).trans (if_neg (Nat.not_le.mpr part))

end

section
variable {tr : Transport} {r : SpdmReq} {s : State}

/-- Without its world an SPDM requester is answered Busy (R424). -/
theorem exec_spdmRequest_busy (link : tr = .mctpI3c ∨ s.hp.dlUp = true) (down : s.worlds.tw.up = false) (image : s.worlds.tw.image.isSome = true) :
    exec (.spdmRequest tr r) s = .next { s with hp := { s.hp with spdmReply := 3, spdmData := [] } } := by
  have reaches : ¬ ((tr != .mctpI3c && !s.hp.dlUp) || s.worlds.tw.image.isNone) = true := by
    rcases link with h | h <;> simp [h, Option.isNone_eq_false_iff.mpr image]
  exact (if_neg reaches).trans (if_pos (by simp [down]))

/-- The SPDM sessions after an answer. -/
def spdmSessionsAfter (r : SpdmReq) (a : Nat) (tr : Transport) (l : List Transport) : List Transport :=
  if a != 1 then l else match r with
    | .keyExchange => l ++ [tr]
    | .endSession => l.erase tr
    | _ => l

theorem spdmSessionsAfter_other (r : SpdmReq) (a : Nat) (l : List Transport) (open_ : r ≠ .keyExchange) (end_ : r ≠ .endSession) : spdmSessionsAfter r a tr l = l := by
  unfold spdmSessionsAfter
  split
  · rfl
  · cases r with
    | keyExchange => exact absurd rfl open_
    | endSession => exact absurd rfl end_
    | _ => rfl

theorem exec_spdmRequest (link : tr = .mctpI3c ∨ s.hp.dlUp = true) (up : s.worlds.tw.up = true) (image : s.worlds.tw.image.isSome = true) :
    exec (.spdmRequest tr r) s = .next { (s.freeBytes 48).2 with hp := { s.hp with
      spdmReply := s.spdmAnswer tr r, spdmData := if s.spdmAnswer tr r = 1 then s.spdmBody (s.freeBytes 48).1 r else [],
      spdmSessions := spdmSessionsAfter r (s.spdmAnswer tr r) tr s.hp.spdmSessions } } := by
  have reaches : ¬ ((tr != .mctpI3c && !s.hp.dlUp) || s.worlds.tw.image.isNone) = true := by
    rcases link with h | h <;> simp [h, Option.isNone_eq_false_iff.mpr image]
  exact (if_neg reaches).trans (if_neg (by simp [up]))

/-- What an answer to an SPDM requester leaves (R421 to R426). -/
theorem exec_spdmRequest_answers (link : tr = .mctpI3c ∨ s.hp.dlUp = true) (up : s.worlds.tw.up = true) (image : s.worlds.tw.image.isSome = true) :
    ∃ t, exec (.spdmRequest tr r) s = .next t ∧ t.hp.spdmReply = s.spdmAnswer tr r ∧ t.keys = s.keys ∧ t.er = s.er ∧
      (r ≠ .keyExchange → r ≠ .endSession → t.hp.spdmSessions = s.hp.spdmSessions) ∧ (s.spdmAnswer tr r ≠ 1 → t.hp.spdmData = []) ∧
      (r = .keyExchange → s.spdmAnswer tr r = 1 → t.hp.spdmSessions = s.hp.spdmSessions ++ [tr]) := by
  refine ⟨_, exec_spdmRequest link up image, rfl, rfl, rfl, spdmSessionsAfter_other _ _ _, fun refused => if_neg refused, ?_⟩
  rintro rfl granted
  exact if_neg (by simp [granted])

end

/-- Settles O34: each command's run, and the answer to a requester. -/
theorem attestationCommands : Obligations.AttestationCommands :=
  ⟨fun _ _ _ _ ready ok mode => congrArg Host.Outcome.next (ready.command_answered (imagePolicySetRun_sets ok mode)),
    fun _ _ _ _ ready ok mode => congrArg Host.Outcome.next (ready.command_answered (imagePolicySetRun_removes ok mode)),
    fun _ _ _ _ ready latest => congrArg Host.Outcome.next (ready.command_answered (bootRecordGetRun_latest latest)),
    fun _ _ _ _ _ ready earlier held => congrArg Host.Outcome.next (ready.command_answered (bootRecordGetRun_held earlier held)),
    fun _ _ _ _ ready signer => congrArg Host.Outcome.next (ready.command_answered (measurementsGetRun_answers signer)),
    fun _ _ _ _ ready signer part => congrArg Host.Outcome.next (ready.command_part (identityGetRun_answers signer part)),
    fun _ _ _ => exec_spdmRequest_busy, fun _ _ _ => exec_spdmRequest_answers⟩

section
variable {s : State}

/-! ### The event recorder -/

theorem exec_erFlushTimer (idle : s.er.flushing = false) (waiting : s.er.buffer ≠ []) (due : s.er.lastFlush + 10 ≤ s.glob.uptimeMs) :
    exec .erFlushTimer s = .next s.flushStart :=
  if_neg (by simp [idle, waiting, due])

theorem exec_erFlushDone_leaves (flushing : s.er.flushing = true) : ∃ t, exec .erFlushDone s = .next t ∧ t.er.buffer = [] ∧ t.er.flushing = false ∧
    t.er.lastFlush = s.glob.uptimeMs ∧ t.er.log = (s.er.log ++ s.er.buffer).drop ((s.er.log ++ s.er.buffer).length - Config.logRecords) ∧
    t.er.nextSeq = s.er.nextSeq ∧ t.er.clean = (s.er.powerFlush || (s.er.clean && s.er.buffer.isEmpty)) := by
  refine ⟨s.flushLog, exec_erFlushDone s flushing, ?_⟩
  rw [State.flushLog_er]
  refine ⟨rfl, rfl, rfl, ?_, rfl, rfl⟩
  simp only [Recorder.toLog_log, Recorder.excess]

theorem exec_erLostRecover {a b : Nat} (lost : s.er.lostRange = some (a, b)) (room : s.er.buffer.length < Config.erBuffer) :
    exec .erLostRecover s = .next (State.writeRec 3 1 0 false (pack [(8, a), (8, b)]) { s with er := { s.er with lostRange := none } }) := by
  have command : exec .erLostRecover s = .next s.writeLost := rfl
  rw [command, State.writeLost, lost]
  exact congrArg Host.Outcome.next (if_pos room)

theorem exec_erAck {value : Nat} (up : s.barsUp = true) (admitted : s.refusal 0 0xA0018 8 true = none) : ∃ t, exec (.erAck value) s = .next t ∧
    t.er.ackSeq = value % 2 ^ 64 ∧ t.er.log = s.er.log ∧ t.er.buffer = s.er.buffer ∧ t.er.nextSeq = s.er.nextSeq := by
  have command : exec (.erAck value) s = .next (s.hostAccess 0 0xA0018 8 (State.ackWrite value)) := rfl
  have reached : ¬ (!s.barsUp || decide (barSize 0 < 0xA0018 + 8)) = true := by rw [up]; decide
  refine ⟨s.ackWrite value, ?_, ?_⟩
  · rw [command, State.hostAccess, if_neg reached, admitted]
  · rw [State.ackWrite, State.checkAck_er]
    exact ⟨rfl, rfl, rfl, rfl⟩

theorem exec_fwNoteRequest (w : World) (body : Bytes) : (s.world w).up = true → ((s.world w).notesNow s.glob.uptimeMs).length < 1000 →
    exec (.fwNoteRequest w body) s = .next ((s.modWorld w fun y =>
      { y with fwNotes := (s.world w).notesNow s.glob.uptimeMs ++ [s.glob.uptimeMs], noteStatus := .done }).record 0x90
      (match w with | .tw => 3 | .ow => 4) 0 (padTo 40 body)) := fun up few => by
  have command : exec (.fwNoteRequest w body) s = execFwNoteRequest w body s := rfl
  rw [command]
  exact (if_neg (by simp [up])).trans (if_neg (Nat.not_le.mpr few))

theorem exec_fwNoteRequest_quota {w : World} {body : Bytes} (up : (s.world w).up = true)
    (many : 1000 ≤ ((s.world w).notesNow s.glob.uptimeMs).length) :
    exec (.fwNoteRequest w body) s = .next (s.modWorld w fun y => { y with noteStatus := .quota }) :=
  (if_neg (by simp [up])).trans (if_pos many)

theorem State.clearLog_leaves (n ch m : Nat) : ∀ r ∈ (State.clearLog n ch m s).er.log, n < r.seq := by
  unfold State.clearLog
  intro r kept
  rw [State.checkAck_er] at kept
  exact of_decide_eq_true (List.mem_filter.mp kept).2

end

section
variable {c : Caller} {p : Packet} {again : Bool} {t : State}

theorem erClearRun_clears (given : p.int [.int 8] 0 ≠ 0) (known : p.int [.int 8] 0 < t.er.nextSeq) :
    erClearRun c p again t = .done .done 0 [] 0 (t.clearLog (p.int [.int 8] 0) p.challenge t.dual.chal.approved.toNat) :=
  if_neg (by simp [given, known])

theorem erReadRun_reads (few : p.int erReadFlds 1 ≤ 62) (signer : p.int erReadFlds 2 = 1 → t.aliasExists = true) :
    let f := p.int erReadFlds
    let l := (t.er.held.filter fun r => f 0 ≤ r.seq).take (f 1)
    ∀ r rest, l = r :: rest →
      let out := leBytes 8 r.seq ++ leBytes 2 l.length ++ leBytes 1 (b2n (f 0 < t.er.oldestSeq)) ++ zeros 5 ++ leBytes 8 t.er.oldestSeq ++
        leBytes 8 t.er.nextSeq ++ l.flatMap Record.bytes
      erReadRun c p again t = .done .done 0 (out ++ if f 2 == 1 then t.aliasSign (p.str erReadFlds 3 ++ out) else []) 0 t := by
  intro f l r rest found out
  have may : ¬ (decide (62 < f 1) || (f 2 == 1 && !t.aliasExists)) = true := by simpa [f] using ⟨few, signer⟩
  have listed : (t.er.held.filter fun x => p.int erReadFlds 0 ≤ x.seq).take (p.int erReadFlds 1) = r :: rest := found
  unfold erReadRun
  dsimp only
  rw [if_neg may, listed]
  simp only [out, found, f]
  rfl

end

/-- Settles O35: the recorder's own steps, and the runs of its packet commands. -/
theorem recorderCommands : Obligations.RecorderCommands :=
  ⟨fun _ => exec_erFlushTimer, fun _ => exec_erFlushDone_leaves, fun _ _ _ => exec_erLostRecover, fun _ _ => exec_erAck, fun w body _ => exec_fwNoteRequest w body,
    fun _ _ _ => exec_fwNoteRequest_quota,
    fun _ _ _ _ ready given known => congrArg Host.Outcome.next (ready.command_answered (erClearRun_clears given known)),
    fun n ch m _ => State.clearLog_leaves n ch m,
    fun _ _ _ _ ready few signer r rest listed => congrArg Host.Outcome.next (ready.command_answered (erReadRun_reads few signer r rest listed))⟩

end Sys2Proof.Machine
end

section
/-! PROOFS of the family 'other': what a tamper event leaves of the worlds, and the faults of a world (O37). -/

namespace Sys2Proof.Machine

variable {s : State}

/-! ### What a tamper event leaves alone -/

/-- The worlds, the renewal's record, the time, and whether main power stands. -/
def State.era (s : State) : Worlds × Renewal × Nat × Bool := (s.worlds, s.renewal, s.glob.uptimeMs, s.tamper.mainPower)

theorem innerClosed_era (s : State) : InnerClosed (fun t => t.era = s.era) where
  hp _ _ := id
  cause _ _ := id
  er _ _ _ := id
  power _ _ := id
  md _ _ := id
  modCh _ _ _ := id
  modSlice _ _ _ := id
  modDist _ _ := id
  modRng _ _ := id

@[simp] theorem State.record_era (typ src grade : Nat) (b : Bytes) : (s.record typ src grade b).era = s.era :=
  (innerClosed_era s).record typ src grade b rfl

@[simp] theorem State.settle_era (before : State) : (s.settle before).era = s.era := (innerClosed_era s).settle before rfl

theorem State.hpError_era (b cause code : Nat) (w : Bool) (bar sl a : Nat) : (s.hpError b cause code w bar sl a).era = s.era :=
  (innerClosed_era s).note.raiseVec 1 rfl

theorem workClosed_era (s : State) : WorkClosed (fun t => t.era = s.era) where
  record t _ _ _ _ h := (t.record_era ..).trans h
  hpError t _ _ _ _ _ _ _ h := (t.hpError_era ..).trans h
  modPort _ _ _ := id
  modHier _ _ := id
  modDist _ _ := id
  modDom _ _ _ := id
  modRing _ _ _ _ := id

@[simp] theorem State.finish_era (id : Nat) (st : Status) (detail : Nat) (r : BitVec 64) : (s.finish id st detail r).era = s.era :=
  (workClosed_era s).finish id st detail r rfl

theorem State.releaseSpare_era : s.releaseSpare.era = s.era := by
  unfold State.releaseSpare
  split <;> rfl

theorem State.startWake_era (d : Nat) (w : WakeSource) : (s.startWake d w).era = s.era := (workClosed_era s).startWake d w rfl

theorem State.fenceOut_era (cause n : Nat) : (s.fenceOut cause n).era = s.era := by
  unfold State.fenceOut
  dsimp only
  split
  · rfl
  · split
    · rfl
    · refine (State.record_era ..).trans ?_
      split
      · rw [State.releaseSpare_era, State.startWake_era]
        split <;> rfl
      · rw [State.startWake_era]
        split <;> rfl

theorem State.rerunOrFail_era (id : Nat) : (s.rerunOrFail id).era = s.era := by
  unfold State.rerunOrFail
  split
  · split
    · rfl
    · split
      · exact State.finish_era ..
      · exact (workClosed_era s).rerunCtx id rfl
  · rfl

theorem State.fence_era (n cause : Nat) : (s.fence n cause).era = s.era := by
  unfold State.fence State.fenceAll State.failStranded
  dsimp only
  rw [State.each_keeps _ State.era _ (fun _ _ => State.finish_era ..), State.each_keeps _ State.era _ (fun _ _ => State.rerunOrFail_era _),
    State.each_keeps _ State.era _ fun _ _ => State.fenceOut_era ..]

theorem State.clampOne_era (on : Bool) (n : Nat) : (s.clampOne on n).era = s.era := by
  unfold State.clampOne
  dsimp only
  split
  · rfl
  · unfold State.followTarget
    split <;> rfl

theorem State.modSrc_era (i : Nat) (f : TSource → TSource) : (s.modSrc i f).era = s.era := rfl

theorem State.takeA1_era (i : Nat) : (s.takeA1 i).era = s.era := by
  unfold State.takeA1
  rw [State.modSrc_era]
  split
  · rfl
  · exact State.each_keeps _ State.era (State.clampOne true) (fun _ _ => State.clampOne_era ..) _

theorem State.takeA2_era (i scope : Nat) : (s.takeA2 i scope).era = s.era :=
  State.each_keeps _ State.era (State.fenceA2 i) (fun _ _ => State.fence_era ..) _

theorem State.abortAll_era : s.abortAll.era = s.era := by
  have aborted : s.abortAdmitted.era = s.era :=
    State.each_keeps _ State.era (fun id t => t.finish id .aborted 1 0) (fun _ _ => State.finish_era ..) _
  exact (State.each_keeps _ State.era State.dropWaiter (fun _ _ => rfl) _).trans aborted

theorem State.takeA3_era : s.takeA3.era = s.era := by
  unfold State.takeA3
  dsimp only
  split
  · exact State.abortAll_era
  · rfl

theorem State.zeroiseNow_era : s.zeroiseNow.era = s.era := by
  have erased : s.erased.era = s.era := by
    have kept := s.abortAll_era
    simp only [State.era, Prod.mk.injEq] at kept ⊢
    obtain ⟨worlds, renewal, time, -⟩ := kept
    exact ⟨worlds, renewal, time, rfl⟩
  have closed : s.closedDown.era = s.era :=
    (State.closeWindow_keeps _ State.era (fun _ _ _ _ _ => State.record_era ..) rfl).trans
      ((s.erased.each_keeps State.era State.eraseGen (fun _ _ => rfl) _).trans erased)
  have down (p : Nat) (t : State) : (t.portDown p 0).era = t.era := (workClosed_era t).portDown p 0 rfl
  exact (State.each_keeps _ State.era (fun p t => t.portDown p 0) down _).trans closed

theorem State.takeA4_era : s.takeA4.era = s.era := by
  unfold State.takeA4
  split
  · exact State.zeroiseNow_era
  · rfl

theorem State.respond_era (i grade scope : Nat) : (s.respond i grade scope).era = s.era := by
  unfold State.respond
  split; · rfl
  split; · exact State.takeA4_era
  split; · exact State.takeA3_era
  split; · rfl
  split; · exact State.takeA2_era ..
  split; · exact State.takeA1_era _
  rfl

theorem Tamper.putEntry_mainPower (t : Tamper) (e : TahrEntry) : (t.putEntry e).mainPower = t.mainPower := by
  unfold Tamper.putEntry
  split
  · rfl
  · split <;> rfl

@[simp] theorem State.tamperRecord_era (i grade : Nat) : (s.tamperRecord i grade).era = s.era := by
  unfold State.tamperRecord
  dsimp only
  split
  · exact State.record_era ..
  · exact congrArg (fun b => (s.worlds, s.renewal, s.glob.uptimeMs, b)) (Tamper.putEntry_mainPower ..)

/-- No event of a tamper source, whatever its response, changes the worlds, what renewal records, or main power. -/
@[simp] theorem State.tamperEvent_era (i scope : Nat) : (s.tamperEvent i scope).era = s.era := by
  unfold State.tamperEvent State.countEvent
  dsimp only
  split
  · split
    · rfl
    · split
      · split
        · rfl
        · exact State.tamperRecord_era ..
      · exact (State.tamperRecord_era ..).trans (State.respond_era ..)
  · rfl

theorem State.tamperEvent_worlds (i scope : Nat) : (s.tamperEvent i scope).worlds = s.worlds := congrArg Prod.fst (s.tamperEvent_era i scope)

/-! ### A world held -/

/-- Whether a world runs, whether its restart is in progress, and the cause of it. -/
def WorldSt.standing (x : WorldSt) : Bool × Bool × Nat := (x.up, x.inProgress, x.lastCause)

/-- How the two worlds stand. -/
def State.standings (s : State) : (Bool × Bool × Nat) × (Bool × Bool × Nat) := (WorldSt.standing s.worlds.tw, WorldSt.standing s.worlds.ow)

theorem State.countRestart_standings (w : World) : (s.countRestart w).standings = s.standings := by
  unfold State.countRestart State.recordRestart State.standings
  rw [State.record_worlds]
  cases w <;> rfl

theorem State.revertTrial_standings : s.revertTrial.standings = s.standings := by
  unfold State.revertTrial
  split <;> rfl

theorem State.twFault_leaves (cause : Nat) : (s.twFault cause).standings = ((false, true, cause), WorldSt.standing s.worlds.ow) ∧
    (s.twFault cause).worlds.lock = false := by
  have before : (if s.worlds.tw.inProgress then s.countRestart .tw else s).revertTrial.standings = s.standings := by
    rw [State.revertTrial_standings]
    split
    · exact State.countRestart_standings _
    · rfl
  exact ⟨congrArg (fun x : (Bool × Bool × Nat) × (Bool × Bool × Nat) => ((false, true, cause), x.2)) before, rfl⟩

theorem State.owFault_leaves (cause : Nat) : (s.owFault cause).standings = (WorldSt.standing s.worlds.tw, (false, true, cause)) := by
  have before : (if s.worlds.ow.inProgress then s.countRestart .ow else s).standings = s.standings := by
    split
    · exact State.countRestart_standings _
    · rfl
  exact congrArg (fun x : (Bool × Bool × Nat) × (Bool × Bool × Nat) => (x.1, (false, true, cause))) before

/-- A fault holds its world with its cause and leaves the other running (R436, R438). -/
theorem State.worldFault_holds (w : World) (cause : Nat) (tw : s.worlds.tw.up = true) (ow : s.worlds.ow.up = true) :
    ((s.worldFault w cause).world w).up = false ∧ ((s.worldFault w cause).world w).inProgress = true ∧
      ((s.worldFault w cause).world w).lastCause = cause ∧ (w = .ow → (s.worldFault w cause).worlds.tw.up = true) ∧
      (w = .tw → (s.worldFault w cause).worlds.ow.up = true ∧ (s.worldFault w cause).worlds.lock = false) := by
  cases w with
  | tw =>
    have held : s.worldFault .tw cause = s.twFault cause := if_pos (by simp [State.world, tw])
    obtain ⟨stands, unlocked⟩ := s.twFault_leaves cause
    simp only [State.standings, WorldSt.standing, Prod.mk.injEq] at stands
    obtain ⟨⟨down, begun, last⟩, other, -, -⟩ := stands
    rw [held]
    exact ⟨down, begun, last, nofun, fun _ => ⟨other.trans ow, unlocked⟩⟩
  | ow =>
    have held : s.worldFault .ow cause = s.owFault cause := if_pos (by simp [State.world, ow])
    have stands := s.owFault_leaves cause
    simp only [State.standings, WorldSt.standing, Prod.mk.injEq] at stands
    obtain ⟨⟨other, -, -⟩, down, begun, last⟩ := stands
    rw [held]
    exact ⟨down, begun, last, fun _ => other.trans tw, nofun⟩

/-! ### The faults of a world -/

theorem exec_service {core : Nat} (known : core < 4) (up : (s.world (s.coreWorld core)).up = true) : exec (.service core) s =
    .next { s with worlds := { s.worlds with serviced := s.worlds.serviced.set core s.glob.uptimeMs } } :=
  congrArg Host.Outcome.next (if_neg (by simp [known, up]))

theorem exec_fatal {core : Nat} (known : core < 4) (up : (s.world (s.coreWorld core)).up = true) :
    exec (.fatal core) s = .next (s.worldFault (s.coreWorld core) 2) :=
  congrArg Host.Outcome.next (if_neg (by simp [known, up]))

theorem exec_watchdogExpire {core : Nat} (known : core < 4) (up : (s.world (s.coreWorld core)).up = true) (awake : s.coreAsleep core = false)
    (late : s.worlds.serviced.getD core 0 + s.watchPeriod core ≤ s.glob.uptimeMs) :
    exec (.watchdogExpire core) s = .next (s.worldFault (s.coreWorld core) 1) := by
  have command : exec (.watchdogExpire core) s = execWatchdogExpire core s := rfl
  rw [command, execWatchdogExpire, if_neg]
  simpa [up, awake, known] using late

theorem exec_watchdogExpire_early {core : Nat} (early : s.glob.uptimeMs < s.worlds.serviced.getD core 0 + s.watchPeriod core) :
    exec (.watchdogExpire core) s = .next s := by
  have command : exec (.watchdogExpire core) s = execWatchdogExpire core s := rfl
  rw [command, execWatchdogExpire, if_pos (by rw [decide_eq_true early, Bool.or_true])]

/-- Settles O37: the guards of each fault, and what holding a world leaves. -/
theorem worldFaults : Obligations.WorldFaults :=
  ⟨fun _ _ => exec_service, fun _ _ => exec_fatal, fun _ _ => exec_watchdogExpire, fun _ _ _ => exec_watchdogExpire_early, fun _ _ => rfl,
    fun _ _ => ⟨rfl, fun _ => rfl, rfl, fun _ _ _ => rfl⟩, fun w cause _ tw ow => State.worldFault_holds w cause tw ow⟩

end Sys2Proof.Machine
end

section
/-! PROOFS of the family 'other': the access of a Serow core, the debug access port and the JTAG instructions (O39, O41). -/

namespace Sys2Proof.Machine

section
variable {core addr : Nat} {priv : Priv} {t : AccessType} {data : Bytes} {s : State}

/-! ### A core's access -/

section
variable (known : core < 4) (up : (s.world (s.coreWorld core)).up = true) (admitted : s.admits (.core (s.coreWorld core) priv) t addr = true)

include known up admitted

/-- An access admitted goes on to the block that it names. -/
theorem exec_serowAccess_admitted {b : Blk} (block : blockAt addr = some b) (trusted : b ≠ .trusted) (management : b ≠ .management) :
    exec (.serowAccess core priv t addr data) s = if s.blockOff b && !(t == .write && b.isSession) then
        .next (State.serowFault (s.coreWorld core) priv t addr { s with power := { s.power with errStatus := .poweredDown, errValid := true } })
      else .next ((s.accessEffect (s.coreWorld core) priv t b addr (data.take 8)).settle s) := by
  have command : exec (.serowAccess core priv t addr data) s = execSerowAccess core priv t addr data s := rfl
  rw [command, execSerowAccess, if_neg (by simp [known, up]), if_neg (by simp [admitted]), block]
  cases b with
  | trusted => exact absurd rfl trusted
  | management => exact absurd rfl management
  | _ => rfl

theorem exec_serowAccess_takes {b : Blk} (block : blockAt addr = some b) (trusted : b ≠ .trusted) (management : b ≠ .management)
    (on : s.blockOff b = false) : exec (.serowAccess core priv t addr data) s =
      .next ((s.accessEffect (s.coreWorld core) priv t b addr (data.take 8)).settle s) := by
  rw [exec_serowAccess_admitted known up admitted block trusted management, if_neg (by simp [on])]

theorem exec_serowAccess_poweredDown {b : Blk} (block : blockAt addr = some b) (trusted : b ≠ .trusted) (management : b ≠ .management)
    (off : s.blockOff b = true) (wakes : ¬ (t = .write ∧ b.isSession = true)) : exec (.serowAccess core priv t addr data) s =
      .next (State.serowFault (s.coreWorld core) priv t addr { s with power := { s.power with errStatus := .poweredDown, errValid := true } }) := by
  have asleep : (s.blockOff b && !(t == .write && b.isSession)) = true := by
    have none : (t == .write && b.isSession) = false := by simpa using wakes
    rw [off, none]
    rfl
  rw [exec_serowAccess_admitted known up admitted block trusted management, if_pos asleep]

/-- An access to a block whose layout the spec leaves out stops the model (R593). -/
theorem exec_serowAccess_undocumented : (blockAt addr = some .trusted → exec (.serowAccess core priv t addr data) s = .fault (.undocumentedTrustedBlock addr)) ∧
    (blockAt addr = some .management → exec (.serowAccess core priv t addr data) s = .fault (.undocumentedManagementBlock addr)) := by
  have command : exec (.serowAccess core priv t addr data) s = execSerowAccess core priv t addr data s := rfl
  rw [command, execSerowAccess, if_neg (by simp [known, up]), if_neg (by simp [admitted])]
  exact ⟨fun block => by rw [block], fun block => by rw [block]⟩

end

theorem State.accessEffect_read (w : World) (p : Priv) (b : Blk) (a : Nat) (data : Bytes) :
    (s.accessEffect w p .read b a data).worlds.serowData = (s.busRead b a data.length).1 := rfl

/-! ### A fault -/

/-- The fault of a world after one more: the first stays (R447). -/
theorem State.serowFault_admFault (w : World) (p : Priv) (t : AccessType) (a : Nat) : ((s.serowFault w p t a).world w).admFault =
    if (s.world w).admFault.valid then (s.world w).admFault else { addr := a, priv := p, typ := AccessType.code t, valid := true } := by
  have noted (x : WorldSt) : WorldSt.admFault (if x.admFault.valid then x
      else { x with admFault := { addr := a, priv := p, typ := AccessType.code t, valid := true } }) =
      if x.admFault.valid then x.admFault else { addr := a, priv := p, typ := AccessType.code t, valid := true } := by
    split <;> rfl
  cases w <;> exact noted _

theorem State.serowFault_worlds (w : World) (p : Priv) (t : AccessType) (a : Nat) :
    (s.serowFault w p t a).worlds.serowFaults = sat 16 (s.worlds.serowFaults + 1) ∧ (s.serowFault w p t a).worlds.regions = s.worlds.regions ∧
      (s.serowFault w p t a).worlds.sram = s.worlds.sram ∧ (s.serowFault w p t a).keys = s.keys ∧ (s.serowFault w p t a).chs = s.chs := by
  cases w <;> exact ⟨rfl, rfl, rfl, rfl, rfl⟩

theorem State.serowFault_logs (w : World) (p : Priv) (t : AccessType) (a : Nat) : let u := s.serowFault w p t a
    u.worlds.serowFaults = sat 16 (s.worlds.serowFaults + 1) ∧ (u.world w).admFault.valid = true ∧
      ((s.world w).admFault.valid = true → (u.world w).admFault = (s.world w).admFault) ∧
      ((s.world w).admFault.valid = false → (u.world w).admFault.addr = a ∧ (u.world w).admFault.priv = p) ∧
      u.worlds.regions = s.worlds.regions ∧ u.worlds.sram = s.worlds.sram ∧ u.keys = s.keys ∧ u.chs = s.chs := by
  obtain ⟨counted, kept⟩ := s.serowFault_worlds w p t a
  refine ⟨counted, ?_, fun valid => ?_, fun fresh => ?_, kept⟩
  · rw [State.serowFault_admFault]
    split
    · assumption
    · rfl
  · rw [State.serowFault_admFault, if_pos valid]
  · rw [State.serowFault_admFault, if_neg (by simp [fresh])]
    exact ⟨rfl, rfl⟩

/-! ### Admission -/

theorem State.admits_matched {m : Master} {a i : Nat} {b : Blk} {e : Region16} (block : blockAt a = some b) (matched : s.regionAt a = some (i, e)) :
    s.admits m t a = e.grants m t := by
  unfold State.admits
  rw [block, matched]

theorem State.admits_user_unmatched {a : Nat} (unmatched : s.regionAt a = none) (w : World) : s.admits (.core w .user) t a = false := by
  unfold State.admits
  rw [unmatched]
  cases blockAt a <;> rfl

end

/-- Settles O39: what an access of a core comes to, what a fault logs, and what admits an access. -/
theorem serowAccess : Obligations.SerowAccess :=
  ⟨fun _ _ _ _ _ _ _ known up admitted => exec_serowAccess_takes known up admitted,
    fun w p b a data _ => ⟨rfl, State.accessEffect_read w p b a data, fun _ => rfl⟩,
    fun _ _ _ _ data s known up denied => exec_serowAccess_not_admitted s data known rfl up denied,
    fun _ _ _ _ _ _ _ known up admitted => exec_serowAccess_poweredDown known up admitted,
    fun w p t a _ => State.serowFault_logs w p t a,
    fun _ _ _ _ _ _ _ => State.admits_matched,
    fun s t _ _ w _ unmatched => ⟨s.admits_unmatched_of_not_core unmatched .host nofun t, s.admits_unmatched_of_not_core unmatched .channel nofun t,
      s.admits_unmatched_of_not_core unmatched .debug nofun t, State.admits_user_unmatched unmatched w⟩,
    fun _ _ _ _ _ _ known up admitted => exec_serowAccess_undocumented known up admitted⟩

section
variable {r : DbgReq} {op : Nat} {s : State}

/-! ### The debug access port -/

theorem State.dbgRequest_retired (f : State → State) (retired : s.keys.lc = .retired) : s.dbgRequest op r f = s.dbgAnswer 2 2 (noData op) :=
  if_pos retired

theorem State.dbgRequest_wrongCheck (f : State → State) (live : s.keys.lc ≠ .retired) (wrong : r.check.toNat ≠ dbgCheck (DbgReq.bitList op r)) :
    s.dbgRequest op r f = s.dbgAnswer 4 0 (noData op) :=
  (if_neg live).trans (if_pos (by simpa using wrong))

/-- A well-formed request under a right CHECK is served. -/
theorem State.dbgRequest_served (f : State → State) (live : s.keys.lc ≠ .retired) (check : r.check.toNat = dbgCheck (DbgReq.bitList op r))
    (formed : DbgReq.malformed r = false) : s.dbgRequest op r f = f s :=
  (if_neg live).trans <| (if_neg (by simp [check])).trans <| if_neg (by simp [formed])

theorem State.dbgWait_idle (f : State → State) (idle : s.worlds.dbgBus = none) : s.dbgWait op f = f s := if_neg (by simp [idle])

section
variable (live : s.keys.lc ≠ .retired)

include live

theorem exec_dbgStatus (check : r.check.toNat = dbgCheck (DbgReq.bitList 0 r)) (formed : DbgReq.malformed r = false) (idle : s.worlds.dbgBus = none) :
    exec (.dbgStatus r) s = .next (s.dbgAnswer 0 0 none) :=
  congrArg Host.Outcome.next ((s.dbgRequest_served _ live check formed).trans (s.dbgWait_idle _ idle))

theorem exec_dbgRead (check : r.check.toNat = dbgCheck (DbgReq.bitList 1 r)) (formed : DbgReq.malformed r = false) (idle : s.worlds.dbgBus = none) :
    exec (.dbgRead r) s = .next ((s.dbgAccess 1 r).settle s) :=
  congrArg (fun t : State => Host.Outcome.next (t.settle s)) ((s.dbgRequest_served _ live check formed).trans (s.dbgWait_idle _ idle))

theorem exec_dbgWrite (check : r.check.toNat = dbgCheck (DbgReq.bitList 2 r)) (formed : DbgReq.malformed r = false) (idle : s.worlds.dbgBus = none) :
    exec (.dbgWrite r) s = .next ((s.dbgAccess 2 r).settle s) :=
  congrArg (fun t : State => Host.Outcome.next (t.settle s)) ((s.dbgRequest_served _ live check formed).trans (s.dbgWait_idle _ idle))

theorem exec_portReset (check : r.check.toNat = dbgCheck (DbgReq.bitList 3 r)) (formed : DbgReq.malformed r = false) :
    exec (.portReset r) s = .next (State.dbgAnswer 0 0 none { s with worlds := { s.worlds with dbgBus := none, dbgHeld := none, oldDbg := false } }) :=
  congrArg Host.Outcome.next (s.dbgRequest_served _ live check formed)

end

theorem exec_dbgBusAccessComplete {a : Nat} (ok : Bool) (data : BitVec 64) (access : s.worlds.dbgBus = some (op, a)) :
    exec (.dbgBusAccessComplete ok data) s =
      .next { s with worlds := { s.worlds with dbgBus := none, dbgHeld := some (op, a, ok, data), oldDbg := false } } := by
  have command : exec (.dbgBusAccessComplete ok data) s = execDbgBusAccessComplete ok data s := rfl
  rw [command, execDbgBusAccessComplete, access]

/-- A bus access to a locked region of the trusted world is refused (R452). -/
theorem State.dbgAccess_refused {i : Nat} {e : Region16} (matched : s.regionAt r.addr = some (i, e)) (trusted : s.regionWorld i = .tw)
    (locked : e.lock = true) (bus : r.space % 4 = 1) : s.dbgAccess op r = (s.debugAttempt r.addr).dbgAnswer 2 1 (noData op) := by
  unfold State.dbgAccess
  rw [if_neg (by simp [bus]), if_pos bus, State.dbgBusAccess, matched]
  exact if_pos (by simp [trusted, locked])

theorem State.debugAttempt_counts (a : Nat) : (s.debugAttempt a).worlds.debugAttempts = sat 16 (s.worlds.debugAttempts + 1) := by
  unfold State.debugAttempt
  dsimp only
  rw [State.tamperEvent_worlds, State.record_worlds]

/-! ### The JTAG instructions -/

theorem State.jtagTest_open (i : Nat) (open_ : s.keys.lc = .blank ∨ s.keys.lc = .development) : s.jtagTest i = s.setJtag i :=
  congrArg s.setJtag (if_pos open_)

theorem State.jtagTest_bypass (i : Nat) (blank : s.keys.lc ≠ .blank) (development : s.keys.lc ≠ .development) : s.jtagTest i = s.setJtag 0 :=
  congrArg s.setJtag (if_neg (not_or.mpr ⟨blank, development⟩))

theorem exec_jtag : exec .bypass s = .next (s.setJtag 0) ∧ exec .idcode s = .next (s.setJtag 1) ∧ exec .samplePreload s = .next (s.setJtag 2) ∧
    (s.keys.lc = .blank ∨ s.keys.lc = .development → exec .extest s = .next (s.setJtag 3) ∧ exec .clamp s = .next (s.setJtag 4) ∧
      exec .highz s = .next (s.setJtag 5)) ∧
    (s.keys.lc ≠ .blank → s.keys.lc ≠ .development → exec .extest s = .next (s.setJtag 0) ∧ exec .clamp s = .next (s.setJtag 0) ∧
      exec .highz s = .next (s.setJtag 0)) := by
  refine ⟨rfl, rfl, rfl, fun open_ => ?_, fun blank development => ?_⟩
  · exact ⟨congrArg Host.Outcome.next (s.jtagTest_open 3 open_), congrArg Host.Outcome.next (s.jtagTest_open 4 open_),
      congrArg Host.Outcome.next (s.jtagTest_open 5 open_)⟩
  · exact ⟨congrArg Host.Outcome.next (s.jtagTest_bypass 3 blank development), congrArg Host.Outcome.next (s.jtagTest_bypass 4 blank development),
      congrArg Host.Outcome.next (s.jtagTest_bypass 5 blank development)⟩

end

/-- Settles O41: the port's order of checks, its accesses, and the JTAG instructions by lifecycle state. -/
theorem debugAccess : Obligations.DebugAccess :=
  ⟨fun _ _ f _ => State.dbgRequest_retired f, fun _ _ f _ => State.dbgRequest_wrongCheck f, fun _ _ => exec_dbgStatus, fun _ _ => exec_dbgRead,
    fun _ _ => exec_dbgWrite, fun _ _ => exec_portReset, fun ok data _ _ _ => exec_dbgBusAccessComplete ok data,
    fun _ _ _ _ _ => State.dbgAccess_refused, fun a _ => State.debugAttempt_counts a, fun _ => exec_jtag⟩

end Sys2Proof.Machine
end

section
/-! PROOFS of the family 'other': tamper events, their ends, the cells and the loops (O42). -/

namespace Sys2Proof.Machine

section
variable {src scope : Nat} {s : State}

/-! ### Events and their ends -/

/-- An event of a source that is no cell's. -/
theorem execTamperEvent_eq (persists : Bool) (first : src ≠ 5) (second : src ≠ 6) : exec (.tamperEvent src scope persists) s =
    if (persists && (s.src src).asserted) || (sourceClass src == 1 && !s.tamper.mainPower) then .next (s.settle s)
    else .next ((s.tamperEvent src scope).settle s) := by
  have command : exec (.tamperEvent src scope persists) s = execTamperEvent src scope persists s := rfl
  have other : ¬ (src = 5 ∨ src = 6) := not_or.mpr ⟨first, second⟩
  rw [command, execTamperEvent, if_neg other]

theorem exec_tamperEvent (first : src ≠ 5) (second : src ≠ 6) (powered : sourceClass src ≠ 1 ∨ s.tamper.mainPower = true) :
    exec (.tamperEvent src scope false) s = .next ((s.tamperEvent src scope).settle s) := by
  have counts : ¬ ((false && (s.src src).asserted) || (sourceClass src == 1 && !s.tamper.mainPower)) = true := by
    rcases powered with h | h <;> simp [h]
  rw [execTamperEvent_eq false first second, if_neg counts]

theorem exec_tamperEvent_persists (first : src ≠ 5) (second : src ≠ 6) (asserted : (s.src src).asserted = true) :
    exec (.tamperEvent src scope true) s = .next (s.settle s) := by
  rw [execTamperEvent_eq true first second, if_pos (by simp [asserted])]

theorem State.tamperEvent_insensitive (blind : s.senses src = false) : s.tamperEvent src scope = s := if_neg (by simp [blind])

theorem State.tamperEvent_alarmed (senses : s.senses src = true) (alarmed : (s.src src).alarmed = true) : s.tamperEvent src scope =
    s.modSrc src fun x => { x with asserted := true, events := sat 32 (x.events + 1) } :=
  (if_pos senses).trans (if_pos alarmed)

theorem exec_sourceRearm (stands : (s.src src).asserted = true ∨ (s.src src).alarmed = true) : exec (.sourceRearm src) s = .next (s.rearm src) :=
  if_pos (by simpa using stands)

theorem State.rearm_clears (known : src < s.tamper.sources.length) (alarmed : (s.src src).alarmed = true) : ((s.rearm src).src src).times = [] ∧
    ((s.rearm src).src src).alarmed = false ∧ ((s.rearm src).src src).asserted = false := by
  unfold State.rearm
  rw [s.src_modSrc known, if_pos alarmed]
  exact ⟨rfl, rfl, rfl⟩

theorem exec_throttleEnd (throttle : (s.src src).throttle = true) (quiet : (s.src src).alarmed = false) (late : 1000 ≤ s.sinceMs (s.src src).rearmedAt) :
    let s1 := s.modSrc src fun t => { t with throttle := false }
    exec (.throttleEnd src) s =
      .next ((if s1.tamper.sources.any (·.throttle) then s1 else s1.each (List.range 36) (State.clampOne false)).settle s) :=
  if_neg (by simp [throttle, quiet, late])

theorem exec_fenceEnd (fencing : (s.src src).fencing = true) (quiet : (s.src src).alarmed = false) (late : 100 ≤ s.sinceMs (s.src src).rearmedAt) :
    exec (.fenceEnd src) s =
      .next (((s.modSrc src fun t => { t with fencing := false }).each (List.range 36) (State.releaseA2 src)).settle s) :=
  if_neg (by simp [fencing, quiet, late])

end

section
variable {cell : Nat} {s : State}

/-! ### The cells -/

theorem bit_cleared (known : cell < 2) (x : BitVec 2) : (x &&& ~~~BitVec.ofNat 2 (2 ^ cell)).getLsbD cell = false := by
  obtain rfl | rfl : cell = 0 ∨ cell = 1 := by omega
  · simp
  · simp

theorem bit_set (known : cell < 2) (x : BitVec 2) : (x ||| BitVec.ofNat 2 (2 ^ cell)).getLsbD cell = true := by
  obtain rfl | rfl : cell = 0 ∨ cell = 1 := by omega
  · simp
  · simp

theorem exec_cellArm (known : cell < 2) (present : s.tamper.cellPresent.getLsbD cell = true) (range : s.tamper.cellRange.getLsbD cell = true)
    (unarmed : s.tamper.cellArmed.getLsbD cell = false) (personal : s.keys.lc ≠ .blank) (steady : 1000 ≤ s.sinceMs (s.tamper.cellSince.getD cell 0)) :
    exec (.cellArm cell) s = .next (State.tamperRecord (5 + cell) 0
      { s with tamper := { s.tamper with cellArmed := s.tamper.cellArmed ||| BitVec.ofNat 2 (2 ^ cell) } }) := by
  refine if_pos ?_
  rw [present, range, unarmed, decide_eq_true known, decide_eq_true steady]
  simpa using personal

theorem exec_cellLow (known : cell < 2) (range : s.tamper.cellRange.getLsbD cell = true) :
    let s1 := s.cellBad cell false
    s1.tamper.cellRange.getLsbD cell = false ∧ exec (.cellLow cell) s =
      .next ((if s.tamper.cellArmed.getLsbD cell then s1.tamperRecord (5 + cell) 0 else s1).settle s) :=
  ⟨bit_cleared known _, if_pos (by rw [range, decide_eq_true known]; rfl)⟩

theorem exec_cellInRange (known : cell < 2) (low : s.tamper.cellRange.getLsbD cell = false) : ∃ t, exec (.cellInRange cell) s = .next t ∧
    t.tamper.cellPresent.getLsbD cell = true ∧ t.tamper.cellRange.getLsbD cell = true ∧ t.tamper.cellArmed = s.tamper.cellArmed ∧ t.keys = s.keys := by
  have command : exec (.cellInRange cell) s = execCellInRange cell s := rfl
  have enters : ¬ (decide (2 ≤ cell) || (s.tamper.cellPresent.getLsbD cell && s.tamper.cellRange.getLsbD cell)) = true := by
    rw [low, decide_eq_false (Nat.not_le.mpr known), Bool.and_false]
    decide
  rw [command, execCellInRange, if_neg enters]
  refine ⟨_, rfl, ?_⟩
  rw [State.settle_tamper, State.settle_keys]
  exact ⟨bit_set known _, bit_set known _, rfl, rfl⟩

/-! ### The loops -/

theorem exec_loopReading (clean : BitVec 8) (dark : s.tamper.mainPower = false) : exec (.loopReading clean) s =
    .next (State.each (List.range 8) (State.readLoop clean)
      { s with tamper := { s.tamper with tahrMs := (s.tamper.tahrMs + s.loopMs) % 2 ^ 32 }, dual := s.dual.tick s.loopMs }) :=
  if_neg (by simp [dark])

theorem exec_loopReading_powered (clean : BitVec 8) (power : s.tamper.mainPower = true) : exec (.loopReading clean) s = .next s := if_pos power

end

section
variable {c : Caller} {p : Packet} {again : Bool} {t : State}

/-! ### The tamper commands -/

theorem tamperConfigRun_unchanged (ok : t.tamperRefused (p.int tamperFlds) = false) (none : p.int tamperFlds 1 = 0) :
    tamperConfigRun c p again t = .done .done 0 [] 0 t :=
  (if_neg (by simp [ok])).trans (if_pos none)

theorem tamperConfigRun_changes (ok : t.tamperRefused (p.int tamperFlds) = false) (some_ : p.int tamperFlds 1 ≠ 0) :
    let s1 := t.modSrc (p.int tamperFlds 0) (tamperChanged (p.int tamperFlds))
    tamperConfigRun c p again t = .done .done 0 [] 0 (if bit (p.int tamperFlds 1) 6 then
      { s1 with tamper := { s1.tamper with loopPeriod := (periodCode (p.int tamperFlds 8)).getD s1.tamper.loopPeriod } } else s1) :=
  (if_neg (by simp [ok])).trans (if_neg some_)

end

/-- Settles O42: each step under its guards, and the two commands' runs. -/
theorem tamperCommands : Obligations.TamperCommands :=
  ⟨fun _ _ _ => exec_tamperEvent, fun _ _ _ => exec_tamperEvent_persists, fun _ _ _ => State.tamperEvent_insensitive,
    fun _ _ _ => State.tamperEvent_alarmed, fun _ _ => exec_sourceRearm, fun _ _ => State.rearm_clears, fun _ _ => exec_throttleEnd,
    fun _ _ => exec_fenceEnd, fun _ => rfl, fun _ _ => exec_cellArm, fun _ _ => exec_cellLow, fun _ _ => exec_cellInRange,
    fun clean _ => exec_loopReading clean, fun clean _ => exec_loopReading_powered clean,
    fun _ _ _ _ ready => congrArg Host.Outcome.next (ready.command_answered rfl),
    fun _ _ _ _ ready ok none => congrArg Host.Outcome.next (ready.command_answered (tamperConfigRun_unchanged ok none)),
    fun _ _ _ _ ready ok some_ => congrArg Host.Outcome.next (ready.command_answered (tamperConfigRun_changes ok some_))⟩

end Sys2Proof.Machine
end

section
/-! PROOFS of the family 'other': the power controller's requests, the power states and the group regulators (O44, O45). -/

namespace Sys2Proof.Machine

section
variable {c : Caller} {p : Packet} {t : State}

/-! ### Requests -/

/-- A valid request is carried out, and its reply waits where the set point of a channel's group moved. -/
theorem pwrDomainSetRun_applies (ok : t.pwrFault .ow (pwrInt p.params) = none) :
    let f := pwrInt p.params
    let u := t.pwrApply .ow f
    pwrDomainSetRun c p false t = if f 0 < 36 && (u.grp (groupOf (f 0))).setMv != (t.grp (groupOf (f 0))).setMv then .hold (.settle (f 0)) [] (f 0) u
      else .done .done 0 (u.pwrReply (f 0)) (f 0) u := by
  unfold pwrDomainSetRun
  dsimp only
  rw [if_neg (by decide), ok]

theorem pwrDomainSetRun_answers (ok : t.pwrFault .ow (pwrInt p.params) = none) :
    let f := pwrInt p.params
    let u := t.pwrApply .ow f
    ((u.grp (groupOf (f 0))).setMv = (t.grp (groupOf (f 0))).setMv ∨ 36 ≤ f 0) →
    pwrDomainSetRun c p false t = .done .done 0 (u.pwrReply (f 0)) (f 0) u := by
  intro f u stands
  exact (pwrDomainSetRun_applies ok).trans (if_neg (by rcases stands with h | h <;> simp [f, u, h, Nat.not_lt.mpr]))

theorem pwrDomainSetRun_settles (ok : t.pwrFault .ow (pwrInt p.params) = none) :
    let f := pwrInt p.params
    let u := t.pwrApply .ow f
    (u.grp (groupOf (f 0))).setMv ≠ (t.grp (groupOf (f 0))).setMv → f 0 < 36 → pwrDomainSetRun c p false t = .hold (.settle (f 0)) [] (f 0) u := by
  intro f u moved channel
  exact (pwrDomainSetRun_applies ok).trans (if_pos (by simp [f, u, moved, channel]))

theorem pwrStatusRun_all {again : Bool} (all : p.int [.int 2] 0 = 0xFFFF) : pwrStatusRun c p again t =
    .done .done 0 ((List.range 62).flatMap t.domBlock ++ (List.range 4).flatMap t.grpBlock) 0xFFFF t := by
  unfold pwrStatusRun
  dsimp only
  rw [all]
  rfl

theorem pwrStatusRun_one {again : Bool} (known : p.int [.int 2] 0 ≤ 61) (used : p.int [.int 2] 0 ≠ 60) : pwrStatusRun c p again t =
    .done .done 0 (t.domBlock (p.int [.int 2] 0) ++ (List.range 4).flatMap t.grpBlock) (p.int [.int 2] 0) t := by
  have one : p.int [.int 2] 0 ≠ 0xFFFF := by omega
  unfold pwrStatusRun
  dsimp only
  rw [if_neg (by simp [used, known]), if_neg one, List.flatMap_singleton]

end

section
variable {w : World} {s : State}

/-- A request that is dropped, or the fault that a request of the port has (R596). -/
theorem exec_go_busy (busy : (s.world w).powerBusy = true) : exec (.go w) s = .next s :=
  congrArg Host.Outcome.next (if_pos (by simp [busy]))

section
variable (up : (s.world w).up = true) (idle : (s.world w).powerBusy = false)

include up idle

theorem exec_go_refused {st : Status} {n : Nat} (gaps : gapsZero pwrFlds 32 (padTo 32 (s.world w).powerReq) = true)
    (low : pwrInt (padTo 32 (s.world w).powerReq) 1 < 256) (fault : s.pwrFault w (pwrInt (padTo 32 (s.world w).powerReq)) = some (st, n)) :
    exec (.go w) s = .next (s.modWorld w fun y => { y with powerStatus := st, powerDeferred := false }) := by
  have command : exec (.go w) s = .next (s.powerGo w) := rfl
  rw [command, State.powerGo, if_neg (by simp [up, idle])]
  dsimp only
  rw [if_neg (by simp [gaps, low]), fault]

theorem exec_go_malformed (bad : gapsZero pwrFlds 32 (padTo 32 (s.world w).powerReq) = false ∨ 256 ≤ pwrInt (padTo 32 (s.world w).powerReq) 1) :
    exec (.go w) s = .next (s.modWorld w fun y => { y with powerStatus := .descMalformed, powerDeferred := false }) := by
  have command : exec (.go w) s = .next (s.powerGo w) := rfl
  rw [command, State.powerGo, if_neg (by simp [up, idle])]
  dsimp only
  rw [if_pos (by simpa using bad)]

theorem exec_go_applies (gaps : gapsZero pwrFlds 32 (padTo 32 (s.world w).powerReq) = true)
    (low : pwrInt (padTo 32 (s.world w).powerReq) 1 < 256) (ok : s.pwrFault w (pwrInt (padTo 32 (s.world w).powerReq)) = none) :
    let f := pwrInt (padTo 32 (s.world w).powerReq)
    let u := s.pwrApply w f
    exec (.go w) s = .next (u.modWorld w fun y =>
      { y with powerStatus := .done, powerDeferred := (u.dom (f 0)).deferred,
               powerBusy := f 0 < 36 && (u.grp (groupOf (f 0))).setMv != (s.grp (groupOf (f 0))).setMv }) := by
  have command : exec (.go w) s = .next (s.powerGo w) := rfl
  rw [command, State.powerGo, if_neg (by simp [up, idle])]
  dsimp only
  rw [if_neg (by simp [gaps, low]), ok]

end
end

/-- Settles O44: the run of each command, and of a port's request. -/
theorem powerRequests : Obligations.PowerRequests :=
  ⟨fun _ _ _ _ ready ok stands => congrArg Host.Outcome.next (ready.command_answered (pwrDomainSetRun_answers ok stands)),
    fun _ _ _ _ ready ok moved channel => congrArg Host.Outcome.next (ready.command_running (pwrDomainSetRun_settles ok moved channel)),
    fun _ _ _ _ ready all => congrArg Host.Outcome.next (ready.command_answered (pwrStatusRun_all all)),
    fun _ _ _ _ ready known used => congrArg Host.Outcome.next (ready.command_answered (pwrStatusRun_one known used)),
    fun _ _ _ => exec_go_busy, fun _ _ _ _ up idle => exec_go_refused up idle,
    fun _ _ => exec_go_malformed, fun _ _ => exec_go_applies⟩

section
variable {d : Nat} {s : State}

/-! ### Power states -/

theorem exec_sleepEntry (may : s.mayEnter d .sleep = true) : exec (.sleepEntry d) s = .next ((s.enterState d .sleep).settle s) := if_pos may

theorem exec_deepEntry (may : s.mayEnter d .deep = true) : exec (.deepEntry d) s = .next (((s.deepLoss d).enterState d .deep).settle s) := if_pos may

theorem State.allowed_of_mayEnter {p : PState} (may : s.mayEnter d p = true) : p.code ≤ (s.allowance d).code := by
  unfold State.mayEnter at may
  simp only [Bool.and_eq_true, decide_eq_true_eq] at may
  obtain ⟨⟨⟨allowed, -⟩, -⟩, -⟩ := may
  exact allowed

theorem State.deepLoss_cache (channel : d < 36) (known : d < s.chs.length) : ((s.deepLoss d).ch d).cache = [] := by
  have kind : domKind d = .channel := if_pos channel
  unfold State.deepLoss
  rw [kind]
  exact congrArg Channel.cache (s.ch_modCh _ known)

theorem exec_offEntry (asked : s.power.offRequest = true) (may : s.mayOff = true) (power : s.tamper.mainPower = true) :
    ∃ t, exec .offEntry s = .next t ∧ t.tamper.mainPower = false ∧ (t.dom 61).pstate = .off ∧ t.keys.root = s.keys.root ∧ t.keys.keys = [] ∧
      t.renewal.nextKind = 2 ∧ t.er.nextSeq = s.er.nextSeq :=
  ⟨_, if_neg (by simp [asked, may, power]), rfl, rfl, rfl, rfl, rfl, rfl⟩

theorem exec_domainWake {src : WakeSource} (inner : d < 61) (wakes : wakesKind src (domKind d) = true) (asleep : s.asleep d = true)
    (quiet : (s.dom d).waking = none) : exec (.domainWake d src) s = .next (s.modDom d fun x => { x with waking := some src }) := by
  have command : exec (.domainWake d src) s = execDomainWake d src s := rfl
  rw [command, execDomainWake, if_pos (by simp [inner, wakes])]
  exact congrArg Host.Outcome.next (if_pos (by simp [asleep, quiet]))

theorem exec_domainWake_ignored {src : WakeSource} (none : 61 ≤ d ∨ wakesKind src (domKind d) = false) : exec (.domainWake d src) s = .next s :=
  if_neg (by rcases none with h | h <;> simp [h, Nat.not_lt.mpr])

/-- A domain of a kind as its exit ends (R568). -/
def State.exited (s : State) (d : Nat) (w : WakeSource) : DomKind → State
  | .channel => s.channelReturn d (wakeCode w)
  | .core => (s.coreReturn d).wakeNote d (wakeCode w)
  | .fabric => (s.wakeNote d (wakeCode w)).portReturn (d - 40)
  | _ => s.wakeNote d (wakeCode w)

theorem exec_domainExitDone {w : WakeSource} {k : DomKind} (asleep : s.asleep d = true) (waking : (s.dom d).waking = some w) (kind : domKind d = k) :
    exec (.domainExitDone d) s = .next ((s.exited d w k).settle s) := by
  have command : exec (.domainExitDone d) s = execDomainExitDone d s := rfl
  rw [command, execDomainExitDone, if_neg (by simp [asleep]), waking]
  dsimp only
  rw [kind]
  cases k <;> rfl

theorem exec_wakePin {win : Bool} (level : win = false ∨ s.power.wakeLevel = true) (off : (s.dom 61).pstate = .off) :
    exec (.wakePin win) s = .next (s.modDom 61 fun d => { d with waking := some .wakePin }) :=
  (if_neg (by rcases level with h | h <;> simp [h])).trans (if_pos off)

theorem exec_wakePin_edge (level : s.power.wakeLevel = false) : exec (.wakePin true) s = .next s := if_pos (by simp [level])

end

section
variable {g mv : Nat} {s : State}

/-! ### The group regulators -/

theorem exec_regulatorSettled (known : g < 4) (moving : (s.grp g).settled = false) (sound : (s.grp g).fault = false) (low : (s.grp g).setMv ≤ mv + 10)
    (high : mv ≤ (s.grp g).setMv + 10) : exec (.regulatorSettled g mv) s = .next ((s.groupSettled g mv).settle s) :=
  if_neg (by simp [known, moving, sound, Group.near, low, high])

theorem exec_regulatorSettled_far (far : (s.grp g).setMv + 10 < mv) : exec (.regulatorSettled g mv) s = .next s :=
  if_pos (by simp [Group.near, Nat.not_le.mpr far])

theorem exec_regulatorFault (known : g < 4) (sound : (s.grp g).fault = false) : exec (.regulatorFault g mv) s =
    .next (State.settle (State.recordRegulator g 1 mv
      (s.modGrp g fun x => { x with fault := true, settled := false, readMv := mv % 4096, faults := sat 16 (x.faults + 1) })) s) :=
  if_neg (by simp [known, sound])

theorem exec_regulatorRetry_ends (known : g < 4) (fault : (s.grp g).fault = true) (near : (s.grp g).near mv = true) :
    exec (.regulatorRetry g mv) s = .next (((s.groupSettled g mv).recordRegulator g 2 mv).settle s) :=
  (if_neg (by simp [known, fault])).trans (if_pos near)

theorem exec_regulatorRetry_reads (known : g < 4) (fault : (s.grp g).fault = true) (far : (s.grp g).near mv = false) :
    exec (.regulatorRetry g mv) s = .next (s.modGrp g fun x => { x with readMv := mv % 4096 }) :=
  (if_neg (by simp [known, fault])).trans (if_neg (by simp [far]))

theorem exec_regulatorPoll {ma : Nat} (known : g < 4) :
    exec (.regulatorPoll g mv ma) s = .next (s.modGrp g fun x => { x with readMv := mv % 4096, readMa := ma % 2 ^ 20 }) :=
  if_neg (Nat.not_le.mpr known)

theorem State.groupSettled_grp (known : g < s.power.groups.length) : (s.groupSettled g mv).grp g =
    { s.grp g with settled := true, fault := false, readMv := mv % 4096, lastSettled := (s.grp g).setMv } := by
  simp [State.groupSettled, State.grp, State.modGrp, State.modPower, List.getD_eq_getElem?_getD, known]

theorem State.groupSettled_leaves (known : g < s.power.groups.length) : let u := State.groupSettled g mv s
    (u.grp g).settled = true ∧ (u.grp g).fault = false ∧ (u.grp g).lastSettled = (s.grp g).setMv := by
  dsimp only
  rw [State.groupSettled_grp known]
  exact ⟨rfl, rfl, rfl⟩

end

/-- Settles O45: each entry, wake and exit under its guards, and the regulators' four steps. -/
theorem powerStatesAndRegulators : Obligations.PowerStatesAndRegulators :=
  ⟨fun _ _ => exec_sleepEntry, fun _ _ => exec_deepEntry, fun _ _ _ => State.allowed_of_mayEnter, fun _ _ => State.deepLoss_cache,
    fun _ => exec_offEntry, fun _ _ _ => exec_domainWake, fun _ _ _ => exec_domainWake_ignored, fun _ _ _ => exec_domainExitDone,
    fun _ _ _ => exec_domainExitDone, fun _ _ _ => exec_domainExitDone, fun _ _ _ => exec_domainExitDone, fun _ _ => exec_wakePin,
    fun _ => exec_wakePin_edge, fun _ _ _ _ => rfl, fun _ _ _ => exec_regulatorSettled, fun _ _ _ _ _ => exec_regulatorSettled_far,
    fun _ _ _ => exec_regulatorFault, fun _ _ _ => exec_regulatorRetry_ends, fun _ _ _ => exec_regulatorRetry_reads,
    fun _ _ _ _ => exec_regulatorPoll, fun _ _ _ => State.groupSettled_leaves⟩

end Sys2Proof.Machine
end

section
/-! PROOFS of the family 'other': updates, their trials and flash writes, the start and READY (O46). -/

namespace Sys2Proof.Machine

section
variable {c : Caller} {p : Packet} {again : Bool} {t : State}

/-! ### The update commands -/

theorem fwUpdateRun_activates (ok : t.updateFault 1 p.data = none) :
    fwUpdateRun c p again t = .hold .trial [] 0 (t.activateTw (imageOf p.data) (p.int [.int 1] 0 == 1)) := by
  unfold fwUpdateRun
  rw [ok]

theorem owUpdateRun_activates (ok : t.updateFault 2 p.data = none) :
    owUpdateRun c p again t = .hold .owStart [] 0 (t.activateOw (imageOf p.data) (p.int [.int 1] 0 == 1)) := by
  unfold owUpdateRun
  rw [ok]

theorem mcUpdateRun_starts (ok : t.updateFault 3 p.data = none) (idle : t.renewal.bnActive = false) :
    mcUpdateRun c p again t = .done .done 0 [] 0 (t.startLoad (imageOf p.data)) := by
  unfold mcUpdateRun
  rw [ok]
  exact if_neg (by simp [idle])

end

section
variable {s : State}

/-! ### A trial, a channel's load and a firmware activation -/

theorem exec_fwTrialEnd (trial : s.renewal.twTrial = true) (up : s.worlds.tw.up = true) (late : s.renewal.trialSince + 10000 ≤ s.glob.uptimeMs) :
    ∃ t, exec .fwTrialEnd s = .next t ∧ t.renewal.twTrial = false ∧ t.worlds.tw.prevImage = none ∧ t.worlds.tw.image = s.worlds.tw.image ∧
      t.worlds.tw.up = true :=
  ⟨_, if_neg (by simp [trial, up, late]), rfl, rfl, rfl, up⟩

theorem exec_fwTrialEnd_early (early : s.glob.uptimeMs < s.renewal.trialSince + 10000) : exec .fwTrialEnd s = .next s :=
  if_pos (by simp [early])

theorem exec_mcChannelUpdateStep {ch : Nat} {image : Bytes} {i : Image} {l : List Nat} (oldOk : Bool) (up : s.worlds.tw.up = true) (known : ch < 36)
    (active : s.renewal.bnActive = true) (new : s.renewal.bnImage = some i) (next : s.renewal.bnLeft = ch :: l) (idle : (s.ch ch).pkRun = none)
    (updating : (s.ch ch).mcState = .updating) (written : Image.written i image = true) :
    exec (.mcChannelUpdateStep ch image true oldOk) s = .next (State.settle (State.nextLoad
      { ((s.modCh ch Channel.bnWiped).modCh ch (Channel.load i image)) with
          renewal := { s.renewal with bnDone := s.renewal.bnDone + 1, bnLeft := l } }) s) := by
  have command : exec (.mcChannelUpdateStep ch image true oldOk) s = execMcChannelUpdateStep ch image true oldOk s := rfl
  rw [command]
  unfold execMcChannelUpdateStep
  dsimp only
  rw [if_neg (by simp [up, known]), if_neg (by simp [active]), new, next]
  dsimp only
  rw [if_neg (by simp [idle, updating]), if_pos (by rw [written]; rfl)]

theorem innerClosed_keys (s : State) : InnerClosed fun t => t.keys = s.keys where
  hp _ _ := id
  cause _ _ := id
  er _ _ _ := id
  power _ _ := id
  md _ _ := id
  modCh _ _ _ := id
  modSlice _ _ _ := id
  modDist _ _ := id
  modRng _ _ := id

theorem State.beginLoad_keys (n : Nat) : (s.beginLoad n).keys = s.keys :=
  State.each_keeps _ State.keys State.withdraw (fun id t => (innerClosed_keys t).withdraw id rfl) _

theorem State.startLoad_keys (i : Image) : (s.startLoad i).keys = s.keys := by
  unfold State.startLoad State.nextLoad
  split
  · rw [State.beginLoad_keys]
  · rfl

/-- An answer given over MCTP. -/
def State.mctpAnswered (s : State) (st : Status) : State := { s with hp := { s.hp with mctpReply := some st } }

theorem State.mctpAnswered_keys (st : Status) : (s.mctpAnswered st).keys = s.keys := rfl

section
variable {b : Bytes} (ow : s.worlds.ow.up = true) (tw : s.worlds.tw.up = true)

include ow tw

theorem exec_pldmActivateFirmware_loads (kind : (imageOf b).kind = 3) (ok : s.updateFault 3 b = none) (idle : s.renewal.bnActive = false) :
    ∃ t, exec (.pldmActivateFirmware b) s = .next t ∧ t.hp.mctpReply = some .done ∧ t.keys = s.keys := by
  have command : exec (.pldmActivateFirmware b) s = execPldmActivateFirmware b s := rfl
  have bank : ¬ ((imageOf b).kind != 2 && (imageOf b).kind != 3) = true := by simp [kind]
  have good : s.updateFault (imageOf b).kind b = none := by rw [kind, ok]
  have keys : ((s.startLoad (imageOf b)).settle s).keys = s.keys := by rw [State.settle_keys, State.startLoad_keys]
  refine ⟨((s.startLoad (imageOf b)).settle s).mctpAnswered .done, ?_, rfl, (State.mctpAnswered_keys _).trans keys⟩
  rw [command, execPldmActivateFirmware, if_neg (by simp [ow, tw]), if_neg bank, good]
  exact (if_pos kind).trans (if_neg (by simp [idle]))

theorem exec_pldmActivateFirmware_refused {st : Status} (kind : (imageOf b).kind = 2 ∨ (imageOf b).kind = 3)
    (fault : s.updateFault (imageOf b).kind b = some st) :
    exec (.pldmActivateFirmware b) s = .next { s with hp := { s.hp with mctpReply := some st } } := by
  have command : exec (.pldmActivateFirmware b) s = execPldmActivateFirmware b s := rfl
  have known : ¬ ((imageOf b).kind != 2 && (imageOf b).kind != 3) = true := by rcases kind with h | h <;> simp [h]
  rw [command, execPldmActivateFirmware, if_neg (by simp [ow, tw]), if_neg known, fault]

end

/-! ### The write of an image to flash -/

theorem State.raiseFloors_third : s.raiseFloors 3 = s := by
  unfold State.raiseFloors
  exact (if_neg (by simp)).trans (if_neg (by simp))

/-- No write of an image takes a floor down (R580). -/
theorem State.raiseFloors_floors (kind : Nat) : s.renewal.twFloor ≤ (s.raiseFloors kind).renewal.twFloor ∧
    s.renewal.owFloor ≤ (s.raiseFloors kind).renewal.owFloor ∧ s.renewal.mcFuse ≤ (s.raiseFloors kind).renewal.mcFuse := by
  unfold State.raiseFloors
  dsimp only
  split
  · exact ⟨Nat.le_max_left .., Nat.le_refl _, Nat.le_max_left ..⟩
  · split
    · exact ⟨Nat.le_refl _, Nat.le_max_left .., Nat.le_refl _⟩
    · exact ⟨Nat.le_refl _, Nat.le_refl _, Nat.le_refl _⟩

section
variable {kind : Nat} (due : s.writeDue kind = true) (closed : s.gate.st ≠ .opened) (tw : s.worlds.tw.up = true)

include due closed tw

theorem exec_imageFlashWrite_fails : exec (.imageFlashWrite kind false) s = .next (s.beginWrite kind) :=
  (if_neg (by simp [due, closed, tw])).trans (if_pos rfl)

end

theorem exec_imageFlashWrite_bank (due : s.writeDue 3 = true) (closed : s.gate.st ≠ .opened) (tw : s.worlds.tw.up = true) :
    ∃ t, exec (.imageFlashWrite 3 true) s = .next t ∧ t.renewal.mcPending = false ∧ t.renewal.mcCopy = 1 - s.renewal.mcCopy := by
  have command : exec (.imageFlashWrite 3 true) s = execImageFlashWrite 3 true s := rfl
  rw [command, execImageFlashWrite, if_neg (by simp [due, closed, tw])]
  refine ⟨_, if_neg (by decide), ?_⟩
  rw [State.settle_renewal, State.raiseFloors_third]
  exact ⟨rfl, rfl⟩

theorem exec_imageFlashWrite_waits {kind : Nat} (ok : Bool) (held : s.gate.st = .opened ∨ s.writeDue kind = false) :
    exec (.imageFlashWrite kind ok) s = .next s :=
  if_pos (by rcases held with h | h <;> simp [h])

end

section
variable {s : State}

/-! ### The start -/

/-- The time, whether main power stands, and the kind of the start. -/
def State.clock (s : State) : Nat × Bool × Nat := (s.glob.uptimeMs, s.tamper.mainPower, s.renewal.kind)

theorem State.clock_of_era {t : State} (same : t.era = s.era) : t.clock = s.clock :=
  congrArg (fun x : Worlds × Renewal × Nat × Bool => (x.2.2.1, x.2.2.2, x.2.1.kind)) same

theorem State.time0_clock : s.time0.clock = (0, true, s.renewal.nextKind) := by
  unfold State.time0
  dsimp only
  split <;> rfl

theorem State.mergeTahr_era : s.mergeTahr.era = s.era := by
  have entry (t : State) (e : TahrEntry) : (t.mergeEntry e).era = t.era := by
    unfold State.mergeEntry
    dsimp only
    split
    · refine (innerClosed_era t).raiseCause 2 ?_
      split <;> rfl
    · split <;> rfl
  exact (foldl_keeps State.era (fun t e => State.mergeEntry e t) entry s.tamper.buf s :)

theorem State.readCell_era (present : Bool) (c : Nat) : (s.readCell present c).era = s.era := by
  unfold State.readCell
  dsimp only
  split
  · split <;> rfl
  · split
    · exact State.tamperRecord_era ..
    · split
      · exact State.tamperEvent_era ..
      · rfl

theorem State.checkRoot_era (ok : Bool) : (s.checkRoot ok).era = s.era := by
  unfold State.checkRoot
  split
  · rfl
  · exact State.record_era ..

theorem State.latched_era : s.latched.era = s.era := by
  unfold State.latched
  split
  · rfl
  · dsimp only
    split <;> rfl

theorem State.nextBank_era (b : Nat) : (s.nextBank b).era = s.era := by
  unfold State.nextBank
  split
  · rfl
  · split <;> rfl

theorem State.dropPending_clock : s.dropPending.clock = s.clock := by
  unfold State.dropPending
  dsimp only
  split
  · exact (State.clock_of_era (State.record_era ..)).trans rfl
  · rfl

theorem State.assign_clock (a : Nat × Bool × Nat) : (s.assign a).clock = s.clock := by
  unfold State.assign
  refine State.each_keeps _ State.clock _ (fun n u => ?_) _
  split <;> rfl

theorem State.startTw_clock (l : List (Image × Nat)) : (s.startTw l).clock = s.clock := by
  unfold State.startTw
  split <;> rfl

theorem State.takeMc_clock (l : List (Image × Nat)) : (s.takeMc l).clock = s.clock := by
  unfold State.takeMc
  split <;> rfl

theorem State.startOw_clock (l : List (Image × Nat)) : (s.startOw l).clock = s.clock := by
  unfold State.startOw
  split
  · exact (State.assign_clock _ :)
  · rfl

theorem State.startImages_clock (copies : List Bytes) : (s.startImages copies).clock = s.clock := by
  have booted (t : State) : (((t.lockTable.loadSik).startWatchdogs .tw).startWatchdogs .ow).clock = t.clock := rfl
  unfold State.startImages
  dsimp only
  split
  · rw [booted, State.startOw_clock, State.takeMc_clock, State.startTw_clock]
  · exact State.startTw_clock _

theorem State.gateTo_era (st : GateState) : (s.gateTo st).era = s.era := by
  unfold State.gateTo
  split
  · rfl
  · exact State.record_era ..

theorem State.startGate_clock (b : BootInfo) : (s.startGate b).clock = s.clock := by
  unfold State.startGate
  dsimp only
  split
  · exact State.clock_of_era (State.gateTo_era _)
  · rfl

theorem State.gateTo_straps (st : GateState) : (s.gateTo st).gate.twoFlash = s.gate.twoFlash ∧ (s.gateTo st).gate.espi = s.gate.espi := by
  unfold State.gateTo
  split
  · exact ⟨rfl, rfl⟩
  · rw [State.record_gate]
    exact ⟨rfl, rfl⟩

theorem State.startGate_straps (b : BootInfo) :
    (s.startGate b).gate.twoFlash = bit b.gateMode 0 ∧ (s.startGate b).gate.espi = bit b.gateMode 1 := by
  unfold State.startGate
  dsimp only
  split
  · exact State.gateTo_straps _
  · exact ⟨rfl, rfl⟩

theorem State.settle_uptimeMs (before : State) : (s.settle before).glob.uptimeMs = s.glob.uptimeMs := by
  have same := s.settle_era before
  simp only [State.era, Prod.mk.injEq] at same
  obtain ⟨-, -, time, -⟩ := same
  exact time

/-- The device as it starts, up to the read of its cells: time 0, the recorder, what Tahr kept. -/
def State.begun (s : State) (b : BootInfo) : State :=
  let s0 := s.time0
  let s1 : State := { s0 with er := s0.er.resume, tamper := { s0.tamper with vaultDown := !b.vaultLinkOk, merged := 0 } }
  (if b.vaultLinkOk then s1.mergeTahr else s1).writeStart

/-- The cells and the root read, the latch taken and the first bank started. -/
def State.sensed (s : State) (b : BootInfo) : State :=
  let s3 := ((s.readCell b.cellA 0).readCell b.cellB 1).checkRoot b.rootDigestOk
  (if b.vaultLinkOk then s3 else s3.tamperEvent 27 36).latched.nextBank 3

/-- The images taken from flash, and the boot gate begun. -/
def State.loaded (s : State) (b : BootInfo) : State := ((s.dropPending.readDirectory b.dir).startImages b.copies).startGate b

theorem State.begun_clock (b : BootInfo) : (s.begun b).clock = (0, true, s.renewal.nextKind) := by
  unfold State.begun
  refine (State.clock_of_era (State.record_era ..)).trans (Eq.trans ?_ s.time0_clock)
  split
  · exact State.clock_of_era State.mergeTahr_era
  · rfl

theorem State.sensed_era (b : BootInfo) : (s.sensed b).era = s.era := by
  unfold State.sensed
  dsimp only
  rw [State.nextBank_era, State.latched_era]
  split
  · rw [State.checkRoot_era, State.readCell_era, State.readCell_era]
  · rw [State.tamperEvent_era, State.checkRoot_era, State.readCell_era, State.readCell_era]

theorem State.loaded_clock (b : BootInfo) : (s.loaded b).clock = s.clock := by
  unfold State.loaded
  rw [State.startGate_clock, State.startImages_clock]
  exact State.dropPending_clock

theorem exec_mainSuppliesGood_eq (b : BootInfo) (awaits : s.awaitsSupplies = true) : exec (.mainSuppliesGood b) s =
    .next (State.settle { (((s.begun b).sensed b).loaded b).each (List.range 36) State.askTest with
      renewal := { (((s.begun b).sensed b).loaded b).renewal with initDone := true } } s) :=
  if_neg (by simp [awaits])

theorem exec_mainSuppliesGood (b : BootInfo) (awaits : s.awaitsSupplies = true) : ∃ t, exec (.mainSuppliesGood b) s = .next t ∧ t.glob.uptimeMs = 0 ∧
    t.tamper.mainPower = true ∧ t.renewal.initDone = true ∧ t.renewal.kind = s.renewal.nextKind ∧ t.gate.twoFlash = bit b.gateMode 0 ∧
    t.gate.espi = bit b.gateMode 1 := by
  let l := ((s.begun b).sensed b).loaded b
  have clock : l.clock = (0, true, s.renewal.nextKind) := by
    rw [State.loaded_clock, State.clock_of_era (State.sensed_era b), State.begun_clock]
  simp only [State.clock, Prod.mk.injEq] at clock
  obtain ⟨time, power, kind⟩ := clock
  have asked : (l.each (List.range 36) State.askTest).glob = l.glob := l.each_keeps State.glob State.askTest (fun _ _ => rfl) _
  have supplied : (l.each (List.range 36) State.askTest).tamper = l.tamper := l.each_keeps State.tamper State.askTest (fun _ _ => rfl) _
  have gate : (l.each (List.range 36) State.askTest).gate = l.gate := l.each_keeps State.gate State.askTest (fun _ _ => rfl) _
  obtain ⟨two, espi⟩ := State.startGate_straps (s := (((s.begun b).sensed b).dropPending.readDirectory b.dir).startImages b.copies) b
  refine ⟨_, exec_mainSuppliesGood_eq b awaits, ?_⟩
  rw [State.settle_uptimeMs, State.settle_tamper, State.settle_renewal, State.settle_gate]
  exact ⟨(congrArg Glob.uptimeMs asked).trans time, (congrArg Tamper.mainPower supplied).trans power, rfl, kind,
    (congrArg Gate.twoFlash gate).trans two, (congrArg Gate.espi gate).trans espi⟩

theorem exec_mainSuppliesGood_started (b : BootInfo) (started : s.renewal.kind ≠ 0) : exec (.mainSuppliesGood b) s = .next s :=
  if_pos (by simp [State.awaitsSupplies, started])

/-! ### READY -/

theorem innerClosed_log (s : State) : InnerClosed fun t => t.er.log = s.er.log where
  hp _ _ := id
  cause _ _ := id
  er _ _ noted h := noted.2.trans h
  power _ _ := id
  md _ _ := id
  modCh _ _ _ := id
  modSlice _ _ _ := id
  modDist _ _ := id
  modRng _ _ := id

/-- Whether the start runs, and whether the promise is made. -/
def State.phase (s : State) : Bool × Bool := (s.md.startup, s.md.promiseOn)

theorem State.refreshMode_phase (w : Nat) : (s.refreshMode w).phase = s.phase := by
  rw [State.refreshMode_eq]
  split
  · rfl
  · unfold State.phase
    rw [State.raiseCause_md, State.record_md] <;> rfl

theorem State.refreshPromise_phase : s.refreshPromise.phase = s.phase := by
  unfold State.refreshPromise
  dsimp only
  split
  · split
    · rfl
    · unfold State.phase
      rw [State.raiseCause_md, State.record_md]
  · rfl

theorem State.settle_phase (before : State) : (s.settle before).phase = s.phase := by
  have power (t : State) : t.refreshPower.phase = t.phase := by simp [State.phase]
  have partitions (t : State) : t.refreshPartitions.phase = t.phase := by simp [State.phase]
  unfold State.settle
  rw [power, State.refreshPromise_phase, State.refreshMode_phase, partitions]

theorem exec_ready (fresh : s.renewal.ready = false) (holds : s.readyHolds = true) : ∃ t, exec .ready s = .next t ∧ t.renewal.ready = true ∧
    t.md.startup = false ∧ t.md.promiseOn = true ∧ t.keys = s.keys ∧ t.er.log = s.er.log := by
  let u : State := { s with md := { s.md with startup := false, promiseOn := true },
                            renewal := { s.renewal with ready := true, readyMs := sat 16 s.glob.uptimeMs } }
  have phase := u.settle_phase s
  simp only [State.phase, Prod.mk.injEq] at phase
  obtain ⟨startup, promise⟩ := phase
  exact ⟨u.settle s, if_neg (by simp [fresh, holds]), congrArg Renewal.ready (u.settle_renewal s), startup, promise, u.settle_keys s,
    (innerClosed_log u).settle s rfl⟩

theorem exec_ready_waits (waits : s.readyHolds = false) : exec .ready s = .next s := if_pos (by simp [waits])

end

/-- Settles O46: the updates as they are accepted, the trial, the flash write, the start's own fields, and READY. -/
theorem renewalAndStartup : Obligations.RenewalAndStartup :=
  ⟨fun _ _ _ _ ready free ok => congrArg Host.Outcome.next (ready.command_running ((inTurn_free free false).trans (fwUpdateRun_activates ok))),
    fun _ _ _ _ ready free ok => congrArg Host.Outcome.next (ready.command_running ((inTurn_free free false).trans (owUpdateRun_activates ok))),
    fun _ _ _ _ ready ok idle => congrArg Host.Outcome.next (ready.command_answered (mcUpdateRun_starts ok idle)),
    fun _ => exec_fwTrialEnd, fun _ => exec_fwTrialEnd_early, fun _ _ ok _ _ _ => exec_mcChannelUpdateStep ok,
    fun _ _ => exec_pldmActivateFirmware_loads, fun _ _ _ ow tw => exec_pldmActivateFirmware_refused ow tw, fun _ => exec_imageFlashWrite_bank,
    fun _ _ => exec_imageFlashWrite_fails, fun _ ok _ => exec_imageFlashWrite_waits ok, fun kind _ => State.raiseFloors_floors kind,
    fun b _ => exec_mainSuppliesGood b, fun b _ => exec_mainSuppliesGood_started b, fun _ => exec_ready, fun _ => exec_ready_waits⟩

end Sys2Proof.Machine
end

section
/-! PROOFS of the family 'other': the bring-up of a fabric link, its session, and its frames and timers (O47, O48, O49). -/

namespace Sys2Proof.Machine

section
variable {p : Nat} {s : State}

/-! ### Bring-up -/

/-- A write of a port's own register reaches it. -/
theorem State.hostReg_port (f : State → State) (known : p < 20) (up : s.barsUp = true) (admitted : s.refusal 0 (0xB0000 + 0x40 * p) 4 true = none) :
    s.hostReg 0 (0xB0000 + 0x40 * p) f = f s := by
  have size : barSize 0 = 0x1000000 := rfl
  exact s.hostReg_admitted f up (by rw [size]; omega) admitted

section
variable (known : p < 20) (up : s.barsUp = true) (admitted : s.refusal 0 (0xB0000 + 0x40 * p) 4 true = none)

include known up admitted

theorem exec_en_on (off : (s.port p).en = false) : exec (.en p true) s = .next (s.modPort p fun x => { x with en := true, cause := 1 }) := by
  have command : exec (.en p true) s = execEn p true s := rfl
  rw [command, execEn, State.hostReg_port _ known up admitted]
  exact congrArg Host.Outcome.next ((if_neg (by simp [known, off])).trans (if_pos rfl))

theorem exec_en_off (on : (s.port p).en = true) :
    exec (.en p false) s = .next (((s.portDown p 0).modPort p fun x => { x with en := false }).settle s) := by
  have command : exec (.en p false) s = execEn p false s := rfl
  rw [command, execEn, State.hostReg_port _ known up admitted]
  exact congrArg Host.Outcome.next ((if_neg (by simp [known, on])).trans (if_neg (by decide)))

theorem exec_retrain_up (st : (s.port p).st = .up) : exec (.retrain p) s = .next ((s.retrain p).settle s) := by
  have command : exec (.retrain p) s = execRetrain p s := rfl
  rw [command, execRetrain, State.hostReg_port _ known up admitted, State.retrainWrite, st]

theorem exec_retrain_begun (st : (s.port p).st = .align ∨ (s.port p).st = .auth) : exec (.retrain p) s = .next (s.retrain p) := by
  have command : exec (.retrain p) s = execRetrain p s := rfl
  rw [command, execRetrain, State.hostReg_port _ known up admitted, State.retrainWrite]
  rcases st with st | st <;> rw [st]

end

theorem exec_fpSignalDetect (en : (s.port p).en = true) (down : (s.port p).st = .down) (role : s.broughtUp p = true) (awake : s.portAsleep p = false) :
    exec (.fpSignalDetect p) s = .next (s.modPort p fun x => { x with st := .train, cause := 0 }) :=
  if_pos (by simp [en, down, role, awake])

theorem exec_fpTrainComplete_trains (known : p < s.ports.length) (train : (s.port p).st = .train) (full : (s.port p).fullTrain = true)
    (width : (s.port p).maxWidth = 2) : ∃ t, exec (.fpTrainComplete p 0xF) s = .next t ∧ (t.port p).st = .align ∧ (t.port p).width = 3 ∧
      (t.port p).lanes = 0xF ∧ (t.port p).excluded = 0 ∧ (t.port p).cause = 0 ∧ (∀ i, i < 4 → 8 ≤ (t.port p).margin.getD i 0) := by
  have command : exec (.fpTrainComplete p 0xF) s = execFpTrainComplete p 0xF s := rfl
  have all : chooseLanes 2 0xF = (0xF, 3) := rfl
  have lanes (b : Bool) (c : BitVec 4) : (if (true || b) = true then (0xF : BitVec 4) else c) = 0xF := rfl
  rw [command]
  unfold execFpTrainComplete
  dsimp only
  rw [if_neg (by simp [train]), full, width, lanes, all]
  refine ⟨_, if_neg (by decide), ?_⟩
  rw [State.port_modPort (s.freeBytes 4).2 _ known]
  refine ⟨rfl, rfl, rfl, rfl, rfl, fun i lane => ?_⟩
  have trained : (0xF#4).getLsbD i = true := by
    obtain rfl | rfl | rfl | rfl : i = 0 ∨ i = 1 ∨ i = 2 ∨ i = 3 := by omega
    all_goals rfl
  simp [List.getD_eq_getElem?_getD, lane, trainedMargin, trained]

/-- With no lane the link goes DOWN (R505). -/
theorem chooseLanes_none (maxWidth : Nat) : chooseLanes maxWidth 0 = (0, 0) := by
  unfold chooseLanes
  rw [if_neg (by simp), if_neg (by simp), if_neg (by simp)]
  rfl

theorem exec_fpTrainComplete_fails (train : (s.port p).st = .train) : exec (.fpTrainComplete p 0) s = .next ((s.portDown p 1).settle s) := by
  have command : exec (.fpTrainComplete p 0) s = execFpTrainComplete p 0 s := rfl
  have lanes (b : Bool) (x : BitVec 4) : (if b then 0 else 0 &&& ~~~x) = (0 : BitVec 4) := by cases b <;> simp
  rw [command]
  unfold execFpTrainComplete
  dsimp only
  rw [if_neg (by simp [train]), lanes, chooseLanes_none]
  exact if_pos rfl

section
variable {i : PeerInit} (align : (s.port p).st = .align) (cause : (s.port p).cause ≠ 2) (crc : i.crcOk = true)

include align cause crc

theorem exec_linkInit_mismatch (pair : s.pairOk p i = false) : exec (.linkInit p i) s = .next ((s.modPort p fun x =>
    { x with peerDev := i.dev % 16384 }).modPort p fun x => { x with cause := 2, authSince := s.glob.uptimeMs }) :=
  (if_neg (by simp [align, cause, crc])).trans (if_pos (by simp [pair]))

theorem exec_linkInit_retains (pair : s.pairOk p i = true) (retain : s.retainable p i = true) :
    exec (.linkInit p i) s = .next ((((s.modPort p fun x => { x with peerDev := i.dev % 16384 }).modPort p fun x =>
      { x with peer := some i, txCredits := i.credits, rxCredits := [512, 1024, 8192, 512] }).portUp p).settle s) :=
  (if_neg (by simp [align, cause, crc])).trans ((if_neg (by simp [pair])).trans (if_pos retain))

theorem exec_linkInit_authenticates (pair : s.pairOk p i = true) (fresh : s.retainable p i = false) :
    exec (.linkInit p i) s = .next (((((s.modPort p fun x => { x with peerDev := i.dev % 16384 }).modPort p fun x =>
      { x with peer := some i, txCredits := i.credits, rxCredits := [512, 1024, 8192, 512] }).dropSession p).modPort p fun x =>
        { x with txCredits := i.credits }).toAuth p) :=
  (if_neg (by simp [align, cause, crc])).trans ((if_neg (by simp [pair])).trans (if_neg (by simp [fresh])))

end

theorem exec_fpInitRetry (align : (s.port p).st = .align) (cause : (s.port p).cause = 2) (late : (s.port p).authSince + 1000 ≤ s.glob.uptimeMs) :
    exec (.fpInitRetry p) s = .next (s.modPort p fun x => { x with cause := 0 }) :=
  if_pos (by simp [align, cause, late])

theorem exec_fabricWake (known : p < 20) (asleep : s.portAsleep p = true) (quiet : (s.dom (40 + p)).waking = none) :
    exec (.fabricWake p) s = .next (s.modDom (40 + p) fun d => { d with waking := some .fabric }) := by
  have sleeps : s.asleep (40 + p) = true := asleep
  exact congrArg Host.Outcome.next ((if_pos known).trans (if_pos (by simp [sleeps, quiet])))

end

/-- Settles O47: each step of a link's bring-up under its guards. -/
theorem fabricBringUp : Obligations.FabricBringUp :=
  ⟨fun _ _ known off up admitted => exec_en_on known up admitted off, fun _ _ known on up admitted => exec_en_off known up admitted on,
    fun _ _ => exec_fpSignalDetect, fun _ _ known st up admitted => exec_retrain_up known up admitted st,
    fun _ _ known st up admitted => exec_retrain_begun known up admitted st, fun _ _ => exec_fpTrainComplete_trains,
    fun _ _ => exec_fpTrainComplete_fails, fun _ _ _ => exec_linkInit_mismatch, fun _ _ _ => exec_linkInit_retains,
    fun _ _ _ => exec_linkInit_authenticates, fun _ _ => exec_fpInitRetry, fun _ _ => exec_fabricWake⟩

section
variable {p : Nat} {s : State}

/-! ### A session -/

section
variable {a : PeerAuth} (st : (s.port p).st = .auth) (cause : (s.port p).cause ≠ 3) (crc : a.crcOk = true) (up : s.worlds.tw.up = true)

include st cause crc up

theorem exec_auth_establishes (ok : s.authFault a = none) :
    exec (.auth p a) s = .next (((s.modPort p (Port.establish s.hier.device s.glob.uptimeMs a)).sessionUp p).settle s) := by
  have command : exec (.auth p a) s = execAuth p a s := rfl
  rw [command, execAuth, if_neg (by simp [st, cause, crc]), if_neg (by simp [up]), ok]

theorem exec_auth_fails {c : Nat} (fault : s.authFault a = some c) :
    exec (.auth p a) s = .next ((s.modPort p fun x => { x with cause := 3, authSince := s.glob.uptimeMs }).record 0xA4 (0x300 + p) 0
      (pack [(1, p), (2, (s.port p).peerDev), (1, c)])) := by
  have command : exec (.auth p a) s = execAuth p a s := rfl
  rw [command, execAuth, if_neg (by simp [st, cause, crc]), if_neg (by simp [up]), fault]

end

/-- The two keys of a session are one derivation's, the lower device's transmit key first (R511). -/
theorem Port.establish_keys (a : PeerAuth) (own now : Nat) (x : Port) (_ : own ≠ x.peerDev) : let y := Port.establish own now a x
    y.session = true ∧ y.txCtr = 0 ∧ y.rxCtr = 0 ∧ y.keyPhase = false ∧
    (own < x.peerDev → y.txKey ++ y.rxKey = kdf (authSecrets a own x.peerDev) "ZV1600 LINK" (leBytes 2 own ++ leBytes 2 x.peerDev ++ sha384 a.exchange) 64) ∧
    (x.peerDev < own → y.rxKey ++ y.txKey = kdf (authSecrets a own x.peerDev) "ZV1600 LINK" (leBytes 2 x.peerDev ++ leBytes 2 own ++ sha384 a.exchange) 64) := by
  refine ⟨rfl, rfl, rfl, rfl, fun lower => ?_, fun higher => ?_⟩
  · have low : Nat.min own x.peerDev = own := Nat.min_eq_left lower.le
    have high : Nat.max own x.peerDev = x.peerDev := Nat.max_eq_right lower.le
    unfold Port.establish
    dsimp only
    rw [low, high, if_pos (by simp [lower.le]), if_pos (by simp [lower.le]), List.take_append_drop]
  · have low : Nat.min own x.peerDev = x.peerDev := Nat.min_eq_right higher.le
    have high : Nat.max own x.peerDev = own := Nat.max_eq_left higher.le
    unfold Port.establish
    dsimp only
    rw [low, high, if_neg (by simp [higher]), if_neg (by simp [higher]), List.take_append_drop]

theorem exec_authRetry (st : (s.port p).st = .auth) (cause : (s.port p).cause = 3) (late : (s.port p).authSince + 1000 ≤ s.glob.uptimeMs) :
    exec (.authRetry p) s = .next (s.toAuth p) :=
  if_pos (by simp [st, cause, late])

theorem exec_keyUpdateDue (known : p < s.ports.length) (up : (s.port p).st = .up) (due : 2 ^ 32 ≤ (s.port p).txCtr) (live : (s.port p).txCtr < 2 ^ 34) :
    ∃ t, exec (.keyUpdateDue p) s = .next t ∧ (t.port p).txKey = nextKey (s.port p).txKey (!(s.port p).keyPhase) ∧ (t.port p).txCtr = 0 ∧
      (t.port p).rekeys = ((s.port p).rekeys + 1) % 2 ^ 32 ∧ (t.port p).rxKey = (s.port p).rxKey := by
  refine ⟨_, (if_neg (by simp [up])).trans ((if_neg (Nat.not_le.mpr live)).trans (if_pos (by simpa using Or.inl due))), ?_⟩
  rw [State.port_modPort _ _ known]
  exact ⟨rfl, rfl, rfl, rfl⟩

theorem exec_keyUpdate {f : Frame} {s1 : State} (up : (s.port p).st = .up) (taken : s.takeFrame p f true = (s1, true)) (stays : (s1.port p).st = .up) :
    exec (.keyUpdate p f) s = .next (s1.modPort p fun x =>
      { x with rxOldKey := x.rxKey, rxKey := nextKey x.rxKey (!x.rxPhase), rxPhase := !x.rxPhase, rxCtr := 0, rxAny := false }) := by
  have command : exec (.keyUpdate p f) s = execKeyUpdate p f s := rfl
  rw [command, execKeyUpdate, if_neg (by simp [up]), taken]
  exact if_neg (by simp [stays])

end

/-- Settles O48: authentication, the keys that it derives, and the two ends of a key update. -/
theorem fabricSession : Obligations.FabricSession :=
  ⟨fun _ _ _ => exec_auth_establishes, fun _ _ _ _ st cause crc up => exec_auth_fails st cause crc up, Port.establish_keys,
    fun _ _ => exec_authRetry, fun _ _ => exec_keyUpdateDue, fun _ _ _ _ => exec_keyUpdate⟩

section
variable {p : Nat} {f : Frame} {s : State}

/-! ### Frames -/

theorem State.takeFrame_tagFailed (ctl : Bool) (bad : f.tagOk = false) : s.takeFrame p f ctl = (s.tagFailed p, false) := if_pos (by simp [bad])

theorem State.takeFrame_taken {ctl : Bool} (tag : f.tagOk = true) (phase : (s.port p).phaseOk f = true) (plain : f.reserved = false) (len : f.len ≤ 128)
    (empty : ctl = true → f.len = 0) (positive : f.nak = false) :
    s.takeFrame p f ctl = ((s.modPort p (Port.counted f)).modPort p fun x => (x.acknowledged f).pump, true) := by
  have formed : ¬ (f.reserved || decide (128 < f.len) || (ctl && f.len != 0)) = true := by
    simpa [plain, len] using empty
  have header (u : State) : u.frameHeader p f = u.modPort p fun x => (x.acknowledged f).pump := if_neg (by simp [positive])
  unfold State.takeFrame
  refine (if_neg (by simp [tag, phase])).trans ((if_neg formed).trans ?_)
  rw [header]

section
variable {s1 : State} (up : (s.port p).st = .up)

include up

section
variable (taken : s.takeFrame p f false = (s1, true)) (stays : (s1.port p).st = .up)

include taken stays

/-- A data frame taken while UP goes by how far ahead of its turn it is (R516). -/
theorem exec_data_taken : exec (.data p f) s =
    if (f.seq % 65536 + 65536 - (s1.port p).rxSeq) % 65536 != 0 then
      if decide ((f.seq % 65536 + 65536 - (s1.port p).rxSeq) % 65536 < 32768) && !(s1.port p).gap then
        .next (s1.modPort p fun x => ({ x with gap := true, naks := x.naks + 1 } : Port).sentCtl 1)
      else .next s1
    else if (s1.port p).rxCredits.getD f.vc 0 < frameCredits f.len then .next (((s1.malformedFrame p).retrain p).settle s)
    else .next ((f.units.foldl (fun t h => t.takeUnitIn p f.vc h) ((s1.modPort p fun x =>
      { x with gap := false, rxSeq := (x.rxSeq + 1) % 65536, rxCredits := x.rxCredits.modify f.vc fun c => c - frameCredits f.len }).portWork
        p)).modPort p (Port.freeVc f.vc)) := by
  have command : exec (.data p f) s = execData p f s := rfl
  rw [command, execData, if_neg (by simp [up]), taken]
  exact if_neg (by simp [stays])

theorem exec_data_inOrder (_ : f.seq < 65536) (turn : f.seq = (s1.port p).rxSeq) (credits : frameCredits f.len ≤ (s1.port p).rxCredits.getD f.vc 0) :
    let s2 := s1.modPort p fun x =>
      { x with gap := false, rxSeq := (x.rxSeq + 1) % 65536, rxCredits := x.rxCredits.modify f.vc fun c => c - frameCredits f.len }
    exec (.data p f) s = .next ((f.units.foldl (fun t h => t.takeUnitIn p f.vc h) (s2.portWork p)).modPort p (Port.freeVc f.vc)) := by
  have none : (f.seq % 65536 + 65536 - (s1.port p).rxSeq) % 65536 = 0 := by omega
  dsimp only
  rw [exec_data_taken up taken stays, none, if_neg (by decide), if_neg (Nat.not_lt.mpr credits)]

theorem exec_data_ahead (ahead : (s1.port p).rxSeq < f.seq) (near : f.seq < 32768) : exec (.data p f) s =
    .next (if (s1.port p).gap = true then s1 else s1.modPort p fun x => ({ x with gap := true, naks := x.naks + 1 } : Port).sentCtl 1) := by
  have distance : (f.seq % 65536 + 65536 - (s1.port p).rxSeq) % 65536 = f.seq - (s1.port p).rxSeq := by omega
  have some_ : (f.seq - (s1.port p).rxSeq != 0) = true := by simp; omega
  have window : decide (f.seq - (s1.port p).rxSeq < 32768) = true := by simp; omega
  rw [exec_data_taken up taken stays, distance, if_pos some_, window]
  cases (s1.port p).gap <;> rfl

end

theorem exec_data_refused (refused : s.takeFrame p f false = (s1, false)) : exec (.data p f) s = .next (s1.settle s) := by
  have command : exec (.data p f) s = execData p f s := rfl
  rw [command, execData, if_neg (by simp [up]), refused]
  exact if_pos (by simp)

theorem exec_ctrl (taken : s.takeFrame p f true = (s1, true)) (stays : (s1.port p).st = .up) (plain : f.pwr = none) :
    exec (.ctrl p f) s = .next s1 := by
  have command : exec (.ctrl p f) s = execCtrl p f s := rfl
  rw [command, execCtrl, if_neg (by simp [up]), taken]
  dsimp only
  rw [if_neg (by simp [stays]), plain]
  rfl

/-! ### Timers and limits -/

theorem exec_retryTimeout : exec (.retryTimeout p) s = .next ((s.resend p).settle s) := if_neg (by simp [up])

theorem exec_nakTimer (gap : (s.port p).gap = true) :
    exec (.nakTimer p) s = .next (s.modPort p fun x => ({ x with naks := x.naks + 1 } : Port).sentCtl 1) :=
  if_pos (by simp [up, gap])

theorem exec_ackTimer (any : (s.port p).rxAny = true) :
    exec (.ackTimer p) s = .next (s.modPort p fun x => ({ x with acks := x.acks + 1, rxOldKey := [] } : Port).sentCtl 1) :=
  if_pos (by simp [up, any])

theorem exec_laneMarginFail {lane : Nat} (used : (s.port p).lanes.getLsbD lane = true) : exec (.laneMarginFail p lane) s =
    .next (((s.modPort p fun x => { x with margin := x.margin.set lane 0 }).retrain p).settle s) :=
  if_pos (by rw [up, used]; rfl)

theorem exec_fecUncorrectableLimit : exec (.fecUncorrectableLimit p) s =
    .next (((s.modPort p fun x => { x with fecUncorr := sat 32 (x.fecUncorr + 16), gap := true }).retrain p).settle s) :=
  if_pos (by simp [up])

end
end

section
variable {p : Nat} {s : State}

/-! ### What a retraining keeps -/

/-- A port that is not UP has nothing put on it. -/
theorem State.sendUnit_port {q : Nat} (u : UnitOut) (down : (s.port p).st ≠ .up) : (s.sendUnit q u).port p = s.port p := by
  unfold State.sendUnit
  dsimp only
  split
  · rfl
  · next sends =>
    have other : q ≠ p := by
      rintro rfl
      simp [down] at sends
    have queued := s.port_modPort_ne (fun x => { x with txq := x.txq ++ u.frames }) other
    split
    · unfold State.startWake
      split
      · exact queued
      · exact queued
    · exact ((State.portWork q _).port_modPort_ne Port.pump other).trans queued

theorem State.refreshLevel_ports : s.refreshLevel.ports = s.ports := by
  have fab (t : State) (st cause : Nat) : (t.setFab st cause).ports = t.ports := by
    unfold State.setFab
    split
    · rfl
    · exact State.record_ports ..
  unfold State.refreshLevel
  dsimp only
  split
  · rfl
  · split
    · exact fab _ _ _
    · split
      · exact fab _ _ _
      · rfl

theorem State.port_congr {t : State} (same : t.ports = s.ports) (q : Nat) : t.port q = s.port q := by
  unfold State.port
  rw [same]

/-- The routes of a port withdrawn change nothing else of a port that is not UP. -/
theorem State.withdrawRoutes_port (known : p < s.ports.length) (down : (s.port p).st ≠ .up) :
    (s.withdrawRoutes p).port p = { s.port p with reach := [], peerRole := 0, peerLevel := 7 } := by
  have cleared := s.port_modPort (fun x => { x with reach := [], peerRole := 0, peerLevel := 7 }) known
  unfold State.withdrawRoutes
  dsimp only
  rw [State.port_congr State.refreshLevel_ports]
  split
  · refine State.each_closed (P := fun t => t.port p = { s.port p with reach := [], peerRole := 0, peerLevel := 7 }) (fun q t same => ?_) _ cleared
    rw [State.sendUnit_port _ (by rw [same]; exact down), same]
  · exact cleared

theorem State.leaveUp_port (known : p < s.ports.length) (up : (s.port p).st = .up) : (s.leaveUp p .train).port p =
    { s.port p with st := .train, linkDowns := sat 16 ((s.port p).linkDowns + 1), downSince := s.glob.uptimeMs, agreed := none,
                    reach := [], peerRole := 0, peerLevel := 7 } := by
  have left := s.port_modPort (fun x =>
    { x with st := .train, linkDowns := sat 16 (x.linkDowns + 1), downSince := s.glob.uptimeMs, agreed := none }) known
  unfold State.leaveUp
  rw [if_pos up, State.withdrawRoutes_port (by simpa using known) (by rw [left]; exact nofun), left]

theorem workClosed_portCount (s : State) : WorkClosed fun t => t.ports.length = s.ports.length where
  record t _ _ _ _ h := (congrArg List.length (t.record_ports ..)).trans h
  hpError t _ _ _ _ _ _ _ h := (congrArg List.length (t.hpError_ports ..)).trans h
  modPort _ _ _ h := (List.length_modify ..).trans h
  modHier _ _ := id
  modDist _ _ := id
  modDom _ _ _ := id
  modRing _ _ _ _ := id

theorem State.retrain_keeps (known : p < s.ports.length) (up : (s.port p).st = .up) : ((s.retrain p).port p).st = .train ∧
    ((s.retrain p).port p).session = (s.port p).session ∧ ((s.retrain p).port p).txKey = (s.port p).txKey ∧
    ((s.retrain p).port p).replay = (s.port p).replay := by
  have stands : p < (s.leaveUp p .train).ports.length := by
    rw [(workClosed_portCount s).leaveUp p .train rfl]
    exact known
  unfold State.retrain
  rw [State.port_modPort _ _ stands, State.leaveUp_port known up]
  exact ⟨rfl, rfl, rfl, rfl⟩

end

/-- Settles O49: what a frame received comes to, the timers, and what a retraining keeps. -/
theorem fabricFramesAndTimers : Obligations.FabricFramesAndTimers :=
  ⟨fun _ _ ctl _ => State.takeFrame_tagFailed ctl, fun _ _ _ _ => State.takeFrame_taken, fun _ _ _ _ => exec_data_inOrder,
    fun _ _ _ _ => exec_data_ahead, fun _ _ _ _ => exec_data_refused, fun _ _ _ _ => exec_ctrl, fun _ _ => exec_retryTimeout, fun _ _ => exec_nakTimer,
    fun _ _ => exec_ackTimer, fun _ _ _ up => exec_laneMarginFail up, fun _ _ => exec_fecUncorrectableLimit, fun _ _ => State.retrain_keeps⟩

end Sys2Proof.Machine
end

section
/-! PROOFS of the family 'other': neighbours, the Lead and its vote (O50), and the domain's changes and records (O51). -/

namespace Sys2Proof.Machine

section
variable {s : State}

/-! ### What replies and units leave of the hierarchy -/

theorem State.notify_hier (m : Nat) : (s.notify m).hier = s.hier := by
  unfold State.notify
  dsimp only
  split
  · rfl
  · split <;> simp

theorem State.deliverReply_hier (c : Caller) (hdr body : Bytes) (st : Status) : (s.deliverReply c hdr body st).hier = s.hier := by
  cases c with
  | mbx m => exact State.notify_hier m
  | gate g =>
    unfold State.deliverReply
    dsimp only
    split <;> simp
  | card p => rfl

theorem State.reply_hier (c : Caller) (log : RecKind) (p : Packet) (st : Status) (detail obj part count : Nat) (body : Bytes) :
    (s.reply c log p st detail obj part count body).hier = s.hier := by
  have recorded : (if log == .command then s.recordCommand (s.sourceOf c) p st obj else s).hier = s.hier := by
    split
    · unfold State.recordCommand
      exact State.record_hier ..
    · rfl
  have unbound (t : State) : { t with dual := { t.dual with chal := { t.dual.chal with boundTo := none } } }.hier = t.hier := rfl
  unfold State.reply
  dsimp only
  rw [apply_ite State.hier, unbound, ite_self, State.deliverReply_hier, recorded]

theorem State.abortChanges_hier : s.abortChanges.hier = s.hier :=
  foldl_keeps State.hier (fun t (j : Job) => t.endJob j .aborted 7 []) (fun _ _ => State.reply_hier ..) _ _

/-- A Lead that stands down keeps its term. -/
theorem State.stepDown_leaves : s.stepDown.hier.activeLead = false ∧ s.stepDown.hier.term = s.hier.term := by
  unfold State.stepDown
  split
  · rw [State.abortChanges_hier, State.recordLead, State.record_hier]
    exact ⟨rfl, rfl⟩
  · next follows => exact ⟨by simpa using follows, rfl⟩

theorem State.sendUnit_hier (q : Nat) (u : UnitOut) : (s.sendUnit q u).hier = s.hier := by
  unfold State.sendUnit
  dsimp only
  split
  · rfl
  · split
    · exact State.startWake_hier ..
    · rfl

theorem State.sendAll_hier (ps : List Nat) (u : UnitOut) : (s.sendAll ps u).hier = s.hier :=
  s.each_keeps State.hier (fun p t => t.sendUnit p u) (fun _ _ => State.sendUnit_hier ..) ps

end

section
variable {p : Nat} {s s1 : State}

/-! ### Neighbours -/

section
variable {role dev term ap level : Nat} {dom ident : Bytes} {holder : Bool} (unit : s.takeUnit p 0x01 = some s1) (active : s1.hier.role ≠ 0)
  (same : dom = s1.hier.domainId)

include unit active same

theorem exec_hello_duplicate (own : dev = s1.hier.device) (other : ident ≠ s1.identityDigest) :
    exec (.hello p role dev dom ident term ap level holder) s = .next (s1.duplicate p) := by
  have command : exec (.hello p role dev dom ident term ap level holder) s = execHello p role dev dom ident term ap level holder s := rfl
  rw [command, execHello, unit]
  dsimp only
  rw [if_neg (by simp [active, same]), if_pos own, if_pos (by simpa using other)]

theorem exec_hello_neighbour (other : dev ≠ s1.hier.device) (follows : s1.hier.activeLead = false) :
    exec (.hello p role dev dom ident term ap level holder) s =
      .next ((((((s1.modHier fun h => { h with identities := assocSet h.identities dev ident }).modPort p fun x =>
        { x with peerRole := role, peerDev := dev, peerLevel := if portKind p = 1 then level else x.peerLevel,
                 reach := if portKind p = 0 then x.reach else [(dev, holder)] }).formation role dev term).seeTerm term).refreshLevel)) := by
  have command : exec (.hello p role dev dom ident term ap level holder) s = execHello p role dev dom ident term ap level holder s := rfl
  rw [command, execHello, unit]
  dsimp only
  rw [if_neg (by simp [active, same]), if_neg other, if_neg (by simp [follows])]

end

theorem exec_route {added : List (Nat × Bool)} (unit : s.takeUnit p 0x02 = some s1) (down : portKind p = 0) : exec (.route p added []) s =
    .next (((s1.modPort p fun x => { x with reach := x.reach.filter (fun e => !(added.any fun a => a.1 == e.1)) ++ added }).sendAll upPortList
      (.route added [])).pathsLost) := by
  have command : exec (.route p added []) s = execRoute p added [] s := rfl
  rw [command, execRoute, unit]
  exact if_neg (by simp [down])

/-! ### The Lead -/

section
variable {term lead serial : Nat} (unit : s.takeUnit p 0x03 = some s1)

include unit

theorem exec_beat_taken (role : s1.hier.role = 1) (level : s1.hier.level ≠ 1) (same : term = s1.hier.term) (follows : s1.hier.activeLead = false) :
    exec (.beat p term lead serial) s = .next (s1.takeBeat term lead serial).catchUp.forwardRecords := by
  have command : exec (.beat p term lead serial) s = execBeat p term lead serial s := rfl
  have stands : (if s1.hier.term < term then s1.stepDown else s1) = s1 := if_neg (by omega)
  have single : ¬ 2 ≤ (s1.takeBeat term lead serial).hier.role := by
    have kept : (s1.takeBeat term lead serial).hier.role = s1.hier.role := rfl
    omega
  have inner (b : Bool) : ¬ (decide ((s1.takeBeat term lead serial).hier.level = 1) && b) = true := by
    have kept : (s1.takeBeat term lead serial).hier.level = s1.hier.level := rfl
    simp [kept, level]
  rw [command, execBeat, unit]
  dsimp only
  rw [if_neg (by omega), if_neg (by simp [follows, same]), stands, if_neg single, if_neg (inner _)]

theorem exec_beat_stale (active : s1.hier.role ≠ 0) (stale : term < s1.hier.term) :
    exec (.beat p term lead serial) s = .next (s1.modHier fun h => { h with lastAnyBeat := s1.glob.uptimeMs }) := by
  have command : exec (.beat p term lead serial) s = execBeat p term lead serial s := rfl
  rw [command, execBeat, unit]
  exact (if_neg active).trans (if_pos (by simp [stale]))

end

theorem exec_beatAck {dev : Nat} (unit : s.takeUnit p 0x04 = some s1) (leads : s1.hier.activeLead = true) (near : s1.hier.level1.contains dev = true) :
    exec (.beatAck p dev s1.hier.term) s = .next (s1.modHier fun h => { h with beatAcks := assocSet h.beatAcks dev s1.glob.uptimeMs }) := by
  have command : exec (.beatAck p dev s1.hier.term) s = execBeatAck p dev s1.hier.term s := rfl
  rw [command, execBeatAck, unit]
  exact if_pos (by rw [leads, near, beq_self_eq_true]; rfl)

theorem exec_beatTimer (leads : s.hier.activeLead = true) (due : s.hier.beatSent + 50 ≤ s.glob.uptimeMs) : exec .beatTimer s = .next s.sendBeat :=
  if_pos (by simp [leads, due])

theorem exec_leaseExpire (leads : s.hier.activeLead = true) (few : s.leaseAcks < s.hier.majority) :
    ∃ t, exec .leaseExpire s = .next t ∧ t.hier.activeLead = false ∧ t.hier.term = s.hier.term :=
  ⟨s.stepDown, if_pos (by simp [leads, few]), State.stepDown_leaves⟩

theorem exec_leaseExpire_held (enough : s.hier.majority ≤ s.leaseAcks) : exec .leaseExpire s = .next s := if_neg (by simp [enough])

/-! ### The vote -/

theorem exec_voteTimeout (role : s.hier.role = 3) (follows : s.hier.activeLead = false) (late : s.hier.lastBeat + 400 ≤ s.glob.uptimeMs) :
    let n := (s.hier.candidate.getD s.hier.term) + 1
    exec .voteTimeout s = .next ((s.modHier fun h =>
      { h with candidate := some n, votes := [], votePending := none, lastBeat := s.glob.uptimeMs }).sendAll (s.upOf downPorts) (.voteReq n s.hier.applied)) :=
  if_pos (by simp [role, follows, late])

section
variable {term ap : Nat} (unit : s.takeUnit p 0x05 = some s1)

include unit

/-- A vote is given where the device may vote (R531). -/
theorem exec_voteReq_eq : exec (.voteReq p term ap) s =
    if decide (s1.hier.level = 1) && s1.hier.role != 3 && decide (s1.hier.lastBeat + 300 ≤ s1.glob.uptimeMs) && !s1.hier.votedTerms.contains term &&
        decide (s1.hier.term < term) then
      .next ((s1.modHier fun h => { h with votedTerms := term :: h.votedTerms }).sendUnit p (.vote term (highest s1.hier.pendings)))
    else .next s1 := by
  have command : exec (.voteReq p term ap) s = execVoteReq p term ap s := rfl
  rw [command, execVoteReq, unit]

theorem exec_voteReq_votes (level : s1.hier.level = 1) (role : s1.hier.role ≠ 3) (late : s1.hier.lastBeat + 300 ≤ s1.glob.uptimeMs)
    (first : s1.hier.votedTerms.contains term = false) (newer : s1.hier.term < term) : exec (.voteReq p term ap) s =
      .next ((s1.modHier fun h => { h with votedTerms := term :: h.votedTerms }).sendUnit p (.vote term (highest s1.hier.pendings))) := by
  rw [exec_voteReq_eq unit, first, if_pos (by simp [level, role, late, newer])]

theorem exec_voteReq_refuses (none : s1.hier.votedTerms.contains term = true ∨ term ≤ s1.hier.term) : exec (.voteReq p term ap) s = .next s1 := by
  rw [exec_voteReq_eq unit]
  rcases none with h | h
  · rw [h, if_neg (by simp)]
  · rw [if_neg (by simp [Nat.not_lt.mpr h])]

end

theorem exec_vote_elects {dev term : Nat} {pd : Option Change} (unit : s.takeUnit p 0x06 = some s1) (role : s1.hier.role = 3)
    (stands : s1.hier.candidate = some term) (near : s1.hier.level1.contains dev = true) (fresh : s1.hier.votes.contains dev = false)
    (enough : s1.hier.majority ≤ s1.hier.votes.length + 1) : exec (.vote p dev term pd) s =
      .next ((s1.modHier fun h => { h with votes := s1.hier.votes ++ [dev], votePending := highest (h.votePending.toList ++ pd.toList) }).becomeActive
        term (s1.hier.votes.length + 1)) := by
  have command : exec (.vote p dev term pd) s = execVote p dev term pd s := rfl
  have votes : (if s1.hier.votes.contains dev then s1.hier.votes else s1.hier.votes ++ [dev]) = s1.hier.votes ++ [dev] := if_neg (by rw [fresh]; decide)
  have counted : (s1.hier.votes ++ [dev]).length = s1.hier.votes.length + 1 := by simp
  rw [command, execVote, unit]
  dsimp only
  rw [if_pos (by rw [near]; simp [role, stands]), votes, counted]
  exact congrArg Host.Outcome.next (if_pos enough)

theorem exec_partitionTimeout (active : s.hier.role ≠ 0) (follows : s.hier.activeLead = false) (formed : s.hier.state ≠ 1)
    (late : s.hier.lastAnyBeat + 1000 ≤ s.glob.uptimeMs) : exec .partitionTimeout s = .next (s.setFab 4 0) :=
  if_pos (by simp [active, follows, formed, late])

end

/-- Settles O50: each unit and timer under its guards; a Lead that loses its lease keeps its term. -/
theorem hierarchyLeadCommands : Obligations.HierarchyLeadCommands :=
  ⟨fun _ _ _ _ _ _ _ _ _ _ _ => exec_hello_duplicate, fun _ _ _ _ _ _ _ _ _ _ _ => exec_hello_neighbour, fun _ _ _ _ => exec_route,
    fun _ _ _ _ _ _ => exec_beat_taken, fun _ _ _ _ _ _ => exec_beat_stale, fun _ _ _ _ => exec_beatAck, fun _ => exec_beatTimer,
    fun _ => exec_leaseExpire, fun _ => exec_leaseExpire_held, fun _ => exec_voteTimeout, fun _ _ _ _ _ => exec_voteReq_votes,
    fun _ _ _ _ _ => exec_voteReq_refuses, fun _ _ _ _ _ _ => exec_vote_elects, fun _ => exec_partitionTimeout⟩

section
variable {p : Nat} {s s1 : State}

/-! ### Changes of the domain -/

section
variable {c : Change} (unit : s.takeUnit p 0x10 = some s1) (active : s1.hier.role ≠ 0) (follows : s1.hier.activeLead = false)
  (term : s1.hier.term ≤ c.term)

include unit active follows term

/-- A change of a term that is not stale, by its form and its serial (R532). -/
theorem exec_change_eq : let s2 := s1.modHier fun h => { h with term := Nat.max h.term c.term }
    exec (.change p c) s = if c.committed then (if s1.hier.applied + 1 < c.serial then .next s2.askSync else .next (s2.applyNext c))
      else if s1.hier.level = 1 || s1.hier.role = 3 then
        (if decide (c.serial ≤ s1.hier.applied) || s2.heldByAlarm c then .next s2
         else .next ((s2.modHier fun h => { h with pendings := upsert (·.serial) c h.pendings }).sendTo s2.hier.leadDev
           (.changeAck c.serial [s2.hier.device])))
      else .next s2 := by
  have command : exec (.change p c) s = execChange p c s := rfl
  rw [command, execChange, unit]
  exact if_neg (by simp [active, follows, term])

theorem exec_change : let s2 := s1.modHier fun h => { h with term := Nat.max h.term c.term }
    (c.committed = true → c.serial ≤ s1.hier.applied + 1 → exec (.change p c) s = .next (s2.applyNext c)) ∧
    (c.committed = true → s1.hier.applied + 1 < c.serial → exec (.change p c) s = .next s2.askSync) ∧
    (c.committed = false → s1.hier.level = 1 ∨ s1.hier.role = 3 → s1.hier.applied < c.serial → s2.heldByAlarm c = false →
      exec (.change p c) s = .next ((s2.modHier fun h => { h with pendings := upsert (·.serial) c h.pendings }).sendTo s2.hier.leadDev
        (.changeAck c.serial [s2.hier.device]))) := by
  intro s2
  refine ⟨fun done next => ?_, fun done ahead => ?_, fun proposed near new free => ?_⟩
  · exact (exec_change_eq unit active follows term).trans ((if_pos done).trans (if_neg (Nat.not_lt.mpr next)))
  · exact (exec_change_eq unit active follows term).trans ((if_pos done).trans (if_pos ahead))
  · exact (exec_change_eq unit active follows term).trans ((if_neg (by simp [proposed])).trans
      ((if_pos (by simpa using near)).trans (if_neg (by rw [free]; simpa using new))))

end

theorem State.applyNext_outOfTurn {c : Change} (other : c.serial ≠ s.hier.applied + 1) : s.applyNext c = s := if_neg (by simp [other])

theorem exec_commit {term serial : Nat} {c : Change} (unit : s.takeUnit p 0x11 = some s1) (role : s1.hier.role = 1 ∨ s1.hier.role = 2)
    (follows : s1.hier.activeLead = false) (live : s1.hier.term ≤ term) (next : serial = s1.hier.applied + 1)
    (held : s1.hier.pendings.find? (fun c => c.serial == serial && c.term == term) = some c) :
    exec (.commit p term serial) s = .next (s1.applyNext c) := by
  have command : exec (.commit p term serial) s = execCommit p term serial s := rfl
  have takes : ¬ (decide (s1.hier.role = 0) || s1.hier.activeLead || decide (term < s1.hier.term) || decide (serial ≤ s1.hier.applied)) = true := by
    rcases role with h | h <;> simp [h, follows, live, next]
  rw [command, execCommit, unit]
  dsimp only
  rw [if_neg takes, held]
  exact (if_neg (by omega)).trans (if_neg (by omega))

theorem exec_changeAck {serial : Nat} {devs : List Nat} (unit : s.takeUnit p 0x12 = some s1) (leads : s1.hier.activeLead = true) :
    let old := s1.hier.acksOf serial
    let s2 := s1.modHier fun h => { h with acks := assocSet h.acks serial (old ++ devs.filter fun d => !old.contains d) }
    exec (.changeAck p serial devs) s = .next ((s2.commitReady s2.hier.pendings.length).settle s) := by
  have command : exec (.changeAck p serial devs) s = execChangeAck p serial devs s := rfl
  rw [command, execChangeAck, unit]
  exact if_neg (by simp [leads])

theorem exec_dkActivateIssue {at_ v : Nat} {dk : Bytes} (staged : s.hier.stageAt = some at_) (key : s.keys.staged = some (v, dk))
    (leads : s.hier.activeLead = true) (none : s.hier.pendings = []) (late : 1000 * s.hier.stageWaitS ≤ s.glob.uptimeMs - at_) :
    exec .dkActivateIssue s = .next (s.issueChange (.dkActivate v)) := by
  have command : exec .dkActivateIssue s = execDkActivateIssue s := rfl
  rw [command, execDkActivateIssue, staged, key]
  exact if_pos (by simp [leads, none, late])

theorem exec_syncReq {src serial : Nat} (unit : s.takeUnit p 0x13 = some s1) (leads : s1.hier.activeLead = true)
    (kept : ((s1.hier.log.head?.map (·.serial)).getD (s1.hier.applied + 1)) ≤ serial + 1) : exec (.syncReq p src serial) s =
      .next (s1.sendTo src (.sync src (.changes (s1.hier.log.filter fun c => serial < c.serial)))) := by
  have command : exec (.syncReq p src serial) s = execSyncReq p src serial s := rfl
  rw [command, execSyncReq, unit]
  dsimp only
  rw [if_neg (by simp [leads]), if_pos kept]

theorem exec_sync {cs : List Change} (unit : s.takeUnit p 0x14 = some s1) (active : s1.hier.role ≠ 0) (follows : s1.hier.activeLead = false)
    (quiet : s1.tamper.latch ≠ 3) :
    let s2 := cs.foldl (fun t (c : Change) => if c.serial ≤ s1.hier.applied then t.refill s1.keys.keys c else t.applyNext c) s1
    exec (.sync p (.changes cs)) s = .next ((s2.synced s1.hier.applied false).settle s) := by
  have command : exec (.sync p (.changes cs)) s = execSync p (.changes cs) s := rfl
  rw [command, execSync, unit]
  exact if_neg (by simp [active, follows, quiet])

/-- A change issued takes the next serial and stands as the last one pending (R532). -/
theorem State.issueChange_issues (k : ChangeKind) : let t := s.issueChange k
    t.hier.nextSerial = s.hier.nextSerial + 1 ∧
    t.hier.pendings = s.hier.pendings ++ [{ term := s.hier.term, serial := s.hier.nextSerial, kind := k, committed := false }] := by
  unfold State.issueChange
  dsimp only
  rw [State.sendAll_hier]
  exact ⟨rfl, rfl⟩

/-! ### Records carried upward -/

section
variable {src : Nat} {r : Bytes} (unit : s.takeUnit p 0x30 = some s1) (leads : s1.hier.activeLead = true)

include unit leads

theorem exec_record_aggregates (room : s1.hier.aggFull = false) : let a := (State.aggregate src (s1, none) r).1
    exec (.record p src [r]) s = .next (if a.hier.aggFull then a.modHier fun h => { h with aggHeldAcks := assocSet h.aggHeldAcks src (fieldLe r 0 8) }
      else a.sendTo src (.recordAck src (fieldLe r 0 8))) := by
  intro a
  have command : exec (.record p src [r]) s = execRecord p src [r] s := rfl
  have taken : State.aggregate src (s1, none) r = (a, some (fieldLe r 0 8)) := Prod.ext rfl (by
    unfold State.aggregate
    dsimp only
    rw [if_neg (by simp [room])])
  rw [command, execRecord, unit]
  dsimp only
  rw [if_neg (by simp [leads]), List.foldl_cons, List.foldl_nil, taken]
  exact (apply_ite Host.Outcome.next _ _ _).symm

theorem exec_record_full (full : s1.hier.aggFull = true) : exec (.record p src [r]) s = .next s1 := by
  have command : exec (.record p src [r]) s = execRecord p src [r] s := rfl
  have waits : State.aggregate src (s1, none) r = (s1, none) := if_pos full
  rw [command, execRecord, unit]
  dsimp only
  rw [if_neg (by simp [leads]), List.foldl_cons, List.foldl_nil, waits]

end

theorem exec_aggHead {v : Nat} (follows : s.hier.activeLead = false) (up : s.barsUp = true) (admitted : s.refusal 0 0xC0040 4 true = none) :
    exec (.aggHead v) s = .next (s.modHier fun h => { h with aggHead := v % 2 ^ 20 }) := by
  have command : exec (.aggHead v) s = execAggHead v s := rfl
  rw [command, execAggHead, s.hostReg_admitted (State.aggHeadWrite v) up (by decide) admitted]
  exact congrArg Host.Outcome.next (if_pos (by simp [follows]))

theorem exec_recordAck {seq : Nat} (unit : s.takeUnit p 0x31 = some s1) :
    exec (.recordAck p seq) s = .next (s1.modHier fun h => { h with fwdSeq := Nat.max h.fwdSeq seq }).forwardRecords := by
  have command : exec (.recordAck p seq) s = execRecordAck p seq s := rfl
  rw [command, execRecordAck, unit]

end

/-- Settles O51: a change by its form and serial, a reconciliation, and a record's way up. -/
theorem hierarchyChangesAndRecords : Obligations.HierarchyChangesAndRecords :=
  ⟨fun _ _ _ _ => exec_change, fun _ _ => State.applyNext_outOfTurn, fun _ _ _ _ _ _ => exec_commit, fun _ _ _ _ _ => exec_changeAck,
    fun _ _ _ _ => exec_dkActivateIssue, fun _ _ _ _ _ => exec_syncReq, fun _ _ _ _ => exec_sync, fun k _ => State.issueChange_issues k,
    fun _ _ _ _ _ => exec_record_aggregates, fun _ _ _ _ _ => exec_record_full, fun _ _ => exec_aggHead, fun _ _ _ _ => exec_recordAck⟩

end Sys2Proof.Machine
end

section
/-! PROOFS of the family 'other': the hierarchy's packet commands (O52). -/

namespace Sys2Proof.Machine

section
variable {c : Caller} {p : Packet} {again : Bool} {t : State}

/-- A role set on a device that leads nothing, with every port disabled, where no holder falls to a plain member. -/
theorem fabRoleSetRun_sets (disabled : t.ports.any (·.en) = false) (range : t.roleRange p (t.roleReq p) = false) (follows : t.hier.activeLead = false)
    (keeps : t.hier.holder = false ∨ (t.roleReq p).holder ≠ 0 ∨ (t.roleReq p).role = 3) :
    fabRoleSetRun c p again t = .done .done 0 [] 0 ((t.setRole (t.roleReq p)).modHier fun x =>
      { x with level1 := (t.roleReq p).level1, remoteTimeoutMs := (t.roleReq p).timeout }) := by
  have stays : ¬ (t.hier.holder && (t.roleReq p).holder == 0 && (t.roleReq p).role != 3) = true := by
    rcases keeps with h | h | h <;> simp [h]
  unfold fabRoleSetRun
  dsimp only
  rw [if_neg (by simp [disabled]), if_neg (by simp [range]), if_neg (by simp [follows]), if_neg stays]

/-! ### The domain key -/

section
variable (none : t.keys.dks = []) (domain : p.str dkCreateFlds 0 = t.hier.domainId)

include none domain

/-- A domain key of a domain that has none is decided by its draw. -/
theorem dkCreateRun_draws : dkCreateRun c p again t = match t.cmdDraw c 32 true 0 with
    | .inr r => r
    | .inl (dk, u) => u.issueFor (.dkNew dk u.hier.domainId) [] 0 := by
  unfold dkCreateRun
  rw [if_neg (by simp [none, domain])] <;> rfl

theorem dkCreateRun_waits (seeded : (t.gen 0).st = .seeded ∨ (t.gen 0).st = .stretched) (unserved : t.rng.served.find? (·.1 == c) = Option.none)
    (room : (t.gen 0).waiting.length < Config.waitList) : dkCreateRun c p again t =
      .hold .draw [] 0 (t.modGen 0 fun g => { g with prPending := true, waiting := g.waiting ++ [.cmd c 32 true] }) := by
  rw [dkCreateRun_draws none domain, State.cmdDraw_resistant _ _ _ _ seeded unserved room]

theorem dkCreateRun_issues {dk : Bytes} {u : State} (drawn : t.cmdDraw c 32 true 0 = .inl (dk, u)) :
    dkCreateRun c p again t = .hold (.change u.hier.nextSerial) [] 0 (u.issueChange (.dkNew dk u.hier.domainId)) := by
  rw [dkCreateRun_draws none domain, drawn]
  rfl

end

section
variable (last : t.dkVersion ≠ 255) (first : t.dkVersion ≠ 0) (idle : t.rolling = false)

include last first idle

/-- A rollover of a domain key, with none under way, is decided by its draw. -/
theorem dkRolloverRun_draws : dkRolloverRun c p again t = match t.cmdDraw c 32 true 0 with
    | .inr r => r
    | .inl (dk, u) => (u.modHier fun h => { h with activateAfterS := p.int rolloverFlds 0, stageWaitS := p.int rolloverFlds 1 }).issueFor
        (.dkStage (t.dkVersion + 1) dk) (leBytes 1 (t.dkVersion + 1)) 0 := by
  unfold dkRolloverRun
  dsimp only
  rw [if_neg last, if_neg (by simp [idle]), if_neg first] <;> rfl

theorem dkRolloverRun_waits (seeded : (t.gen 0).st = .seeded ∨ (t.gen 0).st = .stretched) (unserved : t.rng.served.find? (·.1 == c) = none)
    (room : (t.gen 0).waiting.length < Config.waitList) : dkRolloverRun c p again t =
      .hold .draw [] 0 (t.modGen 0 fun g => { g with prPending := true, waiting := g.waiting ++ [.cmd c 32 true] }) := by
  rw [dkRolloverRun_draws last first idle, State.cmdDraw_resistant _ _ _ _ seeded unserved room]

theorem dkRolloverRun_issues {dk : Bytes} {u : State} (drawn : t.cmdDraw c 32 true 0 = .inl (dk, u)) : dkRolloverRun c p again t =
    .hold (.change u.hier.nextSerial) (leBytes 1 (t.dkVersion + 1)) 0
      ((u.modHier fun h => { h with activateAfterS := p.int rolloverFlds 0, stageWaitS := p.int rolloverFlds 1 }).issueChange
        (.dkStage (t.dkVersion + 1) dk)) := by
  rw [dkRolloverRun_draws last first idle, drawn]
  rfl

end

theorem dkStatusRun_one {e : DkEntry} (one : t.keys.dks = [e]) : dkStatusRun c p again t = .done .done 0
    (layBytes ([(.int 1, leBytes 1 e.version), (.int 1, leBytes 1 e.state), (.int 1, leBytes 1 e.lc), (.str 16, e.domainId), (.int 8, leBytes 8 e.createdSeq)] ++
      (List.replicate 3 [(.int 1, [0]), (.int 1, [0]), (.int 1, [0]), (.str 16, zeros 16), (.int 8, zeros 8)]).flatten ++
      [(.int 1, leBytes 1 ((t.keys.staged.map Prod.fst).getD 0)), (.int 2, leBytes 2 t.stagedAcks), (.int 2, leBytes 2 t.reachable)])) 0 t := by
  unfold dkStatusRun
  dsimp only
  rw [one]
  rfl

end

/-- FAB_STATUS reads the hierarchy's registers and the ports. -/
theorem fabStatusRun_reads (c : Caller) (p : Packet) (again : Bool) (t : State) : fabStatusRun c p again t = .done .done 0
    (layBytes (t.hierRegs ++ t.ports.flatMap fun x => [(.int 1, leBytes 1 x.st.code), (.int 2, leBytes 2 x.peerDev)])) 0 t := rfl

section
variable {c : Caller} {j : Job} {p : Packet} {s t u : State} {dk : Bytes}

/-- A resumed DK_CREATE whose draw is served issues the domain's change. -/
theorem dkCreate_resumed (resumes : Resumes c dkCreateCmd j s p t) (none : t.keys.dks = []) (domain : p.str dkCreateFlds 0 = t.hier.domainId)
    (drawn : t.cmdDraw j.caller 32 true 0 = .inl (dk, u)) : exec (.commandReply c) s =
      .next (runningOn j (.change u.hier.nextSerial) j.reply s (u.issueChange (.dkNew dk u.hier.domainId))) := by
  have row : commandRow dkCreateCmd.op = some (dkCreateCmd, inTurn 0x702 dkCreateCmd.obj dkCreateRun) := rfl
  have ran : inTurn 0x702 dkCreateCmd.obj dkCreateRun j.caller p true t =
      .hold (.change u.hier.nextSerial) [] 0 (u.issueChange (.dkNew dk u.hier.domainId)) := by
    rw [inTurn, Bool.not_true, Bool.false_and, if_neg (by simp)]
    exact dkCreateRun_issues none domain drawn
  refine (State.commandReply_runs resumes row ran).trans ?_
  rw [List.isEmpty_nil, if_pos rfl]

/-- A resumed DK_ROLLOVER whose draw is served stages the next version. -/
theorem dkRollover_resumed (resumes : Resumes c dkRolloverCmd j s p t) (last : t.dkVersion ≠ 255) (first : t.dkVersion ≠ 0) (idle : t.rolling = false)
    (drawn : t.cmdDraw j.caller 32 true 0 = .inl (dk, u)) : exec (.commandReply c) s =
      .next (runningOn j (.change u.hier.nextSerial) (leBytes 1 (t.dkVersion + 1)) s
        ((u.modHier fun h => { h with activateAfterS := p.int rolloverFlds 0, stageWaitS := p.int rolloverFlds 1 }).issueChange
          (.dkStage (t.dkVersion + 1) dk))) := by
  have row : commandRow dkRolloverCmd.op = some (dkRolloverCmd, dkRolloverRun) := rfl
  have replies (n : Nat) : (leBytes 1 n).isEmpty = false := rfl
  refine (State.commandReply_runs resumes row (dkRolloverRun_issues last first idle drawn)).trans ?_
  rw [replies, if_neg Bool.false_ne_true]

end

/-- Settles O52: each command's run; a domain key waits for its draw, and its reply waits for the change. -/
theorem hierarchyPacketCommands : Obligations.HierarchyPacketCommands :=
  ⟨fun c _ p t ready => congrArg Host.Outcome.next (ready.command_answered (fabStatusRun_reads c p false t)),
    fun _ _ _ _ ready disabled range follows keeps =>
      congrArg Host.Outcome.next (ready.command_answered (fabRoleSetRun_sets disabled range follows keeps)),
    fun _ _ _ _ ready free none domain seeded unserved room => congrArg Host.Outcome.next
      (ready.command_running ((inTurn_free free false).trans (dkCreateRun_waits none domain seeded unserved room))),
    fun _ _ _ _ _ _ _ resumes none domain drawn => dkCreate_resumed resumes none domain drawn,
    fun _ _ _ _ ready last first idle seeded unserved room => congrArg Host.Outcome.next
      (ready.command_running (dkRolloverRun_waits last first idle seeded unserved room)),
    fun _ _ _ _ _ _ _ resumes last first idle drawn => dkRollover_resumed resumes last first idle drawn,
    fun _ _ _ _ _ ready one => congrArg Host.Outcome.next (ready.command_answered (dkStatusRun_one one))⟩

end Sys2Proof.Machine
end
